-- ==== Sys2Proof/Syntax.lean ====
section
/-!
DEFINITION. The instruction set as data: the element types, the formats of the IOPs, the guest words of J32 and J16, and
the steps of the machine, one constructor of `Instr` for each row of spec/opcode_table.json.
-/

namespace Sys2Proof

/-- Element types and their codes 0 to 15, in the order of R58 (02_encodings.md). `.b32` and `.b64` are z32 and z64. -/
inductive ElemType where
  | f64 | f32 | bf16 | f16 | e4m3 | e5m2 | e2m1 | cb4
  | s8 | s16 | s32 | s64 | z8 | z16 | z32 | z64
deriving DecidableEq, Repr

/-- Scopes and their codes 0 to 5 (R6, R58). -/
inductive Scope where
  | core | quad | clus | die | pkg | pod
deriving DecidableEq, Repr

/-- The guard field: GI and GP (R52). GP = 15 with GI = 0 means unguarded. -/
structure Guard where
  inv  : Bool := false
  pred : BitVec 4 := 15
deriving DecidableEq, Repr

/-- Format R (R52, R57). `km` is the part of KMASK that belongs to the slot, D in bit 3 to C in bit 0 (R100): a set bit
makes that field name k0-k7; it is 0 in a J64 word (R66). -/
structure RForm where
  g  : Guard := {}
  u  : Bool := false
  d  : BitVec 8 := 0
  a  : BitVec 8 := 0
  b  : BitVec 8 := 0
  c  : BitVec 8 := 0
  h  : BitVec 2 := 0
  m  : BitVec 3 := 0
  t  : ElemType := .f64
  bs : Bool := false
  cs : Bool := false
  ci : Bool := false
  q  : BitVec 3 := 0
  e  : Bool := true
  km : BitVec 4 := 0
deriving DecidableEq, Repr

/-- Format I (R59). -/
structure IForm where
  g   : Guard := {}
  u   : Bool := false
  d   : BitVec 8 := 0
  a   : BitVec 8 := 0
  imm : BitVec 24 := 0
  t   : ElemType := .f64
  q   : BitVec 3 := 0
  e   : Bool := true
  km  : BitVec 4 := 0
deriving DecidableEq, Repr

/-- Format M (R60). -/
structure MForm where
  g   : Guard := {}
  u   : Bool := false
  d   : BitVec 8 := 0
  a   : BitVec 8 := 0
  b   : BitVec 8 := 0
  ofs : BitVec 12 := 0
  sc  : BitVec 3 := 0
  qa  : BitVec 2 := 0
  t   : ElemType := .f64
  iv  : Bool := false
  qb  : Bool := false
  e   : Bool := true
  km  : BitVec 4 := 0
deriving DecidableEq, Repr

/-- Format B (R61). -/
structure BForm where
  g   : Guard := {}
  u   : Bool := false
  d   : BitVec 8 := 0
  a   : BitVec 8 := 0
  ofs : BitVec 24 := 0
  q   : BitVec 7 := 0
  e   : Bool := true
  km  : BitVec 4 := 0
deriving DecidableEq, Repr

/-- Format A (R62). -/
structure AForm where
  g   : Guard := {}
  u   : Bool := false
  d   : BitVec 8 := 0
  a   : BitVec 8 := 0
  b   : BitVec 8 := 0
  c   : BitVec 8 := 0
  sfs : BitVec 2 := 0
  m   : BitVec 3 := 0
  t   : ElemType := .f64
  q   : BitVec 6 := 0
  e   : Bool := true
  km  : BitVec 4 := 0
deriving DecidableEq, Repr

/-- Format S (R63). -/
structure SForm where
  g   : Guard := {}
  u   : Bool := false
  d   : BitVec 8 := 0
  a   : BitVec 8 := 0
  sel : BitVec 16 := 0
  e   : Bool := true
  km  : BitVec 4 := 0
deriving DecidableEq, Repr

/-- A word that its tables decode as an emulation word (R99, R118): the class, the values of EF0 to EF7, the word, its
length in bits and the personality. -/
structure EmuWord where
  eclass : BitVec 4
  ef     : List (BitVec 64)
  word   : BitVec 64
  bits   : Nat
  pid    : BitVec 4
deriving DecidableEq, Repr

/-- Fault codes with a name of their own (R410, 14_system.md). -/
inductive FaultCode where
  | pfault | prot | align | illop | illpriv | regbound | winovf | emul | tshape | fmtblk | accbound | nsbound | tbstate
  | peergone | nopair | xmatch | nocpyright | nodebad | qfull | uistate | hostlost | poison | trapi | breakpoint | barscope
  | overfill | overarr | ctxfault | keyfail | staleimg | trapnest
deriving DecidableEq, Repr

/-- The function of the package that a host reaches: the PF of a logical device 0-15, or a VF 0-255 (R456, R464). -/
inductive Func where
  | pf (ld : Nat)
  | vf (n : Nat)
deriving DecidableEq, Repr

/-- A request of the service mailbox (R469): the caller, its sequence number, the index of its slot, ARG0 to ARG5, and
whether the bytes 10 to 15 are zero. -/
structure SvcReq where
  caller : Func
  seq    : BitVec 64
  index  : Nat
  a0     : BitVec 64 := 0
  a1     : BitVec 64 := 0
  a2     : BitVec 64 := 0
  a3     : BitVec 64 := 0
  a4     : BitVec 64 := 0
  a5     : BitVec 64 := 0
  clean  : Bool := true
deriving DecidableEq, Repr

/-- A barrier (R310): its scope, number and domain. `owner` is the workgroup handle for .core, .quad and .clus and the grid
for the wider scopes; `part` is the core or quad number, or the die. -/
structure BarrierKey where
  scope : Scope
  n     : Nat
  owner : Nat
  part  : Nat
deriving DecidableEq, Repr

/-- The three event rings of a VF (R467). -/
inductive RingKind where
  | pageRequest | trap | scan
deriving DecidableEq, Repr

/-- Where an uncorrectable error is found: the rows of R292 (08_memory.md). -/
inductive ErrorSite where
  | cleanRegisterLine (w : Nat)
  | dirtyRegisterLine (w : Nat)
  | nearStore (wg : Nat)
  | accumulators (w : Nat)
  | cleanCacheLine (addr : Nat)
  | dirtyL1Line (core addr : Nat)
  | dirtyLlcOrDram (addr : Nat)
deriving DecidableEq, Repr

/-- A read or a write made by an agent outside the package (R262, R290, R457). -/
inductive OuterAccess where
  | read (bytes : Nat)
  | write (data : List (BitVec 8))
deriving DecidableEq, Repr

/-- What a peer package asks of this one: an access at its DRAM (R262), or a send of a context of the peer (R391, R396): the VF, the target
address space, the vector and the payload. -/
inductive PeerOp where
  | access (acc : OuterAccess)
  | send (vf target v : Nat) (pay : BitVec 64)
deriving DecidableEq, Repr

/-- A register of a function's pages, by its offset (R464, R466). -/
structure PageRegister where
  func : Func
  ofs  : Nat
deriving DecidableEq, Repr

/-- Requests of the TDISP state machine (R435). -/
inductive TdispOp where
  | lock | start | stop | fail
deriving DecidableEq, Repr

/-- SPDM requests the manual names (R463). -/
inductive SpdmOp where
  | getMeasurements (index : Nat)
  | establish
deriving DecidableEq, Repr

/-- What boot is given from outside the package (R461, R462): which cores pass self-test, the image in flash, the fused key
digest and minimum SVN of each die, the address at which the firmware's body stands, and what firmware then sets up: the pages that it
exposes to hosts are runs of a logical device, a first page and a count (R290). -/
structure BootInput where
  selfTest   : List Bool
  image      : List (BitVec 8)
  keyDigest  : List (BitVec 256)
  minSvn     : List (BitVec 32)
  loadAddr   : Nat
  tvec       : BitVec 52
  grace      : BitVec 64
  packageNo  : BitVec 9
  routes     : List (BitVec 36)
  partitions : List (BitVec 4)
  exposed    : List (Nat × Nat × Nat) := []
deriving DecidableEq, Repr


/-- The part's instructions and steps: one constructor for each row of spec/opcode_table.json.
An IOP carries its fields (R52-R63, 02_encodings.md); a row of J32 or J16 carries the fields of its guest word
(R77, R81); a step of the machine (95_what_each_step_holds.md) carries what names the object it acts on. -/
inductive Instr where
  /-- J32_IADDI (R124): J32 add of a signed 10-bit immediate. -/
  | j32Iaddi (g : BitVec 4) (d a : BitVec 6) (imm : BitVec 10)
  /-- J32_ANDI (R124): J32 AND with an unsigned immediate. -/
  | j32Andi (g : BitVec 4) (d a : BitVec 6) (imm : BitVec 10)
  /-- J32_ORI (R124): J32 OR with an unsigned immediate. -/
  | j32Ori (g : BitVec 4) (d a : BitVec 6) (imm : BitVec 10)
  /-- J32_XORI (R124): J32 XOR with an unsigned immediate. -/
  | j32Xori (g : BitVec 4) (d a : BitVec 6) (imm : BitVec 10)
  /-- J32_SHL_I (R124): J32 shift left by an immediate count. -/
  | j32ShlI (g : BitVec 4) (d a n : BitVec 6)
  /-- J32_SHR_I (R124): J32 logical shift right by an immediate count. -/
  | j32ShrI (g : BitVec 4) (d a n : BitVec 6)
  /-- J32_SAR_I (R124): J32 arithmetic shift right by an immediate count. -/
  | j32SarI (g : BitVec 4) (d a n : BitVec 6)
  /-- J32_ROT_I (R124): J32 rotate by an immediate count. -/
  | j32RotI (g : BitVec 4) (d a n : BitVec 6)
  /-- J32_ICMPI (R124): J32 compare with an immediate to a predicate. -/
  | j32Icmpi (g : BitVec 4) (cc p : BitVec 3) (a : BitVec 6) (imm : BitVec 10)
  /-- J32_MOVI (R124): J32 move of a 16-bit immediate. -/
  | j32Movi (g : BitVec 4) (d : BitVec 6) (imm : BitVec 16)
  /-- J32_MOVHI (R124): J32 write of the high 16 bits. -/
  | j32Movhi (g : BitVec 4) (d : BitVec 6) (imm : BitVec 16)
  /-- J32_FFMA (R124): J32 FP32 fused multiply-add into D. -/
  | j32Ffma (g : BitVec 4) (d a b : BitVec 6) (m : BitVec 3)
  /-- J32_FFMA64 (R124): J32 FP64 fused multiply-add into D. -/
  | j32Ffma64 (g : BitVec 4) (d a b : BitVec 6) (m : BitVec 3)
  /-- J32_LD (R124): J32 load with base and offset. -/
  | j32Ld (g : BitVec 4) (d : BitVec 6) (base : BitVec 5) (size : BitVec 2) (ofs : BitVec 9)
  /-- J32_ST (R124): J32 store with base and offset. -/
  | j32St (g : BitVec 4) (d : BitVec 6) (base : BitVec 5) (size : BitVec 2) (ofs : BitVec 9)
  /-- J32_LDX (R124): J32 indexed load. -/
  | j32Ldx (g : BitVec 4) (d : BitVec 6) (base : BitVec 5) (idx : BitVec 6) (size : BitVec 2) (ofs : BitVec 3)
  /-- J32_STX (R124): J32 indexed store. -/
  | j32Stx (g : BitVec 4) (d : BitVec 6) (base : BitVec 5) (idx : BitVec 6) (size : BitVec 2) (ofs : BitVec 3)
  /-- J32_LDU (R124): J32 uniform load. -/
  | j32Ldu (g : BitVec 4) (d : BitVec 6) (base : BitVec 5) (size : BitVec 2) (ofs : BitVec 9)
  /-- J32_STU (R124): J32 uniform store. -/
  | j32Stu (g : BitVec 4) (d : BitVec 6) (base : BitVec 5) (size : BitVec 2) (ofs : BitVec 9)
  /-- J32_NLD (R124): J32 near-store load. -/
  | j32Nld (g : BitVec 4) (d : BitVec 6) (base : BitVec 5) (size : BitVec 2) (ofs : BitVec 9)
  /-- J32_NST (R124): J32 near-store store. -/
  | j32Nst (g : BitVec 4) (d : BitVec 6) (base : BitVec 5) (size : BitVec 2) (ofs : BitVec 9)
  /-- J32_BRA (R124): J32 PC-relative branch. -/
  | j32Bra (g : BitVec 4) (ofs : BitVec 22)
  /-- J32_CALL (R124): J32 call with slide and frame. -/
  | j32Call (g : BitVec 4) (slide frame : BitVec 4) (ofs : BitVec 14)
  /-- J32_NOP (R124): J32 no operation. -/
  | j32Nop (g : BitVec 4)
  /-- J32_RET (R124): J32 return. -/
  | j32Ret (g : BitVec 4)
  /-- J32_EXIT (R124): J32 exit. -/
  | j32Exit (g : BitVec 4)
  /-- J32_YIELD (R124): J32 yield. -/
  | j32Yield (g : BitVec 4)
  /-- J32_BRX (R124): J32 register-indirect branch through a pair. -/
  | j32Brx (g : BitVec 4) (a : BitVec 6)
  /-- J32_LOOP (R124): J32 loop back-edge. -/
  | j32Loop (g : BitVec 4) (ofs : BitVec 22)
  /-- J32_ATOM (R124): J32 atomic add at .pod. -/
  | j32Atom (g : BitVec 4) (d : BitVec 6) (base : BitVec 5) (size : BitVec 2) (ofs : BitVec 9)
  /-- J32_EMU (R124): J32 emulation word of class c. -/
  | j32Emu (c : BitVec 4) (pay : BitVec 22)
  /-- J32_HEADER (R80): J32 clause header expanding to an IOP clause header. -/
  | j32Header (glen : BitVec 5) (waits : BitVec 12) (sf1 sf2 : BitVec 4) (rlx : Bool)
  /-- J16_FADD (R126): J16 FP32 add. -/
  | j16Fadd (d a b : BitVec 4)
  /-- J16_FMUL (R126): J16 FP32 multiply. -/
  | j16Fmul (d a b : BitVec 4)
  /-- J16_FFMA (R126): J16 FP32 fused multiply-add into D. -/
  | j16Ffma (d a b : BitVec 4)
  /-- J16_IADD (R126): J16 integer add. -/
  | j16Iadd (d a b : BitVec 4)
  /-- J16_ISUB (R126): J16 integer subtract. -/
  | j16Isub (d a b : BitVec 4)
  /-- J16_MOV (R126): J16 register move. -/
  | j16Mov (d a : BitVec 4)
  /-- J16_AND (R126): J16 d := d AND a. -/
  | j16And (d a : BitVec 4)
  /-- J16_OR (R126): J16 d := d OR a. -/
  | j16Or (d a : BitVec 4)
  /-- J16_XOR (R126): J16 d := d XOR a. -/
  | j16Xor (d a : BitVec 4)
  /-- J16_SHL (R126): J16 d := d shifted left by a. -/
  | j16Shl (d a : BitVec 4)
  /-- J16_SHR (R126): J16 d := d logically shifted right by a. -/
  | j16Shr (d a : BitVec 4)
  /-- J16_SAR (R126): J16 d := d arithmetically shifted right by a. -/
  | j16Sar (d a : BitVec 4)
  /-- J16_IMUL (R126): J16 d := d times a. -/
  | j16Imul (d a : BitVec 4)
  /-- J16_FSUB (R126): J16 d := d minus a in FP32. -/
  | j16Fsub (d a : BitVec 4)
  /-- J16_FMIN (R126): J16 FP32 minimum into d. -/
  | j16Fmin (d a : BitVec 4)
  /-- J16_FMAX (R126): J16 FP32 maximum into d. -/
  | j16Fmax (d a : BitVec 4)
  /-- J16_INEG (R126): J16 integer negate. -/
  | j16Ineg (d a : BitVec 4)
  /-- J16_CVT_F32_S32 (R126): J16 convert integer to FP32. -/
  | j16CvtF32S32 (d a : BitVec 4)
  /-- J16_CVT_S32_F32 (R126): J16 convert FP32 to integer toward zero. -/
  | j16CvtS32F32 (d a : BitVec 4)
  /-- J16_MOVI (R126): J16 move of a signed 8-bit immediate. -/
  | j16Movi (d : BitVec 4) (imm : BitVec 8)
  /-- J16_LD (R126): J16 load with base and offset. -/
  | j16Ld (d base ofs : BitVec 4)
  /-- J16_ST (R126): J16 store with base and offset. -/
  | j16St (d base ofs : BitVec 4)
  /-- J16_LDX (R126): J16 indexed load. -/
  | j16Ldx (d base idx : BitVec 4)
  /-- J16_STX (R126): J16 indexed store. -/
  | j16Stx (d base idx : BitVec 4)
  /-- J16_BRA (R126): J16 PC-relative branch. -/
  | j16Bra (ofs : BitVec 12)
  /-- J16_BRP (R126): J16 branch on p0, optionally inverted. -/
  | j16Brp (inv : Bool) (ofs : BitVec 11)
  /-- J16_ICMP (R126): J16 integer compare into p0. -/
  | j16Icmp (a b cc : BitVec 4)
  /-- J16_NOP (R126): J16 no operation. -/
  | j16Nop
  /-- J16_RET (R126): J16 return. -/
  | j16Ret
  /-- J16_EXIT (R126): J16 exit. -/
  | j16Exit
  /-- J16_BAR (R126): J16 barrier 0 at a scope. -/
  | j16Bar (scope : BitVec 3)
  /-- J16_YIELD (R126): J16 yield. -/
  | j16Yield
  /-- J16_EMU (R126): J16 emulation word of class 0. -/
  | j16Emu (pay : BitVec 8)
  /-- NOP (R163): No operation. -/
  | nop (x : RForm)
  /-- BRA (R156): Branches transferring lanes to a PC-relative target. -/
  | bra (x : BForm)
  /-- BRX (R159): Branches each lane to a register-held target. -/
  | brx (x : BForm)
  /-- CALL (R160): Calls a PC-relative target with a slide and new frame, writing link records. -/
  | call (x : BForm)
  /-- CALLX (R160): Calls a register-held target with a slide and frame. -/
  | callx (x : BForm)
  /-- RET (R161): Returns transferring lanes through their link records. -/
  | ret (x : BForm)
  /-- EXIT (R162): Removes active lanes from the warp for good. -/
  | exit (x : RForm)
  /-- YIELD (R163): Ranks the path's next clause below pairs runnable now. -/
  | yield (x : RForm)
  /-- JOIN (R158): Transfers lanes to a target, resets ITER and parks them. -/
  | join (x : BForm)
  /-- LOOP (R157): Backward branch whose fall-through lanes reset ITER and park. -/
  | loop (x : BForm)
  /-- BRAU (R156): Branches the whole path if any or all lanes pass the guard. -/
  | brau (x : BForm)
  /-- WAITF (R163): Holds the path's next clause until named flags clear. -/
  | waitf (x : RForm)
  /-- PCOMB (R164): Votes a predicate over the path's active lanes. -/
  | pcomb (x : RForm)
  /-- PAND (R165): Predicate AND with optional inversion. -/
  | pand (x : RForm)
  /-- POR (R165): Predicate OR with optional inversion. -/
  | por (x : RForm)
  /-- PXOR (R165): Predicate XOR with optional inversion. -/
  | pxor (x : RForm)
  /-- PNOT (R165): Predicate NOT. -/
  | pnot (x : RForm)
  /-- PLOP3 (R165): Three-input predicate lookup. -/
  | plop3 (x : RForm)
  /-- PMASK (R165): Moves predicates to or from a uniform mask. -/
  | pmask (x : RForm)
  /-- PSET (R165): Sets a predicate from a vector's zero test. -/
  | pset (x : RForm)
  /-- PSEL (R165): Selects between two predicates. -/
  | psel (x : RForm)
  /-- IADD (R176): Integer add, optionally saturating. -/
  | iadd (x : RForm)
  /-- ISUB (R176): Integer subtract, optionally saturating. -/
  | isub (x : RForm)
  /-- ISUM (R176): Three-operand integer sum. -/
  | isum (x : RForm)
  /-- ICADD (R177): Add or subtract with a carry predicate. -/
  | icadd (x : RForm)
  /-- INEG (R176): Integer negate. -/
  | ineg (x : RForm)
  /-- IABS (R176): Integer absolute value. -/
  | iabs (x : RForm)
  /-- IMIN (R176): Integer minimum. -/
  | imin (x : RForm)
  /-- IMAX (R176): Integer maximum. -/
  | imax (x : RForm)
  /-- IMUL (R178): Integer multiply, low word. -/
  | imul (x : RForm)
  /-- IMULHI (R178): Integer multiply, high word. -/
  | imulhi (x : RForm)
  /-- IMAD (R178): Integer multiply-add. -/
  | imad (x : RForm)
  /-- IMADW (R178): Widening 32x32+64 multiply-add. -/
  | imadw (x : RForm)
  /-- SAD (R178): Sum of absolute difference. -/
  | sad (x : RForm)
  /-- IDOT4 (R178): Four-way byte dot product with accumulate. -/
  | idot4 (x : RForm)
  /-- ICMP (R179): Integer compare to a predicate. -/
  | icmp (x : RForm)
  /-- SEL (R179): Selects a value by predicate. -/
  | sel (x : RForm)
  /-- AND (R180): Bitwise AND. -/
  | and (x : RForm)
  /-- OR (R180): Bitwise OR. -/
  | or (x : RForm)
  /-- XOR (R180): Bitwise XOR. -/
  | xor (x : RForm)
  /-- LOP3 (R180): Three-input bitwise lookup. -/
  | lop3 (x : RForm)
  /-- SHL (R181): Shift left. -/
  | shl (x : RForm)
  /-- SHR (R181): Logical shift right. -/
  | shr (x : RForm)
  /-- SAR (R181): Arithmetic shift right. -/
  | sar (x : RForm)
  /-- ROT (R181): Rotate left. -/
  | rot (x : RForm)
  /-- FSHF (R181): Funnel shift of two words. -/
  | fshf (x : RForm)
  /-- BFE (R182): Bit-field extract. -/
  | bfe (x : RForm)
  /-- BFI (R182): Bit-field insert. -/
  | bfi (x : RForm)
  /-- BREV (R183): Bit reverse. -/
  | brev (x : RForm)
  /-- POPC (R183): Population count. -/
  | popc (x : RForm)
  /-- CLZ (R183): Count leading zeros. -/
  | clz (x : RForm)
  /-- CTZ (R183): Count trailing zeros. -/
  | ctz (x : RForm)
  /-- MOV (R183): Register move, or uniform broadcast with .u. -/
  | mov (x : RForm)
  /-- MOVI (R184): Writes an immediate or a 16-bit chunk of one. -/
  | movi (x : IForm)
  /-- LEA (R185): Computes a scaled 64-bit address. -/
  | lea (x : RForm)
  /-- LXCH (R188): Reads a value from another lane of the path. -/
  | lxch (x : RForm)
  /-- PERM (R189): Byte permute within a lane. -/
  | perm (x : RForm)
  /-- BCAST (R190): Broadcasts one lane's value. -/
  | bcast (x : RForm)
  /-- WRED (R191): Reduces over active lanes to a uniform. -/
  | wred (x : RForm)
  /-- WSCAN (R192): Prefix scan over active lanes. -/
  | wscan (x : RForm)
  /-- MATCH (R193): Mask of lanes holding equal values. -/
  | matchLanes (x : RForm)
  /-- FADD (R207): Floating-point add. -/
  | fadd (x : RForm)
  /-- FSUB (R207): Floating-point subtract. -/
  | fsub (x : RForm)
  /-- FMUL (R207): Floating-point multiply. -/
  | fmul (x : RForm)
  /-- FFMA (R207): Fused multiply-add. -/
  | ffma (x : RForm)
  /-- FMIN (R207): minimumNumber. -/
  | fmin (x : RForm)
  /-- FMAX (R207): maximumNumber. -/
  | fmax (x : RForm)
  /-- FCMP (R208): Floating-point compare to a predicate. -/
  | fcmp (x : RForm)
  /-- FCLASS (R208): Classifies a floating-point value. -/
  | fclass (x : RForm)
  /-- FRND (R209): Rounds to an integral value. -/
  | frnd (x : RForm)
  /-- FLDEXP (R209): Scales by a power of two. -/
  | fldexp (x : RForm)
  /-- FGETEXP (R209): Extracts the exponent. -/
  | fgetexp (x : RForm)
  /-- FDIVS (R207): Correctly rounded division. -/
  | fdivs (x : RForm)
  /-- FRCP (R210): Reciprocal. -/
  | frcp (x : RForm)
  /-- FRSQ (R210): Reciprocal square root. -/
  | frsq (x : RForm)
  /-- FSQRT (R210): Square root. -/
  | fsqrt (x : RForm)
  /-- FEXP2 (R210): Base-2 exponential. -/
  | fexp2 (x : RForm)
  /-- FLOG2 (R210): Base-2 logarithm. -/
  | flog2 (x : RForm)
  /-- FSIN (R210): Sine of half-turns. -/
  | fsin (x : RForm)
  /-- FCOS (R210): Cosine of half-turns. -/
  | fcos (x : RForm)
  /-- FTANH (R210): Hyperbolic tangent. -/
  | ftanh (x : RForm)
  /-- HADD2 (R211): Packed 16-bit add. -/
  | hadd2 (x : RForm)
  /-- HMUL2 (R211): Packed 16-bit multiply. -/
  | hmul2 (x : RForm)
  /-- HFMA2 (R211): Packed 16-bit fused multiply-add. -/
  | hfma2 (x : RForm)
  /-- HMIN2 (R211): Packed 16-bit minimum. -/
  | hmin2 (x : RForm)
  /-- HMAX2 (R211): Packed 16-bit maximum. -/
  | hmax2 (x : RForm)
  /-- HDOT2 (R211): Packed 16-bit dot product into FP32. -/
  | hdot2 (x : RForm)
  /-- CVT (R213): Converts between formats. -/
  | cvt (x : RForm)
  /-- CVTI (R214): Scaled float-integer conversion. -/
  | cvti (x : RForm)
  /-- CVTF (R216): Unpacks narrow elements into FP32. -/
  | cvtf (x : RForm)
  /-- CVTP (R215): Packs two FP32 values into narrow elements. -/
  | cvtp (x : RForm)
  /-- QNT (R221): Block-quantises one element per lane. -/
  | qnt (x : RForm)
  /-- QNTH (R221): Hadamard-transforms then block-quantises. -/
  | qnth (x : RForm)
  /-- DQNT (R223): Dequantises to FP32. -/
  | dqnt (x : RForm)
  /-- QSCALE (R222): Quantises with given block scales. -/
  | qscale (x : RForm)
  /-- HADT (R220): Walsh-Hadamard transform across lanes. -/
  | hadt (x : RForm)
  /-- CBLD (R224): Looks up two CB4 codes in a codebook. -/
  | cbld (x : RForm)
  /-- MMA (R242): Queues a matrix multiply-accumulate. -/
  | mma (x : AForm)
  /-- MFENCE (R247): Closes a batch, optionally with barrier arrival and cartouche. -/
  | mfence (x : RForm)
  /-- MWAIT (R249): Waits for a batch and returns its status. -/
  | mwait (x : RForm)
  /-- MZERO (R244): Zeroes accumulator rows. -/
  | mzero (x : RForm)
  /-- MLDA (R245): Loads a box into accumulator rows. -/
  | mlda (x : AForm)
  /-- MSTA (R245): Stores accumulator rows to a box. -/
  | msta (x : AForm)
  /-- MROW (R244): Reads eight accumulator elements into vectors. -/
  | mrow (x : RForm)
  /-- MSETR (R244): Writes eight vector values into an accumulator. -/
  | msetr (x : RForm)
  /-- MCVT (R246): Scales and rounds accumulator elements. -/
  | mcvt (x : RForm)
  /-- MPTB (R254): Builds a product table as part of the batch. -/
  | mptb (x : AForm)
  /-- MFMT (R253): Fills or invalidates format-block cache entries. -/
  | mfmt (x : AForm)
  /-- TLD (R233): Loads and checks a tensor shape record. -/
  | tld (x : MForm)
  /-- TST (R233): Stores a tensor shape record. -/
  | tst (x : MForm)
  /-- TMOD (R233): Copies a shape record and moves its origin. -/
  | tmod (x : RForm)
  /-- LD (R281): Weak load on GEN. -/
  | ld (x : MForm)
  /-- ST (R281): Weak store on GEN. -/
  | st (x : MForm)
  /-- LDV (R281): Loads 4 or 8 consecutive words. -/
  | ldv (x : MForm)
  /-- STV (R281): Stores 4 or 8 consecutive words. -/
  | stv (x : MForm)
  /-- LDP (R283): Loads predicates from a word. -/
  | ldp (x : MForm)
  /-- STP (R283): Stores predicates as a word. -/
  | stp (x : MForm)
  /-- LDU (R283): Uniform load. -/
  | ldu (x : MForm)
  /-- STU (R283): Uniform store. -/
  | stu (x : MForm)
  /-- GATH (R279): Progressive gather. -/
  | gath (x : MForm)
  /-- SCAT (R279): Progressive scatter. -/
  | scat (x : MForm)
  /-- LDNF (R282): Non-faulting load setting a success predicate. -/
  | ldnf (x : MForm)
  /-- NLD (R288): Near-store load with full/empty qualifiers. -/
  | nld (x : MForm)
  /-- NST (R288): Near-store store with full/empty qualifiers. -/
  | nst (x : MForm)
  /-- NLDU (R288): Uniform near-store load. -/
  | nldu (x : MForm)
  /-- NSTU (R288): Uniform near-store store. -/
  | nstu (x : MForm)
  /-- NSETF (R288): Sets a granule's full/empty bit. -/
  | nsetf (x : MForm)
  /-- CLD (R284): Load through the constant cache. -/
  | cld (x : MForm)
  /-- CLDU (R284): Uniform load through the constant cache. -/
  | cldu (x : MForm)
  /-- SMPL (R285): Linear interpolation of two elements on CON. -/
  | smpl (x : MForm)
  /-- PREF (R286): Prefetches lines. -/
  | pref (x : MForm)
  /-- PREFU (R286): Prefetches one line by uniform address. -/
  | prefu (x : MForm)
  /-- CWB (R286): Writes back, optionally invalidating, LLC lines. -/
  | cwb (x : MForm)
  /-- CINV (R286): Invalidates clean L1 or constant-cache lines. -/
  | cinv (x : RForm)
  /-- PHASE (R300): Phase boundary: publishes and refreshes at a scope. -/
  | phase (x : RForm)
  /-- FENCE (R302): Acquire, release or sequentially consistent fence. -/
  | fence (x : RForm)
  /-- XFENCE (R304): Orders one access path's writes before another's reads. -/
  | xfence (x : RForm)
  /-- FWAIT (R303): Waits until published and strong writes have performed. -/
  | fwait (x : RForm)
  /-- LDS (R309): Strong load. -/
  | lds (x : MForm)
  /-- STS (R309): Strong store. -/
  | sts (x : MForm)
  /-- ATOM (R308): Per-lane atomic returning the old value. -/
  | atom (x : MForm)
  /-- ATOMU (R308): Uniform atomic. -/
  | atomu (x : MForm)
  /-- CAS (R308): Compare and swap. -/
  | cas (x : MForm)
  /-- RED (R308): Atomic reduction without return. -/
  | red (x : MForm)
  /-- BAR (R311): Arrives at a barrier and waits for the phase. -/
  | bar (x : RForm)
  /-- BARA (R311): Arrives at a barrier without waiting. -/
  | bara (x : RForm)
  /-- BARW (R311): Waits for a barrier phase count. -/
  | barw (x : RForm)
  /-- TBINIT (R314): Initialises or invalidates a transaction barrier. -/
  | tbinit (x : RForm)
  /-- TBEXP (R315): Adds expected bytes, optionally arriving. -/
  | tbexp (x : RForm)
  /-- TBARR (R316): Arrives at a transaction barrier. -/
  | tbarr (x : RForm)
  /-- TBWAIT (R317): Waits for a transaction-barrier phase. -/
  | tbwait (x : RForm)
  /-- TBQ (R317): Queries a transaction-barrier phase. -/
  | tbq (x : RForm)
  /-- CPY (R324): Queues a linear copy. -/
  | cpy (x : AForm)
  /-- CPYO (R325): Queues a per-lane chunk gather. -/
  | cpyo (x : AForm)
  /-- CPYT (R326): Queues a box copy to or from packed rows. -/
  | cpyt (x : AForm)
  /-- CPYQ (R327): Queues a quantising box copy. -/
  | cpyq (x : AForm)
  /-- CPYMC (R328): Queues a multicast copy to core views. -/
  | cpymc (x : AForm)
  /-- CPYS (R333): Returns streamer status. -/
  | cpys (x : RForm)
  /-- CPYC (R333): Cancels unstarted copies of the warp. -/
  | cpyc (x : RForm)
  /-- CPYW (R333): Waits for the warp's copies and returns the first fault. -/
  | cpyw (x : RForm)
  /-- RLD (R352): Reads another warp's vector slot. -/
  | rld (x : RForm)
  /-- RLDU (R352): Reads another warp's uniform. -/
  | rldu (x : RForm)
  /-- XSHUF (R356): Swaps vector registers with a paired warp. -/
  | xshuf (x : RForm)
  /-- XPAIR (R355): Pairs with or unpairs from another workgroup. -/
  | xpair (x : RForm)
  /-- CTXQ (R358): Queries context information. -/
  | ctxq (x : RForm)
  /-- SLEEP (R359): Sleeps until wake, time-out or interrupt. -/
  | sleep (x : RForm)
  /-- WAKE (R360): Wakes a warp's sleeping paths or sets WAKEP. -/
  | wake (x : RForm)
  /-- HOTSET (R361): Changes the declared hot set. -/
  | hotset (x : RForm)
  /-- PINSTALL (R128): Checks and installs a personality image. -/
  | pinstall (x : RForm)
  /-- PBIND (R130): Sets the emulation binding of a personality. -/
  | pbind (x : RForm)
  /-- EMRET (R131): Ends emulation state and resumes. -/
  | emret (x : RForm)
  /-- PQUERY (R132): Returns personality information. -/
  | pquery (x : RForm)
  /-- PEVICT (R129): Evicts a personality number. -/
  | pevict (x : RForm)
  /-- GZINV (R133): Invalidates Gazetteer entries package-wide. -/
  | gzinv (x : RForm)
  /-- NPUSH (R382): Pushes records into a node queue. -/
  | npush (x : RForm)
  /-- NFLUSH (R383): Forms node warps from all queued records. -/
  | nflush (x : RForm)
  /-- NQRY (R385): Queries a node queue's occupancy. -/
  | nqry (x : RForm)
  /-- NRECV (R385): Returns a node warp's formation word. -/
  | nrecv (x : RForm)
  /-- NLAUNCH (R373): Submits a launch packet from a kernel. -/
  | nlaunch (x : RForm)
  /-- NLWAIT (R374): Waits for or polls a child grid. -/
  | nlwait (x : RForm)
  /-- SYSCALL (R378): Posts a host call, blocking or non-blocking. -/
  | syscall (x : RForm)
  /-- SYSRD (R379): Reads a host call reply. -/
  | sysrd (x : RForm)
  /-- SYSCAN (R379): Cancels a posted host call. -/
  | syscan (x : RForm)
  /-- UISEND (R396): Sends a user interrupt. -/
  | uisend (x : RForm)
  /-- UIREG (R395): Registers the warp as a vector's handler. -/
  | uireg (x : RForm)
  /-- UIUNREG (R395): Unregisters a vector. -/
  | uiunreg (x : RForm)
  /-- UIMASK_OP (R405): Reads and changes the interrupt mask. -/
  | uimaskOp (x : RForm)
  /-- UIWAIT (R406): Waits for an interrupt. -/
  | uiwait (x : RForm)
  /-- UIEND (R402): Returns from an interrupt frame. -/
  | uiend (x : RForm)
  /-- UIACK (R404): Acknowledges the interrupt frame. -/
  | uiack (x : RForm)
  /-- UIPOLL (R407): Polls or takes a pending vector. -/
  | uipoll (x : RForm)
  /-- MFSR (R418): Reads a special register. -/
  | mfsr (x : SForm)
  /-- MTSR (R418): Writes a special register. -/
  | mtsr (x : SForm)
  /-- TRAP (R419): Faults with TRAPI. -/
  | trap (x : RForm)
  /-- TRET (R420): Leaves privileged mode by resume, skip or hold. -/
  | tret (x : RForm)
  /-- PLD (R421): Privileged physical load. -/
  | pld (x : MForm)
  /-- PST (R421): Privileged physical store. -/
  | pst (x : MForm)
  /-- TLBINV (R422): Invalidates translations package-wide. -/
  | tlbinv (x : RForm)
  /-- ATQ (R423): Walks a translation and returns the result. -/
  | atq (x : RForm)
  /-- CTXSV (R430): Pre-empts a workgroup into an image. -/
  | ctxsv (x : RForm)
  /-- CTXRS (R434): Checks and restores a pre-empted image. -/
  | ctxrs (x : RForm)
  /-- KEYSLOT (R429): Generates, clears, reads or binds a key slot. -/
  | keyslot (x : RForm)
  /-- SCANRQ (R424): Queues a page scan. -/
  | scanrq (x : RForm)
  /-- HALT (R426): Halts named paths of a warp. -/
  | halt (x : RForm)
  /-- RESUME (R426): Clears halts and stops of named paths. -/
  | resume (x : RForm)
  /-- LANESEL (R425): Reads or writes a trapped warp's vector slot. -/
  | lanesel (x : RForm)
  /-- IPIFW (R428): Posts 16 bytes to the firmware core's mailbox. -/
  | ipifw (x : RForm)
  /-- WGKILL (R427): Kills a workgroup. -/
  | wgkill (x : RForm)
  /-- QKILL (R427): Destroys a queue. -/
  | qkill (x : RForm)
  /-- BKPT (R451): Faults with BREAK or stops the path. -/
  | bkpt (x : RForm)
  /-- STAMP (R451): Returns CLOCK and writes a STAMP record. -/
  | stamp (x : RForm)
  /-- BEARQ (R451): Returns or clears the path's bearing. -/
  | bearq (x : RForm)
  /-- PROGQ (R451): Returns a warp's progress counter. -/
  | progq (x : RForm)
  /-- TRCON (R452): Enables a core's trace ring. -/
  | trcon (x : RForm)
  /-- TRCOFF (R452): Disables a core's trace ring. -/
  | trcoff (x : RForm)
  /-- TRCSEL (R452): Writes a debug comparator. -/
  | trcsel (x : RForm)
  /-- CLAUSE_START (R143): A half's scheduler starts a runnable (path, clause) pair whose slices are free, consuming its clause header. -/
  | clauseStart (w p : Nat)
  /-- PATH_URGENT (R144): A runnable path's count of clauses started past it reaches 64, and the path becomes urgent. -/
  | pathUrgent (w p : Nat)
  /-- PARK_RELEASE_TIMEOUT (R141): A parked path is released 1,024 cycles after it parked. -/
  | parkReleaseTimeout (w p : Nat)
  /-- GAZETTEER_FILL (R47): A Gazetteer miss fill finishes decoding a 64-byte guest line and the waiting paths become runnable. -/
  | gazetteerFill (k : Nat)
  /-- EMULATION_TRAP (R118): A path reaching an emulation word enters emulation state and jumps to the bound handler for its class. -/
  | emulationTrap (e : EmuWord)
  /-- REGISTER_CACHE_MISS (R347): An IOP reads a non-resident slot, stalling its path and starting a refill from the context record. -/
  | registerCacheMiss (w p : Nat)
  /-- REFILL_ARRIVE (R152): A refilled slot arrives in the register cache and the stalled IOP may proceed. -/
  | refillArrive (w slot : Nat)
  /-- FOEHN_SPILL_COMPLETE (R151): A Foehn spill write completes on the CTX path. -/
  | foehnSpillComplete (w slot : Nat)
  /-- CTXFAULT_RETRY (R153): After the supervisor resolves a context fault, Foehn retries the access and the warp becomes activatable. -/
  | ctxfaultRetry (w : Nat)
  /-- ACTIVATION (R345): The activation unit places the first-ranked activatable dormant warp on a half and reads its record. -/
  | activation (cluster : Nat)
  /-- ACTIVATION_COMPLETE (R345): The activation reads finish and the warp's paths may compete for issue. -/
  | activationComplete (w : Nat)
  /-- EVICTION_START (R343): The activation unit chooses a victim warp to evict so that a candidate fits. -/
  | evictionStart (cluster : Nat)
  /-- EVICTION_COMMIT (R344): After the drain and record writes, the header write is accepted and the warp becomes dormant. -/
  | evictionCommit (w : Nat)
  /-- WARP_RELEASE (R162): Once the last lane has exited and flags, stores, engine ops and copies are done, the warp releases its resources. -/
  | warpRelease (w : Nat)
  /-- MEMORY_READ_RETURN (R299): A load's data returns from the level that serves it and its destination becomes readable. -/
  | memoryReadReturn (rid : Nat)
  /-- WRITE_PERFORM (R297): A write reaches its point of coherence and enters the location's coherence order. -/
  | writePerform (wid : Nat)
  /-- WALK_COMPLETE (R273): A page-table walk finishes and yields a translation or a failure. -/
  | walkComplete (k : Nat)
  /-- PRQRSP_SUCCESS (R277): A SUCCESS reply written to PRQRSP frees the entry and makes waiting accesses retry. -/
  | prqrspSuccess (vf rid : Nat)
  /-- PRQRSP_INVALID (R277): An INVALID reply written to PRQRSP frees the entry and makes each waiting instruction fault with PFAULT. -/
  | prqrspInvalid (vf rid : Nat)
  /-- PROGRESSIVE_REPLAY (R481): A progressive instruction runs again for its remaining elements once its last awaited request is answered. -/
  | progressiveReplay (w p : Nat)
  /-- NEARSTORE_GRANULE_STEP (R288): A waiting near-store qualifier takes its step when the granule reaches the state it needs. -/
  | nearstoreGranuleStep (w p granule : Nat)
  /-- EXEC_PAGE_STORE (R111): A held store to an executable page performs after X is cleared and TLB and Gazetteer entries are invalidated. -/
  | execPageStore (wid : Nat)
  /-- BARRIER_PHASE_COMPLETE (R311): Every participant has arrived and the barrier completes its phase, releasing waiters with a refresh. -/
  | barrierPhaseComplete (key : BarrierKey)
  /-- TB_CREDIT (R315): A copy or batch credit reaches the transaction-barrier root and subtracts its bytes from TXP. -/
  | tbCredit (k : Nat)
  /-- COPY_START (R335): The streamer starts a queued copy at its workgroup's turn. -/
  | copyStart (cluster : Nat)
  /-- COPY_CHUNK (R319): The streamer moves one 512-byte chunk of a copy. -/
  | copyChunk (id : Nat)
  /-- COPY_COMPLETE (R329): All writes of a copy have performed; its flag clears and its credit is sent. -/
  | copyComplete (id : Nat)
  /-- TILE_FETCH_ARRIVE (R234): An operand line requested by the tile fetch unit arrives and is pinned. -/
  | tileFetchArrive (op line : Nat)
  /-- ENGINE_OP_COMPLETE (R243): A queued matrix-engine operation finishes its compute or stores and completes. -/
  | engineOpComplete (core : Nat)
  /-- UI_SEND_ARRIVE (R397): A send reaches the port's engine, is checked and combined into the handler warp's state. -/
  | uiSendArrive (k : Nat)
  /-- UI_DELIVERY (R399): A deliverable vector redirects an eligible path of the handler warp into an interrupt frame. -/
  | uiDelivery (w : Nat)
  /-- SLEEP_TIMEOUT (R359): A sleeping path's time-out expires and SLEEP completes with 1. -/
  | sleepTimeout (w p : Nat)
  /-- UIWAIT_TIMEOUT (R406): A UIWAIT's time-out expires and it completes with 1. -/
  | uiwaitTimeout (w p : Nat)
  /-- NODE_WARP_FORM_COUNT (R383): A node queue reaches 32 records and a node warp forms with the 32 oldest. -/
  | nodeWarpFormCount (q : Nat)
  /-- NODE_TIMER (R383): A node queue's gather timer lapses and a node warp forms with every queued record up to 32. -/
  | nodeTimer (q : Nat)
  /-- NODE_PART_RETRY (R384): Node-part units free on a die and a waiting node-warp formation is tried again. -/
  | nodePartRetry (q : Nat)
  /-- KICK (R465): A write to KICK advances a live queue's TAIL if it neither moves backwards nor overruns the ring. -/
  | kick (f : Func) (value : BitVec 64)
  /-- DISPATCH_PACKET (R365): The dispatcher reads the next ring entry and packet and hands the packet to every die. -/
  | dispatchPacket (qid : Nat)
  /-- WORKGROUP_PLACE (R367): A die places a workgroup once its context slot and a cluster with free near store are available. -/
  | workgroupPlace (grid die : Nat)
  /-- GRID_COMPLETE (R370): A grid's workgroups and node records are done and die e_0 writes the completion record. -/
  | gridComplete (grid : Nat)
  /-- LAUNCH_DATAGRAM (R376): A UDP launch datagram is checked against the tenant table and copied into a landing slot. -/
  | launchDatagram (src : BitVec 128) (payload : List (BitVec 8))
  /-- CALL_DOORBELL (R378): A CALLDB write makes the device read the call slot and complete the waiting host call. -/
  | callDoorbell (f : Func) (value : BitVec 64)
  /-- TRAP_ENTRY (R411): After the warp's running clauses end, the trap lane enters single-lane privileged mode at TVEC. -/
  | trapEntry (w : Nat)
  /-- TRAPNEST (R414): A fault inside privileged mode on a work core ends the mode and holds the warp with NEST set. -/
  | trapnest (w : Nat) (code : FaultCode) (info : BitVec 64)
  /-- TRAPRSP_RETRY (R420): TRAPRSP with RESP 0 resumes a held warp at TPC. -/
  | traprspRetry (vf slot : Nat)
  /-- TRAPRSP_SKIP (R420): TRAPRSP with RESP 1 resumes a held warp after the faulting instruction. -/
  | traprspSkip (vf slot : Nat)
  /-- TRAPRSP_KILL (R420): TRAPRSP with RESP 2 kills the held warp's workgroup. -/
  | traprspKill (vf slot : Nat)
  /-- RING_REPORT_POST (R468): A waiting trap, Isobar or scan report is posted once its ring has room. -/
  | ringReportPost (vf : Nat) (ring : RingKind)
  /-- TRAPCI (R468): A write of the trap-ring consumer count frees slots for waiting reports. -/
  | trapci (f : Func) (ci : BitVec 32)
  /-- SCANCI (R468): A write of the scan-ring consumer count frees slots for waiting reports. -/
  | scanci (f : Func) (ci : BitVec 32)
  /-- SCAN_COMPLETE (R108): The die's scanner finishes checking a page, setting SV or clearing X, and posts its report. -/
  | scanComplete (die : Nat)
  /-- UNCORRECTABLE_ERROR (R292): An uncorrectable ECC error is handled by refetch, poisoning or killing the owning workgroup. -/
  | uncorrectableError (site : ErrorSite)
  /-- ISOBAR_SAMPLE (R454): Firmware samples the die's warps every I cycles and reports any new knot. -/
  | isobarSample (die : Nat)
  /-- COMPARATOR_MATCH (R449): A debug comparator matches a path at a guest boundary and traps or stops it. -/
  | comparatorMatch (w p k : Nat)
  /-- TRACE_SAMPLE (R446): Every 2^(SPER+8) cycles a SAMPLE trace record is written per half. -/
  | traceSample (core : Nat)
  /-- RATE_LIMITER_REFILL (R439): A VF's rate-limiter bucket gains RATE lines each 1,024 cycles. -/
  | rateLimiterRefill (cluster vf : Nat)
  /-- FIRMWARE_FAILOVER (R440): Die 0's firmware core misses heartbeats or stops and die 1 replays the log and takes over services. -/
  | firmwareFailover
  /-- HOST_WARM_RESTART (R437): A reset or link loss of a host discards its pending accesses, revokes its pages and pre-empts its workgroups. -/
  | hostWarmRestart (ld : Nat)
  /-- GRACE_EXPIRY (R437): GRACE milliseconds after a host warm restart, held images are destroyed and their key slots cleared. -/
  | graceExpiry (ld : Nat)
  /-- PACKAGE_RESET (R462): Package reset starts boot: self-test, image copy, checks, measurement and firmware set-up. -/
  | packageReset (b : BootInput)
  /-- POWER_LIMIT_STEP (R460): Measured power above PWRCAP.LIMIT lowers, or headroom raises, the arithmetic clock by 100 MHz. -/
  | powerLimitStep (watts : Nat)
  /-- PWRCAP_WRITE (R466): A write to PWRCAP.LIMIT from logical device 0 stores the limit clamped to 1,200-2,800 W. -/
  | pwrcapWrite (ld : Nat) (limit : BitVec 16)
  /-- UIREFUSE_READ (R464): A host's read of a register of a function's pages, by its offset (R464, R466); a read of UIREFUSE returns the
  refused-write count and clears it. -/
  | uirefuseRead (r : PageRegister)
  /-- TDROP_READ (R466): A read of a tenant's TDROP returns its dropped-datagram count and clears it. -/
  | tdropRead (ld tenant : Nat)
  /-- UISENDR (R396): A host write to UISENDR sends a payload to a vector under the same checks as UISEND. -/
  | uisendr (f : Func) (pasid : Option (BitVec 20)) (value : BitVec 128)
  /-- FLIPREQ_TO_HOST (R291): FLIPREQ with DIR 0 starts a flip of a page from device to host ownership. -/
  | flipreqToHost (ld page : Nat)
  /-- FLIPREQ_TO_DEVICE (R291): FLIPREQ with DIR 1 starts a flip of a page from host to device ownership. -/
  | flipreqToDevice (ld page : Nat)
  /-- FLIP_COMPLETE (R291): After drain and write-back the new owner is recorded and the flip acknowledged. -/
  | flipComplete (ld : Nat)
  /-- HOST_SNOOP (R262): A host snoop invalidates a host line held in remote-line ways. -/
  | hostSnoop (ld addr : Nat) (data : List (BitVec 8))
  /-- HOST_CXL_MEM_ACCESS (R290): A host CXL.mem access to a device-owned page is served coherently with back-invalidate snoops. -/
  | hostCxlMemAccess (ld addr : Nat) (acc : OuterAccess)
  /-- RDMA_ACCESS (R457): An RDMA access translates under the queue pair's VF and is answered with data or a NAK. -/
  | rdmaAccess (qp vf asid va : Nat) (acc : OuterAccess)
  /-- LINK_LANE_LOSS (R458): A Caryel port losing lanes drops to half rate or goes down. -/
  | linkLaneLoss (port lanes : Nat)
  /-- FLIT_RETRY (R458): A Caryel flit whose CRC fails is retried. -/
  | flitRetry (port : Nat)
  /-- REGISTER_WRITE (R464): A write to a management register without a row of its own stores the value under the width rules. -/
  | registerWrite (f : Func) (ofs bytes : Nat) (value : BitVec 64)
  /-- QCREATE (R470): Service 0x01 creates a live queue record. -/
  | qcreate (r : SvcReq)
  /-- QDESTROY (R372): Service 0x02 destroys a queue, stopping new launches and truncating its packets. -/
  | qdestroy (r : SvcReq)
  /-- PORTCREATE (R470): Service 0x03 creates an address space's interrupt port. -/
  | portcreate (r : SvcReq)
  /-- PORTDESTROY (R470): Service 0x04 destroys an interrupt port and discards held payloads. -/
  | portdestroy (r : SvcReq)
  /-- PERMWRITE (R470): Service 0x05 replaces a sender permission entry. -/
  | permwrite (r : SvcReq)
  /-- TENANTWRITE (R470): Service 0x06 replaces a tenant-table entry, keeping LASTSEQ. -/
  | tenantwrite (r : SvcReq)
  /-- RINGCFG (R467): Service 0x07 sets or removes an event ring's base, size and vector. -/
  | ringcfg (r : SvcReq)
  /-- ASIDSET (R470): Service 0x08 sets or retires an ASID's stage-1 root and invalidates its translations. -/
  | asidset (r : SvcReq)
  /-- S2SET (R470): Service 0x09 sets a VF's stage-2 root and enable. -/
  | s2set (r : SvcReq)
  /-- VFASSIGN (R470): Service 0x0A binds a VF to a logical device. -/
  | vfassign (r : SvcReq)
  /-- RATESET (R470): Service 0x0B writes a cluster's rate limiter for a VF. -/
  | rateset (r : SvcReq)
  /-- KEYOP (R470): Service 0x0C performs a key-slot generate, clear or bind. -/
  | keyop (r : SvcReq)
  /-- PREEMPT (R470): Service 0x0D pre-empts a workgroup into an image as CTXSV does. -/
  | preempt (r : SvcReq)
  /-- RESTORE (R470): Service 0x0E restores an image as CTXRS does. -/
  | restore (r : SvcReq)
  /-- HELDRESTORE (R437): Service 0x0F restores the held images of a restarted host. -/
  | heldrestore (r : SvcReq)
  /-- SVC_WGKILL (R470): Service 0x10 kills a workgroup, optionally without relaunch. -/
  | svcWgkill (r : SvcReq)
  /-- ISOBARI (R454): Service 0x11 sets the Isobar sampling interval. -/
  | isobari (r : SvcReq)
  /-- GRACESET (R470): Service 0x12 writes GRACE. -/
  | graceset (r : SvcReq)
  /-- PARTSET (R470): Service 0x13 sets a cluster's partition id. -/
  | partset (r : SvcReq)
  /-- PARTRESET (R438): Service 0x14 resets a partition: kill, purge, write back, invalidate and zero. -/
  | partreset (r : SvcReq)
  /-- TRACE (R470): Service 0x15 performs TRCON, TRCOFF or TRCSEL on the host's behalf. -/
  | svcTrace (r : SvcReq)
  /-- FWUPDATE (R470): Service 0xF0 checks a new firmware image for the next package reset. -/
  | fwupdate (r : SvcReq)
  /-- CTXSV_SAVE (R430): After its drains, CTXSV evicts, seals and writes the image. -/
  | ctxsvSave (wg : Nat)
  /-- TDISP_REQUEST (R435): A TDISP request over an SPDM secured session moves an interface between CONFIG_UNLOCKED, CONFIG_LOCKED, RUN and ERROR, measuring its configuration on lock and stopping it on stop. -/
  | tdispRequest (ifc : Func) (op : TdispOp)
  /-- MSIX_TABLE_WRITE (R435): An MMIO write to a locked MSI-X entry is dropped and moves the interface to ERROR. -/
  | msixTableWrite (ifc : Func) (vec : Nat) (value : BitVec 128)
  /-- SPDM_REQUEST (R463): An SPDM 1.3 request, such as GET_MEASUREMENTS, is answered with Falcon-1024 signed responses reporting the boot, firmware, SVN and personality measurements. -/
  | spdmRequest (ld : Nat) (op : SpdmOp)
  /-- PEER_REQUEST (R262): A read or write from a peer package arrives over the Caryel links and performs at this package's DRAM or LLC, at the
  address `at_`; or a send of its address space `at_` arrives (R396). -/
  | peerRequest (pkg at_ : Nat) (op : PeerOp)
  /-- REMOTE_LINE_WAYS_SET (R29): Firmware sets a slice's near-store and remote-line way reservations, refusing a setting above 12 ways and keeping the previous one. -/
  | remoteLineWaysSet (die stop near remote : Nat)
deriving DecidableEq, Repr

end Sys2Proof
end

