-- ==== Sys2Proof/Config.lean ====
section
/-!
DEFINITION. What the manual leaves open, as constants with no value: each is applied to the counter `State.fresh`, so every use
gives a value of its own, or to the operands it depends on. No proof can see what they are.
-/

namespace Sys2Proof.Config

/-- How far the cycle counter moves beyond one in a step: time is not modelled (notes/assumptions/1.md). -/
opaque stepCycles : Nat → Nat

/-- Which of the steps that a state enables comes next, as a number of their list (notes/assumptions/2.md). -/
opaque schedule : Nat → Nat

/-- Which of the writes that R299 allows a weak read returns, as a number of the allowed list (09_ordering.md). -/
opaque readChoice : Nat → Nat

/-- Which line of a full cache leaves it (R258, R259, R281): a number of the list of its lines (notes/assumptions/58.md). -/
opaque victim : Nat → Nat

/-- The key that the hardware random source gives KEYSLOT.gen (R429, 14_system.md). -/
opaque randomKey : Nat → BitVec 256

/-- The plane count less one that PQUERY shows for the J32 and J16 images, which the manual does not count (R132). -/
opaque planeCount : Nat → BitVec 10

/-- The template count that PQUERY shows for the J32 and J16 images (R132). -/
opaque templateCount : Nat → BitVec 11

/-- Whether a Falcon-1024 signature over these bytes verifies under the key with this digest (R462). -/
opaque falconVerifies : List (BitVec 8) → BitVec 256 → Bool

/-- A Falcon-1024 signature over these bytes (R463). -/
opaque falconSign : List (BitVec 8) → List (BitVec 8)

/-- The bearing of a group that holds both lanes that transferred and lanes that stayed, which R442 does not state. -/
opaque mixedBearing : Nat → BitVec 64

/-- Whether the debug network cannot take a trace record (R444). -/
opaque traceDrop : Nat → Bool

/-- The IOP count of a CLAUSE record whose clause does not say it at its start (R446). -/
opaque clauseIops : Nat → BitVec 16

/-- TIN0 and TIN1 of a cartouche whose batch has fetched nothing (R252). -/
opaque noFetchTime : Nat → BitVec 64

/-- A trap selector read by a lane whose target has no trap, such as a firmware core's (R415, R420). -/
opaque noTrap : Nat → BitVec 64

/-- The bytes that TRET.skip passes over where no guest instruction can be fetched at TPC (R420). -/
opaque skipLength : Nat → Nat

/-- REASON of the report on a page that does not translate, which R108 does not state. -/
opaque scanReason : Nat → BitVec 8

/-- STATUS of the reply to a request whose service code names no service, which R469 does not state. -/
opaque unknownService : Nat → BitVec 8

/-- The status that a peer package gives to a send: one of the five of R396. -/
opaque peerStatus : Nat → Fin 5

/-- What a SHAKE256 measurement register holds after it has been extended with bytes: R462 does not state the construction. -/
opaque extendMeasure : List (BitVec 8) → List (BitVec 8) → List (BitVec 8)

/-- The measurement of the J32 and J16 images that firmware installs at boot (R462, R463). -/
opaque vendorDigest : Nat → List (BitVec 8)

end Sys2Proof.Config
end

