-- ==== Sys2Proof/Machine/Shape.lean ====
section
/-!
DEFINITION. What the encoding tables of the manual say of each IOP: the operand classes of its fields, the types, qualifiers and
roundings it allows. One table serves the legality rules (R11, R52-R74), the register bound of R148 and the interlocks of R39.
-/

namespace Sys2Proof

/-- The code of a type (R58). -/
def ElemType.code : ElemType → Nat
  | .f64 => 0 | .f32 => 1 | .bf16 => 2 | .f16 => 3 | .e4m3 => 4 | .e5m2 => 5 | .e2m1 => 6 | .cb4 => 7
  | .s8 => 8 | .s16 => 9 | .s32 => 10 | .s64 => 11 | .z8 => 12 | .z16 => 13 | .z32 => 14 | .z64 => 15

/-- The type of a code; only the low four bits count (R58). -/
def ElemType.ofCode (n : Nat) : ElemType :=
  match n % 16 with
  | 0 => .f64 | 1 => .f32 | 2 => .bf16 | 3 => .f16 | 4 => .e4m3 | 5 => .e5m2 | 6 => .e2m1 | 7 => .cb4
  | 8 => .s8 | 9 => .s16 | 10 => .s32 | 11 => .s64 | 12 => .z8 | 13 => .z16 | 14 => .z32 | _ => .z64

/-- The bytes of an element (R58); 0 for the half-byte types. -/
def ElemType.bytes : ElemType → Nat
  | .f64 | .s64 | .z64 => 8
  | .f32 | .s32 | .z32 => 4
  | .bf16 | .f16 | .s16 | .z16 => 2
  | .e4m3 | .e5m2 | .s8 | .z8 => 1
  | .e2m1 | .cb4 => 0

/-- The bits of an element (R58). -/
def ElemType.bits : ElemType → Nat
  | .e2m1 | .cb4 => 4
  | t => 8 * t.bytes

/-- The scope of a code (R58); codes 6 and 7 name none. -/
def Scope.ofCode : Nat → Option Scope
  | 0 => some .core | 1 => some .quad | 2 => some .clus | 3 => some .die | 4 => some .pkg | 5 => some .pod
  | _ => none

/-- The code of a scope (R58); a wider scope has the greater code. -/
def Scope.code : Scope → Nat
  | .core => 0 | .quad => 1 | .clus => 2 | .die => 3 | .pkg => 4 | .pod => 5

/-- An IOP's fields under their format (R56). -/
inductive Form where
  | r (x : RForm)
  | i (x : IForm)
  | m (x : MForm)
  | b (x : BForm)
  | a (x : AForm)
  | s (x : SForm)
deriving DecidableEq, Repr

/-- The guard of an IOP (R52). -/
def Form.g : Form → Guard
  | .r x => x.g | .i x => x.g | .m x => x.g | .b x => x.g | .a x => x.g | .s x => x.g

/-- The U bit of an IOP (R52). -/
def Form.u : Form → Bool
  | .r x => x.u | .i x => x.u | .m x => x.u | .b x => x.u | .a x => x.u | .s x => x.u

/-- The E bit of an IOP (R55). -/
def Form.e : Form → Bool
  | .r x => x.e | .i x => x.e | .m x => x.e | .b x => x.e | .a x => x.e | .s x => x.e

/-- The KMASK bits of an IOP (R100). -/
def Form.km : Form → BitVec 4
  | .r x => x.km | .i x => x.km | .m x => x.km | .b x => x.km | .a x => x.km | .s x => x.km

/-- The field D. -/
def Form.d : Form → BitVec 8
  | .r x => x.d | .i x => x.d | .m x => x.d | .b x => x.d | .a x => x.d | .s x => x.d

/-- The field A. -/
def Form.fa : Form → BitVec 8
  | .r x => x.a | .i x => x.a | .m x => x.a | .b x => x.a | .a x => x.a | .s x => x.a

/-- The field B; zero in the formats without one. -/
def Form.fb : Form → BitVec 8
  | .r x => x.b | .m x => x.b | .a x => x.b | .i _ | .b _ | .s _ => 0

/-- The field C; zero in the formats without one. -/
def Form.fc : Form → BitVec 8
  | .r x => x.c | .a x => x.c | .i _ | .m _ | .b _ | .s _ => 0

/-- The class of an operand field (R64). -/
inductive Opd where
  /-- the field is zero -/
  | no
  /-- `n` consecutive vector registers, the first a multiple of `al`: `.v 1 1` is a vector, `.v 2 2` a pair -/
  | v (n al : Nat)
  /-- `n` consecutive uniforms -/
  | u (n : Nat)
  | pred | tensor | acc | flag
  /-- an even accumulator (R228) -/
  | accEven
  /-- a literal in a range -/
  | imm (lo hi : Nat)
  /-- the base of a memory operand: A[7] = 1 for none, otherwise a uniform (R60) -/
  | base
deriving DecidableEq, Repr

/-- What the tables allow an IOP. -/
structure Shape where
  d    : Opd := .no
  a    : Opd := .no
  b    : Opd := .no
  c    : Opd := .no
  /-- D is read -/
  dr   : Bool := false
  /-- D is written -/
  dw   : Bool := false
  /-- C is written -/
  cw   : Bool := false
  /-- D may be written in some of the active lanes only -/
  part : Bool := false
  /-- a further predicate that it writes: P(N) of LDNF (R282) -/
  pn   : Option Nat := none
  bs   : Bool := false
  cs   : Bool := false
  ci   : Bool := false
  /-- M may name a rounding -/
  rnd  : Bool := false
  /-- H may hold source A (R54, R169) -/
  hold : Bool := false
  /-- U = 1 is legal (R74) -/
  uok  : Bool := false
deriving DecidableEq, Repr

/-- A vector for types of 32 bits or less, a pair for 64 bits (R171). -/
def Opd.vt (t : ElemType) : Opd := if t.bytes = 8 then .v 2 2 else .v 1 1

/-- Source B under R172: vector `o`, a uniform when BS = 1 and CI = 0, or the immediate in C when CI = 1, whatever BS holds, and `imm`
allows it. -/
def Shape.srcB (sh : Shape) (x : RForm) (o : Opd) (imm : Bool := false) : Option Shape :=
  if x.ci then (if imm then some { sh with c := .imm 0 255, ci := true, bs := x.bs } else none)
  else if x.bs then some { sh with b := .u 1, bs := true } else some { sh with b := o }

/-- Source C: vector `o`, a uniform when CS = 1, or the immediate in C when CI = 1 and `imm` allows it (R172). -/
def Shape.srcC (sh : Shape) (x : RForm) (o : Opd) (imm : Bool := false) : Option Shape :=
  if x.ci then (if imm then some { sh with c := .imm 0 255, ci := true } else none)
  else if x.cs then some { sh with c := .u 1, cs := true } else some { sh with c := o }

/-- `some sh` when the condition holds. -/
def Shape.when (c : Bool) (sh : Shape) : Option Shape := if c then some sh else none

/-- s32 z32 s64 z64. -/
def ElemType.isInt : ElemType → Bool
  | .s32 | .z32 | .s64 | .z64 => true
  | _ => false

/-- b32 b64, which encode as z32 and z64 (R58). -/
def ElemType.isBits : ElemType → Bool
  | .z32 | .z64 => true
  | _ => false

/-- s8 to s64. -/
def ElemType.signed : ElemType → Bool
  | .s8 | .s16 | .s32 | .s64 => true
  | _ => false

/-- Types with a floating-point format of their own (codes 0 to 6). -/
def ElemType.isFloat : ElemType → Bool
  | .f64 | .f32 | .bf16 | .f16 | .e4m3 | .e5m2 | .e2m1 => true
  | _ => false

/-- f64 f32. -/
def ElemType.isF (t : ElemType) : Bool := t == .f64 || t == .f32

/-- f16 bf16. -/
def ElemType.isH (t : ElemType) : Bool := t == .f16 || t == .bf16

/-- The four quantised formats (R206). -/
def ElemType.isQ : ElemType → Bool
  | .e4m3 | .e5m2 | .e2m1 | .cb4 => true
  | _ => false

/-- Types of a memory access: every code but 6 and 7 (R60). -/
def ElemType.isMem (t : ElemType) : Bool := t != .e2m1 && t != .cb4

/-- Types of CVT (R213). -/
def ElemType.isCvt : ElemType → Bool
  | .e4m3 | .e5m2 | .e2m1 | .cb4 => false
  | _ => true

/-- The CVT pairs that are legal (R213). -/
def cvtPair (td ts : ElemType) : Bool :=
  td.isCvt && ts.isCvt && (td.isFloat || ts.isFloat) && td != ts

/-- The CVTI pairs that are legal (R214). -/
def cvtiPair (td ts : ElemType) : Bool :=
  (td.isInt && ts.isF) || (td.isF && ts.isInt)

/-- The slots of CVTP and CVTF for a narrow type (R215, R216). -/
def packSlots : ElemType → Nat
  | .f16 | .bf16 => 1
  | .e4m3 | .e5m2 => 2
  | .e2m1 => 4
  | _ => 0

/-- The source type of a two-type form, carried in C[19:16] (R57). -/
def RForm.ts (x : RForm) : ElemType := ElemType.ofCode x.c.toNat

/-- Shapes of the control class in format R (R155). -/
def shapeCtl (opc : Nat) (x : RForm) : Option Shape :=
  let q := x.q.toNat
  let z := x.t == .f64
  match opc with
  | 0x001 | 0x007 | 0x008 => Shape.when (z && q == 0) {}
  | 0x00C => Shape.when (z && (q == 1 || q == 3 || q == 7))
      { a := .flag, b := if q / 2 % 2 = 1 then .flag else .no, c := if q / 4 % 2 = 1 then .flag else .no }
  | 0x00D => Shape.when (z && q ≤ 3) { d := if q = 3 then .u 1 else .pred, dw := true, a := .pred }
  | 0x00E | 0x00F | 0x010 => Shape.when (z && q ≤ 3) { d := .pred, dw := true, a := .pred, b := .pred, uok := true }
  | 0x011 => Shape.when (z && q == 0) { d := .pred, dw := true, a := .pred, uok := true }
  | 0x012 => Shape.when (z && q == 0)
      { d := .pred, dr := true, dw := true, a := .pred, b := .pred, c := .imm 0 255, ci := true, uok := true }
  | 0x013 => Shape.when (z && q ≤ 1)
      { d := if q = 0 then .u 1 else .pred, dw := true, a := if q = 0 then .pred else .u 1, uok := true }
  | 0x014 => Shape.when (z && q ≤ 1) { d := .pred, dw := true, a := .v 1 1, uok := true }
  | 0x015 => Shape.when (z && q == 0) { d := .pred, dw := true, a := .pred, b := .pred, c := .pred, uok := true }
  | _ => none

/-- Shapes of the integer, address and lane-exchange class in format R (R175). -/
def shapeInt (opc : Nat) (x : RForm) : Option Shape :=
  let q := x.q.toNat
  let vt := Opd.vt x.t
  let s : Shape := { d := vt, dw := true, a := vt, hold := true, uok := decide (opc < 0x062) }
  match opc with
  | 0x040 | 0x041 => if x.t.isInt && q ≤ 1 then s.srcB x vt true else none
  | 0x042 | 0x04A => if x.t.isInt && q == 0 then
      (if x.bs then some { s with b := .u 1, bs := true } else some { s with b := vt }).bind (·.srcC x vt true) else none
  | 0x043 => Shape.when (x.t.isBits && q ≤ 1)
      { s with b := if x.bs then .u 1 else vt, bs := x.bs, c := .pred, cw := true }
  | 0x044 | 0x045 => Shape.when (x.t.isInt && q ≤ 1) s
  | 0x046 | 0x047 | 0x048 | 0x049 => if x.t.isInt && q == 0 then s.srcB x vt true else none
  | 0x04B => if (x.t == .s64 || x.t == .z64) && q == 0 && !x.ci then
      ({ s with d := .v 2 2, a := .v 1 1, b := if x.bs then .u 1 else .v 1 1, bs := x.bs } : Shape).srcC x (.v 2 2)
      else none
  | 0x04C => if (x.t == .s32 || x.t == .z32) && q == 0 then
      ({ s with b := if x.bs then .u 1 else vt, bs := x.bs } : Shape).srcC x vt true else none
  | 0x04D => if x.t == .s32 && q ≤ 3 then
      ({ s with b := if x.bs then .u 1 else vt, bs := x.bs } : Shape).srcC x vt true else none
  | 0x04E => if x.t.isInt && q ≤ 5 then ({ s with d := .pred } : Shape).srcB x vt true else none
  | 0x04F => Shape.when (x.t.isBits && q == 0) { s with b := if x.bs then .u 1 else vt, bs := x.bs, c := .pred }
  | 0x050 | 0x051 | 0x052 | 0x054 | 0x055 | 0x056 | 0x057 => if x.t.isBits && q == 0 then s.srcB x vt true else none
  | 0x053 => Shape.when (x.t.isBits && q == 0)
      { s with dr := true, b := if x.bs then .u 1 else vt, bs := x.bs, c := .imm 0 255, ci := true }
  | 0x058 => if x.t.isBits && q ≤ 1 then
      ({ s with b := if x.bs then .u 1 else vt, bs := x.bs } : Shape).srcC x vt true else none
  | 0x059 => if x.t.isInt && q == 0 then s.srcB x vt else none
  | 0x05A => if x.t.isBits && q == 0 then ({ s with dr := true } : Shape).srcB x vt else none
  | 0x05B | 0x05C | 0x05D | 0x05E => Shape.when (x.t.isBits && q == 0) s
  | 0x05F => if q = 0 then Shape.when x.t.isBits s
      else Shape.when (x.t.isBits && q == 1 && !x.u) { s with a := .no, b := .u 1, bs := true, hold := false }
  | 0x061 => Shape.when (x.t == .s64 || x.t == .z64)
      { s with d := .v 2 2, a := .v 1 1, b := if x.bs then .u 1 else .v 2 2, bs := x.bs
               c := if x.ci then .imm 0 255 else .no, ci := x.ci }
  | 0x062 => if x.t.isBits && q ≤ 2 then s.srcB x vt true else none
  | 0x063 => Shape.when (x.t == .z32 && q == 0) { s with dr := true, b := if x.bs then .u 1 else vt, bs := x.bs }
  | 0x064 => Shape.when (x.t.isBits && q ≤ 1 && x.bs != x.ci)
      { s with d := if q = 1 then .u 1 else vt, b := if x.bs then .u 1 else .no, bs := x.bs
               c := if x.ci then .imm 0 31 else .no, ci := x.ci }
  | 0x065 => Shape.when (x.t.isInt && q ≤ 5) { s with d := .u 1 }
  | 0x066 => Shape.when x.t.isInt s
  | 0x067 => Shape.when (x.t.isBits && q == 0) { s with d := .v 1 1 }
  | _ => none

/-- The quantising forms share their operands (R206). -/
def shapeQuant (x : RForm) (s : Shape) : Option Shape :=
  Shape.when (x.t.isQ && x.q.toNat < (if x.t == .e4m3 || x.t == .e5m2 then 4 else 8))
    { s with d := .v 1 1, dw := true, a := .v 1 1, b := .u 1, bs := true
             c := if x.cs then .u 1 else .no, cs := x.cs, rnd := true, hold := true }

/-- Shapes of the floating-point, conversion and quantisation class (R206). -/
def shapeFlt (opc : Nat) (x : RForm) : Option Shape :=
  let q := x.q.toNat
  let vt := Opd.vt x.t
  let s : Shape := { d := vt, dw := true, a := vt, rnd := true, hold := true, uok := true }
  let h : Shape := { d := .v 1 1, dw := true, a := .v 1 1, rnd := true, hold := true }
  match opc with
  | 0x0C0 | 0x0C1 | 0x0C2 | 0x0CB => if x.t.isF && q == 0 then s.srcB x vt else none
  | 0x0C3 => if x.t.isF && q == 0 then (s.srcB x vt).bind (·.srcC x vt) else none
  | 0x0C4 | 0x0C5 => if x.t.isF && q == 0 then ({ s with rnd := false } : Shape).srcB x vt else none
  | 0x0C6 => if x.t.isF then ({ s with d := .pred, rnd := false } : Shape).srcB x vt else none
  | 0x0C7 | 0x0CA => Shape.when (x.t.isF && q == 0) { s with d := .v 1 1, rnd := false }
  | 0x0C8 | 0x0CC | 0x0CD | 0x0CE => Shape.when (x.t.isF && q == 0) s
  | 0x0C9 => if x.t.isF && q == 0 then s.srcB x vt true else none
  | 0x0CF | 0x0D0 | 0x0D1 | 0x0D2 | 0x0D3 => Shape.when (x.t == .f32 && q == 0) s
  | 0x0D4 | 0x0D5 => if x.t.isH && q == 0 then h.srcB x (.v 1 1) else none
  | 0x0D6 | 0x0D9 => if x.t.isH && q == 0 then (h.srcB x (.v 1 1)).bind (·.srcC x (.v 1 1)) else none
  | 0x0D7 | 0x0D8 => if x.t.isH && q == 0 then ({ h with rnd := false } : Shape).srcB x (.v 1 1) else none
  | 0x0DA => Shape.when (q == 0 && cvtPair x.t x.ts)
      { s with a := .vt x.ts, c := .imm 0 15 }
  | 0x0DB => Shape.when (q == 0 && cvtiPair x.t x.ts)
      { s with a := .vt x.ts, b := if x.bs then .u 1 else .v 1 1, bs := x.bs, c := .imm 0 15 }
  | 0x0DC => Shape.when (x.t == .f32 && q < packSlots x.ts)
      { s with d := .v 2 2, a := .v 1 1, c := .imm 0 15, rnd := false }
  | 0x0DD => Shape.when (x.ts == .f32 && q < packSlots x.t)
      { s with d := .v 1 1, dr := true, a := .v 1 1, b := if x.bs then .u 1 else .v 1 1, bs := x.bs, c := .imm 0 15 }
  | 0x0DE | 0x0DF => shapeQuant x { dr := true, cw := true }
  | 0x0E0 => shapeQuant x {}
  | 0x0E1 => shapeQuant x { dr := true }
  | 0x0E2 => Shape.when (x.t == .f32 && q ≤ 3) h
  | 0x0E3 => Shape.when (x.t == .bf16 && q ≤ 3) { h with b := .u 1, bs := true, rnd := false }
  | _ => none

/-- Shapes of the matrix class in format R (R240); R240 fixes no hold field, so R54 lets a form whose A names a register carry one. -/
def shapeMat (opc : Nat) (x : RForm) : Option Shape :=
  let q := x.q.toNat
  let z := x.t == .f64
  match opc with
  | 0x141 => Shape.when (z && q ≤ 3)
      { d := .u 1, dw := true, hold := true, a := if q % 2 = 1 then .u 1 else .no
        c := if q / 2 = 1 then .u 1 else .no, cs := decide (q / 2 = 1) }
  | 0x142 => Shape.when (z && q ≤ 1) { d := .u 1, dw := true, hold := true, a := if q = 0 then .u 1 else .no }
  | 0x143 => Shape.when (z && q == 0) { d := .acc, dw := true }
  | 0x146 => Shape.when (z && q == 0) { d := .v 8 1, dw := true, hold := true, a := .acc, c := .imm 0 15, ci := true }
  | 0x147 => Shape.when (z && q == 0) { d := .acc, dw := true, hold := true, a := .v 8 1, c := .imm 0 15, ci := true }
  | 0x148 => Shape.when (q == 0 && (x.t == .f32 || x.t == .bf16 || x.t == .f16 || x.t == .e4m3 || x.t == .e5m2 || x.t == .e2m1))
      { d := .acc, dw := true, hold := true, a := .acc, c := .imm 0 255, ci := true, rnd := true }
  | 0x14D => Shape.when (z && q ≤ 1) { d := .tensor, dw := true, hold := true, a := .tensor, b := .u 1, bs := true }
  | _ => none

/-- Shapes of the ordering class in format R (R306), and of CINV (R263). -/
def shapeOrd (opc : Nat) (x : RForm) : Option Shape :=
  let q := x.q.toNat
  let c := x.c.toNat
  let z := x.t == .f64
  let path (n : Nat) : Bool := n == 0 || n == 1 || n == 2 || n == 4
  match opc with
  | 0x196 => Shape.when (z && q ≤ 2) { a := if q = 2 then .u 1 else .no }
  | 0x1E0 => Shape.when (z && q ≤ 5) {}
  | 0x1E1 => Shape.when (z && q ≤ 5) { c := .imm 0 3, ci := true }
  | 0x1E2 => Shape.when (z && q ≤ 5 && path (c % 16) && path (c / 16) && c % 16 != c / 16) { c := .imm 0 255, ci := true }
  | 0x1E3 => Shape.when (z && q == 0) {}
  | 0x1EA => Shape.when (z && q ≤ 5) { c := .imm 0 15, ci := true }
  | 0x1EB => Shape.when (z && q ≤ 5) { d := .u 1, dw := true, c := .imm 0 15, ci := true }
  | 0x1EC => Shape.when (z && q ≤ 5) { a := .u 1, c := .imm 0 15, ci := true }
  | 0x1ED => Shape.when (z && q ≤ 1) { a := .u 1, b := if q = 0 then .u 1 else .no, bs := q == 0 }
  | 0x1EE => Shape.when (z && q ≤ 1) { d := if q = 1 then .u 1 else .no, dw := q == 1, a := .u 1, b := .u 1, bs := true }
  | 0x1EF => Shape.when (z && q ≤ 1) { d := .u 1, dw := true, a := .u 1, b := if q = 1 then .u 1 else .no, bs := q == 1 }
  | 0x1F0 | 0x1F1 => Shape.when (z && q == 0) { d := .u 1, dw := true, a := .u 1, b := .u 1, bs := true }
  | _ => none

/-- Shapes of the copy, context and personality classes in format R (R322, R349, R127). -/
def shapeCtx (opc : Nat) (x : RForm) : Option Shape :=
  let q := x.q.toNat
  let z := x.t == .f64
  let vt := Opd.vt x.t
  match opc with
  | 0x225 | 0x226 | 0x227 => Shape.when (z && q == 0) { d := .u 1, dw := true }
  | 0x230 => Shape.when (x.t.isBits && q ≤ 1)
      { d := vt, dw := true, a := if q = 0 then .v 1 1 else .no, b := .u 1, bs := true }
  | 0x231 => Shape.when (z && q == 0) { d := .u 1, dw := true, b := .u 1, bs := true }
  | 0x232 => Shape.when (x.t.isBits && q == 0) { d := vt, dw := true, part := true, a := vt, b := .u 1, bs := true }
  | 0x233 => Shape.when (z && q ≤ 2) { d := .u 1, dw := true, a := if q ≤ 1 then .u 1 else .no }
  | 0x234 => Shape.when (z && q ≤ 3) { d := .u 1, dw := true, a := if q = 1 then .u 1 else .no }
  | 0x235 => Shape.when (z && q == 0) { d := .u 1, dw := true, a := .u 1 }
  | 0x236 | 0x237 => Shape.when (z && q == 0) { a := .u 1 }
  | 0x240 => Shape.when (z && q == 0) { d := .u 1, dw := true, a := .u 1, c := .imm 3 15, ci := true }
  | 0x241 => Shape.when (z && q == 0) { a := .u 1, c := .imm 0 15, ci := true }
  | 0x242 => Shape.when (z && q ≤ 1) { a := if q = 1 then .u 1 else .no }
  | 0x243 => Shape.when (z && q == 0) { d := .u 1, dw := true, c := .imm 0 15, ci := true }
  | 0x244 => Shape.when (z && q == 0) { d := .u 1, dw := true, c := .imm 3 15, ci := true }
  | 0x245 => Shape.when (z && q ≤ 3)
      { a := if q = 0 then .no else .u 1, b := if q = 2 then .u 1 else .no }
  | _ => none

/-- Shapes of the work and interrupt classes (R386, R393); SYSCALL reads four uniforms from B (R378). -/
def shapeWork (opc : Nat) (x : RForm) : Option Shape :=
  let q := x.q.toNat
  let z := x.t == .f64
  match opc with
  | 0x250 => Shape.when (z && q ≤ 1) { d := if q = 1 then .u 1 else .no, dw := q == 1, a := .v 1 1, b := .u 1, bs := true }
  | 0x251 => Shape.when (z && q == 0) { a := .u 1 }
  | 0x252 | 0x254 => Shape.when (z && q == 0) { d := .u 1, dw := true, a := .u 1 }
  | 0x253 | 0x257 | 0x258 => Shape.when (z && q == 0) { d := .u 1, dw := true }
  | 0x255 => Shape.when (z && q ≤ 1) { d := .u 1, dw := true, a := .u 1 }
  | 0x256 => Shape.when (z && q ≤ 1) { d := .u 1, dw := true, a := .u 1, b := .u 4, bs := true }
  | 0x260 | 0x261 => Shape.when (z && q == 0) { d := .u 1, dw := true, a := .u 1, b := .u 1, bs := true }
  | 0x262 | 0x264 => Shape.when (z && q == 0) { d := .u 1, dw := true, a := .u 1 }
  | 0x263 => Shape.when (z && q ≤ 2) { d := .u 1, dw := true, a := .u 1 }
  | 0x265 | 0x266 => Shape.when (z && q == 0) {}
  | 0x267 => Shape.when (z && q ≤ 1)
      { d := .u 1, dw := true, a := if q = 1 then .u 1 else .no, c := if q = 1 then .pred else .no, cw := q == 1 }
  | _ => none

/-- Shapes of the system and debug classes in format R (R417, R451). -/
def shapeSys (opc : Nat) (x : RForm) : Option Shape :=
  let q := x.q.toNat
  let z := x.t == .f64
  let dab : Shape := { d := .u 1, dw := true, a := .u 1, b := .u 1, bs := true }
  let da : Shape := { d := .u 1, dw := true, a := .u 1 }
  match opc with
  | 0x272 => Shape.when (z && q == 0) { c := .imm 0 255, ci := true }
  | 0x273 => Shape.when (z && q ≤ 2) {}
  | 0x276 => Shape.when (z && q ≤ 3)
      { a := if q = 0 then .no else .u 1, b := if q = 3 then .u 1 else .no, bs := q == 3 }
  | 0x277 => Shape.when (z && q ≤ 2) dab
  | 0x278 | 0x279 => Shape.when (z && q == 0) { dab with c := .u 1, cs := true }
  | 0x27A => Shape.when (z && q ≤ 3) (if q = 3 then dab else da)
  | 0x27B | 0x27C | 0x27D | 0x27F => Shape.when (z && q == 0) dab
  | 0x27E => Shape.when (z && q ≤ 1) { dab with dr := q == 1, dw := q == 0 }
  | 0x280 => Shape.when (z && q ≤ 1) da
  | 0x281 => Shape.when (z && q == 0) da
  | 0x290 => Shape.when (z && q ≤ 1) { c := .imm 0 255, ci := true }
  | 0x291 | 0x295 => Shape.when (z && q == 0) da
  | 0x292 => Shape.when (z && q ≤ 1) { d := .u 1, dw := true }
  | 0x293 => Shape.when (z && q ≤ 1) { d := .u 1, dw := true, a := if q = 1 then .u 1 else .no }
  | 0x294 => Shape.when (z && q == 0) dab
  | 0x296 => Shape.when (z && q ≤ 1) dab
  | _ => none

/-- The shape of an IOP of format R. -/
def shapeR (opc : Nat) (x : RForm) : Option Shape :=
  if opc < 0x040 then shapeCtl opc x
  else if opc < 0x0C0 then shapeInt opc x
  else if opc < 0x140 then shapeFlt opc x
  else if opc < 0x180 then shapeMat opc x
  else if opc < 0x220 then shapeOrd opc x
  else if opc < 0x250 then shapeCtx opc x
  else if opc < 0x270 then shapeWork opc x
  else shapeSys opc x

/-- The shape of an IOP of format I: MOVI (R175, R184). -/
def shapeI (opc : Nat) (x : IForm) : Option Shape :=
  Shape.when (opc == 0x060 && x.t.isInt && x.q.toNat ≤ 3
      && (x.q.toNat == 0 || x.imm.toNat < 0x10000) && (x.q.toNat ≤ 1 || x.t.bytes == 8))
    { d := .vt x.t, dr := x.q.toNat != 0, dw := true, uok := true }

/-- Types of an atomic operation (R308). -/
def atomType (op : Nat) (t : ElemType) : Bool :=
  if op ≤ 2 then t.isInt || t.isF else if op ≤ 6 then t.isBits else t == .z32

/-- The shape of an IOP of format M (R240, R263, R306, R417). -/
def shapeM (opc : Nat) (x : MForm) : Option Shape :=
  let qa := x.qa.toNat
  let op := 2 * qa + x.qb.toNat
  let sc := x.sc.toNat
  let vt := Opd.vt x.t
  let idx : Opd := if x.iv then .v 1 1 else .no
  let weak := sc == 0 && x.t.isMem
  let um := !x.iv
  let ld : Shape := { d := vt, dw := true, a := .base, b := idx }
  let st : Shape := { d := vt, dr := true, a := .base, b := idx }
  let ldu : Shape := { d := .u 1, dw := true, a := .base }
  let stu : Shape := { d := .u 1, dr := true, a := .base }
  match opc with
  | 0x14B => Shape.when (um && sc == 0 && op == 0 && x.t == .z64) { d := .tensor, dw := true, a := .base }
  | 0x14C => Shape.when (um && sc == 0 && op == 0 && x.t == .z64) { d := .tensor, dr := true, a := .base }
  | 0x180 => Shape.when (weak && qa ≤ 2 && !x.qb) ld
  | 0x181 => Shape.when (weak && qa ≤ 1 && !x.qb) st
  | 0x182 => Shape.when (weak && x.t == .z32 && qa ≤ 1 && !x.qb) { ld with d := .v (if qa = 0 then 4 else 8) 1 }
  | 0x183 => Shape.when (weak && x.t == .z32 && qa ≤ 1 && !x.qb) { st with d := .v (if qa = 0 then 4 else 8) 1 }
  | 0x184 => Shape.when (weak && um && x.t == .z32 && op == 0) { ldu with d := .pred }
  | 0x185 => Shape.when (weak && um && x.t == .z32 && op == 0) { stu with d := .pred }
  | 0x186 => Shape.when (weak && um && op == 0) ldu
  | 0x187 => Shape.when (weak && um && op == 0) stu
  | 0x188 => Shape.when (weak && qa ≤ 2) { ld with part := true }
  | 0x189 => Shape.when (weak && qa ≤ 1 && !x.qb) st
  | 0x18A => Shape.when weak { ld with pn := some op }
  | 0x18B => Shape.when (weak && qa ≤ 2 && !x.qb) { ld with part := true }
  | 0x18C => Shape.when (weak && qa ≤ 2 && !x.qb) st
  | 0x18D => Shape.when (weak && um && qa ≤ 2 && !x.qb) ldu
  | 0x18E => Shape.when (weak && um && qa ≤ 2 && !x.qb) stu
  | 0x18F => Shape.when (weak && x.t == .z32 && qa ≤ 1 && !x.qb) { a := .base, b := idx }
  | 0x190 => Shape.when (weak && op == 0) ld
  | 0x191 => Shape.when (weak && um && op == 0) ldu
  | 0x192 => Shape.when (weak && op == 0 && (x.t == .f32 || x.t == .bf16)) { ld with dr := true }
  | 0x193 => Shape.when (weak && x.t == .z32 && qa ≤ 1 && !x.qb) { a := .base, b := idx }
  | 0x194 => Shape.when (weak && um && x.t == .z32 && qa ≤ 1 && !x.qb) { a := .base }
  | 0x195 => Shape.when (weak && x.t == .z32 && qa ≤ 1 && !x.qb) { a := .base, b := idx }
  | 0x1E4 => Shape.when (x.t.isMem && sc ≤ 5 && qa ≤ 2 && !x.qb) ld
  | 0x1E5 => Shape.when (x.t.isMem && sc ≤ 5 && qa ≤ 2 && !x.qb) st
  | 0x1E6 => Shape.when (sc ≤ 5 && atomType op x.t) { ld with dr := true }
  | 0x1E7 => Shape.when (um && sc ≤ 5 && atomType op x.t) { ldu with dr := true }
  | 0x1E8 => Shape.when (sc ≤ 5 && op == 0 && x.t.isBits)
      { ld with dr := true, d := if x.t.bytes = 8 then .v 4 2 else .v 2 1 }
  | 0x1E9 => Shape.when (sc ≤ 5 && atomType op x.t) st
  | 0x274 => Shape.when (weak && um && op == 0) { ldu with a := .u 1 }
  | 0x275 => Shape.when (weak && um && op == 0) { stu with a := .u 1 }
  | _ => none

/-- The shape of an IOP of format B (R155); D and A of a call are numbers. -/
def shapeB (opc : Nat) (x : BForm) : Option Shape :=
  let q := x.q.toNat
  let z := x.ofs == 0
  let us := q % 2
  match opc with
  | 0x002 | 0x009 => Shape.when (q == 0) {}
  | 0x003 => Shape.when (z && q ≤ 1) { a := if us = 1 then .u 1 else .v 2 2 }
  | 0x004 => Shape.when (q == 0) { d := .imm 4 255, a := .imm 0 255 }
  | 0x005 => Shape.when (z && q / 2 % 2 == 0) { d := .imm 4 255, a := if us = 1 then .u 1 else .v 2 2 }
  | 0x006 => Shape.when (z && q == 0) {}
  | 0x00A => Shape.when (q == 0 && x.ofs.msb) {}
  | 0x00B => Shape.when (q ≤ 1) {}
  | _ => none

/-- The shape of an IOP of format A (R240, R322). -/
def shapeA (opc : Nat) (x : AForm) : Option Shape :=
  let q := x.q.toNat
  let z := x.t == .f64
  let nb (b : Bool) : Opd := if b then .no else .u 1
  let ac : Opd := if x.t == .f64 then .accEven else .acc
  let wide := x.t == .f64 || x.t == .f32 || x.t == .bf16 || x.t == .f16
  match opc with
  | 0x140 => Shape.when (x.t.code ≤ 7 && q ≤ 1)
      { d := ac, dr := q == 0, dw := true, a := .tensor, b := .tensor, c := .u 1 }
  | 0x144 => Shape.when (wide && q == 0) { d := ac, dw := true, a := .tensor }
  | 0x145 => Shape.when (wide && q == 0) { d := .tensor, dr := true, a := ac, rnd := true }
  | 0x149 => Shape.when (z && q == 0) { c := .u 1 }
  | 0x14A => Shape.when (z && q ≤ 2) { c := if q = 2 then .no else .u 1 }
  | 0x220 => Shape.when (z && q ≤ 1) { d := .u 1, dr := true, a := .u 1, b := .u 1, c := nb (q == 1) }
  | 0x221 => Shape.when (z && q ≤ 1) { d := .u 1, dr := true, a := .v 2 2, b := .u 1, c := nb (q == 1) }
  | 0x222 => Shape.when (z && q ≤ 3) { d := .u 1, dr := true, a := .tensor, c := nb (q / 2 == 1) }
  | 0x223 => Shape.when (x.t.isQ && q ≤ 3) { d := .u 1, dr := true, a := .tensor, b := .u 1, c := nb (q / 2 == 1), rnd := true }
  | 0x224 => Shape.when (z && q ≤ 1) { d := .u 1, dr := true, a := .u 1, b := .u 1, c := .u 1 }
  | _ => none

/-- The access of a special register. -/
inductive SelAccess where
  | ro | rw
deriving DecidableEq, Repr

/-- The assigned selectors (R63, R119, R201, R321, R415) and their access. -/
def selAccess : Nat → Option SelAccess
  | 0x0001 | 0x0002 | 0x0003 | 0x8010 | 0x8020 => some .rw
  | 0x0010 | 0x0011 | 0x0012 | 0x0013 | 0x0014 | 0x0015 | 0x0016 | 0x0020 | 0x0030 | 0x0031
  | 0x0038 | 0x0039 | 0x003A | 0x0041
  | 0x8000 | 0x8001 | 0x8002 | 0x8003 | 0x8004 | 0x8005 | 0x8006 | 0x8007 | 0x8011 | 0x8021 => some .ro
  | _ => none

/-- Selectors of lane scope: SRSTATE and LANEID (R201, R418). -/
def selLane (sel : Nat) : Bool := sel == 0x0003 || sel == 0x0014

/-- The shape of an IOP of format S (R63, R417, R418). -/
def shapeS (opc : Nat) (x : SForm) : Option Shape :=
  let o : Opd := if selLane x.sel.toNat then .v 1 1 else .u 1
  match opc with
  | 0x270 => Shape.when (selAccess x.sel.toNat).isSome { d := o, dw := true }
  | 0x271 => Shape.when (selAccess x.sel.toNat == some .rw) { a := o }
  | _ => none

/-- The shape of an IOP, or `none` when its type or qualifier is illegal or its opcode has another format. -/
def shape (opc : Nat) : Form → Option Shape
  | .r x => shapeR opc x
  | .i x => shapeI opc x
  | .m x => shapeM opc x
  | .b x => shapeB opc x
  | .a x => shapeA opc x
  | .s x => shapeS opc x

/-- With U = 1 a field of class vector or pair is a single uniform (R65). -/
def Opd.scalar : Opd → Opd
  | .v _ _ => .u 1
  | o => o

/-- The field contents that a class allows (R64); with its KMASK bit set a vector field names k0-k7 (R100). -/
def Opd.fits (o : Opd) (k : Bool) (x : BitVec 8) : Bool :=
  let n := x.toNat
  if k then (match o with | .v _ _ => decide (n < 8) | _ => false)
  else match o with
    | .no => n == 0
    | .v _ al => n % al == 0
    | .u c => n + c ≤ 64
    | .pred | .tensor => n < 16
    | .acc => n < 8
    | .accEven => n < 8 && n % 2 == 0
    | .flag => n < 12
    | .imm lo hi => lo ≤ n && n ≤ hi
    | .base => n < 64 || n == 128

/-- The fields of format R that stand outside its operands: BS, CS, CI, H and M (R53, R54, R57, R170). -/
def legalR (x : RForm) (sh : Shape) : Bool :=
  x.bs == sh.bs && x.cs == sh.cs && x.ci == sh.ci
    && (!x.u || (!x.bs && !x.cs))
    && (x.h == 0 || (sh.hold && !x.u && sh.a != .no))
    && (if sh.rnd then x.m.toNat ≤ 6 else x.m == 0)

/-- Legality of an IOP with opcode `opc` under R11 and R52-R74 and its encoding table; E and SFS are left to the clause. -/
def legal (opc : Nat) (f : Form) : Bool :=
  match shape opc f with
  | none => false
  | some sh =>
    let tr (o : Opd) : Opd := if f.u then o.scalar else o
    (!f.u || sh.uok)
      && (tr sh.d).fits (f.km.getLsbD 3) f.d && (tr sh.a).fits (f.km.getLsbD 2) f.fa
      && (tr sh.b).fits (f.km.getLsbD 1) f.fb && (tr sh.c).fits (f.km.getLsbD 0) f.fc
      && (match f with
          | .r x => legalR x sh
          | .a x => x.sfs != 3 && (if sh.rnd then x.m.toNat ≤ 6 else x.m == 0)
          | .i _ | .m _ | .b _ | .s _ => true)

/-- Privileged opcodes (R71, R76, R417, R451). -/
def isPrivileged (opc : Nat) : Bool :=
  opc == 0x240 || opc == 0x244 || opc == 0x245 || (0x273 ≤ opc && opc ≤ 0x281) || (0x294 ≤ opc && opc ≤ 0x296)

/-- Clause-ending opcodes (R68). -/
def isClauseEnd (opc : Nat) : Bool :=
  (1 ≤ opc && opc ≤ 0x00C) || opc == 0x242 || opc == 0x265 || opc == 0x273

end Sys2Proof
end

