-- ==== Sys2Proof/Machine/Table.lean ====
section
/-!
DEFINITION. The opcode map (R71-R76, 02_encodings.md): which opcode and format each IOP has, and the IOPs that the rows of
J32 and J16 expand to (R122-R126, 03_personalities.md).
-/

namespace Sys2Proof

/-- How an opcode makes its instruction from the fields of its format. -/
inductive Mk where
  | r (f : RForm → Instr)
  | i (f : IForm → Instr)
  | m (f : MForm → Instr)
  | b (f : BForm → Instr)
  | a (f : AForm → Instr)
  | s (f : SForm → Instr)

/-- Opcodes 0x0 to 0x1f. -/
noncomputable def opcodes000 : List (Nat × Mk) := [
  (0x001, .r .nop),
  (0x002, .b .bra),
  (0x003, .b .brx),
  (0x004, .b .call),
  (0x005, .b .callx),
  (0x006, .b .ret),
  (0x007, .r .exit),
  (0x008, .r .yield),
  (0x009, .b .join),
  (0x00A, .b .loop),
  (0x00B, .b .brau),
  (0x00C, .r .waitf),
  (0x00D, .r .pcomb),
  (0x00E, .r .pand),
  (0x00F, .r .por),
  (0x010, .r .pxor),
  (0x011, .r .pnot),
  (0x012, .r .plop3),
  (0x013, .r .pmask),
  (0x014, .r .pset),
  (0x015, .r .psel)]

/-- Opcodes 0x40 to 0x5f. -/
noncomputable def opcodes040 : List (Nat × Mk) := [
  (0x040, .r .iadd),
  (0x041, .r .isub),
  (0x042, .r .isum),
  (0x043, .r .icadd),
  (0x044, .r .ineg),
  (0x045, .r .iabs),
  (0x046, .r .imin),
  (0x047, .r .imax),
  (0x048, .r .imul),
  (0x049, .r .imulhi),
  (0x04A, .r .imad),
  (0x04B, .r .imadw),
  (0x04C, .r .sad),
  (0x04D, .r .idot4),
  (0x04E, .r .icmp),
  (0x04F, .r .sel),
  (0x050, .r .and),
  (0x051, .r .or),
  (0x052, .r .xor),
  (0x053, .r .lop3),
  (0x054, .r .shl),
  (0x055, .r .shr),
  (0x056, .r .sar),
  (0x057, .r .rot),
  (0x058, .r .fshf),
  (0x059, .r .bfe),
  (0x05A, .r .bfi),
  (0x05B, .r .brev),
  (0x05C, .r .popc),
  (0x05D, .r .clz),
  (0x05E, .r .ctz),
  (0x05F, .r .mov)]

/-- Opcodes 0x60 to 0x7f. -/
noncomputable def opcodes060 : List (Nat × Mk) := [
  (0x060, .i .movi),
  (0x061, .r .lea),
  (0x062, .r .lxch),
  (0x063, .r .perm),
  (0x064, .r .bcast),
  (0x065, .r .wred),
  (0x066, .r .wscan),
  (0x067, .r .matchLanes)]

/-- Opcodes 0xc0 to 0xdf. -/
noncomputable def opcodes0C0 : List (Nat × Mk) := [
  (0x0C0, .r .fadd),
  (0x0C1, .r .fsub),
  (0x0C2, .r .fmul),
  (0x0C3, .r .ffma),
  (0x0C4, .r .fmin),
  (0x0C5, .r .fmax),
  (0x0C6, .r .fcmp),
  (0x0C7, .r .fclass),
  (0x0C8, .r .frnd),
  (0x0C9, .r .fldexp),
  (0x0CA, .r .fgetexp),
  (0x0CB, .r .fdivs),
  (0x0CC, .r .frcp),
  (0x0CD, .r .frsq),
  (0x0CE, .r .fsqrt),
  (0x0CF, .r .fexp2),
  (0x0D0, .r .flog2),
  (0x0D1, .r .fsin),
  (0x0D2, .r .fcos),
  (0x0D3, .r .ftanh),
  (0x0D4, .r .hadd2),
  (0x0D5, .r .hmul2),
  (0x0D6, .r .hfma2),
  (0x0D7, .r .hmin2),
  (0x0D8, .r .hmax2),
  (0x0D9, .r .hdot2),
  (0x0DA, .r .cvt),
  (0x0DB, .r .cvti),
  (0x0DC, .r .cvtf),
  (0x0DD, .r .cvtp),
  (0x0DE, .r .qnt),
  (0x0DF, .r .qnth)]

/-- Opcodes 0xe0 to 0xff. -/
noncomputable def opcodes0E0 : List (Nat × Mk) := [
  (0x0E0, .r .dqnt),
  (0x0E1, .r .qscale),
  (0x0E2, .r .hadt),
  (0x0E3, .r .cbld)]

/-- Opcodes 0x140 to 0x15f. -/
noncomputable def opcodes140 : List (Nat × Mk) := [
  (0x140, .a .mma),
  (0x141, .r .mfence),
  (0x142, .r .mwait),
  (0x143, .r .mzero),
  (0x144, .a .mlda),
  (0x145, .a .msta),
  (0x146, .r .mrow),
  (0x147, .r .msetr),
  (0x148, .r .mcvt),
  (0x149, .a .mptb),
  (0x14A, .a .mfmt),
  (0x14B, .m .tld),
  (0x14C, .m .tst),
  (0x14D, .r .tmod)]

/-- Opcodes 0x180 to 0x19f. -/
noncomputable def opcodes180 : List (Nat × Mk) := [
  (0x180, .m .ld),
  (0x181, .m .st),
  (0x182, .m .ldv),
  (0x183, .m .stv),
  (0x184, .m .ldp),
  (0x185, .m .stp),
  (0x186, .m .ldu),
  (0x187, .m .stu),
  (0x188, .m .gath),
  (0x189, .m .scat),
  (0x18A, .m .ldnf),
  (0x18B, .m .nld),
  (0x18C, .m .nst),
  (0x18D, .m .nldu),
  (0x18E, .m .nstu),
  (0x18F, .m .nsetf),
  (0x190, .m .cld),
  (0x191, .m .cldu),
  (0x192, .m .smpl),
  (0x193, .m .pref),
  (0x194, .m .prefu),
  (0x195, .m .cwb),
  (0x196, .r .cinv)]

/-- Opcodes 0x1e0 to 0x1ff. -/
noncomputable def opcodes1E0 : List (Nat × Mk) := [
  (0x1E0, .r .phase),
  (0x1E1, .r .fence),
  (0x1E2, .r .xfence),
  (0x1E3, .r .fwait),
  (0x1E4, .m .lds),
  (0x1E5, .m .sts),
  (0x1E6, .m .atom),
  (0x1E7, .m .atomu),
  (0x1E8, .m .cas),
  (0x1E9, .m .red),
  (0x1EA, .r .bar),
  (0x1EB, .r .bara),
  (0x1EC, .r .barw),
  (0x1ED, .r .tbinit),
  (0x1EE, .r .tbexp),
  (0x1EF, .r .tbarr),
  (0x1F0, .r .tbwait),
  (0x1F1, .r .tbq)]

/-- Opcodes 0x220 to 0x23f. -/
noncomputable def opcodes220 : List (Nat × Mk) := [
  (0x220, .a .cpy),
  (0x221, .a .cpyo),
  (0x222, .a .cpyt),
  (0x223, .a .cpyq),
  (0x224, .a .cpymc),
  (0x225, .r .cpys),
  (0x226, .r .cpyc),
  (0x227, .r .cpyw),
  (0x230, .r .rld),
  (0x231, .r .rldu),
  (0x232, .r .xshuf),
  (0x233, .r .xpair),
  (0x234, .r .ctxq),
  (0x235, .r .sleep),
  (0x236, .r .wake),
  (0x237, .r .hotset)]

/-- Opcodes 0x240 to 0x25f. -/
noncomputable def opcodes240 : List (Nat × Mk) := [
  (0x240, .r .pinstall),
  (0x241, .r .pbind),
  (0x242, .r .emret),
  (0x243, .r .pquery),
  (0x244, .r .pevict),
  (0x245, .r .gzinv),
  (0x250, .r .npush),
  (0x251, .r .nflush),
  (0x252, .r .nqry),
  (0x253, .r .nrecv),
  (0x254, .r .nlaunch),
  (0x255, .r .nlwait),
  (0x256, .r .syscall),
  (0x257, .r .sysrd),
  (0x258, .r .syscan)]

/-- Opcodes 0x260 to 0x27f. -/
noncomputable def opcodes260 : List (Nat × Mk) := [
  (0x260, .r .uisend),
  (0x261, .r .uireg),
  (0x262, .r .uiunreg),
  (0x263, .r .uimaskOp),
  (0x264, .r .uiwait),
  (0x265, .r .uiend),
  (0x266, .r .uiack),
  (0x267, .r .uipoll),
  (0x270, .s .mfsr),
  (0x271, .s .mtsr),
  (0x272, .r .trap),
  (0x273, .r .tret),
  (0x274, .m .pld),
  (0x275, .m .pst),
  (0x276, .r .tlbinv),
  (0x277, .r .atq),
  (0x278, .r .ctxsv),
  (0x279, .r .ctxrs),
  (0x27A, .r .keyslot),
  (0x27B, .r .scanrq),
  (0x27C, .r .halt),
  (0x27D, .r .resume),
  (0x27E, .r .lanesel),
  (0x27F, .r .ipifw)]

/-- Opcodes 0x280 to 0x29f. -/
noncomputable def opcodes280 : List (Nat × Mk) := [
  (0x280, .r .wgkill),
  (0x281, .r .qkill),
  (0x290, .r .bkpt),
  (0x291, .r .stamp),
  (0x292, .r .bearq),
  (0x293, .r .progq),
  (0x294, .r .trcon),
  (0x295, .r .trcoff),
  (0x296, .r .trcsel)]

/-- The assigned opcodes in order. -/
noncomputable def opcodeTable : List (Nat × Mk) :=
  opcodes000 ++ opcodes040 ++ opcodes060 ++ opcodes0C0 ++ opcodes0E0 ++ opcodes140 ++ opcodes180 ++ opcodes1E0 ++ opcodes220 ++ opcodes240 ++ opcodes260 ++ opcodes280

/-- The entry of an opcode in a list of entries. -/
def lookupOpc : List (Nat × Mk) → Nat → Option Mk
  | [], _ => none
  | (k, m) :: rest, o => if o = k then some m else lookupOpc rest o

/-- A format (R52-R63). -/
inductive Format where
  | r | i | m | b | a | s
deriving DecidableEq, Repr

/-- The format of an opcode (R71-R76); `none` when it is reserved. -/
def formatOf (o : Nat) : Option Format :=
  if (0x002 ≤ o && o ≤ 0x006) || (0x009 ≤ o && o ≤ 0x00B) then some .b
  else if o = 0x060 then some .i
  else if o = 0x140 || o = 0x144 || o = 0x145 || o = 0x149 || o = 0x14A || (0x220 ≤ o && o ≤ 0x224) then some .a
  else if o = 0x14B || o = 0x14C || (0x180 ≤ o && o ≤ 0x195) || (0x1E4 ≤ o && o ≤ 0x1E9) || o = 0x274 || o = 0x275 then some .m
  else if o = 0x270 || o = 0x271 then some .s
  else if (0x001 ≤ o && o ≤ 0x015) || (0x040 ≤ o && o ≤ 0x067) || (0x0C0 ≤ o && o ≤ 0x0E3) || (0x140 ≤ o && o ≤ 0x14D) || o = 0x196
      || (0x1E0 ≤ o && o ≤ 0x1F1) || (0x225 ≤ o && o ≤ 0x227) || (0x230 ≤ o && o ≤ 0x237) || (0x240 ≤ o && o ≤ 0x245)
      || (0x250 ≤ o && o ≤ 0x258) || (0x260 ≤ o && o ≤ 0x267) || (0x270 ≤ o && o ≤ 0x281) || (0x290 ≤ o && o ≤ 0x296) then some .r
  else none

/-- The instruction of an opcode with these fields, or `none` for a reserved opcode or a wrong format. -/
noncomputable def ofParts (opc : Nat) (f : Form) : Option Instr :=
  match lookupOpc opcodeTable opc, f with
  | some (.r mk), .r x => some (mk x)
  | some (.i mk), .i x => some (mk x)
  | some (.m mk), .m x => some (mk x)
  | some (.b mk), .b x => some (mk x)
  | some (.a mk), .a x => some (mk x)
  | some (.s mk), .s x => some (mk x)
  | _, _ => none

/-- The opcode and the fields of an IOP; `none` for the guest rows and the steps of the machine. -/
def Instr.parts : Instr → Option (Nat × Form)
  | .nop x => some (0x001, .r x)
  | .bra x => some (0x002, .b x)
  | .brx x => some (0x003, .b x)
  | .call x => some (0x004, .b x)
  | .callx x => some (0x005, .b x)
  | .ret x => some (0x006, .b x)
  | .exit x => some (0x007, .r x)
  | .yield x => some (0x008, .r x)
  | .join x => some (0x009, .b x)
  | .loop x => some (0x00A, .b x)
  | .brau x => some (0x00B, .b x)
  | .waitf x => some (0x00C, .r x)
  | .pcomb x => some (0x00D, .r x)
  | .pand x => some (0x00E, .r x)
  | .por x => some (0x00F, .r x)
  | .pxor x => some (0x010, .r x)
  | .pnot x => some (0x011, .r x)
  | .plop3 x => some (0x012, .r x)
  | .pmask x => some (0x013, .r x)
  | .pset x => some (0x014, .r x)
  | .psel x => some (0x015, .r x)
  | .iadd x => some (0x040, .r x)
  | .isub x => some (0x041, .r x)
  | .isum x => some (0x042, .r x)
  | .icadd x => some (0x043, .r x)
  | .ineg x => some (0x044, .r x)
  | .iabs x => some (0x045, .r x)
  | .imin x => some (0x046, .r x)
  | .imax x => some (0x047, .r x)
  | .imul x => some (0x048, .r x)
  | .imulhi x => some (0x049, .r x)
  | .imad x => some (0x04A, .r x)
  | .imadw x => some (0x04B, .r x)
  | .sad x => some (0x04C, .r x)
  | .idot4 x => some (0x04D, .r x)
  | .icmp x => some (0x04E, .r x)
  | .sel x => some (0x04F, .r x)
  | .and x => some (0x050, .r x)
  | .or x => some (0x051, .r x)
  | .xor x => some (0x052, .r x)
  | .lop3 x => some (0x053, .r x)
  | .shl x => some (0x054, .r x)
  | .shr x => some (0x055, .r x)
  | .sar x => some (0x056, .r x)
  | .rot x => some (0x057, .r x)
  | .fshf x => some (0x058, .r x)
  | .bfe x => some (0x059, .r x)
  | .bfi x => some (0x05A, .r x)
  | .brev x => some (0x05B, .r x)
  | .popc x => some (0x05C, .r x)
  | .clz x => some (0x05D, .r x)
  | .ctz x => some (0x05E, .r x)
  | .mov x => some (0x05F, .r x)
  | .movi x => some (0x060, .i x)
  | .lea x => some (0x061, .r x)
  | .lxch x => some (0x062, .r x)
  | .perm x => some (0x063, .r x)
  | .bcast x => some (0x064, .r x)
  | .wred x => some (0x065, .r x)
  | .wscan x => some (0x066, .r x)
  | .matchLanes x => some (0x067, .r x)
  | .fadd x => some (0x0C0, .r x)
  | .fsub x => some (0x0C1, .r x)
  | .fmul x => some (0x0C2, .r x)
  | .ffma x => some (0x0C3, .r x)
  | .fmin x => some (0x0C4, .r x)
  | .fmax x => some (0x0C5, .r x)
  | .fcmp x => some (0x0C6, .r x)
  | .fclass x => some (0x0C7, .r x)
  | .frnd x => some (0x0C8, .r x)
  | .fldexp x => some (0x0C9, .r x)
  | .fgetexp x => some (0x0CA, .r x)
  | .fdivs x => some (0x0CB, .r x)
  | .frcp x => some (0x0CC, .r x)
  | .frsq x => some (0x0CD, .r x)
  | .fsqrt x => some (0x0CE, .r x)
  | .fexp2 x => some (0x0CF, .r x)
  | .flog2 x => some (0x0D0, .r x)
  | .fsin x => some (0x0D1, .r x)
  | .fcos x => some (0x0D2, .r x)
  | .ftanh x => some (0x0D3, .r x)
  | .hadd2 x => some (0x0D4, .r x)
  | .hmul2 x => some (0x0D5, .r x)
  | .hfma2 x => some (0x0D6, .r x)
  | .hmin2 x => some (0x0D7, .r x)
  | .hmax2 x => some (0x0D8, .r x)
  | .hdot2 x => some (0x0D9, .r x)
  | .cvt x => some (0x0DA, .r x)
  | .cvti x => some (0x0DB, .r x)
  | .cvtf x => some (0x0DC, .r x)
  | .cvtp x => some (0x0DD, .r x)
  | .qnt x => some (0x0DE, .r x)
  | .qnth x => some (0x0DF, .r x)
  | .dqnt x => some (0x0E0, .r x)
  | .qscale x => some (0x0E1, .r x)
  | .hadt x => some (0x0E2, .r x)
  | .cbld x => some (0x0E3, .r x)
  | .mma x => some (0x140, .a x)
  | .mfence x => some (0x141, .r x)
  | .mwait x => some (0x142, .r x)
  | .mzero x => some (0x143, .r x)
  | .mlda x => some (0x144, .a x)
  | .msta x => some (0x145, .a x)
  | .mrow x => some (0x146, .r x)
  | .msetr x => some (0x147, .r x)
  | .mcvt x => some (0x148, .r x)
  | .mptb x => some (0x149, .a x)
  | .mfmt x => some (0x14A, .a x)
  | .tld x => some (0x14B, .m x)
  | .tst x => some (0x14C, .m x)
  | .tmod x => some (0x14D, .r x)
  | .ld x => some (0x180, .m x)
  | .st x => some (0x181, .m x)
  | .ldv x => some (0x182, .m x)
  | .stv x => some (0x183, .m x)
  | .ldp x => some (0x184, .m x)
  | .stp x => some (0x185, .m x)
  | .ldu x => some (0x186, .m x)
  | .stu x => some (0x187, .m x)
  | .gath x => some (0x188, .m x)
  | .scat x => some (0x189, .m x)
  | .ldnf x => some (0x18A, .m x)
  | .nld x => some (0x18B, .m x)
  | .nst x => some (0x18C, .m x)
  | .nldu x => some (0x18D, .m x)
  | .nstu x => some (0x18E, .m x)
  | .nsetf x => some (0x18F, .m x)
  | .cld x => some (0x190, .m x)
  | .cldu x => some (0x191, .m x)
  | .smpl x => some (0x192, .m x)
  | .pref x => some (0x193, .m x)
  | .prefu x => some (0x194, .m x)
  | .cwb x => some (0x195, .m x)
  | .cinv x => some (0x196, .r x)
  | .phase x => some (0x1E0, .r x)
  | .fence x => some (0x1E1, .r x)
  | .xfence x => some (0x1E2, .r x)
  | .fwait x => some (0x1E3, .r x)
  | .lds x => some (0x1E4, .m x)
  | .sts x => some (0x1E5, .m x)
  | .atom x => some (0x1E6, .m x)
  | .atomu x => some (0x1E7, .m x)
  | .cas x => some (0x1E8, .m x)
  | .red x => some (0x1E9, .m x)
  | .bar x => some (0x1EA, .r x)
  | .bara x => some (0x1EB, .r x)
  | .barw x => some (0x1EC, .r x)
  | .tbinit x => some (0x1ED, .r x)
  | .tbexp x => some (0x1EE, .r x)
  | .tbarr x => some (0x1EF, .r x)
  | .tbwait x => some (0x1F0, .r x)
  | .tbq x => some (0x1F1, .r x)
  | .cpy x => some (0x220, .a x)
  | .cpyo x => some (0x221, .a x)
  | .cpyt x => some (0x222, .a x)
  | .cpyq x => some (0x223, .a x)
  | .cpymc x => some (0x224, .a x)
  | .cpys x => some (0x225, .r x)
  | .cpyc x => some (0x226, .r x)
  | .cpyw x => some (0x227, .r x)
  | .rld x => some (0x230, .r x)
  | .rldu x => some (0x231, .r x)
  | .xshuf x => some (0x232, .r x)
  | .xpair x => some (0x233, .r x)
  | .ctxq x => some (0x234, .r x)
  | .sleep x => some (0x235, .r x)
  | .wake x => some (0x236, .r x)
  | .hotset x => some (0x237, .r x)
  | .pinstall x => some (0x240, .r x)
  | .pbind x => some (0x241, .r x)
  | .emret x => some (0x242, .r x)
  | .pquery x => some (0x243, .r x)
  | .pevict x => some (0x244, .r x)
  | .gzinv x => some (0x245, .r x)
  | .npush x => some (0x250, .r x)
  | .nflush x => some (0x251, .r x)
  | .nqry x => some (0x252, .r x)
  | .nrecv x => some (0x253, .r x)
  | .nlaunch x => some (0x254, .r x)
  | .nlwait x => some (0x255, .r x)
  | .syscall x => some (0x256, .r x)
  | .sysrd x => some (0x257, .r x)
  | .syscan x => some (0x258, .r x)
  | .uisend x => some (0x260, .r x)
  | .uireg x => some (0x261, .r x)
  | .uiunreg x => some (0x262, .r x)
  | .uimaskOp x => some (0x263, .r x)
  | .uiwait x => some (0x264, .r x)
  | .uiend x => some (0x265, .r x)
  | .uiack x => some (0x266, .r x)
  | .uipoll x => some (0x267, .r x)
  | .mfsr x => some (0x270, .s x)
  | .mtsr x => some (0x271, .s x)
  | .trap x => some (0x272, .r x)
  | .tret x => some (0x273, .r x)
  | .pld x => some (0x274, .m x)
  | .pst x => some (0x275, .m x)
  | .tlbinv x => some (0x276, .r x)
  | .atq x => some (0x277, .r x)
  | .ctxsv x => some (0x278, .r x)
  | .ctxrs x => some (0x279, .r x)
  | .keyslot x => some (0x27A, .r x)
  | .scanrq x => some (0x27B, .r x)
  | .halt x => some (0x27C, .r x)
  | .resume x => some (0x27D, .r x)
  | .lanesel x => some (0x27E, .r x)
  | .ipifw x => some (0x27F, .r x)
  | .wgkill x => some (0x280, .r x)
  | .qkill x => some (0x281, .r x)
  | .bkpt x => some (0x290, .r x)
  | .stamp x => some (0x291, .r x)
  | .bearq x => some (0x292, .r x)
  | .progq x => some (0x293, .r x)
  | .trcon x => some (0x294, .r x)
  | .trcoff x => some (0x295, .r x)
  | .trcsel x => some (0x296, .r x)
  | _ => none
/-- A J32 guard: bit 3 inverts, and predicate 7 is p15 (R77, R78). -/
def j32Guard (g : BitVec 4) : Guard :=
  { inv := g.getLsbD 3, pred := if g.toNat % 8 = 7 then 15 else BitVec.ofNat 4 (g.toNat % 8) }

/-- J32 predicate 7 is p15 in every field (R78). -/
def j32Pred (p : BitVec 3) : BitVec 8 := if p = 7 then 15 else p.zeroExtend 8

/-- The type of a J32 size code (R77, R124). -/
def j32Type (size : BitVec 2) : ElemType :=
  match size.toNat with | 0 => .z32 | 1 => .z64 | 2 => .z8 | _ => .z16

/-- The shift that a J32 size code gives an offset (R122, patterns 27-30 and 32-35). -/
def j32Shift (size : BitVec 2) : Nat :=
  match size.toNat with | 0 => 2 | 1 => 3 | 2 => 0 | _ => 1

/-- The memory fields of a J32-M word (R77, R124). -/
def j32Mem (g : BitVec 4) (d : BitVec 6) (base : BitVec 5) (size : BitVec 2) (ofs : BitVec 9) : MForm :=
  { g := j32Guard g, d := d.zeroExtend 8, a := base.zeroExtend 8, t := j32Type size
    ofs := (ofs.signExtend 12) <<< (j32Shift size) }

/-- The memory fields of a J32-MX word (R77, R124). -/
def j32MemX (g : BitVec 4) (d : BitVec 6) (base : BitVec 5) (idx : BitVec 6) (size : BitVec 2) (ofs : BitVec 3) : MForm :=
  { g := j32Guard g, d := d.zeroExtend 8, a := base.zeroExtend 8, b := idx.zeroExtend 8, iv := true, t := j32Type size
    ofs := (ofs.zeroExtend 12) <<< (j32Shift size) }

/-- The last slot of ANDI, ORI and XORI, and of IADDI with its own type: operand B is k0 (R124). -/
def j32ImmOp (g : BitVec 4) (d a : BitVec 6) (t : ElemType) : RForm :=
  { g := j32Guard g, d := d.zeroExtend 8, a := a.zeroExtend 8, t := t, km := 2 }

/-- The fields of SHI: the count is an immediate in C (R124). -/
def j32ShiftOp (g : BitVec 4) (d a n : BitVec 6) : RForm :=
  { g := j32Guard g, d := d.zeroExtend 8, a := a.zeroExtend 8, c := n.zeroExtend 8, ci := true, t := .z32 }

/-- The fields of MOVI and MOVHI of J32 (R124). -/
def j32MoviOp (g : BitVec 4) (d : BitVec 6) (imm : BitVec 16) (q : BitVec 3) : IForm :=
  { g := j32Guard g, d := d.zeroExtend 8, imm := imm.zeroExtend 24, t := .s32, q := q }

/-- The fields of FFMA and FFMA64 of J32, with C = D (R124). -/
def j32FfmaOp (g : BitVec 4) (d a b : BitVec 6) (m : BitVec 3) (t : ElemType) : RForm :=
  { g := j32Guard g, d := d.zeroExtend 8, a := a.zeroExtend 8, b := b.zeroExtend 8, c := d.zeroExtend 8, m := m, t := t }

/-- The fields of BRA and LOOP of J32: OFS22 counts units of 4 bytes (R77, R122). -/
def j32BraOp (g : BitVec 4) (ofs : BitVec 22) : BForm :=
  { g := j32Guard g, ofs := (ofs.signExtend 24) <<< 1 }

/-- The fields of CALL of J32: slide and frame count eights, a frame of 0 meaning 128 (R77, R122). -/
def j32CallOp (g : BitVec 4) (slide frame : BitVec 4) (ofs : BitVec 14) : BForm :=
  { g := j32Guard g, d := (slide.zeroExtend 8) <<< 3
    a := if frame = 0 then 128 else (frame.zeroExtend 8) <<< 3
    ofs := (ofs.signExtend 24) <<< 1 }

/-- A J16 register operation (R126). -/
def j16Op (d a b : BitVec 4) (t : ElemType) : RForm :=
  { d := d.zeroExtend 8, a := a.zeroExtend 8, b := b.zeroExtend 8, t := t }

/-- A J16 load or store (R126). -/
def j16Mem (d base : BitVec 4) (ofs : BitVec 4) : MForm :=
  { d := d.zeroExtend 8, a := base.zeroExtend 8, ofs := (ofs.zeroExtend 12) <<< 2, t := .z32 }

/-- A J16 indexed load or store (R126). -/
def j16MemX (d base idx : BitVec 4) : MForm :=
  { d := d.zeroExtend 8, a := base.zeroExtend 8, b := idx.zeroExtend 8, iv := true, t := .z32 }

/-- ICMP of J16: D is p0, and the condition chooses signed or unsigned (R126). -/
def j16IcmpOp (a b cc : BitVec 4) : RForm :=
  { d := 0, a := a.zeroExtend 8, b := b.zeroExtend 8, t := if cc.toNat < 8 then .s32 else .z32
    q := BitVec.ofNat 3 (cc.toNat % 8) }

/-- The IOPs that a row of J32 or J16 expands to; the MOVI of k0 of a two-slot row is not listed,
since it cannot fail (R124). `none` for every other instruction. -/
def Instr.expansion : Instr → Option Instr
  | .j32Iaddi g d a _ => some (.iadd (j32ImmOp g d a .s32))
  | .j32Andi g d a _ => some (.and (j32ImmOp g d a .z32))
  | .j32Ori g d a _ => some (.or (j32ImmOp g d a .z32))
  | .j32Xori g d a _ => some (.xor (j32ImmOp g d a .z32))
  | .j32ShlI g d a n => some (.shl (j32ShiftOp g d a n))
  | .j32ShrI g d a n => some (.shr (j32ShiftOp g d a n))
  | .j32SarI g d a n => some (.sar (j32ShiftOp g d a n))
  | .j32RotI g d a n => some (.rot (j32ShiftOp g d a n))
  | .j32Icmpi g cc p a _ =>
      some (.icmp { g := j32Guard g, d := j32Pred p, a := a.zeroExtend 8, q := cc, t := .s32, km := 2 })
  | .j32Movi g d imm => some (.movi (j32MoviOp g d imm 0))
  | .j32Movhi g d imm => some (.movi (j32MoviOp g d imm 1))
  | .j32Ffma g d a b m => some (.ffma (j32FfmaOp g d a b m .f32))
  | .j32Ffma64 g d a b m => some (.ffma (j32FfmaOp g d a b m .f64))
  | .j32Ld g d base size ofs => some (.ld (j32Mem g d base size ofs))
  | .j32St g d base size ofs => some (.st (j32Mem g d base size ofs))
  | .j32Ldx g d base idx size ofs => some (.ld (j32MemX g d base idx size ofs))
  | .j32Stx g d base idx size ofs => some (.st (j32MemX g d base idx size ofs))
  | .j32Ldu g d base size ofs => some (.ldu (j32Mem g d base size ofs))
  | .j32Stu g d base size ofs => some (.stu (j32Mem g d base size ofs))
  | .j32Nld g d base size ofs => some (.nld (j32Mem g d base size ofs))
  | .j32Nst g d base size ofs => some (.nst (j32Mem g d base size ofs))
  | .j32Bra g ofs => some (.bra (j32BraOp g ofs))
  | .j32Call g slide frame ofs => some (.call (j32CallOp g slide frame ofs))
  | .j32Nop g => some (.nop { g := j32Guard g })
  | .j32Ret g => some (.ret { g := j32Guard g })
  | .j32Exit g => some (.exit { g := j32Guard g })
  | .j32Yield g => some (.yield { g := j32Guard g })
  | .j32Brx g a => some (.brx { g := j32Guard g, a := a.zeroExtend 8 })
  | .j32Loop g ofs => some (.loop (j32BraOp g ofs))
  | .j32Atom g d base size ofs => some (.atom { j32Mem g d base size ofs with sc := 5 })
  | .j16Fadd d a b => some (.fadd (j16Op d a b .f32))
  | .j16Fmul d a b => some (.fmul (j16Op d a b .f32))
  | .j16Ffma d a b => some (.ffma { j16Op d a b .f32 with c := d.zeroExtend 8 })
  | .j16Iadd d a b => some (.iadd (j16Op d a b .s32))
  | .j16Isub d a b => some (.isub (j16Op d a b .s32))
  | .j16Mov d a => some (.mov (j16Op d a 0 .z32))
  | .j16And d a => some (.and (j16Op d d a .z32))
  | .j16Or d a => some (.or (j16Op d d a .z32))
  | .j16Xor d a => some (.xor (j16Op d d a .z32))
  | .j16Shl d a => some (.shl (j16Op d d a .z32))
  | .j16Shr d a => some (.shr (j16Op d d a .z32))
  | .j16Sar d a => some (.sar (j16Op d d a .z32))
  | .j16Imul d a => some (.imul (j16Op d d a .s32))
  | .j16Fsub d a => some (.fsub (j16Op d d a .f32))
  | .j16Fmin d a => some (.fmin (j16Op d d a .f32))
  | .j16Fmax d a => some (.fmax (j16Op d d a .f32))
  | .j16Ineg d a => some (.ineg (j16Op d a 0 .s32))
  | .j16CvtF32S32 d a => some (.cvt { j16Op d a 0 .f32 with c := 10 })
  | .j16CvtS32F32 d a => some (.cvt { j16Op d a 0 .s32 with c := 1, m := 2 })
  | .j16Movi d imm => some (.movi { d := d.zeroExtend 8, imm := imm.signExtend 24, t := .s32 })
  | .j16Ld d base ofs => some (.ld (j16Mem d base ofs))
  | .j16St d base ofs => some (.st (j16Mem d base ofs))
  | .j16Ldx d base idx => some (.ld (j16MemX d base idx))
  | .j16Stx d base idx => some (.st (j16MemX d base idx))
  | .j16Bra ofs => some (.bra { ofs := ofs.signExtend 24 })
  | .j16Brp inv ofs => some (.bra { g := { inv := inv, pred := 0 }, ofs := ofs.signExtend 24 })
  | .j16Icmp a b cc => some (.icmp (j16IcmpOp a b cc))
  | .j16Nop => some (.nop {})
  | .j16Ret => some (.ret {})
  | .j16Exit => some (.exit {})
  | .j16Bar scope => some (.bar { q := scope, ci := true })
  | .j16Yield => some (.yield {})
  | _ => none

end Sys2Proof
end

