-- ==== Sys2Proof/WellFormed.lean ====
section
/-!
DEFINITION. Which instructions are well formed: the legality rules of R11 and R52-R74 for IOPs, those of R77-R82 and R122-R126
for the rows of J32 and J16, and the ranges of the numbers that the machine's steps name.
-/

namespace Sys2Proof

/-- A function of the package exists: 16 logical devices, 256 VFs (R456). -/
def Func.wf : Func → Bool
  | .pf ld => decide (ld < 16)
  | .vf n => decide (n < 256)

/-- The fields of a clause header that stand without its span: LEN, and the set-flags (R68). -/
def headerFieldsOk (len : Nat) (sf1v : Bool) (sf1 : Nat) (sf2v : Bool) (sf2 : Nat) : Bool :=
  decide (1 ≤ len) && decide (len ≤ 24)
    && (if sf1v then decide (sf1 < 12) else sf1 == 0)
    && (if sf2v then decide (sf2 < 12) else sf2 == 0)
    && (!sf2v || (sf1v && sf1 != sf2))

/-- The set-flag fields of a J32 header: 0-11, or 0xF for none (R80). -/
def j32HeaderOk (glen sf1 sf2 : Nat) : Bool :=
  headerFieldsOk glen (sf1 != 15) (if sf1 = 15 then 0 else sf1) (sf2 != 15) (if sf2 = 15 then 0 else sf2)

/-- The limits that a guest word sets beyond those of its expansion (R77, R124, R126). -/
def guestFieldsOk : Instr → Bool
  | .j32Icmpi _ cc _ _ _ => decide (cc.toNat ≤ 5)
  | .j32Ldu _ d _ _ _ | .j32Stu _ d _ _ _ => decide (d.toNat < 32)
  | .j32Atom _ _ _ size _ => decide (size.toNat ≤ 1)
  | .j16Icmp _ _ cc => decide (cc.toNat ≤ 5) || (decide (8 ≤ cc.toNat) && decide (cc.toNat ≤ 13))
  | _ => true

/-- Every J64 target is 8-aligned: OFS24 of format B is a multiple of 4 (R61). -/
def Form.aligned : Form → Bool
  | .b x => x.ofs.toNat % 4 == 0
  | _ => true

/-- Legality of opcode and fields as a J64 word (R55, R61, R66): E = 1, no field names a k-register, and targets are 8-aligned. -/
def partsOk (opc : Nat) (f : Form) : Bool := legal opc f && f.e && f.km == 0 && f.aligned

/-- Legality of an IOP as a J64 word. -/
def iopOk (i : Instr) : Bool :=
  match i.parts with
  | some (opc, f) => partsOk opc f
  | none => false

/-- Legality of an IOP as the last slot of an expansion (R103): D is not marked in KMASK. -/
def slotOk (i : Instr) : Bool :=
  match i.parts with
  | some (opc, f) => legal opc f && !f.km.getLsbD 3
  | none => false

/-- Well-formedness. -/
def Instr.wf (i : Instr) : Bool :=
  match i with
  | .j32Header glen _ sf1 sf2 _ => j32HeaderOk glen.toNat sf1.toNat sf2.toNat
  | .j32Emu _ _ | .j16Emu _ => true
  | .kick f _ | .callDoorbell f _ | .trapci f _ | .scanci f _ | .uirefuseRead ⟨f, _⟩ | .uisendr f _ _
  | .registerWrite f _ _ _ | .tdispRequest f _ | .msixTableWrite f _ _ => f.wf
  | .qcreate r | .qdestroy r | .portcreate r | .portdestroy r | .permwrite r | .tenantwrite r | .ringcfg r | .asidset r
  | .s2set r | .vfassign r | .rateset r | .keyop r | .preempt r | .restore r | .heldrestore r | .svcWgkill r | .isobari r
  | .graceset r | .partset r | .partreset r | .svcTrace r | .fwupdate r => r.caller.wf
  | .hostWarmRestart k | .graceExpiry k | .pwrcapWrite k _ | .tdropRead k _ | .flipreqToHost k _
  | .flipreqToDevice k _ | .flipComplete k | .hostSnoop k _ _ | .hostCxlMemAccess k _ _ | .spdmRequest k _ =>
      decide (k < 16)
  | .remoteLineWaysSet die stop _ _ => decide (die < 4) && decide (stop < 64)
  | .linkLaneLoss port lanes => decide (port < 36) && decide (lanes ≤ 4)
  | .flitRetry port => decide (port < 36)
  | .isobarSample die | .scanComplete die => decide (die < 4)
  | _ =>
      match i.expansion with
      | some c => slotOk c && guestFieldsOk i
      | none => i.parts.isNone || iopOk i

end Sys2Proof
end

