-- ==== Sys2Proof/Decode.lean ====
section
/-!
DEFINITION. Decoding and encoding: J64 words (R52-R63, R67), J32 words (R77-R80, R122-R124), J16 words (R81, R82, R125, R126)
and the words of installed personalities (R93-R104). Decoding is total; what no table decodes is refused with its reason (R109).
-/

namespace Sys2Proof

/-- The `n`-bit field of `w` whose lowest bit is `lo`. -/
def bitsAt (w lo n : Nat) : Nat := w / 2 ^ lo % 2 ^ n

/-- The field as a bit vector. -/
def fieldAt (w lo n : Nat) : BitVec n := BitVec.ofNat n (w / 2 ^ lo)

/-- One bit. -/
def bitAt (w lo : Nat) : Bool := w / 2 ^ lo % 2 == 1

/-! ### Formats -/

/-- GI and GP (R52). -/
def unpackG (w : Nat) : Guard := { inv := bitAt w 53, pred := fieldAt w 49 4 }

/-- Format R (R52, R57). -/
def unpackR (w : Nat) (km : BitVec 4 := 0) : RForm :=
  { g := unpackG w, u := bitAt w 48, d := fieldAt w 40 8, a := fieldAt w 32 8, b := fieldAt w 24 8, c := fieldAt w 16 8
    h := fieldAt w 14 2, m := fieldAt w 11 3, t := ElemType.ofCode (w / 2 ^ 7), bs := bitAt w 6, cs := bitAt w 5
    ci := bitAt w 4, q := fieldAt w 1 3, e := bitAt w 0, km := km }

/-- Format I (R59). -/
def unpackI (w : Nat) (km : BitVec 4 := 0) : IForm :=
  { g := unpackG w, u := bitAt w 48, d := fieldAt w 40 8, a := fieldAt w 32 8, imm := fieldAt w 8 24
    t := ElemType.ofCode (w / 2 ^ 4), q := fieldAt w 1 3, e := bitAt w 0, km := km }

/-- Format M (R60). -/
def unpackM (w : Nat) (km : BitVec 4 := 0) : MForm :=
  { g := unpackG w, u := bitAt w 48, d := fieldAt w 40 8, a := fieldAt w 32 8, b := fieldAt w 24 8, ofs := fieldAt w 12 12
    sc := fieldAt w 9 3, qa := fieldAt w 7 2, t := ElemType.ofCode (w / 2 ^ 3), iv := bitAt w 2, qb := bitAt w 1
    e := bitAt w 0, km := km }

/-- Format B (R61). -/
def unpackB (w : Nat) (km : BitVec 4 := 0) : BForm :=
  { g := unpackG w, u := bitAt w 48, d := fieldAt w 40 8, a := fieldAt w 32 8, ofs := fieldAt w 8 24, q := fieldAt w 1 7
    e := bitAt w 0, km := km }

/-- Format A (R62). -/
def unpackA (w : Nat) (km : BitVec 4 := 0) : AForm :=
  { g := unpackG w, u := bitAt w 48, d := fieldAt w 40 8, a := fieldAt w 32 8, b := fieldAt w 24 8, c := fieldAt w 16 8
    sfs := fieldAt w 14 2, m := fieldAt w 11 3, t := ElemType.ofCode (w / 2 ^ 7), q := fieldAt w 1 6
    e := bitAt w 0, km := km }

/-- Format S (R63). -/
def unpackS (w : Nat) (km : BitVec 4 := 0) : SForm :=
  { g := unpackG w, u := bitAt w 48, d := fieldAt w 40 8, a := fieldAt w 32 8, sel := fieldAt w 16 16
    e := bitAt w 0, km := km }

/-- Bits [15:1] of a word of format S are zero (R63). -/
def sPadOk (w : Nat) : Bool := bitsAt w 1 15 == 0

/-- Opcode and fields of the word as an IOP, before any legality rule: `none` for a reserved opcode. -/
def readIop (w : Nat) (km : BitVec 4 := 0) : Option (Nat × Form) :=
  let opc := bitsAt w 54 10
  match formatOf opc with
  | none => none
  | some .r => some (opc, .r (unpackR w km))
  | some .i => some (opc, .i (unpackI w km))
  | some .m => some (opc, .m (unpackM w km))
  | some .b => some (opc, .b (unpackB w km))
  | some .a => some (opc, .a (unpackA w km))
  | some .s => if sPadOk w then some (opc, .s (unpackS w km)) else none

/-- Opcode and fields of a J64 word that is not a clause header, when they are legal (R92). -/
def readJ64 (w : Nat) : Option (Nat × Form) :=
  match readIop w with
  | some p => if partsOk p.1 p.2 then some p else none
  | none => none

/-- A J64 word that is not a clause header: its IOP, when it is legal (R92). -/
noncomputable def decodeJ64 (w : Nat) : Option Instr := (readJ64 w).bind fun p => ofParts p.1 p.2

/-! ### Clause headers -/

/-- What a clause header says (R67, R80): the guest instructions of its span, the flags to wait on, its set-flags, whether the
region is relaxed, and the yield hint. -/
structure Header where
  len  : Nat
  waits : BitVec 12
  sf1  : Option (BitVec 4)
  sf2  : Option (BitVec 4)
  rlx  : Bool
  yld  : Bool
deriving DecidableEq, Repr

/-- A J64 clause header (R67) with legal fields of its own (R68, first three rules; R11 for RSVD). -/
def parseHeader (w : Nat) : Option Header :=
  if bitsAt w 54 10 == 0x3FF && bitsAt w 0 25 == 0
      && headerFieldsOk (bitsAt w 49 5) (bitAt w 36) (bitsAt w 32 4) (bitAt w 31) (bitsAt w 27 4) then
    some { len := bitsAt w 49 5, waits := fieldAt w 37 12
           sf1 := if bitAt w 36 then some (fieldAt w 32 4) else none
           sf2 := if bitAt w 31 then some (fieldAt w 27 4) else none
           rlx := bitAt w 26, yld := bitAt w 25 }
  else none

/-- The header of a J32 header word (R80). -/
def j32HeaderOf (glen : BitVec 5) (waits : BitVec 12) (sf1 sf2 : BitVec 4) (rlx : Bool) : Header :=
  { len := glen.toNat, waits := waits, sf1 := if sf1 = 15 then none else some sf1
    sf2 := if sf2 = 15 then none else some sf2, rlx := rlx, yld := false }

/-! ### J32 -/

/-- Where a J32-R form takes C from (R123). -/
inductive J32C where
  | none
  /-- C is D, an accumulating source -/
  | acc
  /-- an immediate from bits [9:4], up to a limit -/
  | imm (hi : Nat)
  /-- the implied uniform s31 -/
  | s31
  /-- a literal of the slot image -/
  | lit (n : Nat)
deriving DecidableEq, Repr

/-- A J32-R form: the IOP its word expands to, with the qualifier and type of the IOP's first form (R123, R124). -/
structure J32Row where
  maj   : Nat
  minor : Nat
  opc   : Nat
  q     : Nat := 0
  t     : ElemType := .f64
  bs    : Bool := false
  c     : J32C := .none
deriving DecidableEq, Repr

/-- The rows of majors 0x01, 0x02, 0x08, 0x0C, 0x0D and 0x0F. -/
def j32RowsInt : List J32Row :=
  (((List.range 16).zip [0x040, 0x041, 0x048, 0x049, 0x046, 0x047, 0x050, 0x051, 0x052, 0x054, 0x055, 0x056, 0x057,
      0x044, 0x045, 0x05F]).flatMap fun (k, o) =>
    let bit := (6 ≤ k && k ≤ 12) || k == 15
    [{ maj := 0x01, minor := k, opc := o, t := if bit then .z32 else .s32 },
     { maj := 0x02, minor := k, opc := o, t := if bit then .z64 else .s64 }])
  ++ ((List.range 6).flatMap fun k =>
    [{ maj := 0x08, minor := k, opc := 0x04E, q := k, t := .s32 },
     { maj := 0x08, minor := k + 8, opc := 0x04E, q := k, t := .z32 }])
  ++ [{ maj := 0x0C, minor := 0, opc := 0x05C, t := .z32 }, { maj := 0x0C, minor := 1, opc := 0x05D, t := .z32 },
      { maj := 0x0C, minor := 2, opc := 0x05E, t := .z32 }, { maj := 0x0C, minor := 3, opc := 0x05B, t := .z32 },
      { maj := 0x0C, minor := 4, opc := 0x059, t := .z32 }, { maj := 0x0C, minor := 5, opc := 0x05A, t := .z32 },
      { maj := 0x0D, minor := 0, opc := 0x062, t := .z32 }, { maj := 0x0D, minor := 1, opc := 0x063, t := .z32 },
      { maj := 0x0D, minor := 2, opc := 0x064, t := .z32, bs := true }, { maj := 0x0D, minor := 3, opc := 0x067, t := .z32 },
      { maj := 0x0F, minor := 0, opc := 0x04A, t := .s32, c := .acc }, { maj := 0x0F, minor := 1, opc := 0x042, t := .s32, c := .acc },
      { maj := 0x0F, minor := 2, opc := 0x04C, t := .z32, c := .acc },
      { maj := 0x0F, minor := 3, opc := 0x04D, q := 3, t := .s32, c := .acc }]

/-- The rows of majors 0x10, 0x12, 0x14, 0x15, 0x16 and 0x28. -/
def j32RowsFlt : List J32Row :=
  (((List.range 5).zip [0x0C0, 0x0C1, 0x0C2, 0x0C4, 0x0C5]).flatMap fun (k, o) =>
    [{ maj := 0x10, minor := k, opc := o, t := .f32 }, { maj := 0x12, minor := k, opc := o, t := .f64 }])
  ++ (((List.range 6).zip [0x0D4, 0x0D5, 0x0D6, 0x0D7, 0x0D8, 0x0D9]).flatMap fun (k, o) =>
    let c : J32C := if k = 2 || k = 5 then .acc else .none
    [{ maj := 0x14, minor := k, opc := o, t := .f16, c := c }, { maj := 0x14, minor := k + 8, opc := o, t := .bf16, c := c }])
  ++ ((List.range 8).flatMap fun k =>
    [{ maj := 0x15, minor := k, opc := 0x0C6, q := k, t := .f32 }, { maj := 0x15, minor := k + 8, opc := 0x0C6, q := k, t := .f64 }])
  ++ (((List.range 8).zip [0x0CF, 0x0D0, 0x0D1, 0x0D2, 0x0D3, 0x0CC, 0x0CD, 0x0CE]).map fun (k, o) =>
    { maj := 0x16, minor := k, opc := o, t := .f32 })
  ++ (((List.range 4).zip [0x0DE, 0x0DF, 0x0E0, 0x0E1]).map fun (k, o) =>
    { maj := 0x28, minor := k, opc := o, t := .e4m3, bs := true })
  ++ [{ maj := 0x28, minor := 4, opc := 0x0E2, t := .f32 }]

/-- The rows of majors 0x23, 0x26, 0x27, 0x2A and 0x2B (its last three). -/
def j32RowsSync : List J32Row :=
  (((List.range 4).zip [0x00E, 0x00F, 0x010, 0x011]).map fun (k, o) => { maj := 0x23, minor := k, opc := o })
  ++ ((List.range 6).map fun k => { maj := 0x26, minor := k, opc := 0x1EA, q := k, c := .lit 0 })
  ++ [{ maj := 0x26, minor := 8, opc := 0x1E0, q := 5 }, { maj := 0x26, minor := 9, opc := 0x1E1, q := 5, c := .lit 0 },
      { maj := 0x27, minor := 0, opc := 0x1F0, bs := true }, { maj := 0x27, minor := 1, opc := 0x1EF },
      { maj := 0x27, minor := 2, opc := 0x1EE, bs := true }, { maj := 0x27, minor := 3, opc := 0x1F1, bs := true },
      { maj := 0x2A, minor := 0, opc := 0x141 }, { maj := 0x2A, minor := 1, opc := 0x142 },
      { maj := 0x2A, minor := 2, opc := 0x143 }, { maj := 0x2A, minor := 3, opc := 0x146, c := .imm 15 },
      { maj := 0x2A, minor := 4, opc := 0x147, c := .imm 15 }, { maj := 0x2A, minor := 5, opc := 0x148, t := .bf16, c := .imm 63 },
      { maj := 0x2B, minor := 5, opc := 0x225 }, { maj := 0x2B, minor := 6, opc := 0x226 },
      { maj := 0x2B, minor := 7, opc := 0x227 }]

/-- The rows of majors 0x2C, 0x2D, 0x2E and 0x2F. -/
def j32RowsSys : List J32Row :=
  [{ maj := 0x2C, minor := 0, opc := 0x230, t := .z32, bs := true }, { maj := 0x2C, minor := 1, opc := 0x231, bs := true },
   { maj := 0x2C, minor := 2, opc := 0x232, t := .z32, bs := true }]
  ++ (((List.range 5).zip [0x233, 0x234, 0x235, 0x236, 0x237]).map fun (k, o) => { maj := 0x2C, minor := k + 3, opc := o })
  ++ [{ maj := 0x2D, minor := 0, opc := 0x250, bs := true }]
  ++ (((List.range 5).zip [0x251, 0x252, 0x253, 0x254, 0x255]).map fun (k, o) => { maj := 0x2D, minor := k + 1, opc := o })
  ++ [{ maj := 0x2D, minor := 6, opc := 0x256, bs := true }, { maj := 0x2D, minor := 7, opc := 0x257 },
      { maj := 0x2D, minor := 8, opc := 0x258 },
      { maj := 0x2E, minor := 0, opc := 0x260, bs := true }, { maj := 0x2E, minor := 1, opc := 0x261, bs := true }]
  ++ (((List.range 6).zip [0x262, 0x263, 0x264, 0x265, 0x266, 0x267]).map fun (k, o) => { maj := 0x2E, minor := k + 2, opc := o })
  ++ [{ maj := 0x2F, minor := 0, opc := 0x272, c := .imm 63 }, { maj := 0x2F, minor := 1, opc := 0x290, c := .imm 63 },
      { maj := 0x2F, minor := 2, opc := 0x291 }, { maj := 0x2F, minor := 3, opc := 0x292 },
      { maj := 0x2F, minor := 4, opc := 0x293 }, { maj := 0x2F, minor := 5, opc := 0x241, c := .imm 15 },
      { maj := 0x2F, minor := 6, opc := 0x242 }, { maj := 0x2F, minor := 7, opc := 0x243, c := .imm 15 }]

/-- The J32-R forms that expand to one IOP of format R (R124). -/
def j32Rows : List J32Row := j32RowsInt ++ j32RowsFlt ++ j32RowsSync ++ j32RowsSys

/-- A J32 operand field of six bits under the class of its operand (R77, R78, R122). -/
def j32Field (o : Opd) (n : Nat) : Option (BitVec 8) :=
  match o with
  | .no => if n = 0 then some 0 else none
  | .v _ _ => some (BitVec.ofNat 8 n)
  | .u _ => if n < 32 then some (BitVec.ofNat 8 n) else none
  | .pred => if n < 8 then some (if n = 7 then 15 else BitVec.ofNat 8 n) else none
  | .tensor | .flag => if n < 16 then some (BitVec.ofNat 8 n) else none
  | .acc | .accEven => if n < 8 then some (BitVec.ofNat 8 n) else none
  | .imm _ _ | .base => none

/-- The value of the C field of a J32-R form (R123); an immediate also leaves the form without a B field. -/
def j32CField (c : J32C) (sh : Shape) (d b : Nat) : Option (BitVec 8) :=
  match c with
  | .none => some 0
  | .acc => j32Field sh.c d
  | .imm hi => if b ≤ hi then some (BitVec.ofNat 8 b) else none
  | .s31 => some 31
  | .lit n => some (BitVec.ofNat 8 n)

/-- The IOP of a J32-R form (R123). -/
def j32Build (r : J32Row) (g : BitVec 4) (d a b : Nat) : Option (Nat × Form) :=
  let isImm := match r.c with | .imm _ => true | .lit _ => true | _ => false
  let x : RForm := { g := j32Guard g, q := BitVec.ofNat 3 r.q, t := r.t, bs := r.bs, ci := isImm }
  match shapeR r.opc x with
  | none => none
  | some sh =>
    let ob := match r.c with | .imm _ => Opd.imm 0 255 | _ => sh.b
    match j32Field sh.d d, j32Field sh.a a, (if ob = Opd.imm 0 255 then some 0 else j32Field ob b), j32CField r.c sh d b with
    | some d', some a', some b', some c' => some (r.opc, .r { x with d := d', a := a', b := b', c := c' })
    | _, _, _, _ => none

/-- SEL, CVT, MFSR and MTSR of J32, whose fields R124 lays out by themselves. -/
def j32Special (maj minor : Nat) (g : BitVec 4) (d a b : Nat) : Option (Nat × Form) :=
  if maj = 0x0E then
    (if minor < 8 then
      some (0x04F, .r { g := j32Guard g, d := BitVec.ofNat 8 d, a := BitVec.ofNat 8 a, b := BitVec.ofNat 8 b, c := j32Pred (BitVec.ofNat 3 minor), t := .z32 })
     else none)
  else if maj = 0x17 then
    (if b < 16 then
      some (0x0DA, .r { g := j32Guard g, d := BitVec.ofNat 8 d, a := BitVec.ofNat 8 a, c := BitVec.ofNat 8 b, t := ElemType.ofCode minor })
     else none)
  else if maj = 0x2F && minor == 8 then
    (match j32Field (if selLane b then .v 1 1 else .u 1) d with
     | some d' => if a = 0 then some (0x270, .s { g := j32Guard g, d := d', sel := BitVec.ofNat 16 b }) else none
     | none => none)
  else if maj = 0x2F && minor == 9 then
    (match j32Field (if selLane b then .v 1 1 else .u 1) a with
     | some a' => if d = 0 then some (0x271, .s { g := j32Guard g, a := a', sel := BitVec.ofNat 16 b }) else none
     | none => none)
  else none

/-- The forms of majors 0x29 and 0x2B of format A (R124): SFS is minor bit 3, and C is s31 where an operand needs it. -/
def j32Async (maj minor : Nat) (g : BitVec 4) (d a b : Nat) : Option (Nat × Form) :=
  let opc := if maj = 0x29 then (match minor % 8 with | 0 => 0x140 | 1 => 0x144 | 2 => 0x145 | 3 => 0x149 | 4 => 0x14A | _ => 0)
    else if maj = 0x2B then (match minor % 8 with | 0 => 0x220 | 1 => 0x221 | 2 => 0x222 | 3 => 0x223 | 4 => 0x224 | _ => 0)
    else 0
  let t : ElemType := if opc = 0x140 then .bf16 else if opc = 0x144 || opc = 0x145 then .f32 else if opc = 0x223 then .e4m3 else .f64
  let x : AForm := { g := j32Guard g, sfs := BitVec.ofNat 2 (minor / 8), t := t }
  match shapeA opc x with
  | none => none
  | some sh =>
    match j32Field sh.d d, j32Field sh.a a, j32Field sh.b b with
    | some d', some a', some b' =>
      some (opc, .a { x with d := d', a := a', b := b', c := if sh.c = .no then 0 else 31 })
    | _, _, _ => none

/-- The row of `rows` with these major and minor opcodes. -/
def findJ32 : List J32Row → Nat → Nat → Option J32Row
  | [], _, _ => none
  | r :: rest, maj, minor => if r.maj = maj && r.minor = minor then some r else findJ32 rest maj minor

/-- Opcode and fields of a J32-R word of a row without a constructor of its own. -/
def j32Core (w : Nat) : Option (Nat × Form) :=
  let maj := bitsAt w 26 6
  let minor := bitsAt w 0 4
  let g := fieldAt w 22 4
  let d := bitsAt w 16 6
  let a := bitsAt w 10 6
  let b := bitsAt w 4 6
  let i := match j32Special maj minor g d a b with
    | some i => some i
    | none => match j32Async maj minor g d a b with
      | some i => some i
      | none => match findJ32 j32Rows maj minor with
        | some r => j32Build r g d a b
        | none => none
  match i with
  | some p => if partsOk p.1 p.2 then some p else none
  | none => none

/-- The J32 word of a row with a constructor of its own, by its major opcode (R124), before the legality rules. -/
def j32Own (w : Nat) : Option Instr :=
  let g := fieldAt w 22 4
  let d := fieldAt w 16 6
  let a := fieldAt w 10 6
  match bitsAt w 26 6 with
  | 0x03 => some (.j32Iaddi g d a (fieldAt w 0 10))
  | 0x04 => some (.j32Andi g d a (fieldAt w 0 10))
  | 0x05 => some (.j32Ori g d a (fieldAt w 0 10))
  | 0x06 => some (.j32Xori g d a (fieldAt w 0 10))
  | 0x07 =>
    if bitsAt w 6 2 = 0 then
      (match bitsAt w 8 2 with
       | 0 => some (.j32ShlI g d a (fieldAt w 0 6))
       | 1 => some (.j32ShrI g d a (fieldAt w 0 6))
       | 2 => some (.j32SarI g d a (fieldAt w 0 6))
       | _ => some (.j32RotI g d a (fieldAt w 0 6)))
    else none
  | 0x09 => some (.j32Icmpi g (fieldAt w 19 3) (fieldAt w 16 3) a (fieldAt w 0 10))
  | 0x0A => some (.j32Movi g d (fieldAt w 0 16))
  | 0x0B => some (.j32Movhi g d (fieldAt w 0 16))
  | 0x11 => if bitAt w 3 then none else some (.j32Ffma g d a (fieldAt w 4 6) (fieldAt w 0 3))
  | 0x13 => if bitAt w 3 then none else some (.j32Ffma64 g d a (fieldAt w 4 6) (fieldAt w 0 3))
  | 0x18 => some (.j32Ld g d (fieldAt w 11 5) (fieldAt w 9 2) (fieldAt w 0 9))
  | 0x19 => some (.j32St g d (fieldAt w 11 5) (fieldAt w 9 2) (fieldAt w 0 9))
  | 0x1A => some (.j32Ldx g d (fieldAt w 11 5) (fieldAt w 5 6) (fieldAt w 3 2) (fieldAt w 0 3))
  | 0x1B => some (.j32Stx g d (fieldAt w 11 5) (fieldAt w 5 6) (fieldAt w 3 2) (fieldAt w 0 3))
  | 0x1C => some (.j32Ldu g d (fieldAt w 11 5) (fieldAt w 9 2) (fieldAt w 0 9))
  | 0x1D => some (.j32Stu g d (fieldAt w 11 5) (fieldAt w 9 2) (fieldAt w 0 9))
  | 0x1E => some (.j32Nld g d (fieldAt w 11 5) (fieldAt w 9 2) (fieldAt w 0 9))
  | 0x1F => some (.j32Nst g d (fieldAt w 11 5) (fieldAt w 9 2) (fieldAt w 0 9))
  | 0x20 => some (.j32Bra g (fieldAt w 0 22))
  | 0x21 => some (.j32Call g (fieldAt w 18 4) (fieldAt w 14 4) (fieldAt w 0 14))
  | 0x22 =>
    (match bitsAt w 0 22 with
     | 0 => some (.j32Nop g)
     | 1 => some (.j32Ret g)
     | 2 => some (.j32Exit g)
     | 3 => some (.j32Yield g)
     | _ => if bitsAt w 0 10 = 4 && bitsAt w 16 6 = 0 then some (.j32Brx g a) else none)
  | 0x24 => some (.j32Loop g (fieldAt w 0 22))
  | 0x25 => some (.j32Atom g d (fieldAt w 11 5) (fieldAt w 9 2) (fieldAt w 0 9))
  | 0x3E => some (.j32Emu g (fieldAt w 0 22))
  | 0x3F => some (.j32Header (fieldAt w 21 5) (fieldAt w 9 12) (fieldAt w 5 4) (fieldAt w 1 4) (bitAt w 0))
  | _ => none

/-- A J32 word (R79, R124): a row of its own, or the IOP that it expands to; `none` when illegal. -/
noncomputable def decodeJ32 (w : Nat) : Option Instr :=
  match j32Own w with
  | some i => if i.wf then some i else none
  | none => (j32Core w).bind fun p => ofParts p.1 p.2

/-! ### J16 -/

/-- MISC of J16 by its sub-operation (R126). -/
def j16Misc (d a : BitVec 4) : Nat → Option Instr
  | 0 => some (.j16Mov d a)
  | 1 => some (.j16And d a)
  | 2 => some (.j16Or d a)
  | 3 => some (.j16Xor d a)
  | 4 => some (.j16Shl d a)
  | 5 => some (.j16Shr d a)
  | 6 => some (.j16Sar d a)
  | 7 => some (.j16Imul d a)
  | 8 => some (.j16Fsub d a)
  | 9 => some (.j16Fmin d a)
  | 10 => some (.j16Fmax d a)
  | 11 => some (.j16Ineg d a)
  | 12 => some (.j16CvtF32S32 d a)
  | 13 => some (.j16CvtS32F32 d a)
  | _ => none

/-- SYS of J16 by its sub-operation and operand (R126). -/
def j16Sys (w : Nat) : Option Instr :=
  match bitsAt w 8 4 with
  | 0 => if bitsAt w 0 8 = 0 then some .j16Nop else none
  | 1 => if bitsAt w 0 8 = 0 then some .j16Ret else none
  | 2 => if bitsAt w 0 8 = 0 then some .j16Exit else none
  | 3 => if bitsAt w 3 5 = 0 then some (.j16Bar (fieldAt w 0 3)) else none
  | 4 => if bitsAt w 0 8 = 0 then some .j16Yield else none
  | 5 => some (.j16Emu (fieldAt w 0 8))
  | _ => none

/-- A J16 word before the legality rules of its expansion (R82, R126). -/
def readJ16 (w : Nat) : Option Instr :=
  let d := fieldAt w 8 4
  let a := fieldAt w 4 4
  let b := fieldAt w 0 4
  match bitsAt w 12 4 with
  | 0x1 => some (.j16Fadd d a b)
  | 0x2 => some (.j16Fmul d a b)
  | 0x3 => some (.j16Ffma d a b)
  | 0x4 => some (.j16Iadd d a b)
  | 0x5 => some (.j16Isub d a b)
  | 0x6 => j16Misc d a (bitsAt w 0 4)
  | 0x7 => some (.j16Movi d (fieldAt w 0 8))
  | 0x8 => some (.j16Ld d a b)
  | 0x9 => some (.j16St d a b)
  | 0xA => some (.j16Ldx d a b)
  | 0xB => some (.j16Stx d a b)
  | 0xC => some (.j16Bra (fieldAt w 0 12))
  | 0xD => some (.j16Brp (bitAt w 11) (fieldAt w 0 11))
  | 0xE => some (.j16Icmp d a b)
  | 0xF => j16Sys w
  | _ => none

/-- A J16 word (R126); `none` when illegal. -/
def decodeJ16 (w : Nat) : Option Instr :=
  match readJ16 w with
  | some i => if i.wf then some i else none
  | none => none

/-- What the decoder reads from a word of the opcode table with `nbits` bits: J16, J32 and J64 words have 16, 32 and 64 bits,
and their bits are numbered as the table numbers them. -/
noncomputable def decodeTableWord (nbits w : Nat) : Option Instr :=
  if nbits = 16 then decodeJ16 w else if nbits = 32 then decodeJ32 w else if nbits = 64 then decodeJ64 w else none

/-! ### Installed personalities -/

/-- A personality's tables as PINSTALL wrote them (R93-R104): 64-bit words of the length entries, 32-bit pattern words, the four
words of each plane, the seventeen words of each template. -/
structure Tables where
  lrs     : List Nat
  hdrs    : Bool
  ialign  : Nat
  pats    : List Nat
  planes  : List (List Nat)
  tmpls   : List (List Nat)
deriving DecidableEq, Repr

/-- Why a word is not decoded (R109); RANGE and IOPRULE name the slot. -/
inductive DecErr where
  | noLength
  | noPlane
  | illegal
  | range (slot : Nat)
  | iopRule (slot : Nat)
deriving DecidableEq, Repr

/-- A decoded guest word: a row of J32 or J16, the slots of an expansion (one for an IOP of J64) as opcode and fields, an emulation
word, or a clause header. -/
inductive Guest where
  | row (i : Instr) (bytes : Nat)
  | slots (is : List (Nat × Form)) (bytes : Nat)
  | emu (e : EmuWord)
  | header (h : Header) (bytes : Nat)
deriving DecidableEq, Repr

/-- The bytes of a guest word. -/
def Guest.bytes : Guest → Nat
  | .row _ n => n
  | .slots _ n => n
  | .emu e => e.bits / 8
  | .header _ n => n

/-- The length class of a halfword: 0 to 3 for 16, 32, 48 and 64 bits (R95). -/
def lengthClass : List Nat → Nat → Option Nat
  | [], _ => none
  | e :: rest, h =>
    if bitAt e 31 && (h &&& bitsAt e 48 16) == bitsAt e 32 16 then some (bitsAt e 28 2) else lengthClass rest h

/-- `x` of `n` bits as a signed number. -/
def toSigned (x n : Nat) : Int := if x < 2 ^ (n - 1) then (x : Int) else (x : Int) - 2 ^ n

/-- The range of a register class of OP 3 (R97). -/
def patClassOk (cls : Nat) (v : Int) : Bool :=
  match cls with
  | 0 => decide (v < 256)
  | 1 => decide (v < 255) && v % 2 == 0
  | 2 => decide (v < 64)
  | 3 | 4 => decide (v < 16)
  | 5 => decide (v < 8)
  | 6 => decide (v < 12)
  | _ => false

/-- The field value of a pattern (R97); `none` for RANGE. -/
def patValue (pat w : Nat) : Option Int :=
  let width := bitsAt pat 20 6 + 1
  let raw := bitsAt w (bitsAt pat 26 6) width
  let x : Int := if bitAt pat 19 then toSigned raw width else raw
  let arg := bitsAt pat 8 8
  match bitsAt pat 16 3 with
  | 0 => some x
  | 1 => some (x * 2 ^ (arg % 64))
  | 2 => some (x + toSigned arg 8)
  | 3 =>
    let v : Int := if arg % 2 = 1 && raw == 2 ^ width - 1 then 15 else x
    if patClassOk (arg / 16) v then some v else none
  | 4 => some (if raw = 0 then 2 ^ (width + arg % 64) else x * 2 ^ (arg % 64))
  | _ => none

/-- The value of pattern `i` of the tables on `w`. -/
def Tables.value (t : Tables) (i w : Nat) : Option Int := (t.pats[i]?).bind (patValue · w)

/-- The plane that decides `w` of length class `cls` (R99). -/
def matchPlane : List (List Nat) → Nat → Nat → Option (List Nat)
  | [], _, _ => none
  | p :: rest, w, cls =>
    if bitsAt (p.getD 2 0) 62 2 != 0 && bitAt (p.getD 3 0) (60 + cls) && (w &&& p.getD 0 0) == p.getD 1 0 then some p
    else matchPlane rest w cls

/-- The lowest bit, the width and the signedness of a hole target in the format of an opcode (R101). -/
def holeTarget (fm : Format) (code : Nat) : Option (Nat × Nat × Bool) :=
  match code, fm with
  | 1, _ => some (40, 8, false)
  | 2, _ => some (32, 8, false)
  | 3, .r | 3, .m | 3, .a => some (24, 8, false)
  | 4, .r | 4, .a => some (16, 8, false)
  | 5, _ => some (49, 4, false)
  | 6, _ => some (53, 1, false)
  | 7, .i | 7, .b => some (8, 24, true)
  | 8, .m => some (12, 12, true)
  | 9, .s => some (16, 16, false)
  | 10, .r | 10, .a => some (7, 4, false)
  | 10, .i => some (4, 4, false)
  | 10, .m => some (3, 4, false)
  | 11, .r | 11, .a => some (11, 3, false)
  | 12, .r | 12, .i => some (1, 3, false)
  | 12, .a => some (1, 6, false)
  | 12, .b => some (1, 7, false)
  | 12, .m => some (7, 2, false)
  | _, _ => none

/-- Fills one hole of a slot image (R102): the value takes the place of the target's bits; `none` for RANGE. -/
def fillHole (t : Tables) (fm : Format) (w img hole : Nat) : Option Nat :=
  if bitsAt hole 12 4 = 0 then some img
  else match holeTarget fm (bitsAt hole 12 4), t.value (bitsAt hole 6 6) w with
    | some (lo, n, sgn), some v =>
      let ok := if sgn then decide (-(2 ^ (n - 1) : Int) ≤ v) && decide (v < 2 ^ (n - 1))
        else decide (0 ≤ v) && decide (v < 2 ^ n)
      if ok then some (img - bitsAt img lo n * 2 ^ lo + (v % 2 ^ n).toNat * 2 ^ lo) else none
    | _, _ => none

/-- Slot `i` of a template on `w` (R102), checked as an IOP (R108). -/
def buildSlot (t : Tables) (tm : List Nat) (w i : Nat) : Except DecErr (Nat × Form) :=
  let img := tm.getD (1 + i) 0
  let holes := tm.getD (9 + i) 0
  match formatOf (bitsAt img 54 10) with
  | none => .error (.iopRule i)
  | some fm =>
    match [0, 1, 2, 3].foldl (fun acc j => acc.bind fun x => fillHole t fm w x (bitsAt holes (16 * j) 16)) (some img) with
    | none => .error (.range i)
    | some x =>
      match readIop x (fieldAt (tm.getD 0 0) (24 + 4 * i) 4) with
      | none => .error (.iopRule i)
      | some p => if legal p.1 p.2 then .ok p else .error (.iopRule i)

/-- The slots of a template, in order: the first slot that fails, by RANGE or by IOPRULE, is reported. R108 does not say which of the two comes
first when different slots break each (DESIGN CHOICE, notes/assumptions/41.md). -/
def buildSlots (t : Tables) (tm : List Nat) (w : Nat) : Nat → Nat → Except DecErr (List (Nat × Form))
  | 0, _ => .ok []
  | n + 1, i =>
    match buildSlot t tm w i with
    | .error e => .error e
    | .ok s => match buildSlots t tm w n (i + 1) with
      | .error e => .error e
      | .ok rest => .ok (s :: rest)

/-- The clause header of a header template (R104). -/
def buildHeader (t : Tables) (tm : List Nat) (w : Nat) : Option Header :=
  let c := tm.getD 0 0
  match t.value (bitsAt c 18 6) w, t.value (bitsAt c 12 6) w, t.value (bitsAt c 6 6) w, t.value (bitsAt c 0 6) w with
  | some glen, some wt, some sf, some rl =>
    let sf1 := sf.toNat / 16
    let sf2 := sf.toNat % 16
    if decide (0 ≤ glen) && decide (0 ≤ wt) && decide (wt < 4096) && decide (0 ≤ sf) && decide (sf < 256)
        && decide (0 ≤ rl) && decide (rl < 2) && j32HeaderOk glen.toNat sf1 sf2 then
      some (j32HeaderOf (BitVec.ofNat 5 glen.toNat) (BitVec.ofNat 12 wt.toNat) (BitVec.ofNat 4 sf1) (BitVec.ofNat 4 sf2)
        (rl == 1))
    else none
  | _, _, _, _ => none

/-- The values of EF0 to EF7 of an emulation plane; `none` when one of them is out of range (R97, R108). -/
def emuValues (t : Tables) (res w : Nat) : Option (List (BitVec 64)) :=
  (List.range 8).foldr (fun i acc =>
    match t.value (bitsAt res (6 * i) 6) w, acc with
    | some v, some l => some (BitVec.ofInt 64 v :: l)
    | _, _ => none) (some [])

/-- Decodes a guest word through installed tables; `w8` is the eight bytes at the address read little-endian (R95-R104). -/
def decodeTables (t : Tables) (pid w8 : Nat) : Except DecErr Guest :=
  match lengthClass t.lrs (w8 % 2 ^ 16) with
  | none => .error .noLength
  | some cls =>
    let bits := 16 * (cls + 1)
    let w := w8 % 2 ^ bits
    match matchPlane t.planes w cls with
    | none => .error .noPlane
    | some p =>
      let res := p.getD 2 0
      match bitsAt res 62 2 with
      | 1 =>
        let tm := t.tmpls.getD (bitsAt res 48 10) []
        if bitAt (tm.getD 0 0) 60 then
          (match buildHeader t tm w with
           | some h => .ok (.header h (bits / 8))
           | none => .error (.range 0))
        else
          (match buildSlots t tm w (bitsAt (tm.getD 0 0) 61 3 + 1) 0 with
           | .ok is => .ok (.slots is (bits / 8))
           | .error e => .error e)
      | 2 =>
        (match emuValues t res w with
         | some ef => .ok (.emu { eclass := fieldAt res 58 4, ef := ef, word := BitVec.ofNat 64 w, bits := bits
                                  pid := BitVec.ofNat 4 pid })
         | none => .error (.range 0))
      | _ => .error .illegal

/-- The bytes of the guest word at an address, when its length is known: always 8, 4 and 2 for personalities 0, 1 and 2. -/
def guestLength (t : Option Tables) (pid w8 : Nat) : Option Nat :=
  if pid = 0 then some 8 else if pid = 1 then some 4 else if pid = 2 then some 2
  else (t.bind fun t => lengthClass t.lrs (w8 % 2 ^ 16)).map fun c => 2 * (c + 1)

/-- An optional row as a decoded word; the header and emulation words of J32 and J16 are such (R80, R105). -/
def asGuest (i : Option Instr) (bytes : Nat) : Except DecErr Guest :=
  match i with
  | some (.j32Header glen waits sf1 sf2 rlx) => .ok (.header (j32HeaderOf glen waits sf1 sf2 rlx) bytes)
  | some i => .ok (.row i bytes)
  | none => .error .illegal

/-- A J32 word as a decoded word. -/
def guestJ32 (w : Nat) : Except DecErr Guest :=
  match j32Own w with
  | some i => asGuest (if i.wf then some i else none) 4
  | none => match j32Core w with
    | some p => .ok (.slots [p] 4)
    | none => .error .illegal

/-- Decodes the guest word whose eight bytes are `w8` under a personality (R92, R95, R108). -/
def decodeGuest (t : Option Tables) (pid w8 : Nat) : Except DecErr Guest :=
  if pid = 0 then
    (match parseHeader w8 with
     | some h => .ok (.header h 8)
     | none => match readJ64 w8 with
       | some p => .ok (.slots [p] 8)
       | none => .error (.iopRule 0))
  else if pid = 1 then guestJ32 (w8 % 2 ^ 32)
  else if pid = 2 then asGuest (decodeJ16 (w8 % 2 ^ 16)) 2
  else match t with
    | some t => decodeTables t pid w8
    | none => .error .noLength

/-! ### Encoding -/

/-- A Boolean as a number. -/
def bit (b : Bool) : Nat := if b then 1 else 0

/-- OPC, the guard, U, D and A in their places (R52). -/
def packTop (opc : Nat) (f : Form) : Nat :=
  opc * 2 ^ 54 + bit f.g.inv * 2 ^ 53 + f.g.pred.toNat * 2 ^ 49 + bit f.u * 2 ^ 48 + f.d.toNat * 2 ^ 40 + f.fa.toNat * 2 ^ 32

/-- The fields below A by format (R57-R63). -/
def packLow : Form → Nat
  | .r x => x.b.toNat * 2 ^ 24 + x.c.toNat * 2 ^ 16 + x.h.toNat * 2 ^ 14 + x.m.toNat * 2 ^ 11 + x.t.code * 2 ^ 7
      + bit x.bs * 2 ^ 6 + bit x.cs * 2 ^ 5 + bit x.ci * 2 ^ 4 + x.q.toNat * 2 + bit x.e
  | .i x => x.imm.toNat * 2 ^ 8 + x.t.code * 2 ^ 4 + x.q.toNat * 2 + bit x.e
  | .m x => x.b.toNat * 2 ^ 24 + x.ofs.toNat * 2 ^ 12 + x.sc.toNat * 2 ^ 9 + x.qa.toNat * 2 ^ 7 + x.t.code * 2 ^ 3
      + bit x.iv * 2 ^ 2 + bit x.qb * 2 + bit x.e
  | .b x => x.ofs.toNat * 2 ^ 8 + x.q.toNat * 2 + bit x.e
  | .a x => x.b.toNat * 2 ^ 24 + x.c.toNat * 2 ^ 16 + x.sfs.toNat * 2 ^ 14 + x.m.toNat * 2 ^ 11 + x.t.code * 2 ^ 7
      + x.q.toNat * 2 + bit x.e
  | .s x => x.sel.toNat * 2 ^ 16 + bit x.e

/-- The J64 word of an IOP. -/
def packIop (opc : Nat) (f : Form) : Nat := packTop opc f + packLow f

/-- The J64 word of a clause header (R67). -/
def packHeader (h : Header) : Nat :=
  0x3FF * 2 ^ 54 + h.len * 2 ^ 49 + h.waits.toNat * 2 ^ 37 + bit h.sf1.isSome * 2 ^ 36 + (h.sf1.getD 0).toNat * 2 ^ 32
    + bit h.sf2.isSome * 2 ^ 31 + (h.sf2.getD 0).toNat * 2 ^ 27 + bit h.rlx * 2 ^ 26 + bit h.yld * 2 ^ 25

/-- The guest word of a row of J32 or J16 and its bits (R77-R82, R124, R126). -/
def encodeGuest : Instr → Option (Nat × Nat)
  | .j32Iaddi g d a imm => some (32, 0x0C000000 + g.toNat * 2 ^ 22 + d.toNat * 2 ^ 16 + a.toNat * 2 ^ 10 + imm.toNat)
  | .j32Andi g d a imm => some (32, 0x10000000 + g.toNat * 2 ^ 22 + d.toNat * 2 ^ 16 + a.toNat * 2 ^ 10 + imm.toNat)
  | .j32Ori g d a imm => some (32, 0x14000000 + g.toNat * 2 ^ 22 + d.toNat * 2 ^ 16 + a.toNat * 2 ^ 10 + imm.toNat)
  | .j32Xori g d a imm => some (32, 0x18000000 + g.toNat * 2 ^ 22 + d.toNat * 2 ^ 16 + a.toNat * 2 ^ 10 + imm.toNat)
  | .j32ShlI g d a n => some (32, 0x1C000000 + g.toNat * 2 ^ 22 + d.toNat * 2 ^ 16 + a.toNat * 2 ^ 10 + n.toNat)
  | .j32ShrI g d a n => some (32, 0x1C000100 + g.toNat * 2 ^ 22 + d.toNat * 2 ^ 16 + a.toNat * 2 ^ 10 + n.toNat)
  | .j32SarI g d a n => some (32, 0x1C000200 + g.toNat * 2 ^ 22 + d.toNat * 2 ^ 16 + a.toNat * 2 ^ 10 + n.toNat)
  | .j32RotI g d a n => some (32, 0x1C000300 + g.toNat * 2 ^ 22 + d.toNat * 2 ^ 16 + a.toNat * 2 ^ 10 + n.toNat)
  | .j32Icmpi g cc p a imm => some (32, 0x24000000 + g.toNat * 2 ^ 22 + cc.toNat * 2 ^ 19 + p.toNat * 2 ^ 16 + a.toNat * 2 ^ 10 + imm.toNat)
  | .j32Movi g d imm => some (32, 0x28000000 + g.toNat * 2 ^ 22 + d.toNat * 2 ^ 16 + imm.toNat)
  | .j32Movhi g d imm => some (32, 0x2C000000 + g.toNat * 2 ^ 22 + d.toNat * 2 ^ 16 + imm.toNat)
  | .j32Ffma g d a b m => some (32, 0x44000000 + g.toNat * 2 ^ 22 + d.toNat * 2 ^ 16 + a.toNat * 2 ^ 10 + b.toNat * 2 ^ 4 + m.toNat)
  | .j32Ffma64 g d a b m => some (32, 0x4C000000 + g.toNat * 2 ^ 22 + d.toNat * 2 ^ 16 + a.toNat * 2 ^ 10 + b.toNat * 2 ^ 4 + m.toNat)
  | .j32Ld g d base size ofs => some (32, 0x60000000 + g.toNat * 2 ^ 22 + d.toNat * 2 ^ 16 + base.toNat * 2 ^ 11 + size.toNat * 2 ^ 9 + ofs.toNat)
  | .j32St g d base size ofs => some (32, 0x64000000 + g.toNat * 2 ^ 22 + d.toNat * 2 ^ 16 + base.toNat * 2 ^ 11 + size.toNat * 2 ^ 9 + ofs.toNat)
  | .j32Ldx g d base idx size ofs => some (32, 0x68000000 + g.toNat * 2 ^ 22 + d.toNat * 2 ^ 16 + base.toNat * 2 ^ 11 + idx.toNat * 2 ^ 5 + size.toNat * 2 ^ 3 + ofs.toNat)
  | .j32Stx g d base idx size ofs => some (32, 0x6C000000 + g.toNat * 2 ^ 22 + d.toNat * 2 ^ 16 + base.toNat * 2 ^ 11 + idx.toNat * 2 ^ 5 + size.toNat * 2 ^ 3 + ofs.toNat)
  | .j32Ldu g d base size ofs => some (32, 0x70000000 + g.toNat * 2 ^ 22 + d.toNat * 2 ^ 16 + base.toNat * 2 ^ 11 + size.toNat * 2 ^ 9 + ofs.toNat)
  | .j32Stu g d base size ofs => some (32, 0x74000000 + g.toNat * 2 ^ 22 + d.toNat * 2 ^ 16 + base.toNat * 2 ^ 11 + size.toNat * 2 ^ 9 + ofs.toNat)
  | .j32Nld g d base size ofs => some (32, 0x78000000 + g.toNat * 2 ^ 22 + d.toNat * 2 ^ 16 + base.toNat * 2 ^ 11 + size.toNat * 2 ^ 9 + ofs.toNat)
  | .j32Nst g d base size ofs => some (32, 0x7C000000 + g.toNat * 2 ^ 22 + d.toNat * 2 ^ 16 + base.toNat * 2 ^ 11 + size.toNat * 2 ^ 9 + ofs.toNat)
  | .j32Bra g ofs => some (32, 0x80000000 + g.toNat * 2 ^ 22 + ofs.toNat)
  | .j32Call g slide frame ofs => some (32, 0x84000000 + g.toNat * 2 ^ 22 + slide.toNat * 2 ^ 18 + frame.toNat * 2 ^ 14 + ofs.toNat)
  | .j32Nop g => some (32, 0x88000000 + g.toNat * 2 ^ 22)
  | .j32Ret g => some (32, 0x88000001 + g.toNat * 2 ^ 22)
  | .j32Exit g => some (32, 0x88000002 + g.toNat * 2 ^ 22)
  | .j32Yield g => some (32, 0x88000003 + g.toNat * 2 ^ 22)
  | .j32Brx g a => some (32, 0x88000004 + g.toNat * 2 ^ 22 + a.toNat * 2 ^ 10)
  | .j32Loop g ofs => some (32, 0x90000000 + g.toNat * 2 ^ 22 + ofs.toNat)
  | .j32Atom g d base size ofs => some (32, 0x94000000 + g.toNat * 2 ^ 22 + d.toNat * 2 ^ 16 + base.toNat * 2 ^ 11 + size.toNat * 2 ^ 9 + ofs.toNat)
  | .j32Emu c pay => some (32, 0xF8000000 + c.toNat * 2 ^ 22 + pay.toNat)
  | .j32Header glen waits sf1 sf2 rlx => some (32, 0xFC000000 + glen.toNat * 2 ^ 21 + waits.toNat * 2 ^ 9 + sf1.toNat * 2 ^ 5 + sf2.toNat * 2 ^ 1 + bit rlx)
  | .j16Fadd d a b => some (16, 0x1000 + d.toNat * 2 ^ 8 + a.toNat * 2 ^ 4 + b.toNat)
  | .j16Fmul d a b => some (16, 0x2000 + d.toNat * 2 ^ 8 + a.toNat * 2 ^ 4 + b.toNat)
  | .j16Ffma d a b => some (16, 0x3000 + d.toNat * 2 ^ 8 + a.toNat * 2 ^ 4 + b.toNat)
  | .j16Iadd d a b => some (16, 0x4000 + d.toNat * 2 ^ 8 + a.toNat * 2 ^ 4 + b.toNat)
  | .j16Isub d a b => some (16, 0x5000 + d.toNat * 2 ^ 8 + a.toNat * 2 ^ 4 + b.toNat)
  | .j16Mov d a => some (16, 0x6000 + d.toNat * 2 ^ 8 + a.toNat * 2 ^ 4)
  | .j16And d a => some (16, 0x6001 + d.toNat * 2 ^ 8 + a.toNat * 2 ^ 4)
  | .j16Or d a => some (16, 0x6002 + d.toNat * 2 ^ 8 + a.toNat * 2 ^ 4)
  | .j16Xor d a => some (16, 0x6003 + d.toNat * 2 ^ 8 + a.toNat * 2 ^ 4)
  | .j16Shl d a => some (16, 0x6004 + d.toNat * 2 ^ 8 + a.toNat * 2 ^ 4)
  | .j16Shr d a => some (16, 0x6005 + d.toNat * 2 ^ 8 + a.toNat * 2 ^ 4)
  | .j16Sar d a => some (16, 0x6006 + d.toNat * 2 ^ 8 + a.toNat * 2 ^ 4)
  | .j16Imul d a => some (16, 0x6007 + d.toNat * 2 ^ 8 + a.toNat * 2 ^ 4)
  | .j16Fsub d a => some (16, 0x6008 + d.toNat * 2 ^ 8 + a.toNat * 2 ^ 4)
  | .j16Fmin d a => some (16, 0x6009 + d.toNat * 2 ^ 8 + a.toNat * 2 ^ 4)
  | .j16Fmax d a => some (16, 0x600A + d.toNat * 2 ^ 8 + a.toNat * 2 ^ 4)
  | .j16Ineg d a => some (16, 0x600B + d.toNat * 2 ^ 8 + a.toNat * 2 ^ 4)
  | .j16CvtF32S32 d a => some (16, 0x600C + d.toNat * 2 ^ 8 + a.toNat * 2 ^ 4)
  | .j16CvtS32F32 d a => some (16, 0x600D + d.toNat * 2 ^ 8 + a.toNat * 2 ^ 4)
  | .j16Movi d imm => some (16, 0x7000 + d.toNat * 2 ^ 8 + imm.toNat)
  | .j16Ld d base ofs => some (16, 0x8000 + d.toNat * 2 ^ 8 + base.toNat * 2 ^ 4 + ofs.toNat)
  | .j16St d base ofs => some (16, 0x9000 + d.toNat * 2 ^ 8 + base.toNat * 2 ^ 4 + ofs.toNat)
  | .j16Ldx d base idx => some (16, 0xA000 + d.toNat * 2 ^ 8 + base.toNat * 2 ^ 4 + idx.toNat)
  | .j16Stx d base idx => some (16, 0xB000 + d.toNat * 2 ^ 8 + base.toNat * 2 ^ 4 + idx.toNat)
  | .j16Bra ofs => some (16, 0xC000 + ofs.toNat)
  | .j16Brp inv ofs => some (16, 0xD000 + bit inv * 2 ^ 11 + ofs.toNat)
  | .j16Icmp a b cc => some (16, 0xE000 + a.toNat * 2 ^ 8 + b.toNat * 2 ^ 4 + cc.toNat)
  | .j16Nop => some (16, 0xF000)
  | .j16Ret => some (16, 0xF100)
  | .j16Exit => some (16, 0xF200)
  | .j16Bar scope => some (16, 0xF300 + scope.toNat)
  | .j16Yield => some (16, 0xF400)
  | .j16Emu pay => some (16, 0xF500 + pay.toNat)
  | _ => none

/-- The bits and the word of a well-formed instruction: a J64 word for an IOP, a J32 or J16 word for a row of theirs; `none`
for a step of the machine, which has no word. -/
def encode (i : Instr) : Option (Nat × Nat) :=
  match i.parts with
  | some (opc, f) => some (64, packIop opc f)
  | none => encodeGuest i

end Sys2Proof
end

