-- ==== Sys2Proof/Word.lean ====
section
/-!
DEFINITION. The word types of the machine.
-/

namespace Sys2Proof

/-- One byte of memory. -/
abbrev Byte := BitVec 8

/-- One slot of a lane's vector stack (R147, 04_control.md). -/
abbrev Word32 := BitVec 32

/-- One uniform register, a register of a warp or an address (R173, 05_integer.md). -/
abbrev Word64 := BitVec 64

end Sys2Proof
end

