-- ==== Sys2Proof/Machine/Map.lean ====
section
/-!
DEFINITION. Sparse maps from numbers: lists of key and value pairs in one canonical form, keys strictly rising and no entry equal
to the value that an absent key reads as. Memory, register files and tables of named objects are such maps.
-/

namespace Sys2Proof.Machine

/-- A sparse map. -/
abbrev SMap (α : Type) := List (Nat × α)

namespace SMap

variable {α : Type}

/-- The entry of a key. -/
def find? : SMap α → Nat → Option α
  | [], _ => none
  | (k, v) :: rest, i => if i = k then some v else find? rest i

/-- The value of a key, `d` when it has no entry. -/
def get (d : α) (m : SMap α) (i : Nat) : α := (find? m i).getD d

/-- Replaces or adds an entry, keeping the keys in order. -/
def insert : SMap α → Nat → α → SMap α
  | [], i, x => [(i, x)]
  | (k, v) :: rest, i, x =>
    if i < k then (i, x) :: (k, v) :: rest
    else if i = k then (i, x) :: rest
    else (k, v) :: insert rest i x

/-- Removes an entry. -/
def erase (m : SMap α) (i : Nat) : SMap α := m.filter fun kv => kv.1 != i

/-- Writes a value; writing the default removes the entry, so that equal maps are equal lists. -/
def put [DecidableEq α] (d : α) (m : SMap α) (i : Nat) (x : α) : SMap α :=
  if x = d then erase m i else insert m i x

/-- Changes the entry of a key that has one. -/
def adjust (m : SMap α) (i : Nat) (f : α → α) : SMap α :=
  match find? m i with
  | some v => insert m i (f v)
  | none => m

/-- Removes the entries of the keys from `lo` up to but not `hi`. -/
def clear (m : SMap α) (lo hi : Nat) : SMap α :=
  m.filter fun kv => kv.1 < lo || hi ≤ kv.1

/-- The keys strictly rise from `lo`. -/
def risingFrom : Nat → SMap α → Bool
  | _, [] => true
  | lo, (k, _) :: rest => decide (lo ≤ k) && risingFrom (k + 1) rest

/-- The canonical form: keys strictly rising, no entry equal to the default. -/
def wf [DecidableEq α] (d : α) (m : SMap α) : Bool :=
  risingFrom 0 m && m.all fun kv => kv.2 != d

end SMap

/-- A set of numbers as a rising list. -/
abbrev NSet := List Nat

namespace NSet

/-- Adds a number. -/
def insert : NSet → Nat → NSet
  | [], i => [i]
  | k :: rest, i => if i < k then i :: k :: rest else if i = k then k :: rest else k :: insert rest i

/-- Adds several numbers. -/
def insertAll (s : NSet) (xs : List Nat) : NSet := xs.foldl insert s

/-- Removes a number. -/
def erase (s : NSet) (i : Nat) : NSet := s.filter (· != i)

end NSet

end Sys2Proof.Machine
end

