-- ==== Sys2Proof/Machine/State.lean ====
section
/-!
DEFINITION. The state of the package as plain data, its value after reset, and the reasons for which a step can stop.
-/

namespace Sys2Proof.Machine

/-! ### Paths and warps -/

/-- The words of one vector slot, or SRSTATE: lane l at index l. -/
abbrev Row := List Word32

/-- A row of zeros: a slot that nothing has written (R147). -/
def zeroRow : Row := List.replicate 32 0

/-- The four access paths of a read bound (R295). -/
inductive Chan where
  | gen | mat | cpy | con
deriving DecidableEq, Repr

/-- The code of an access path (R306). -/
def Chan.code : Chan → Nat
  | .gen => 0 | .mat => 1 | .cpy => 2 | .con => 4

/-- The kind of an access for translation (R272). -/
inductive Access where
  | read | write | fetch
deriving DecidableEq, Repr

/-- A register as the interlocks of R39 know it: an absolute vector slot, a uniform, a predicate, a tensor record or an
accumulator. -/
inductive Reg where
  | slot (n : Nat)
  | uni (n : Nat)
  | pred (n : Nat)
  | tensor (n : Nat)
  | acc (n : Nat)
deriving DecidableEq, Repr

/-- What a near-store instruction does to a granule (R288). -/
inductive NearOp where
  | read | readFull | readEmpty | write | writeFull | writeEmpty | setEmpty | setFull
deriving DecidableEq, Repr

/-- One element of a near-store instruction: lane, offset, size and, for a store, its bytes. -/
structure NearElem where
  lane : Nat
  off  : Nat
  size : Nat
  data : List Byte := []
deriving DecidableEq, Repr

/-- A node descriptor (R380). -/
structure NodeDesc where
  addr  : Nat
  entry : Word64
  frame : Nat
  recsz : Nat
  tmr   : Nat
  depth : Nat
  ovf   : Nat
  ovsz  : Nat
deriving DecidableEq, Repr

/-- What a path waits for in place. -/
inductive Wait where
  /-- interlock: registers with a write outstanding (R39) -/
  | regs (rs : List Reg)
  /-- slots not in the register cache; the refill has not started (R347) -/
  | miss (slots : List Nat)
  /-- slots that a refill brings in (R152) -/
  | refill (slots : List Nat)
  /-- a page-table walk, by its number (R273) -/
  | walk (k : Nat)
  /-- one of the 64 walks of the cluster's walker (R273) -/
  | walkRoom
  /-- room in the page-request queue, and answers to the requests raised before it was full (R275) -/
  | requestRoom (vf : Nat) (rids : List Nat)
  /-- answers to page requests: VF and entry numbers (R275) -/
  | requests (vf : Nat) (rids : List Nat)
  /-- the clause header's flags (R67) -/
  | header (mask : BitVec 12)
  /-- WAITF (R163) -/
  | flags (mask : BitVec 12)
  /-- reads of the path that must have returned (R300) -/
  | reads (rids : List Nat)
  /-- writes that must have performed and reads that must have returned, by number, after what the instruction has published
  (R300-R304) -/
  | writes (wids rids : List Nat)
  /-- the publication of NPUSH, NLAUNCH or SYSCALL, with the descriptor that NPUSH has read (R378, R380, R387) -/
  | posting (wids : List Nat) (node : Option NodeDesc)
  /-- the read that an acquiring or sequentially consistent LDS has issued (R309) -/
  | loaded (rid : Nat)
  /-- BAR: the phase that the arrival counts in (R311) -/
  | barrier (key : BarrierKey) (phase : BitVec 32)
  /-- BARW (R311) -/
  | barrierCount (key : BarrierKey) (m : BitVec 32)
  /-- TBWAIT (R317) -/
  | tb (ofs : Nat) (m : BitVec 32)
  /-- near-store granules still to take their step, by their elements, and the lanes' bytes read so far (R288) -/
  | granules (op : NearOp) (todo : List NearElem) (got : List (Nat × List Byte))
  /-- a count of FCNT at 1,023 (R338) -/
  | flagRoom (f : Nat)
  /-- room in the engine queue (R226) or the copy queue (R319) -/
  | engineRoom
  | copyRoom
  /-- MWAIT: these batches are complete (R249) -/
  | batch (ns : List Nat)
  /-- room for a further closed batch (R248) -/
  | batchRoom
  /-- CPYW: these copies have completed (R333) -/
  | copies (ids : List Nat)
  /-- the peer's XPAIR (R355) -/
  | pair (peer : Nat)
  /-- the partner's XSHUF, by the number of this one (R356) -/
  | shuf (k : Nat)
  /-- SLEEP: issued at this cycle, with this time-out (R359); `out` is the result once the wait has ended -/
  | sleep (since timeout : Nat) (out : Option (Nat × Bool))
  /-- UIWAIT (R406); `out` is the result once the wait has ended -/
  | uiwait (since timeout : Nat) (out : Option Nat)
  /-- a node queue with no room for this many records of the node read at issue (R380, R382) -/
  | nodeRoom (q n : Nat) (node : NodeDesc)
  /-- no launch slot (R373) -/
  | launchSlot
  /-- NLWAIT (R374) -/
  | grid (slot : Nat)
  /-- SYSCALL: the slot must be idle (R378) -/
  | callIdle
  /-- SYSCALL: the reply (R378); `out` is the doorbell's reading -/
  | callReply (out : Option (Bool × Word64))
  /-- SYSRD (R379) -/
  | callRead
  /-- no other path of the warp in emulation state (R118) -/
  | emulation
  /-- TBWAIT: the record has been invalidated (R314) -/
  | tbGone
  /-- a register of another warp with a write outstanding, or whose record cannot be read (R353) -/
  | remote (w : Nat) (r : Reg)
  /-- a page that is flipping owner (R291) -/
  | flip (page : Nat)
  /-- HALT: paths of a warp that end their clauses (R426) -/
  | halting (wg w : Nat) (paths : BitVec 32)
  /-- PINSTALL: the number that it has claimed (R128) -/
  | installing (n : Nat)
  /-- CTXSV: the save of a workgroup (R430); `out` is its status -/
  | saving (wg : Nat) (out : Option Nat)
  /-- RLD, XSHUF or WAKE of a warp of a pre-empted workgroup, which must be restored (R430) -/
  | restored (wg : Nat)
  /-- MFSR of GSTAT (R200): operations of the warp that issued before it, those whose flags it returns, and the flags so far -/
  | gstatRead (ids counted : List Nat) (got : Word64)
  /-- MTSR of GSTAT (R200): operations that issued before it, whose flags it replaces -/
  | gstatWrite (ids : List Nat)
deriving DecidableEq, Repr

/-- The outcome of a walk that failed, kept for the path that asked (R272, R275): the page, the kind, the stage of a V = 0
failure with the page to name, or PROT. -/
inductive WalkFail where
  | absent (stage2 table : Bool) (page : Nat)
  | prot
  | unscanned
  /-- the reply INVALID (R277) -/
  | invalid
  /-- a host page revoked by a restart of its host (R437) -/
  | hostLost
deriving DecidableEq, Repr

/-- A failed walk as its path sees it. -/
structure WalkNote where
  va   : Nat
  kind : Access
  fail : WalkFail
deriving DecidableEq, Repr

/-- The keys of R143 under which a clause won issue: urgent, the cycle in which the pair became runnable, priority class, yielded. -/
structure StartKey where
  urgent : Bool := false
  age    : Nat := 0
  prio   : Nat := 0
  late   : Bool := false
deriving DecidableEq, Repr

/-- The clause that a path runs: guest instructions left, IOPs left of an implicit clause, its set-flags, and whether its
region is relaxed (R39, R67-R70); the guest words decoded for it, by address, with their bytes (R111, R113); and the keys under which
it started (R145). -/
structure Clause where
  left     : Nat
  iops     : Nat
  implicit : Bool
  sf1      : Option (BitVec 4)
  sf2      : Option (BitVec 4)
  rlx      : Bool
  code     : SMap (Guest × Nat) := []
  key      : StartKey := {}
deriving DecidableEq, Repr

/-- An interrupt frame that lanes of a path hold (R399): the call depth of its handler, the lanes, the handler's priority class (R143), and the
wait to take up again when it returns with RK = 1 (R402). -/
structure UiFrame where
  depth : Nat
  lanes : BitVec 32
  prio  : Nat
  wait  : Option Wait := none
deriving DecidableEq, Repr

/-- A path: an entry of the path table or of the path stack (R135), with what the scheduler and the debug unit keep of it. -/
structure Path where
  pc      : BitVec 57
  /-- bits [63:57] of a register-held target: the fetch faults unless they are zero (R159) -/
  pcHi    : BitVec 7 := 0
  lmask   : BitVec 32
  emu     : Bool := false
  park    : Bool := false
  depth   : BitVec 16 := 0
  wtop    : BitVec 17
  wbase   : BitVec 16 := 0
  iter    : BitVec 32 := 0
  /-- restart record (R279): RMASK, RPC, RV -/
  rst     : BitVec 64 := 0
  /-- bearing (R442) -/
  bearing : BitVec 64 := 0
  /-- STOPM and SKIPM (R448) -/
  stopped : Bool := false
  skip    : Bool := false
  /-- a comparator stopped it (R449) -/
  byMatch : Bool := false
  /-- HALT (R426) -/
  halted  : Bool := false
  clause  : Option Clause := none
  wait    : Option Wait := none
  /-- writes that every later write of the path follows (R302) -/
  after   : List Nat := []
  /-- failed walks of the instruction at PC -/
  notes   : List WalkNote := []
  /-- the interrupt frames of its lanes, the innermost first (R399, R402) -/
  frames  : List UiFrame := []
  /-- rank of R143: the cycle in which the pair became runnable, the yield rank, the passes of R144 -/
  age     : Option Nat := none
  yielded : Bool := false
  passed  : Nat := 0
  urgent  : Bool := false
  /-- the cycle in which it parked (R141) -/
  parkedAt : Nat := 0
deriving DecidableEq, Repr

/-- The registers of a warp that its context record saves (R336-R341). -/
structure Regs where
  u       : SMap Word64 := []
  pay     : SMap Word64 := []
  p       : SMap Word32 := []
  t       : SMap (BitVec 512) := []
  /-- row r of accumulator j at key 64 j + r (R227) -/
  acc     : SMap (List Word32) := []
  /-- the vector slots in the register cache (R147, R150) -/
  v       : SMap Row := []
  gmode   : Word64 := 1
  gstat   : Word64 := 0
  srst    : Row := zeroRow
  fcnt    : SMap Nat := []
  savectr : Word64 := 0
  empc    : Word64 := 0
  emword  : Word64 := 0
  eminfo  : Word32 := 0
  blast   : BitVec 16 := 0
  dorm    : BitVec 4 := 1
  wakep   : Bool := false
  ctxf    : Bool := false
  decl    : Word64 := 0
  ident   : Word64 := 0
  uimask  : Word64 := 0
  uipend  : Word64 := 0
  misscnt : Word32 := 0
  bring   : SMap Word64 := []
  prog    : Word64 := 0
  paths   : SMap Path := []
  /-- the path stack, the most recently pushed path first -/
  stack   : List Path := []
deriving DecidableEq, Repr

/-- Where a resident warp is: its core, its half and its warp slot (R30, R35). -/
structure Place where
  core : Nat
  half : Nat
  slot : Nat
deriving DecidableEq, Repr

/-- A trap (R411, R415): its code, info word, pc and path, and how far it has got. -/
structure Trap where
  code    : Nat
  info    : Word64
  pc      : BitVec 57
  path    : Nat
  lmask   : BitVec 32
  /-- the bytes of the guest instruction at `pc`, when it has been decoded -/
  len     : Option Nat := none
  nest    : Bool := false
  /-- a fault inside privileged mode, until TRAPNEST ends the mode (R414) -/
  inner   : Option FaultCode := none
  /-- the trap lane runs in privileged mode, as this warp of `State.warps` -/
  lane    : Option Nat := none
  /-- held for the supervisor: the ring slot of its report, once posted (R420) -/
  held    : Bool := false
  report  : Option Nat := none
  /-- the supervisor's reply to a pre-empted warp, kept until restore (R420) -/
  reply   : Option Nat := none
deriving DecidableEq, Repr

/-- What kind of warp this is. -/
inductive WarpKind where
  | ordinary
  /-- the trap lane of a warp in privileged mode (R413) -/
  | trapLane (target : Nat)
  /-- the firmware core's lane of a die (R33, R413) -/
  | firmware (die : Nat)
deriving DecidableEq, Repr

/-- A move that Foehn has in hand (R151): the spill or the refill of a slot, or the miss of a path whose refill has not started. -/
inductive FoehnMove where
  | spill (n : Nat)
  | refill (n : Nat)
  | miss (p : Nat)
deriving DecidableEq, Repr

/-- A launch slot of a warp (R373). -/
structure LaunchSlot where
  gen   : BitVec 12 := 0
  grid  : Option Nat := none
  done  : Option Word64 := none
deriving DecidableEq, Repr

/-- The times of a batch that its cartouche holds (R252). -/
structure BatchTimes where
  tclose : Nat := 0
  tin0 : Option Nat := none
  tin1 : Nat := 0
  tc0  : Option Nat := none
  tc1  : Nat := 0
  tout : Option Nat := none
  /-- cycles in which the engine stood idle for the batch's operands -/
  wait : Nat := 0
deriving DecidableEq, Repr

/-- An open or closed batch of the matrix class (R247-R252): operations still to complete, how many it holds, the operations whose
writes it made, the first error as code, operand and line address, and what MFENCE attached. -/
structure Batch where
  b      : BitVec 16
  closed : Bool := false
  ops    : List Nat := []
  nops   : Nat := 0
  made   : List Nat := []
  err    : Option (Nat × Nat × Nat) := none
  tb     : Option Nat := none
  cart   : Option Nat := none
  pidx   : Nat := 0
  core   : Nat := 0
  times  : BatchTimes := {}
  /-- the cartouche stores that have not performed (R252, R476) -/
  wids   : List Nat := []
deriving DecidableEq, Repr

/-- A warp: the state of its record, and what the cluster keeps of it outside the record. -/
structure Warp where
  kind     : WarpKind := .ordinary
  regs     : Regs
  wg       : Nat := 0
  record   : BitVec 57 := 0
  asid     : Nat := 0
  vf       : Nat := 0
  qid      : Nat := 0
  grid     : Nat := 0
  place    : Option Place := none
  /-- activation or eviction in progress (R343-R345) -/
  arriving : Bool := false
  leaving  : Bool := false
  /-- the cycle in which it became activatable (R342) -/
  waitingSince : Option Nat := none
  /-- the pending wake came from a paired workgroup (R359) -/
  wakeDie  : Bool := false
  /-- the launch's first activation is still to come (R369) -/
  fresh    : Bool := true
  residentAt : Nat := 0
  issuedAt : Nat := 0
  readyAt  : Nat := 0
  /-- register cache: slots written since they were read in, the resident slots from the least recently used, and Foehn's moves in the
  order of the IOPs that caused them (R150-R152) -/
  dirty    : NSet := []
  lru      : List Nat := []
  foehn    : List FoehnMove := []
  /-- slots of a context-faulted warp that stay in the register cache, and the core and half that keep them (R153) -/
  pinned   : NSet := []
  pinnedAt : Option (Nat × Nat) := none
  /-- an accumulator has changed since activation (R344) -/
  accDirty : Bool := false
  /-- the hot set that the activation unit counted at the last placement (R361) -/
  placedHot : Nat := 0
  /-- the address of a context fault, and whether it keeps a part of the warp's state out of its record (R153, R348) -/
  faultVa  : Option Nat := none
  unsaved  : Bool := false
  /-- the ring slot of its context-fault report, once posted -/
  faultSlot : Option Nat := none
  trap     : Option Trap := none
  /-- lanes with an unacknowledged interrupt frame (R398-R404) -/
  uiLanes  : BitVec 32 := 0
  /-- formation word of a node warp (R385) -/
  node     : Option Word64 := none
  batches  : List Batch := []
  launches : SMap LaunchSlot := []
  /-- the first copy fault since the last CPYW (R333) -/
  copyFault : Word64 := 0
  released : Bool := false
deriving DecidableEq, Repr

/-- The path whose IOP issues: warp, path-table entry, bytes of the guest word, the slots left of its expansion as opcode and fields and the slots done, the k-registers,
what earlier slots changed, to be put back if the guest instruction faults (R103, R116), and whether nothing else comes before its next
guest instruction. -/
structure Cur where
  w    : Nat
  p    : Nat
  due  : Bool := false
  len  : Nat := 8
  rest : List (Nat × Form) := []
  done : Nat := 0
  k    : SMap Row := []
  undo : Option (SMap Word32 × Row) := none
  held : Word64 := 0
deriving DecidableEq, Repr

/-! ### Memory system -/

/-- A write that has performed (R297): where it stands in the coherence orders, who made it, its bytes and the bytes before. -/
structure Performed where
  pos   : Nat
  wid   : Nat
  core  : Option Nat
  warp  : Nat
  lanes : BitVec 32
  seq   : Nat
  chan  : Chan
  scope : Scope
  base  : Nat
  size  : Nat
  cells : List (Host.Cell)
  old   : List (Host.Cell)
deriving DecidableEq, Repr

/-- A store that has issued and not performed (R298): held while `scope` is none or `.core`, published otherwise. -/
structure Held where
  wid   : Nat
  core  : Nat
  warp  : Nat
  wg    : Nat
  lanes : BitVec 32
  /-- the lanes of the issuing path (R301) -/
  path  : BitVec 32 := 0
  seq   : Nat
  chan  : Chan := .gen
  strong : Bool := false
  scope : Option Scope := none
  boundary : Nat := 0
  after : List Nat := []
  /-- the virtual address, for HOSTLOST (R437) -/
  va    : Nat := 0
  base  : Nat
  size  : Nat
  cells : List (Host.Cell)
  /-- the page is mapped executable: the store waits for R111 -/
  exec  : Option (Nat × Nat × Nat) := none
deriving DecidableEq, Repr

/-- What a weak read may return for one byte, fixed when the read issues (R299): the core's own held store, or any performed
write at or after a position. -/
inductive ByteSource where
  | value (b : Byte)
  | since (pos : Nat)
deriving DecidableEq, Repr

/-- One element of a read in flight: its lane, its virtual and physical address, and where its bytes may come from. -/
structure Elem where
  lane : Nat
  /-- the register after D that the element goes to, for LDV -/
  idx  : Nat := 0
  va   : Nat
  pa   : Nat
  src  : List ByteSource := []
  val  : Option Word64 := none
  /-- the page is mapped executable, for an atomic that writes it (R111) -/
  exec : Bool := false
deriving DecidableEq, Repr

/-- Where a read's values go. -/
inductive Dest where
  /-- `n` slots from `slot`, elements extended under a type (R265) -/
  | vector (slot n : Nat) (t : ElemType)
  | uniform (n : Nat) (t : ElemType)
  | predicate (n : Nat)
  | tensor (n : Nat)
  /-- LDNF: the lanes that failed, and the predicate (R282) -/
  | noFault (slot n : Nat) (t : ElemType) (failed : BitVec 32) (pred : Nat)
  /-- SMPL: the weights, and GMODE as it stood at issue (R200, R285) -/
  | sample (slot : Nat) (t : ElemType) (f : Row) (gmode : Word64)
  /-- nothing: RED -/
  | none
deriving DecidableEq, Repr

/-- What a read does at its point of coherence. -/
inductive ReadOp where
  | weak (q : Chan)
  | strong (scope : Scope) (acquire : Bool)
  /-- an atomic: operation, type, and the operand and the new value of each lane (R308) -/
  | atomic (op : Nat) (cas : Bool) (t : ElemType) (scope : Scope) (vals : List (Nat × Word64 × Word64))
deriving DecidableEq, Repr

/-- A read that has issued and not returned (R299, R301, R308). -/
structure Inflight where
  rid   : Nat
  core  : Nat
  warp  : Nat
  lanes : BitVec 32
  /-- the lanes of the issuing path (R301) -/
  path  : BitVec 32 := 0
  seq   : Nat
  op    : ReadOp
  size  : Nat
  elems : List Elem
  dest  : Dest
  busy  : List Reg
  after : List Nat := []
deriving DecidableEq, Repr

/-- A term of a read bound B(D, Q, ·) (R299, R300, R304, R317): what has raised it. -/
inductive BoundTerm where
  /-- a refresh at a scope, when this many writes had performed -/
  | refresh (core : Nat) (scope : Scope) (pos : Nat)
  /-- one byte, to a position -/
  | byte (addr pos : Nat)
  /-- the writes of a warp on a path, up to a position -/
  | warpWrites (warp : Nat) (chan : Chan) (pos : Nat)
  /-- the writes of one copy or one engine operation -/
  | op (id : Nat)
  /-- a CINV after this many writes, but for the lines that held unpublished stores (R286) -/
  | reread (pos : Nat) (kept : List Nat)
deriving DecidableEq, Repr

/-- A line in an L1 cache or a constant cache (R258): the core or cluster, the line, and whether it is next to be replaced (R281). -/
structure CacheLine where
  owner : Nat
  line  : Nat
  next  : Bool := false
deriving DecidableEq, Repr

/-- A line in an LLC slice (R25, R29, R235): the slice as 64 times the die plus the stop, the line, whether it stands in a remote-line way,
and the operations that pin it. -/
structure LlcLine where
  slice  : Nat
  line   : Nat
  remote : Bool := false
  pins   : NSet := []
deriving DecidableEq, Repr

/-- A non-leaf table entry in a walker's cache (R273): its cluster, its VF, where it stands in memory, and the entry. -/
structure WalkEntry where
  cluster : Nat
  vf   : Nat
  epa  : Nat
  e    : Nat
deriving DecidableEq, Repr

/-- Where a translation is cached: a core's TLB or a cluster's (R273). -/
inductive TlbHome where
  | core (n : Nat)
  | cluster (n : Nat)
deriving DecidableEq, Repr

/-- A combined translation (R268-R273): the page, its size, and what both stages allow. -/
structure TlbEntry where
  home : TlbHome
  vf   : Nat
  asid : Nat
  glob : Bool
  vbase : Nat
  pbase : Nat
  size : Nat
  r    : Bool
  w    : Bool
  x    : Bool
  ctx  : Bool
  sv   : Bool
  pid  : Nat
  dirty : Bool
deriving DecidableEq, Repr

/-- A walk outstanding: whose it is, and what for (R273). -/
structure Walk where
  k    : Nat
  core : Nat
  vf   : Nat
  asid : Nat
  va   : Nat
  kind : Access
  warp : Nat
  path : Nat
deriving DecidableEq, Repr

/-- A page request (R275, R276): its entry number, the page with stage and kind, the address space of the first requester, and
the accesses that wait. -/
structure PageRequest where
  vf   : Nat
  rid  : Nat
  page : Nat
  kind : Access
  stage2 : Bool
  asid : Nat
deriving DecidableEq, Repr

/-- An event ring of a VF (R467, R468): base in host memory, log2 of the slots, MSI-X vector, producer and consumer counts. -/
structure Ring where
  base : Nat
  log  : Nat
  vec  : Nat
  p    : Word32 := 0
  c    : Word32 := 0
deriving DecidableEq, Repr

/-- A report that waits for its ring (R468): its slots, and the warp whose trap it reports. -/
structure Report where
  vf    : Nat
  ring  : RingKind
  slots : List (List Byte)
  warp  : Option Nat := none
deriving DecidableEq, Repr

/-- An address space (R117, R268, R321): its stage-1 root, NSBASE and emulation bindings. -/
structure Space where
  vf    : Nat
  asid  : Nat
  root  : BitVec 52
  nsbase : BitVec 57 := 0
  bind  : SMap Word64 := []
deriving DecidableEq, Repr

/-- A virtual function: stage 2 and the logical device it is bound to (R268, R456). -/
structure VfEntry where
  s2en : Bool := false
  s2root : BitVec 52 := 0
  dev  : Nat := 0
deriving DecidableEq, Repr

/-- A personality number (R128-R132): resident tables, and the generation, which is 0 at reset (DESIGN CHOICE, notes/assumptions/48.md). -/
structure Personality where
  resident : Bool := false
  tables : Option Tables := none
  gen    : BitVec 8 := 0
  installing : Bool := false
  /-- the measurement of the installed image (R463) -/
  digest : List Byte := []
deriving DecidableEq, Repr

/-- A Gazetteer entry (R113): the tags, and the bytes of the guest line and of the line after it. -/
structure GazEntry where
  cluster : Nat
  pid  : Nat
  vf   : Nat
  asid : Nat
  line : Nat
  bytes : List Byte
deriving DecidableEq, Repr

/-- A Gazetteer fill in flight (R47, R114). -/
structure GazFill where
  k    : Nat
  cluster : Nat
  core : Nat
  pid  : Nat
  vf   : Nat
  asid : Nat
  line : Nat
deriving DecidableEq, Repr

/-! ### The package -/

/-- A barrier network's count for a barrier (R311): arrived lanes of each warp, lanes held for the next phase, completed phases. -/
structure Barrier where
  key    : BarrierKey
  arrived : SMap Word32 := []
  later  : SMap (List Word32) := []
  phases : Word32 := 0
deriving DecidableEq, Repr

/-- The part of a live transaction-barrier record that the root keeps beside it (R313-R317): the current phase's error, and the
writes credited or arrived in the current phase and in the completed ones. -/
structure TbRoot where
  ofs   : Nat
  err   : Option (Nat × Nat) := none
  now   : List Nat := []
  last  : List Nat := []
  past  : List Nat := []
deriving DecidableEq, Repr

/-- What a pre-emption is for (R430, R437): the image address and key slot, and the firmware request that asked for it; `image` is none
for a save that firmware holds itself. -/
structure SaveReq where
  image : Option Nat
  slot  : Nat
  svc   : Option SvcReq := none
deriving DecidableEq, Repr

/-- A workgroup (R34, R367, R419). -/
structure Workgroup where
  handle : Nat
  wgid   : Word32 := 0
  grid   : Nat := 0
  die    : Nat := 0
  cluster : Nat := 0
  ctxSlot : Nat := 0
  vf     : Nat := 0
  asid   : Nat := 0
  warps  : List Nat := []
  /-- near-store bytes, and the granules that are full (R28, R287) -/
  nearSize : Nat := 0
  near   : SMap Byte := []
  full   : NSet := []
  tbs    : List TbRoot := []
  /-- pairing in force, or requested, as the handle of the other workgroup (R355) -/
  pair   : Option Nat := none
  asks   : Option Nat := none
  /-- records formed into this node workgroup by timer or NFLUSH are in `Warp.node` -/
  placed : Nat := 0
  idem   : Bool := false
  producer : Option Nat := none
  /-- a node warp's workgroup, and the address of its node's descriptor -/
  node   : Bool := false
  desc   : Nat := 0
  /-- pre-emption (R430-R433) -/
  preempting : Bool := false
  saved  : Bool := false
  /-- its barriers while it is saved (R312) -/
  kept   : List Barrier := []
  priorDorm : SMap (BitVec 4) := []
  lineage : Option Nat := none
  done   : Bool := false
  killed : Bool := false
deriving DecidableEq, Repr

/-- An XSHUF that waits for its partner (R356): who issued it, the warp that it names, its lanes, and its slots. -/
structure Shuf where
  k     : Nat
  w     : Nat
  p     : Nat
  peer  : Nat
  wide  : Bool
  lanes : BitVec 32
  a     : Nat
  d     : Nat
  /-- the rows of A where it names k-registers (R66) -/
  krows : Option (List Row) := none
  /-- the partner's type differed -/
  bad   : Bool := false
deriving DecidableEq, Repr

/-- The fields of a launch packet (R363). -/
structure Packet where
  entry : Word64 := 0
  grid  : Nat := 0
  wgw   : Nat := 0
  frame : Nat := 0
  prod  : Nat := 0
  flags : Nat := 0
  hot   : Nat := 0
  stk   : Nat := 0
  accs  : Nat := 0
  prio  : Nat := 0
  near  : Nat := 0
  hint  : Nat := 0
  tail  : Nat := 0
deriving DecidableEq, Repr

/-- A grid (R365-R374): the packet of a queue, its dies, the next ordinal of each die, the counts of its completion record, and where
its completion is kept. -/
structure Grid where
  qid   : Nat
  vf    : Nat
  asid  : Nat
  addr  : Nat
  pk    : Packet
  dies  : List Nat := []
  next  : SMap Nat := []
  lcnt  : SMap Nat := []
  killed : Nat := 0
  relaunch : Nat := 0
  nkilled : Nat := 0
  /-- workgroups to relaunch: die and w (R371) -/
  again : List (Nat × Nat) := []
  tstart : Option Nat := none
  record : Option Nat := none
  /-- the launch slot that keeps its completion: warp and slot -/
  slot  : Option (Nat × Nat) := none
  landing : Option Nat := none
  /-- the failed check of R364, 7 for a packet that could not be read -/
  reject : Option Nat := none
  /-- its queue has been destroyed (R372) -/
  cut   : Bool := false
  done  : Bool := false
deriving DecidableEq, Repr

/-- A queue record (R365), and the landed packets with the TAIL that stood when they arrived (R376). -/
structure Queue where
  ring  : Word64 := 0
  arena : Word64 := 0
  arenasz : Nat := 0
  call  : Word64 := 0
  land_ : Word64 := 0
  nodeq : Nat := 0
  asid  : Nat := 0
  vf    : Nat := 0
  davail : BitVec 4 := 0
  live  : Bool := false
  rlog  : Nat := 0
  priocap : Nat := 0
  head  : Word32 := 0
  tail  : Word32 := 0
  /-- dispatch has stopped at an unreadable entry until the next kick -/
  stuck : Bool := false
  landed : List (Nat × Word32) := []
  busy  : NSet := []
deriving DecidableEq, Repr

/-- A tenant-table entry (R375). -/
structure Tenant where
  src   : BitVec 128 := 0
  qid   : Nat := 0
  flags : Byte := 0
  priocap : Byte := 0
  maxgrid : Word32 := 0
  entlo : Word64 := 0
  enthi : Word64 := 0
  lastseq : Word32 := 0
  maxnear : Nat := 0
deriving DecidableEq, Repr

/-- A record in a node queue: its bytes while it is on chip, the cycle in which it entered, and its pusher's w. -/
structure NodeRec where
  bytes : List Byte := []
  /-- its number among the records written to the share -/
  idx   : Nat := 0
  at_   : Nat
  w     : Nat
deriving DecidableEq, Repr

/-- A node queue (R381-R384): records on chip, records in the overflow share, the records ever written to the share, and the
formations that wait for node-part units: count, and the bits of the formation word. -/
structure NodeQueue where
  cluster : Nat
  grid  : Nat
  desc  : NodeDesc
  chip  : List NodeRec := []
  share : List NodeRec := []
  count : Nat := 0
  forms : List (Nat × Nat) := []
deriving DecidableEq, Repr

/-- Work (12_work.md): queues and grids by number, tenants, drop counters, node queues, and the cluster that each die used last. -/
structure Work where
  queues : SMap Queue := []
  grids  : SMap Grid := []
  tenants : SMap Tenant := []
  drops  : SMap Word32 := []
  nodes  : SMap NodeQueue := []
  lastCluster : SMap Nat := []
deriving DecidableEq, Repr

/-- A vector-table entry (R390), with the TAG of the last send combined (R399). -/
structure Vec where
  hrec  : BitVec 57 := 0
  v     : Bool := false
  entry : BitVec 57 := 0
  mode  : Nat := 0
  prio  : Nat := 0
  frame : Nat := 0
  held  : Bool := false
  hpay  : Word64 := 0
  tag   : Nat := 0
deriving DecidableEq, Repr

/-- A sender permission entry (R391). -/
structure Perm where
  vmask : Word64 := 0
  cls   : Byte := 0
  id    : BitVec 48 := 0
deriving DecidableEq, Repr

/-- An interrupt port (R389). -/
structure Port where
  vecs  : SMap Vec := []
  perms : SMap Perm := []
deriving DecidableEq, Repr

/-- Who sends an interrupt (R391). -/
inductive Sender where
  | host (pasid : BitVec 20) (ld : Nat)
  | peer (asid pkg : Nat)
  | kernel (asid : Nat)
  | firmware
deriving DecidableEq, Repr

/-- A send on its way to the engine (R396): the warp, lanes and uniform that wait for its status, or the function that a refusal is
counted at. -/
structure Send where
  k     : Nat
  vf    : Nat
  asid  : Nat
  v     : Nat
  pay   : Word64
  src   : Sender
  pkg   : Option Nat := none
  warp  : Option (Nat × BitVec 32 × Nat) := none
  func  : Option Func := none
deriving DecidableEq, Repr

/-- A host call that is posted (R378): warp, SEQ, and the vector of SYSCALL.NB or 64 for a plain SYSCALL. -/
structure NbCall where
  w     : Nat
  seq   : Word32
  vec   : Nat
deriving DecidableEq, Repr

/-- Interrupts and host calls (13_events.md, R377-R379). -/
structure Interrupts where
  ports : SMap Port := []
  sends : List Send := []
  calls : List NbCall := []
deriving DecidableEq, Repr

/-- What a copy moves (R324-R328). -/
inductive CopyKind where
  | linear (src dst : Nat)
  | gather (srcs : List Nat) (c dst : Nat)
  | boxLoad (t : BitVec 512) (dst : Nat)
  | boxStore (t : BitVec 512) (src : Nat)
  | quantise (t : BitVec 512) (dst : Nat) (desc : List Byte) (book : List Byte) (type : ElemType) (m : Nat) (plain : Bool)
      (gmode : Word64) (draw : Word32)
  | multicast (src dst stride : Nat) (views : List Nat)
deriving DecidableEq, Repr

/-- A copy (R319): its queue, its producer and the core on which it was issued, what it moves, its length, the barrier offset to credit,
its flag, and how far it has got. -/
structure Copy where
  id    : Nat
  cluster : Nat
  core  : Nat
  warp  : Nat
  wg    : Nat
  vf    : Nat
  asid  : Nat
  kind  : CopyKind
  n     : Nat
  tb    : Option Nat
  flag  : Option Nat
  started : Bool := false
  wrote : Bool := false
  off   : Nat := 0
  /-- scale bytes for the window whose granule the copy has not completed, by address (R329) -/
  late  : List (Nat × Byte) := []
  exc   : BitVec 5 := 0
  err   : Option (Nat × Nat) := none
deriving DecidableEq, Repr

/-- A credit on its way to a transaction-barrier root (R315, R316, R329): bytes of a copy, or one arrival of a batch. -/
structure Credit where
  k     : Nat
  wg    : Nat
  warp  : Nat
  ofs   : Nat
  bytes : Nat
  arrive : Bool
  ops   : List Nat
  err   : Option (Nat × Nat)
deriving DecidableEq, Repr

/-- What the matrix engine does for an operation (R242-R246, R254). -/
inductive EngineKind where
  | mma (acc : Nat) (a b : BitVec 512) (fb : List Byte) (t : ElemType) (zero : Bool) (prods : List Nat)
  | mzero (acc : Nat)
  | mlda (acc : Nat) (t : BitVec 512) (ty : ElemType) (gmode : Word64)
  | msta (acc : Nat) (t : BitVec 512) (ty : ElemType) (m : Nat) (gmode : Word64)
  | mrow (acc q slot : Nat)
  | msetr (acc q : Nat) (rows : List Row)
  | mcvt (dst src : Nat) (ty : ElemType) (n : Int) (m : Nat) (gmode : Word64)
  | mptb (cbA cbB : Nat)
deriving DecidableEq, Repr

/-- An entry of an engine queue (R226): the lanes whose rows it acts on, the lines still to fetch with their operand codes, and the
lines that have arrived. -/
structure EngineOp where
  id    : Nat
  core  : Nat
  warp  : Nat
  lanes : BitVec 32
  kind  : EngineKind
  flag  : Option Nat
  batch : Bool
  need  : List (Nat × Nat) := []
  lines : SMap (List Byte) := []
  err   : Option (Nat × Nat × Nat) := none
  /-- writes that the operation's own writes follow (R302) -/
  after : List Nat := []
  /-- the cycle in which it issued, and in which its last operand arrived (R252) -/
  issued : Nat := 0
  ready : Nat := 0
deriving DecidableEq, Repr

/-- A product table (R238): its core and tags, the products as FP32, and whether MPTB built it. -/
structure ProductTable where
  core  : Nat
  vf    : Nat
  asid  : Nat
  cbA   : Nat
  cbB   : Nat
  prods : List Nat
  mptb  : Bool
deriving DecidableEq, Repr

/-- An entry of a half's format-block cache (R253), by the address of its block: each descriptor with the codebook that it names. A
descriptor is absent where its bytes or its codebook could not be read. -/
structure FormatEntry where
  core  : Nat
  half  : Nat
  vf    : Nat
  asid  : Nat
  va    : Nat
  descA : Option (List Byte × List Byte) := none
  descB : Option (List Byte × List Byte) := none
deriving DecidableEq, Repr

/-- Engines (07_matrix.md, 10_copy.md, 11_context.md). -/
structure Engines where
  shufs  : List Shuf := []
  copies : List Copy := []
  credits : List Credit := []
  /-- the workgroup that a cluster's streamer served last (R319) -/
  turn   : SMap Nat := []
  queue  : List EngineOp := []
  tables : List ProductTable := []
  blocks : List FormatEntry := []
  /-- the cycle in which a core's engine last became free (R243, R252) -/
  free   : SMap Nat := []
deriving DecidableEq, Repr

/-- An output of the package, in the order in which they leave it. -/
inductive Out where
  /-- an MSI-X vector of a function -/
  | msix (f : Func) (vec : Nat)
  /-- the value that a register read returned -/
  | value (v : Word64)
  /-- bytes returned to an outside agent -/
  | bytes (b : List Byte)
  /-- an RDMA access of a queue pair was answered with a remote-access NAK (R457) -/
  | nak (qp : Nat)
  /-- a report of boot or of SPDM (R462, R463) -/
  | report (b : List Byte)
deriving DecidableEq, Repr

/-! ### Debug, system and outside -/

/-- What a trace record says of a path (R445). -/
structure TraceHead where
  pc    : BitVec 57
  lmask : BitVec 32
  wgid  : Word32
  wid   : Nat
  pidx  : Nat
deriving DecidableEq, Repr

/-- A core's trace ring (R444, R452): where it stands, the bytes written, the records dropped since it was enabled and since the last
DROP record, the path that started a clause last on each half since the last sample, and when that sample was. -/
structure TraceRing where
  base  : Nat
  log   : Nat
  wrap  : Bool
  sper  : Nat
  off   : Nat := 0
  dropped : Nat := 0
  lost  : Nat := 0
  last  : SMap TraceHead := []
  sampled : Nat := 0
deriving DecidableEq, Repr

/-- A comparator: its PC word and its identity word (R452). -/
structure Comparator where
  pc : Word64 := 0
  id : Word64 := 0
deriving DecidableEq, Repr

/-- Debug (15_debug.md): trace rings by core, comparators at 4 core + k, the traced warp and lane of each core with the branch-trace
bit, and Isobar's interval, its last sample of each die and when that was, and the knots that stand reported. -/
structure Debug where
  rings : SMap TraceRing := []
  comps : SMap Comparator := []
  traced : SMap (Nat × Nat × Bool) := []
  interval : Nat := 2 ^ 24
  seen  : SMap (List (Nat × Word64)) := []
  sampledAt : SMap Nat := []
  knots : List (List Nat) := []
deriving DecidableEq, Repr

/-- A key slot (R429). -/
structure KeySlot where
  key : Option (BitVec 256) := none
  ctr : Word64 := 0
  vf  : Option Nat := none
deriving DecidableEq, Repr

/-- An entry of the freshness table (R433). -/
structure Lineage where
  slot   : Nat
  latest : Word64
deriving DecidableEq, Repr

/-- The full/empty bits of a saved workgroup, kept beside its image (R483). -/
structure BitMap where
  pa    : Nat
  kslot : Nat
  ctr   : Word64
  wg    : Nat
  full  : NSet
deriving DecidableEq, Repr

/-- An image that firmware holds for a restarted host (R437). -/
structure HeldImage where
  ld    : Nat
  wg    : Nat
  slot  : Nat
  bytes : List Byte
deriving DecidableEq, Repr

/-- A scan that waits for its die's scanner (R424). -/
structure ScanReq where
  die  : Nat
  vf   : Nat
  asid : Nat
  va   : Nat
deriving DecidableEq, Repr

/-- The start map of a scanned page (R110): the offsets of its instructions. -/
structure StartMap where
  vf   : Nat
  asid : Nat
  page : Nat
  pid  : Nat
  offs : NSet
deriving DecidableEq, Repr

/-- The system state (14_system.md): per die TVEC, the firmware core and its mailbox; GRACE and FOSTAT; scans, key slots, lineages, bit maps,
held images and saves in progress with the end of each grace period; partitions and rate limiters; start maps; and the log of firmware
requests by sequence number. -/
structure System where
  tvec   : SMap Nat := []
  fwcore : SMap Nat := []
  mail   : SMap (List (Word64 × Word64)) := []
  grace  : Nat := 0
  fostat : BitVec 2 := 0
  scans  : List ScanReq := []
  keys   : SMap KeySlot := []
  lineages : SMap Lineage := []
  nextLineage : Nat := 1
  maps   : List BitMap := []
  images : List HeldImage := []
  /-- pre-emptions in progress, by workgroup handle -/
  saves  : SMap SaveReq := []
  graceEnd : SMap Nat := []
  partition : SMap Nat := []
  limits : SMap Word64 := []
  tokens : SMap Nat := []
  starts : List StartMap := []
  log    : SMap (List Byte) := []
deriving DecidableEq, Repr

/-- The state of a TDISP interface (R435). -/
inductive TdispState where
  | unlocked | locked | run | error
deriving DecidableEq, Repr

/-- What a function's register page and MSI-X table hold (R464, R469, R435): the consumer counts that were last written, the producer count
of the service ring and the requests taken from it and answered. -/
structure FuncRegs where
  refuse : Word32 := 0
  trapCi : Word32 := 0
  scanCi : Word32 := 0
  svcBase : Word64 := 0
  pi     : Word32 := 0
  taken  : Word32 := 0
  replied : Word32 := 0
  tdisp  : TdispState := .unlocked
  msix   : SMap (BitVec 128) := []
deriving DecidableEq, Repr

/-- The flip of a logical device (R464, R291). -/
structure Flip where
  page   : Nat := 0
  toHost : Bool := false
  busy   : Bool := false
  done   : Bool := false
  err    : Bool := false
deriving DecidableEq, Repr

/-- The package as the outside meets it (16_package.md): boot's outcome, the measurement registers and SVN, the package number and routes,
power, link ports with fewer than four lanes, functions by number (PFs first), flips, exposed pages with their device and whether the
host owns them, queue pairs in error, SPDM sessions, an image that waits for the next reset, and the fuses of each die. -/
structure Package where
  ready  : Bool := false
  recovery : Bool := false
  code   : Nat := 0
  dieOk  : BitVec 4 := 0
  svn    : Word32 := 0
  measured : SMap (List Byte) := []
  number : Nat := 0
  routes : SMap (BitVec 36) := []
  limit  : Nat := 2800
  watts  : Nat := 0
  mhz    : Nat := 1700
  lanes  : SMap Nat := []
  funcs  : SMap FuncRegs := []
  flips  : SMap Flip := []
  exposed : SMap (Nat × Bool) := []
  errorQps : NSet := []
  sessions : NSet := []
  staged : Option (List Byte) := none
  fuseKeys : List (BitVec 256) := []
  fuseSvns : List Word32 := []
deriving DecidableEq, Repr

/-- The state of the package. -/
structure State where
  /-- CLOCK (R63, R444) and the counter that the free values are applied to -/
  clock  : Nat := 0
  fresh  : Nat := 0
  /-- the steps and inputs that come next -/
  agenda : List Instr := []
  cur    : Option Cur := none
  out    : List Out := []
  nextId : Nat := 1
  seq    : Nat := 0
  warps  : SMap Warp := []
  wgs    : SMap Workgroup := []
  barriers : List Barrier := []
  mem    : List Host.Cell := []
  performed : List Performed := []
  held   : List Held := []
  bounds : SMap (List BoundTerm) := []
  boundaries : SMap Nat := []
  inflight : List Inflight := []
  poison : NSet := []
  /-- the caches (R258): L1 lines, publish-buffer lines as core and line (R259), constant-cache lines, LLC lines, and the dies that hold a
  copy of a line homed elsewhere, as a mask by line (R261) -/
  l1     : List CacheLine := []
  buffer : List (Nat × Nat) := []
  con    : List CacheLine := []
  llc    : List LlcLine := []
  copies : SMap (BitVec 4) := []
  nearWays : SMap Nat := []
  remoteWays : SMap Nat := []
  tlb    : List TlbEntry := []
  walks  : List Walk := []
  walkCache : List WalkEntry := []
  /-- pages whose X a store has cleared: VF, address space and page (R111) -/
  cleared : List (Nat × Nat × Nat) := []
  requests : List PageRequest := []
  spaces : SMap Space := []
  vfs    : SMap VfEntry := []
  flips  : List Nat := []
  /-- a page in flip that an access of the step at hand has met; none between steps (R291) -/
  flipHit : Option Nat := none
  /-- logical devices whose host has restarted, so that its pages are revoked (R437) -/
  revoked : NSet := []
  /-- rings of VF v at keys 4 v, 4 v + 1 and 4 v + 2, and the reports that wait, in the order in which they arose -/
  rings  : SMap Ring := []
  reports : List Report := []
  personalities : SMap Personality := []
  gaz    : List GazEntry := []
  fills  : List GazFill := []
  work   : Work := {}
  ui     : Interrupts := {}
  eng    : Engines := {}
  dbg    : Debug := {}
  sys    : System := {}
  pkg    : Package := {}
deriving DecidableEq, Repr

/-! ### Reset -/

/-- The package right after reset (R10, R462): no warp, no queue, nothing in memory; personality 0 is fixed in hardware and
resident (R92). Numbers 1 and 2 become resident when firmware boots (R92). -/
def State.reset : State :=
  { personalities := [(0, { resident := true })] }

/-! ### Why a step stops -/

/-- Faults of the model: every fault of the manual is a next state (the warp traps). Both are safe: nothing of the hardware is
claimed for the state that answers with one. -/
inductive Fault where
  /-- raised by an IOP or a guest instruction when no path issues: `State.cur` is none or names no path of a warp -/
  | noIssue
  /-- raised by a step of the machine that the state does not enable, such as the arrival of a read that was not issued -/
  | notEnabled
deriving DecidableEq, Repr

/-- Refusals of the model. -/
inductive Refusal where
  /-- raised by `exec` for an instruction that has no meaning yet; safe -/
  | notModelled (mnemonic : String)
deriving DecidableEq, Repr

end Sys2Proof.Machine
end

