-- ==== Sys2Proof/Machine/Base.lean ====
section
/-!
DEFINITION. Numbers and lane masks, access to the tables of the state, and physical memory.
-/

namespace Sys2Proof.Machine

/-! ### Numbers -/

/-- A 57-bit address plus an offset. -/
def addPc (pc : BitVec 57) (n : Int) : BitVec 57 := pc + BitVec.ofInt 57 n

/-- The number of one bits (POPC of a mask). -/
def popcount (m : BitVec 32) : Nat := (List.range 32).foldl (fun n i => if m.getLsbD i then n + 1 else n) 0

/-- The lanes of a mask in rising order. -/
def lanesOf (m : BitVec 32) : List Nat := (List.range 32).filter m.getLsbD

/-- The lowest-numbered lane of a mask. -/
def lowLane (m : BitVec 32) : Option Nat := (lanesOf m).head?

/-- The mask of the lanes that satisfy a test. -/
def maskOf (f : Nat → Bool) : BitVec 32 :=
  (List.range 32).foldl (fun m i => if f i then m ||| (1#32 <<< i) else m) 0

/-- Cuts a list into bytes' little-endian number (R2). -/
def leNat : List Byte → Nat
  | [] => 0
  | b :: rest => b.toNat + 256 * leNat rest

/-- The `n` little-endian bytes of a number (R2). -/
def leBytes : Nat → Nat → List Byte
  | 0, _ => []
  | n + 1, x => BitVec.ofNat 8 x :: leBytes n (x / 256)

/-! ### Warps, workgroups and paths -/

namespace State

/-- The warp of a number. -/
def warp? (s : State) (w : Nat) : Option Warp := s.warps.find? w

/-- Replaces a warp. -/
def setWarp (s : State) (w : Nat) (x : Warp) : State := { s with warps := s.warps.insert w x }

/-- Changes a warp that exists. -/
def modWarp (s : State) (w : Nat) (f : Warp → Warp) : State := { s with warps := s.warps.adjust w f }

/-- Changes the saved registers of a warp. -/
def modRegs (s : State) (w : Nat) (f : Regs → Regs) : State := s.modWarp w fun x => { x with regs := f x.regs }

/-- A path of a warp. -/
def path? (s : State) (w p : Nat) : Option Path := (s.warp? w).bind (·.regs.paths.find? p)

/-- Changes a path that exists. -/
def modPath (s : State) (w p : Nat) (f : Path → Path) : State :=
  s.modRegs w fun r => { r with paths := r.paths.adjust p f }

/-- The workgroup of a handle. -/
def wg? (s : State) (h : Nat) : Option Workgroup := s.wgs.find? h

/-- Changes a workgroup that exists. -/
def modWg (s : State) (h : Nat) (f : Workgroup → Workgroup) : State := { s with wgs := s.wgs.adjust h f }

/-- Adds an output. -/
def emit (s : State) (o : Out) : State := { s with out := s.out ++ [o] }

/-- The address space of a VF and an ASID, as a key of `spaces`. -/
def spaceKey (vf asid : Nat) : Nat := vf * 65536 + asid

/-- The address space of a VF and an ASID. -/
def space? (s : State) (vf asid : Nat) : Option Space := s.spaces.find? (spaceKey vf asid)

/-- One step of time, of a length that the model leaves free. -/
def tick (s : State) : State := { s with clock := s.clock + 1 + Config.stepCycles s.fresh, fresh := s.fresh + 1 }

end State

/-- Die, cluster and quad of a core number (R33). -/
def dieOf (core : Nat) : Nat := core / 128
def clusterOf (core : Nat) : Nat := core / 16
def quadOf (core : Nat) : Nat := core / 4

/-- The stack size S and the hot set H of a warp (R339, R340). -/
def Regs.stackSize (r : Regs) : Nat := 8 * (r.decl.toNat % 2 ^ 13 + 1)
def Regs.hotSet (r : Regs) : Nat := 8 * (r.decl.toNat / 2 ^ 48 % 256 + 1)
/-- The declared accumulators (R340). -/
def Regs.nacc (r : Regs) : Nat := r.decl.toNat / 2 ^ 44 % 16
/-- The launch priority class (R340). -/
def Regs.prio (r : Regs) : Nat := r.decl.toNat / 2 ^ 40 % 16
/-- The workgroup-relative warp id, the placement core and the grid-relative workgroup id (R340). -/
def Regs.warpId (r : Regs) : Nat := r.ident.toNat % 64
def Regs.placeCore (r : Regs) : Nat := r.ident.toNat / 2 ^ 7 % 512
def Regs.wgid (r : Regs) : Nat := r.ident.toNat / 2 ^ 32

/-! ### Physical memory -/

/-- What a byte of memory that nothing has written reads as (notes/assumptions/3.md). -/
def emptyByte : Byte := 0

namespace State

/-- The byte of memory at a physical address. -/
def byte (s : State) (a : Nat) : Byte := SMap.get emptyByte s.mem a

/-- Writes a byte of memory. -/
def setByte (s : State) (a : Nat) (b : Byte) : State := { s with mem := SMap.put emptyByte s.mem a b }

/-- Writes the bytes of a list of cells. -/
def setCells (s : State) (cs : List Host.Cell) : State := cs.foldl (fun s c => s.setByte c.1 c.2) s

/-- The `n` bytes from an address. -/
def bytes (s : State) (a n : Nat) : List Byte := (List.range n).map fun i => s.byte (a + i)

/-- The `n`-byte little-endian number at an address (R2). -/
def readLe (s : State) (a n : Nat) : Nat := leNat (s.bytes a n)

/-- Writes bytes from an address on. -/
def setBytes (s : State) (a : Nat) (bs : List Byte) : State :=
  s.setCells ((List.range bs.length).zip bs |>.map fun (i, b) => (a + i, b))

/-- Writes an `n`-byte little-endian number. -/
def writeLe (s : State) (a n x : Nat) : State := s.setBytes a (leBytes n x)

end State

/-- The memory's canonical form: addresses strictly rising and no byte listed that reads so unlisted. -/
def Memory.wf (m : List Host.Cell) : Bool := SMap.wf emptyByte m

end Sys2Proof.Machine
end

