-- ==== Sys2Proof/Machine/Walk.lean ====
section
/-!
DEFINITION. The page tables of R260 and R268-R273 (08_memory.md): the nested walk, what both stages allow, and which entries it has used.
-/

namespace Sys2Proof.Machine

/-! ### Regions (R260, R456, R458) -/

/-- A package can be reached: a port of its mask is up (R458, R459). -/
def State.reaches (s : State) (pkg : Nat) : Bool :=
  (List.range 36).any fun i => (s.pkg.routes.get 0 pkg).getLsbD i && s.pkg.lanes.get 4 i != 0

/-- Whether an address lies in a region that an access may reach (R260, R459). -/
def regionOk (s : State) (pa : Nat) : Bool :=
  match pa / 2 ^ 48 with
  | 0 => pa / 2 ^ 38 % 2 ^ 10 == 0
  | 1 => pa / 2 ^ 38 % 2 == 0 && s.reaches (pa / 2 ^ 39 % 2 ^ 9)
  | 2 => true
  | _ => false

/-- The key in memory of a host physical address: each logical device's host has a memory of its own (R260, R456). -/
def hostKey (ld a : Nat) : Nat := ld * 2 ^ 52 + 2 * 2 ^ 48 + a % 2 ^ 48

/-- The key in memory of a physical address that an address space of a VF uses. -/
def memoryKey (s : State) (vf pa : Nat) : Nat := if pa / 2 ^ 48 = 2 then hostKey (s.vfs.get {} vf).dev pa else pa

/-! ### Table entries (R269, R270) -/

/-- The page size of a leaf entry at a level. -/
def leafSize (e lvl : Nat) : Nat := if e.testBit 11 then 65536 else 4096 * 512 ^ lvl

/-- Whether an entry breaks a rule of R272 that makes the walk fail with PROT. -/
def entryBad (stage2 : Bool) (lvl e : Nat) : Bool :=
  let leaf := e.testBit 4
  e / 2 ^ 52 % 64 != 0 || e / 2 % 8 != 0 || ((stage2 || !leaf) && e / 2 ^ 58 != 0)
    || (leaf && decide (2 < lvl)) || (!leaf && lvl == 0) || (e.testBit 11 && (lvl != 0 || !leaf))
    || (leaf && (e / 4096 % 2 ^ 40 * 4096) % leafSize e lvl != 0)

/-- The address that an entry gives: its PPN times 4,096. -/
def entryAddr (e : Nat) : Nat := e / 4096 % 2 ^ 40 * 4096

/-! ### The nested walk (R268, R272) -/

/-- The outcome of a translation. -/
inductive WalkRes (α : Type) where
  | ok (x : α)
  | fail (f : WalkFail)

/-- A table entry that a walk has used: where it stands in memory, and what it held. -/
structure Used where
  epa : Nat
  e   : Nat

/-- A stage-1 entry that a walk has used, with the stage-2 entries that translated its table, and whether stage 2 lets the hardware write
the table (R268). -/
structure Used1 where
  at_ : Used
  via : List Used
  tw  : Bool

/-- The outcome of a walk of stage 2: the leaf, its size, the address that it gives, and the entries that it used, the leaf last. -/
structure Leaf2 where
  e    : Nat
  size : Nat
  out  : Nat
  used : List Used

/-- The outcome of a walk of stage 1. -/
structure Leaf1 where
  e    : Nat
  size : Nat
  out  : Nat
  epa  : Nat
  used : List Used1

/-- A table entry as the walker of a cluster reads it: from its cache, which holds non-leaf entries, or from memory (R273). `cluster` is
none for a reader without such a cache. The cache is used where it holds the entry (DESIGN CHOICE, notes/assumptions/59.md). -/
def entryAt (s : State) (cluster : Option Nat) (vf epa : Nat) : Nat :=
  match s.walkCache.find? fun w => some w.cluster == cluster && w.vf == vf && w.epa == epa with
  | some w => w.e
  | none => s.readLe epa 8

/-- The stage-2 walk from level `n - 1` down, for an intermediate address. A table outside the regions of R260 is PROT. -/
def walk2From (s : State) (cluster : Option Nat) (vf ia : Nat) : Nat → Nat → List Used → WalkRes Leaf2
  | 0, _, _ => .fail .prot
  | n + 1, tbl, used =>
    if !regionOk s tbl then .fail .prot
    else
      let epa := memoryKey s vf (tbl + 8 * (ia / (4096 * 512 ^ n) % 512))
      let e := entryAt s cluster vf epa
      let used := used ++ [{ epa := epa, e := e }]
      if !e.testBit 0 then .fail (.absent true false (ia / 4096 * 4096))
      else if entryBad true n e then .fail .prot
      else if e.testBit 4 then
        .ok { e := e, size := leafSize e n, out := entryAddr e + ia % leafSize e n, used := used }
      else walk2From s cluster vf ia n (entryAddr e) used

/-- Stage 2 of an intermediate address; a VF without stage 2 uses the address as it is, with every permission (R268). -/
def walk2 (s : State) (cluster : Option Nat) (vf ia : Nat) : WalkRes Leaf2 :=
  let v := s.vfs.get {} vf
  if !v.s2en then .ok { e := 0x3F1, size := 2 ^ 52, out := ia, used := [] }
  else walk2From s cluster vf ia 5 v.s2root.toNat []

/-- The stage-1 walk from level `n - 1` down: stage 2 translates each table's address first, and needs R there (R268). -/
def walk1From (s : State) (cluster : Option Nat) (vf va : Nat) : Nat → Nat → List Used1 → WalkRes Leaf1
  | 0, _, _ => .fail .prot
  | n + 1, tbl, used =>
    match walk2 s cluster vf tbl with
    | .fail (.absent _ _ p) => .fail (.absent true true p)
    | .fail f => .fail f
    | .ok t =>
      if !t.e.testBit 5 || !regionOk s t.out then .fail .prot
      else
        let epa := memoryKey s vf (t.out + 8 * (va / (4096 * 512 ^ n) % 512))
        let e := entryAt s cluster vf epa
        let used := used ++ [{ at_ := { epa := epa, e := e }, via := t.used, tw := t.e.testBit 6 }]
        if !e.testBit 0 then .fail (.absent false false (va / 4096 * 4096))
        else if entryBad false n e then .fail .prot
        else if e.testBit 4 then
          .ok { e := e, size := leafSize e n, out := entryAddr e + va % leafSize e n, epa := epa, used := used }
        else walk1From s cluster vf va n (entryAddr e) used

/-- The stage-1 walk of an address of an access space. -/
def walk1 (s : State) (cluster : Option Nat) (vf asid va : Nat) : WalkRes Leaf1 :=
  match s.space? vf asid with
  | none => .fail (.absent false false (va / 4096 * 4096))
  | some sp => walk1From s cluster vf va 5 sp.root.toNat []

/-! ### Both stages (R260, R272, R289) -/

/-- A combined translation before it is cached: the page, the address and what both stages allow. -/
structure Combined where
  l1   : Leaf1
  l2   : Leaf2
  pa   : Nat
  size : Nat
  r    : Bool
  w    : Bool
  x    : Bool

/-- The hardware must write an entry before an access goes through it: A is clear, or D is clear and the access writes (R270). -/
def Used.stale (u : Used) (write : Bool) : Bool := !u.e.testBit 8 || (write && !u.e.testBit 9)

/-- Both stages of an address, with the checks of R260, R272 and R289 for a kind of access; `ctx` marks the CTX path. A fetch from a page
whose X a store has cleared is PFAULT (R111). `marks` says that the access sets A and D, which needs W of stage 2 for each stage-1 table
that it writes (R268). -/
def combine (s : State) (cluster : Option Nat) (vf asid va : Nat) (kind : Access) (ctx : Bool) (marks : Bool := true) : WalkRes Combined :=
  match walk1 s cluster vf asid va with
  | .fail f => .fail f
  | .ok l1 =>
    match walk2 s cluster vf l1.out with
    | .fail f => .fail f
    | .ok l2 =>
      let bit (i : Nat) : Bool := l1.e.testBit i && l2.e.testBit i
      let c : Combined := { l1 := l1, l2 := l2, pa := memoryKey s vf l2.out, size := min l1.size l2.size
                            r := bit 5, w := bit 6, x := bit 7 }
      let isCtx := l1.e.testBit 58
      let allowed := match kind with | .read => c.r | .write => c.r && c.w | .fetch => c.x
      let update := marks && l1.used.any fun u => u.at_.stale (kind == .write) && !u.tw
      if (isCtx && l1.e.testBit 7) || isCtx != ctx || (ctx && !(c.r && c.w)) || !regionOk s l2.out then .fail .prot
      else if kind == .fetch && !l1.e.testBit 7 && s.cleared.contains (vf, asid, va / 4096) then .fail .unscanned
      else if !allowed then .fail .prot
      else if kind == .fetch && !l1.e.testBit 59 then .fail .unscanned
      else if update then .fail .prot
      else .ok c

/-- The writes of A, and D on a write, that a translation makes: every entry of both stages that it has used, and the stage-2 entries through
which the stage-1 tables were read or are written (R268, R270, R272; DEDUCED, notes/assumptions/53.md). -/
def Combined.marks (c : Combined) (write : Bool) : List (Used × Bool) :=
  (c.l1.used.flatMap fun u => u.via.map fun v => (v, u.at_.stale write))
    ++ (c.l1.used.map fun u => (u.at_, write)) ++ c.l2.used.map fun u => (u, write)

end Sys2Proof.Machine
end

