-- ==== Sys2Proof/Machine/Ops.lean ====
section
/-!
DEFINITION. The named operations over the state: registers and the register cache, trace records, taking a trap and returning from
one, the outcome of an IOP, and the clause boundary with its rejoin and release rules.
-/

namespace Sys2Proof.Machine

/-! ### Registers -/

/-- Uniform n. -/
def Regs.uni (r : Regs) (n : Nat) : Word64 := r.u.get 0 n

/-- Writes uniform n. -/
def Regs.setUni (r : Regs) (n : Nat) (x : Word64) : Regs := { r with u := r.u.put 0 n x }

/-- Predicate n of every lane; p15 reads as true (R66). -/
def Regs.pred (r : Regs) (n : Nat) : Word32 := if n = 15 then 0xFFFFFFFF else r.p.get 0 n

/-- Writes the lanes of a mask of predicate n; a write to p15 is discarded (R66). -/
def Regs.setPred (r : Regs) (n : Nat) (mask x : Word32) : Regs :=
  if n = 15 then r else { r with p := r.p.put 0 n ((r.p.get 0 n &&& ~~~mask) ||| (x &&& mask)) }

/-- The words of a resident slot; a slot that is not in the register cache reads as zeros here. -/
def Regs.row (r : Regs) (slot : Nat) : Row := (r.v.find? slot).getD zeroRow

/-- The word of a lane of a row. -/
def Row.lane (x : Row) (l : Nat) : Word32 := x.getD l 0

/-- The lanes of `mask` from `new`, the others from `old`. -/
def Row.merge (mask : BitVec 32) (new old : Row) : Row :=
  (List.range 32).map fun l => if mask.getLsbD l then new.lane l else old.lane l

/-- The row with value `f l` in lane l. -/
def Row.ofFn (f : Nat → Word32) : Row := (List.range 32).map f

/-- Writes the lanes of a mask of an absolute slot. -/
def Regs.setRow (r : Regs) (slot : Nat) (mask : BitVec 32) (x : Row) : Regs :=
  { r with v := r.v.insert slot (Row.merge mask x (r.row slot)) }

/-- The tensor record n (R230). -/
def Regs.tensor (r : Regs) (n : Nat) : BitVec 512 := r.t.get 0 n

/-- A warp's write to lanes of a vector slot: the row, its dirty mark, and the order of use (R151, R347). A write to no lane is none. -/
def Warp.setRow (x : Warp) (slot : Nat) (mask : BitVec 32) (row : Row) : Warp :=
  if mask = 0 then x
  else
    { x with regs := x.regs.setRow slot mask row, dirty := NSet.insert x.dirty slot, foehn := x.foehn.filter (· != .spill slot)
             lru := x.lru.filter (· != slot) ++ [slot] }

/-- Foehn is spilling a slot; Foehn is bringing it in. -/
def Warp.spills (x : Warp) (slot : Nat) : Bool := x.foehn.contains (.spill slot)
def Warp.refills (x : Warp) (slot : Nat) : Bool := x.foehn.contains (.refill slot)

/-- The slots that Foehn is bringing in. -/
def Warp.refilling (x : Warp) : List Nat := x.foehn.filterMap fun m => match m with | .refill n => some n | _ => none

/-- Adds refills in increasing slot order (R152), but for slots that are on their way. -/
def Warp.addRefills (x : Warp) (slots : List Nat) : Warp :=
  { x with foehn := x.foehn ++ ((NSet.insertAll [] slots).filter fun n => !x.refills n).map .refill }

/-- A slot is in the register cache, and Foehn is not spilling it (R147, R150). -/
def Warp.holds (x : Warp) (slot : Nat) : Bool := (x.regs.v.find? slot).isSome && !x.spills slot

/-- Whether a slot lies in the current window of a valid path (R150, R478). -/
def Regs.inWindow (r : Regs) (slot : Nat) : Bool :=
  r.paths.any fun q => decide (q.2.wbase.toNat ≤ slot) && decide (slot < q.2.wtop.toNat)

/-- The slots that Foehn may spill, in the order in which it takes them: those outside every window, lowest first, then the least
recently used (R150, R347). `keep` are slots that stay. -/
def Warp.victims (x : Warp) (keep : List Nat) : List Nat :=
  let mine := (x.regs.v.map (·.1)).filter fun n => x.holds n && !keep.contains n && !x.pinned.contains n
  mine.filter (fun n => !x.regs.inWindow n) ++ (x.lru.filter fun n => mine.contains n && x.regs.inWindow n)

/-- Foehn takes a slot out of the register cache: a clean one at once, a dirty one with a spill (R151). -/
def Warp.spill (x : Warp) (slot : Nat) : Warp :=
  if x.dirty.contains slot then { x with foehn := x.foehn ++ [.spill slot], lru := x.lru.filter (· != slot) }
  else { x with regs := { x.regs with v := x.regs.v.erase slot }, lru := x.lru.filter (· != slot) }

/-- The slots that count against the hot set: resident, or on their way in. -/
def Warp.cached (x : Warp) : Nat :=
  ((x.regs.v.filter fun kv => x.holds kv.1).length) + (x.refilling.filter fun n => !x.holds n).length

/-- Spills victims until `n` more slots fit in the hot set, or no victim is left. -/
def Warp.makeRoom (x : Warp) (n : Nat) (victims : List Nat) : Warp :=
  victims.foldl (fun x v => if x.cached + n ≤ x.regs.hotSet then x else x.spill v) x

/-- A register-cache miss is counted (R347). -/
def Warp.countMiss (x : Warp) : Warp :=
  { x with regs := { x.regs with misscnt := if x.regs.misscnt = 0xFFFFFFFF then x.regs.misscnt else x.regs.misscnt + 1 } }

/-- Room is made for slots that a miss needs, and their refill starts (R347). -/
def Warp.startRefill (x : Warp) (slots keep : List Nat) : Warp :=
  let new := slots.filter fun n => !x.holds n && !x.refills n
  (x.makeRoom new.length (x.victims (keep ++ slots))).addRefills new

/-- An IOP has used slots: they are the most recently used (R347). -/
def Warp.touch (x : Warp) (slots : List Nat) : Warp :=
  { x with lru := x.lru.filter (fun n => !slots.contains n) ++ NSet.insertAll [] (slots.filter x.holds) }

/-! ### Trace records (R444-R446) -/

/-- The little-endian bytes of 64-bit words. -/
def words64 (xs : List Nat) : List Byte := xs.flatMap (leBytes 8)

/-- The core that a warp's paths issue on; a warp without a place issues on its placement core. -/
def Warp.core (x : Warp) : Nat := (x.place.map (·.core)).getD x.regs.placeCore

/-- The head of a path's records. -/
def traceHead (x : Warp) (p : Nat) (q : Path) : TraceHead :=
  { pc := q.pc, lmask := q.lmask, wgid := BitVec.ofNat 32 x.regs.wgid, wid := x.regs.warpId, pidx := p }

/-- The 64 bytes of a record (R445). -/
def traceBytes (clk core : Nat) (h : TraceHead) (type : Nat) (full : Bool) (aux : Nat) (pay : List Nat) : List Byte :=
  words64 [clk, h.pc.toNat] ++ leBytes 4 h.lmask.toNat ++ leBytes 4 h.wgid.toNat
    ++ [BitVec.ofNat 8 h.wid, BitVec.ofNat 8 h.pidx, BitVec.ofNat 8 type, BitVec.ofNat 8 (bit full)]
    ++ leBytes 2 core ++ leBytes 2 aux ++ words64 (pay ++ List.replicate (4 - pay.length) 0)

/-- A ring has room for a record. -/
def TraceRing.room (r : TraceRing) : Bool := r.wrap || decide (r.off + 64 ≤ 2 ^ r.log)

/-- Writes a record at the end of a core's ring; outside the memory model (R444). -/
def writeTrace (s : State) (core : Nat) (r : TraceRing) (bs : List Byte) : State :=
  { s.setBytes (r.base + r.off % 2 ^ r.log) bs with
    dbg := { s.dbg with rings := s.dbg.rings.insert core { r with off := r.off + 64 } } }

/-- A record goes to its core's ring, a DROP record before it where records have been lost, or is dropped. -/
def traceRecord (s : State) (core : Nat) (h : TraceHead) (type : Nat) (full : Bool) (aux : Nat) (pay : List Nat) : State :=
  match s.dbg.rings.find? core with
  | none => s
  | some r =>
    let bs := traceBytes s.clock core h type full aux pay
    let drop := Config.traceDrop s.fresh
    let s := { s with fresh := s.fresh + 1 }
    let lose (s : State) (r : TraceRing) : State :=
      { s with dbg := { s.dbg with rings := s.dbg.rings.insert core { r with dropped := r.dropped + 1, lost := r.lost + 1 } } }
    if drop || !r.room then lose s r
    else if r.lost = 0 then writeTrace s core r bs
    else
      let s := writeTrace s core { r with lost := 0 } (traceBytes s.clock core h 10 false 0 [r.lost])
      match s.dbg.rings.find? core with
      | some r => if r.room then writeTrace s core r bs else lose s r
      | none => s

/-- A path is its core's traced path (R447). -/
def State.isTraced (s : State) (w : Nat) (x : Warp) (q : Path) : Bool :=
  ((s.dbg.traced.find? x.core).map fun t => t.1 == w && q.lmask.getLsbD t.2.1).getD false

/-- The traced path's comparator asks for branch records. -/
def State.traceBranches (s : State) (x : Warp) : Bool := ((s.dbg.traced.find? x.core).map (·.2.2)).getD false

/-! ### Faults, traps and returns (R17, R410-R414, R420) -/

/-- The code number of a fault (R410). -/
def faultNumber : FaultCode → Nat
  | .pfault => 1 | .prot => 2 | .align => 3 | .illop => 4 | .illpriv => 5 | .regbound => 6 | .winovf => 7 | .emul => 8
  | .tshape => 9 | .fmtblk => 10 | .accbound => 11 | .nsbound => 12 | .tbstate => 13 | .peergone => 14 | .nopair => 15
  | .xmatch => 16 | .nocpyright => 17 | .nodebad => 18 | .qfull => 19 | .uistate => 20 | .hostlost => 21 | .poison => 22
  | .trapi => 23 | .breakpoint => 24 | .barscope => 25 | .overfill => 32 | .overarr => 33 | .ctxfault => 40
  | .keyfail => 41 | .staleimg => 42 | .trapnest => 43

/-- Ends the clause of a path and leaves the issue slot. -/
def endClause (s : State) (w p : Nat) : State :=
  { s.modPath w p (fun x => { x with clause := none }) with cur := none }

/-- Marks warp `w` as trapped by its path `p` (R411, steps 1-3): the cause is saved, the path keeps its PC, no path of the
warp starts a further clause, and an eviction that waits for the warp is abandoned (R416); one for a context fault follows the trap (R412). A fault of another path while the warp is trapped
is discarded. -/
def trapWarp (s : State) (w p : Nat) (code : Nat) (info : Word64) : State :=
  let len := s.cur.bind fun k => if k.w = w ∧ k.p = p then some k.len else none
  let s := endClause s w p
  s.modWarp w fun x =>
    match x.trap with
    | some _ => x
    | none =>
      match x.regs.paths.find? p with
      | some q => { x with leaving := x.faultVa.isSome, trap := some { code := code, info := info, pc := q.pc, path := p, lmask := q.lmask, len := len } }
      | none => x

/-- A FAULT record of the path that traps (R446). -/
def traceFault (s : State) (w p code : Nat) (info : Word64) : State :=
  match s.warp? w, s.path? w p with
  | some x, some q => if x.trap.isNone then traceRecord s x.core (traceHead x p q) 5 false code [info.toNat] else s
  | _, _ => s

/-- What a fault inside privileged mode leaves (R414): the mode ends at once, and the target is held for the supervisor with NEST set;
it becomes dormant with EVICTION_COMMIT, and its report follows (R420, R468). -/
def nestTrap (s : State) (lane target : Nat) : State :=
  let s := { s with warps := s.warps.erase lane, cur := s.cur.filter fun k => k.w != lane }
  s.modWarp target fun x =>
    { x with leaving := true, trap := x.trap.map fun t => { t with nest := true, inner := none, lane := none, held := true } }

/-- A fault of class T on path `p` of warp `w` (R410): the warp is trapped, or TRAPNEST will end privileged mode
(R414). A firmware core's lane stops (R440). -/
def raiseFault (s : State) (w p : Nat) (code : FaultCode) (info : Word64) : State :=
  match s.warp? w with
  | none => s
  | some x =>
    match x.kind with
    | .ordinary => trapWarp (traceFault s w p (faultNumber code) info) w p (faultNumber code) info
    | .trapLane target => (endClause s w p).modWarp target fun x => { x with trap := x.trap.map fun t => { t with inner := t.inner.or (some code) } }
    | .firmware _ => (endClause s w p).modWarp w fun x => { x with released := true }

/-- Entry of privileged mode (R411 step 4, R413): the trap lane, with zeroed shadow registers, starts at the physical address
`tvec`. `lane` is the number of the warp that stands for it. -/
def enterTrap (s : State) (w lane tvec : Nat) : State :=
  match s.warp? w with
  | none => s
  | some x =>
    match x.trap, lowLane ((x.trap.map (·.lmask)).getD 0) with
    | some t, some l =>
      let pth : Path := { pc := BitVec.ofNat 57 tvec, lmask := 1#32 <<< l, wtop := 0 }
      let lw : Warp := { x with kind := .trapLane w, trap := none, batches := [], launches := [], dirty := [], lru := []
                                foehn := [], pinned := [], uiLanes := 0
                                regs := { paths := [(0, pth)], dorm := 0, decl := x.regs.decl, ident := x.regs.ident } }
      { s.setWarp lane lw with warps := (s.setWarp lane lw).warps.insert w { x with trap := some { t with lane := some lane } } }
    | _, _ => s

/-- The return from privileged mode by resume (R420): the path goes back to TPC, or to `at` for a skip, and every frozen path
may issue again. -/
def leaveTrap (s : State) (w : Nat) (lane : Nat) (at_ : Option (BitVec 57)) : State :=
  let s := { s with warps := s.warps.erase lane }
  s.modWarp w fun x =>
    match x.trap with
    | none => x
    | some t =>
      { x with trap := none
               regs := { x.regs with paths := x.regs.paths.adjust t.path fun q =>
                 match at_ with
                 | none => q
                 | some pc => { q with pc := pc, wait := none, notes := [], rst := 0 } } }

/-! ### The clause boundary (R136-R141) -/

/-- Whether a wait is a long wait (R141, R342); `ctxf` says that the warp is context-faulted, so that a register-cache miss is one. -/
def Wait.long (ctxf : Bool) : Wait → Bool
  | .miss _ | .refill _ => ctxf
  | .regs _ | .walk _ | .walkRoom | .reads _ | .writes _ _ | .loaded _ | .flagRoom _ | .engineRoom | .copyRoom | .batchRoom | .batch _
  | .copies _ | .emulation | .flip _ | .tbGone | .remote _ _ | .halting _ _ _ | .installing _ | .saving _ _
  | .gstatRead _ _ _ | .gstatWrite _ => false
  | _ => true

/-- A wait whose instruction has already had an effect, or stands in a queue of its own, so that what stops its path a second time keeps the
wait. -/
def Wait.begun : Wait → Bool
  | .writes _ _ | .posting _ _ | .launchSlot | .callIdle | .loaded _ | .barrier _ _ | .granules _ _ _ | .shuf _ | .pair _ | .sleep _ _ _ | .uiwait _ _ _ | .callReply _ | .halting _ _ _ | .saving _ _
  | .nodeRoom _ _ _ | .installing _ | .remote _ _ | .gstatRead _ _ _ | .gstatWrite _ => true
  | _ => false

/-- The wait of a path is a long one. -/
def Path.longWait (ctxf : Bool) (q : Path) : Bool := (q.wait.map (·.long ctxf)).getD false

/-- A clause of the path is in progress: it has started, and no long wait holds the path. A path in a long wait gives its slices up and may
be evicted, and the rest of its clause follows the wait (DEDUCED from R311, R343 and R344, notes/assumptions/55.md). -/
def Path.running (ctxf : Bool) (q : Path) : Bool := q.clause.isSome && !q.longWait ctxf

/-- A path that R141 counts as being in a long wait (R426, R448). -/
def Path.inLongWait (ctxf : Bool) (q : Path) : Bool := q.longWait ctxf || ((q.halted || q.stopped) && !q.running ctxf)

/-- A path does not keep a parked path waiting (R141). -/
def Path.letsGo (ctxf : Bool) (q x : Path) : Bool :=
  x.park || x.depth != q.depth || x.wbase != q.wbase || decide (q.pc.toNat < x.pc.toNat) || x.inLongWait ctxf

/-- Whether a parked path is released by its siblings' state, those on the path stack among them (R135, R141). -/
def parkReleased (r : Regs) (i : Nat) (q : Path) : Bool :=
  (r.paths.all fun (j, x) => j == i || q.letsGo r.ctxf x) && r.stack.all (q.letsGo r.ctxf)

/-- Releases the parked paths that R141 lets go. -/
def releaseParked (r : Regs) : Regs :=
  { r with paths := r.paths.map fun (i, q) => if q.park && parkReleased r i q then (i, { q with park := false }) else (i, q) }

/-- A path stands between clauses: it waits in WAITF (R398), or nothing holds it there but the flags of its header or the fetch of its next
line. -/
def Path.between (q : Path) : Bool :=
  match q.wait with
  | some (.flags _) => true
  | none | some (.header _) | some (.walk _) | some .walkRoom | some (.requestRoom _ _) | some (.requests _ _) | some (.flip _) =>
    q.clause.isNone
  | _ => false

/-- The restart record of a path is valid and belongs to the instruction at its PC (R279, R280). -/
def Path.restarts (q : Path) : Bool := q.rst.getLsbD 0 && q.rst.extractLsb' 1 31 == q.pc.extractLsb' 1 31

/-- The wait of a merged path: that of a WAITF at its PC, if one of the two waits there; a header or a fetch is tried again. -/
def mergedWait (a b : Path) : Option Wait :=
  match a.wait, b.wait with
  | some (.flags m), _ | _, some (.flags m) => some (.flags m)
  | _, _ => none

/-- Changes every wait that a path is in or will take up again. -/
def Path.mapWaits (f : Wait → Wait) (q : Path) : Path :=
  { q with wait := q.wait.map f, frames := q.frames.map fun x => { x with wait := x.wait.map f } }

/-- Two paths rejoin (R138, R139): `relaxed` says that the clause header at their common PC has RLX = 1. A path inside a clause,
stopped (R448), or with a valid restart record (R280), joins no other; nor does one that waits inside an instruction. -/
def mayRejoin (relaxed : BitVec 57 → Bool) (a b : Path) : Bool :=
  a.between && b.between && !a.stopped && !b.stopped && !a.restarts && !b.restarts
    && a.pc == b.pc && a.pcHi == b.pcHi && a.wbase == b.wbase && a.depth == b.depth
    && (a.iter == b.iter || relaxed a.pc)

/-- The merged path (R138, R139, R426, R442). R138 does not say what EMU of the merged path is when one of the two is in emulation state; it
is set then (DESIGN CHOICE, notes/assumptions/54.md). -/
def joined (a b : Path) : Path :=
  { a with lmask := a.lmask ||| b.lmask, iter := if a.iter.toNat < b.iter.toNat then b.iter else a.iter, emu := a.emu || b.emu
           park := a.park && b.park, halted := a.halted || b.halted, bearing := a.bearing + b.bearing, skip := a.skip || b.skip
           after := NSet.insertAll a.after b.after, wait := mergedWait a b, frames := a.frames ++ b.frames
           age := match a.age, b.age with | some m, some n => some (min m n) | _, _ => none
           passed := max a.passed b.passed, urgent := a.urgent || b.urgent, yielded := a.yielded && b.yielded }

/-- Merges the path at `i` with the first later path that it may rejoin; the lower index stays. -/
def mergeOne (relaxed : BitVec 57 → Bool) (r : Regs) (i : Nat) : Regs :=
  match r.paths.find? i with
  | none => r
  | some a =>
    match List.find? (fun (jb : Nat × Path) => decide (i < jb.1) && mayRejoin relaxed a jb.2) r.paths with
    | some (j, b) => { r with paths := (r.paths.erase j).insert i (joined a b) }
    | none => r

/-- Every rejoin that the table allows: each index in turn, as often as there are paths. -/
def rejoinAll (relaxed : BitVec 57 → Bool) (r : Regs) : Regs :=
  (List.range 16).foldl (fun r i => (List.range 15).foldl (fun r _ => mergeOne relaxed r i) r) r

/-- The lowest-numbered free entry of the path table (R136). -/
def freeEntry (r : Regs) : Option Nat := (List.range 16).find? fun i => (r.paths.find? i).isNone

/-- Pops paths from the path stack into free entries (R137). -/
def popPaths : Nat → Regs → Regs
  | 0, r => r
  | n + 1, r =>
    match r.stack, freeEntry r with
    | q :: rest, some i => popPaths n { r with stack := rest, paths := r.paths.insert i q }
    | _, _ => r

/-- Rejoins, and pops into the entries that they free, as long as that frees another (R137, R138). -/
def settle (relaxed : BitVec 57 → Bool) : Nat → Regs → Regs
  | 0, r => rejoinAll relaxed r
  | n + 1, r =>
    let r := rejoinAll relaxed r
    match r.stack, freeEntry r with
    | _ :: _, some _ => settle relaxed n (popPaths 16 r)
    | _, _ => r

/-- The work of a clause boundary of the warp: rejoins, pops, releases, and the rejoins of what has been released (R137, R138, R141). -/
def boundaryRegs (relaxed : BitVec 57 → Bool) (r : Regs) : Regs :=
  let s := releaseParked (settle relaxed 16 r)
  if s.paths == r.paths then s else settle relaxed 16 s

/-! ### The outcome of an IOP -/

/-- What the body of an IOP answers: done; done and the path has been moved (control flow); a fault of class T; or a wait in
place, in which the instruction has had no effect but what the state given here holds. -/
inductive Res where
  | done (s : State)
  | moved (s : State)
  | trap (code : FaultCode) (info : Word64)
  /-- a fault of a progressive instruction, which keeps what its elements have done (R116, R279) -/
  | trapIn (s : State) (code : FaultCode) (info : Word64)
  | wait (s : State) (w : Wait)

/-- The issuing path, its warp, and the instruction's opcode, fields and shape. -/
structure Ctx where
  w    : Nat
  p    : Nat
  warp : Warp
  path : Path
  cur  : Cur
  opc  : Nat
  f    : Form
  sh   : Shape

/-- Whether the word of a personality is a clause header with RLX = 1 (R67, R106, R125). -/
def relaxedWord (s : State) (pid w8 : Nat) : Bool :=
  if pid = 0 then ((parseHeader w8).map (·.rlx)).getD false
  else if pid = 1 then bitsAt w8 26 6 == 0x3F && w8 % 2 == 1
  else if pid = 2 then false
  else match ((s.personalities.find? pid).bind (·.tables)).map (decodeTables · pid w8) with
    | some (.ok (.header h _)) => h.rlx
    | _ => false

/-- The relaxed-region test of R139 on the word at the common PC: from the Gazetteer's line where the cluster holds it, else from memory. A
word that cannot be fetched is no header. -/
def relaxedAt (s : State) (x : Warp) (pc : BitVec 57) : Bool :=
  let a := pc.toNat
  match combine s none x.vf x.asid a .fetch false false with
  | .fail _ => false
  | .ok c =>
    let pid := c.l1.e / 2 ^ 60
    match s.gaz.find? (fun e => e.cluster == clusterOf x.core && e.pid == pid && e.vf == x.vf && e.asid == x.asid && e.line == a / 64) with
    | some e => relaxedWord s pid (leNat ((e.bytes.drop (a % 64)).take 8))
    | none => relaxedWord s pid (s.readLe c.pa 8)

/-- JOIN records of the traced path: one for each path that has merged into it (R446). -/
def traceJoins (s : State) (w : Nat) (x : Warp) (new : Regs) : State :=
  match List.find? (fun (q : Nat × Path) => s.isTraced w x q.2) x.regs.paths, List.find? (fun (q : Nat × Path) => s.isTraced w x q.2) new.paths with
  | some (i, a), some (_, b) =>
    (x.regs.paths.foldl (fun (acc : State × BitVec 32) q =>
      if q.1 != i && q.2.lmask &&& b.lmask == q.2.lmask then
        let m := acc.2 ||| q.2.lmask
        (traceRecord acc.1 x.core (traceHead x i a) 4 true q.1 [m.toNat], m)
      else acc) (s, a.lmask)).1
  | _, _ => s

/-- The clause boundary of a warp (R138). -/
def clauseBoundary (s : State) (w : Nat) : State :=
  match s.warp? w with
  | none => s
  | some x =>
    let r := boundaryRegs (relaxedAt s x) x.regs
    (traceJoins s w x r).setWarp w { x with regs := r }

/-- The clause after one guest instruction of `n` IOPs has completed: `none` when it ends (R39, R67, R115). -/
def Clause.next (c : Clause) (n : Nat) (pageEnd : Bool) : Option Clause :=
  if c.left ≤ 1 then none
  else if c.implicit && (pageEnd || c.iops ≤ n) then none
  else some { c with left := c.left - 1, iops := c.iops - n }

/-- A restart record that does not belong to the instruction at PC is cleared when that instruction completes (R280), on what has become of
the path that held it. -/
def Path.dropStale (before : Path) (q : Path) : Path :=
  if before.rst.getLsbD 0 && !before.restarts && q.lmask &&& ~~~before.lmask == 0 then { q with rst := 0 } else q

/-- The guest instruction of the issuing path has completed (R450): PROG counts it, the PC moves on unless the instruction moved
the path, and the clause ends or goes on. -/
def completeGuest (s : State) (c : Ctx) (moved : Bool) (slots : Nat) : State :=
  let s := s.modRegs c.w fun r =>
    { r with prog := r.prog + 1, paths := r.paths.map fun (i, q) => (i, Path.dropStale c.path q), stack := r.stack.map (Path.dropStale c.path) }
  let next := addPc c.path.pc c.cur.len
  if moved then clauseBoundary { s with cur := none } c.w
  else
    let pageEnd := next.toNat % 4096 == 0
    let s := s.modPath c.w c.p fun q =>
      { q with pc := next, wait := none, notes := []
               clause := if isClauseEnd c.opc then none else q.clause.bind (·.next slots pageEnd) }
    match (s.path? c.w c.p).bind (·.clause) with
    | some _ => { s with cur := some { w := c.w, p := c.p } }
    | none => clauseBoundary { s with cur := none } c.w

/-- Puts back what earlier slots of the expansion changed, and starts the guest instruction again when it next issues
(R103, R116). -/
def undoSlots (s : State) (c : Cur) : State :=
  match c.undo with
  | none => s
  | some (preds, srst) => s.modRegs c.w fun r => { r with p := preds, srst := srst }

/-- A fault of class T of the issuing path; what its walks found is forgotten, so that the instruction translates afresh when it
runs again. -/
def faultAt (s : State) (c : Ctx) (code : FaultCode) (info : Word64) : State :=
  raiseFault ((undoSlots s c.cur).modPath c.w c.p fun q => { q with notes := [], wait := none }) c.w c.p code info

/-- The flags that the slots of an expansion have raised are merged into GSTAT when the guest instruction completes (R103, R200). -/
def mergeHeld (s : State) (c : Ctx) : State := s.modRegs c.w fun x => { x with gstat := x.gstat ||| c.cur.held }

/-- The state after the body of an IOP has answered. -/
def finish (c : Ctx) (s : State) (r : Res) : State :=
  match r with
  | .done t =>
    if c.f.e then completeGuest (mergeHeld t c) c false (c.cur.done + 1)
    else { t with cur := t.cur.map fun k => { k with done := k.done + 1 } }
  | .moved t => completeGuest (mergeHeld t c) c true 0
  | .trap code info => faultAt s c code info
  | .trapIn t code info => faultAt t c code info
  | .wait t w => { (undoSlots t c.cur).modPath c.w c.p (fun q =>
      { q with wait := if !w.begun && (q.wait.map (·.begun)).getD false then q.wait else some w }) with cur := none }

end Sys2Proof.Machine
end

