-- ==== Sys2Proof/Machine/Flags.lean ====
section
/-!
DEFINITION. Flags: the exception flags of GSTAT (R199), the conditions of the compares (R179, R208), the saturation and the
carries of the integer class (R176, R177), and the completion flags with their counts (R70, R338).
-/

namespace Sys2Proof.Machine

/-! ### GSTAT -/

/-- Exception flags of one operation, as the low bits of GSTAT: IV, DZ, OF, UF, IX at bits 0 to 4 (R199). -/
abbrev Exc := BitVec 5

def Exc.iv : Exc := 1
def Exc.dz : Exc := 2
def Exc.of : Exc := 4
def Exc.uf : Exc := 8
def Exc.ix : Exc := 16

/-- Merges flags into GSTAT; those of an earlier slot of an expansion are kept until its last slot completes (R103, R200). -/
def raiseExc (s : State) (c : Ctx) (x : Exc) : State :=
  if x = 0 then s
  else if c.f.e then s.modRegs c.w fun r => { r with gstat := r.gstat ||| x.zeroExtend 64 }
  else { s with cur := s.cur.map fun k => { k with held := k.held ||| x.zeroExtend 64 } }

/-- The flags of an operation that completes merge into GSTAT (R200), but for those that an MTSR has replaced; an MFSR that waits for the
operation takes them too. -/
def Regs.mergeFlags (r : Regs) (id : Nat) (x : Exc) : Regs :=
  let fl : Word64 := x.zeroExtend 64
  let take (w : Wait) : Wait := match w with
    | .gstatRead ids counted got => if counted.contains id then .gstatRead ids counted (got ||| fl) else w
    | w => w
  let replaced := r.paths.any fun q => match q.2.wait with | some (.gstatWrite ids) => ids.contains id | _ => false
  { r with gstat := if replaced then r.gstat else r.gstat ||| fl
           paths := r.paths.map fun q => (q.1, { q.2 with wait := q.2.wait.map take }) }

/-- What a write to GMODE stores (R198): RSVD is zero, PTBP 3 stores 0, RND 0 and 7 store 1. -/
def gmodeStored (x : Word64) : Word64 :=
  let rnd := x.toNat % 8
  let ptbp := x.toNat / 2 ^ 10 % 4
  (x &&& 0x3C0) ||| BitVec.ofNat 64 ((if rnd = 0 ∨ rnd = 7 then 1 else rnd) + (if ptbp = 3 then 0 else ptbp) * 2 ^ 10)

/-- What a write to GSTAT stores (R199). -/
def gstatStored (x : Word64) : Word64 := x &&& 0x1F

/-! ### Compares -/

/-- The integer condition Q: eq, ne, lt, le, gt, ge (R179). -/
def intCond (q : Nat) (a b : Int) : Bool :=
  match q with
  | 0 => a == b
  | 1 => a != b
  | 2 => decide (a < b)
  | 3 => decide (a ≤ b)
  | 4 => decide (b < a)
  | _ => decide (b ≤ a)

/-- The least and the greatest value of an integer type of `w` bits. -/
def intLo (signed : Bool) (w : Nat) : Int := if signed then -(2 ^ (w - 1)) else 0
def intHi (signed : Bool) (w : Nat) : Int := if signed then 2 ^ (w - 1) - 1 else 2 ^ w - 1

/-- Saturate (R15). -/
def saturate (x lo hi : Int) : Int := if x < lo then lo else if hi < x then hi else x

/-- The three-input table: bit 4a + 2b + d of `lut` (R165, R180). -/
def lutBit (lut : BitVec 8) (a b d : Bool) : Bool :=
  lut.getLsbD (4 * bit a + 2 * bit b + bit d)

/-! ### Completion flags (R70, R338) -/

/-- The count of a flag. -/
def Regs.flagCount (r : Regs) (f : Nat) : Nat := r.fcnt.get 0 f

/-- Whether every flag of a mask is clear. -/
def Regs.flagsClear (r : Regs) (mask : BitVec 12) : Bool :=
  (List.range 12).all fun i => !mask.getLsbD i || r.flagCount i == 0

/-- Attaches an operation to a flag. -/
def Regs.attachFlag (r : Regs) (f : Nat) : Regs := { r with fcnt := r.fcnt.put 0 f (r.flagCount f + 1) }

/-- An operation attached to a flag has completed. -/
def Regs.clearFlag (r : Regs) (f : Nat) : Regs := { r with fcnt := r.fcnt.put 0 f (r.flagCount f - 1) }

/-- The flag that an IOP of format A attaches (R62, R69): its clause's first or second set-flag; none without one. -/
def Ctx.setFlag (c : Ctx) : Option Nat :=
  match c.f with
  | .a x => if x.sfs = 1 then c.path.clause.bind (fun k => k.sf1.map (·.toNat))
            else if x.sfs = 2 then c.path.clause.bind (fun k => k.sf2.map (·.toNat)) else none
  | _ => none

/-- The flag whose count stands at 1,023, so that the operation must wait (R338). -/
def Ctx.flagFull (c : Ctx) : Option Nat :=
  match c.setFlag with
  | some f => if c.warp.regs.flagCount f < 1023 then none else some f
  | none => none

end Sys2Proof.Machine
end

