-- ==== Sys2Proof/Machine/Operands.lean ====
section
/-!
DEFINITION. Operand forms: the guard (R52), vectors, pairs and uniforms (R64, R65, R171), the sources "b" and "c" (R172), the
effective address (R60), and the writing of results to the lanes of a path or, with U = 1, to a uniform (R173, R212).
-/

namespace Sys2Proof.Machine

/-- The lanes in which a guard holds (R52). -/
def guardMask (r : Regs) (g : Guard) : BitVec 32 :=
  if g.inv then ~~~(r.pred g.pred.toNat) else r.pred g.pred.toNat

namespace Ctx

/-- The lanes for which Active(l) holds. -/
def act (c : Ctx) : BitVec 32 := c.path.lmask &&& guardMask c.warp.regs c.f.g

/-- The lowest-numbered lane of LaneMask(). -/
def lane0 (c : Ctx) : Nat := (lowLane c.path.lmask).getD 0

/-- Whether the guard holds in the lowest-numbered lane of LaneMask(), as once-per-path and scalar IOPs ask (R173, R307). -/
def guard0 (c : Ctx) : Bool := (guardMask c.warp.regs c.f.g).getLsbD c.lane0

/-- The absolute slot of vn (R147). -/
def slot (c : Ctx) (n : Nat) : Nat := c.path.wbase.toNat + n

/-- The words of vn, or of kn where the field is marked in KMASK. -/
def vrow (c : Ctx) (k : Bool) (n : Nat) : Row :=
  if k then (c.cur.k.find? n).getD zeroRow else c.warp.regs.row (c.slot n)

/-- Uniform n. -/
def uni (c : Ctx) (n : Nat) : Word64 := c.warp.regs.uni n

/-- The value of an operand in a lane: a vector's word, a pair's two words, a uniform, or a predicate's bit (R65, R171). -/
def val (c : Ctx) (o : Opd) (k : Bool) (n l : Nat) : Word64 :=
  match o with
  | .v cnt _ =>
    if c.f.u then c.uni n
    else if cnt = 1 then ((c.vrow k n).lane l).zeroExtend 64
    else (c.vrow k (n + 1)).lane l ++ (c.vrow k n).lane l
  | .u _ => c.uni n
  | .pred => if (c.warp.regs.pred n).getLsbD l then 1 else 0
  | _ => 0

/-- Source A. -/
def srcA (c : Ctx) (l : Nat) : Word64 := c.val c.sh.a (c.f.km.getLsbD 2) c.f.fa.toNat l

/-- The old value of D. -/
def oldD (c : Ctx) (l : Nat) : Word64 := c.val c.sh.d (c.f.km.getLsbD 3) c.f.d.toNat l

/-- The immediate of C, extended (R172). -/
def imm8 (c : Ctx) (signed : Bool) : Word64 := if signed then c.f.fc.signExtend 64 else c.f.fc.zeroExtend 64

/-- Source "b": the immediate when CI = 1 and B is unused, otherwise operand B (R172). -/
def srcB (c : Ctx) (signed : Bool) (l : Nat) : Word64 :=
  if c.sh.ci && c.sh.b == .no then c.imm8 signed else c.val c.sh.b (c.f.km.getLsbD 1) c.f.fb.toNat l

/-- Source "c": the immediate when CI = 1, otherwise operand C (R172). -/
def srcC (c : Ctx) (signed : Bool) (l : Nat) : Word64 :=
  if c.sh.ci then c.imm8 signed else c.val c.sh.c (c.f.km.getLsbD 0) c.f.fc.toNat l

/-- Uniform operands A, B, C and D of the once-per-path instructions. -/
def uA (c : Ctx) : Word64 := c.uni c.f.fa.toNat
def uB (c : Ctx) : Word64 := c.uni c.f.fb.toNat
def uC (c : Ctx) : Word64 := c.uni c.f.fc.toNat
def uD (c : Ctx) : Word64 := c.uni c.f.d.toNat

/-- The qualifier of format R. -/
def q (c : Ctx) : Nat := match c.f with | .r x => x.q.toNat | .i x => x.q.toNat | .b x => x.q.toNat | .a x => x.q.toNat | _ => 0

/-- The type of the destination. -/
def ty (c : Ctx) : ElemType :=
  match c.f with | .r x => x.t | .i x => x.t | .m x => x.t | .a x => x.t | .b _ | .s _ => .f64

/-- The effective address of a lane (R60), modulo 2^64. -/
def ea (c : Ctx) (l : Nat) : Word64 :=
  match c.f with
  | .m x =>
    (if x.a.getLsbD 7 then 0 else c.uni x.a.toNat)
      + (if x.iv then ((c.vrow (x.km.getLsbD 1) x.b.toNat).lane l).zeroExtend 64 else 0)
      + x.ofs.signExtend 64
  | _ => 0

end Ctx

/-- Writes uniform n of the issuing warp. -/
def writeUni (s : State) (c : Ctx) (n : Nat) (x : Word64) : State := s.modRegs c.w fun r => r.setUni n x

/-- Writes uniform D. -/
def writeUD (s : State) (c : Ctx) (x : Word64) : State := writeUni s c c.f.d.toNat x

/-- Writes lanes of vn, or of kn (R100), with the low words of `f`. -/
def writeRow (s : State) (c : Ctx) (k : Bool) (n : Nat) (mask : BitVec 32) (f : Nat → Word32) : State :=
  if k then
    { s with cur := s.cur.map fun x => { x with k := x.k.insert n (Row.merge mask (Row.ofFn f) ((x.k.find? n).getD zeroRow)) } }
  else s.modWarp c.w fun x => x.setRow (c.slot n) mask (Row.ofFn f)

/-- Writes `cnt` consecutive vector registers from vn in the lanes of a mask, the lowest word first. -/
def writeVec (s : State) (c : Ctx) (k : Bool) (n cnt : Nat) (mask : BitVec 32) (f : Nat → Word64) : State :=
  let s := writeRow s c k n mask fun l => (f l).truncate 32
  if cnt = 2 then writeRow s c k (n + 1) mask fun l => (f l).extractLsb' 32 32 else s

/-- Writes the destination of a lane-wise result: lanes of a vector or pair, or one uniform when U = 1 or D is a uniform. -/
def writeD (s : State) (c : Ctx) (mask : BitVec 32) (f : Nat → Word64) : State :=
  match c.sh.d with
  | .v cnt _ => if c.f.u then writeUD s c (f c.lane0) else writeVec s c (c.f.km.getLsbD 3) c.f.d.toNat cnt mask f
  | .u _ => writeUD s c (f c.lane0)
  | _ => s

/-- Writes lanes of predicate n. -/
def writePred (s : State) (c : Ctx) (n : Nat) (mask x : BitVec 32) : State := s.modRegs c.w fun r => r.setPred n mask x

/-- The value that a list of lane results gives a lane. -/
def laneValue {α : Type} (d : α) (xs : List (Nat × α)) (l : Nat) : α := ((xs.find? fun x => x.1 == l).map (·.2)).getD d

/-- A lane-wise IOP: every active lane, or the scalar unit when U = 1 and the guard holds (R173). -/
def lanewise (c : Ctx) (s : State) (f : Nat → Word64) : Res :=
  if c.f.u then (if c.guard0 then .done (writeD s c 0 f) else .done s) else .done (writeD s c c.act f)

/-- A lane-wise IOP whose destination is predicate D: with U = 1 all 32 lanes are written (R173). -/
def lanewisePred (c : Ctx) (s : State) (f : Nat → Bool) : Res :=
  if c.f.u then
    (if c.guard0 then .done (writePred s c c.f.d.toNat 0xFFFFFFFF (if f c.lane0 then 0xFFFFFFFF else 0)) else .done s)
  else .done (writePred s c c.f.d.toNat c.act (maskOf f))

/-- A once-per-path instruction: it takes effect only when the guard holds in the lowest lane (R307, R350, R387, R394, R418). R134 does not say
which lane's guard decides for PBIND, EMRET and PQUERY; the same lane does (DEDUCED, notes/assumptions/49.md). -/
def oncePerPath (c : Ctx) (s : State) (f : Unit → Res) : Res := if c.guard0 then f () else .done s

end Sys2Proof.Machine
end

