-- ==== Sys2Proof/Machine/Frame.lean ====
section
/-!
DEFINITION. The issue of an IOP: which path issues it, the faults taken before its own checks in the order of R416, the interlocks
of R39, the register cache (R347), and the single frame through which every IOP runs.
-/

namespace Sys2Proof.Machine

/-- The registers that an operand names: vector slots relative to the window, uniforms, predicates and the rest. -/
def operandRegs (path : Path) (u k : Bool) (o : Opd) (n : Nat) : List Reg :=
  match o with
  | .v cnt _ => if u then [.uni n] else if k then [] else (List.range cnt).map fun i => .slot (path.wbase.toNat + n + i)
  | .u cnt => (List.range cnt).map fun i => .uni (n + i)
  | .pred => if n = 15 then [] else [.pred n]
  | .tensor => [.tensor n]
  | .acc => [.acc n]
  | .accEven => [.acc n, .acc (n + 1)]
  | .base => if n < 64 then [.uni n] else []
  | .no | .flag | .imm _ _ => []

/-- The operand registers of an IOP with its guard (R39). The order D, A, B, C decides which register REGBOUND names when several operands lie
beyond the window (DESIGN CHOICE, notes/assumptions/52.md). -/
def iopRegs (path : Path) (f : Form) (sh : Shape) : List Reg :=
  operandRegs path f.u (f.km.getLsbD 3) sh.d f.d.toNat
    ++ operandRegs path f.u (f.km.getLsbD 2) sh.a f.fa.toNat
    ++ operandRegs path f.u (f.km.getLsbD 1) sh.b f.fb.toNat
    ++ operandRegs path f.u (f.km.getLsbD 0) sh.c f.fc.toNat
    ++ (if f.g.pred = 15 then [] else [.pred f.g.pred.toNat])
    ++ (match sh.pn with | some n => if n = 15 then [] else [.pred n] | none => [])

/-- The vector slots among registers. -/
def slotsOf (rs : List Reg) : List Nat := rs.filterMap fun r => match r with | .slot n => some n | _ => none

/-- The first vector register at or beyond WTOP, as its number in the window (R148). -/
def beyondWindow (path : Path) (rs : List Reg) : Option Nat :=
  ((slotsOf rs).find? fun n => decide (path.wtop.toNat ≤ n)).map (· - path.wbase.toNat)

/-- The registers that a queued engine operation writes (R244). -/
def EngineOp.busy (o : EngineOp) : List Reg :=
  match o.kind with | .mrow _ _ slot => (List.range 8).map fun i => .slot (slot + i) | _ => []

/-- Registers of a warp with a write outstanding: the destinations of its reads in flight, of its queued engine operations and of its
sends (R39, R174). -/
def busyRegs (s : State) (w : Nat) : List Reg :=
  (s.inflight.filter (·.warp == w)).flatMap (·.busy) ++ (s.eng.queue.filter (·.warp == w)).flatMap (·.busy)
    ++ s.ui.sends.filterMap fun x => x.warp.bind fun y => if y.1 = w then some (.uni y.2.2) else none

/-- The slots that an IOP needs resident: those it reads, and those it writes unless it writes every lane of them, unguarded with a full
lane mask (R347). -/
def neededSlots (path : Path) (f : Form) (sh : Shape) : List Nat :=
  let k (i : Nat) := f.km.getLsbD i
  let full := path.lmask == 0xFFFFFFFF && f.g.pred == 15 && !f.g.inv
  let d := if sh.dw && !sh.dr && !sh.part && full then [] else slotsOf (operandRegs path f.u (k 3) sh.d f.d.toNat)
  d ++ slotsOf (operandRegs path f.u (k 2) sh.a f.fa.toNat ++ operandRegs path f.u (k 1) sh.b f.fb.toNat
    ++ operandRegs path f.u (k 0) sh.c f.fc.toNat)

/-- A producer warp: it may issue copies (R320). -/
def Warp.producer (x : Warp) : Bool := x.regs.ident.getLsbD 6

/-- The opcodes that take U = 1 (R74). -/
def scalarOpcode (opc : Nat) : Bool :=
  (0x040 ≤ opc && opc ≤ 0x061) || (0x0C0 ≤ opc && opc ≤ 0x0D3) || (0x0DA ≤ opc && opc ≤ 0x0DD) || (0x00E ≤ opc && opc ≤ 0x015)

/-- The IOPs legal in single-lane privileged mode (R413). -/
def privilegedSubset (opc : Nat) (f : Form) (sh : Shape) : Bool :=
  let vec (o : Opd) : Bool := match o with | .v _ _ => !f.u | _ => false
  !(vec sh.d || vec sh.a || vec sh.b || vec sh.c)
    && (opc == 0x001 || opc == 0x002 || opc == 0x00B || (scalarOpcode opc && f.u)
        || opc == 0x186 || opc == 0x187 || opc == 0x1E7 || opc == 0x270 || opc == 0x271 || isPrivileged opc)

/-- Whether a warp runs in privileged mode (R413). -/
def Warp.privileged (x : Warp) : Bool := match x.kind with | .ordinary => false | _ => true

/-- What stands between an IOP and its effect: nothing, or a state in which its path has been stopped. -/
inductive Issue where
  | go (c : Ctx)
  | stop (s : State)

/-- The path stops in place before the IOP has had any effect. -/
def blocked (s : State) (c : Ctx) (w : Wait) : Issue := .stop (finish c s (.wait s w))

/-- A fault taken before the IOP's own checks. -/
def faulted (s : State) (c : Ctx) (code : FaultCode) (info : Word64) : Issue := .stop (finish c s (.trap code info))

/-- A register-cache miss of a path on slots (R347): it is counted and takes its place among Foehn's moves, unless all the slots are on
their way; the path waits. -/
def missWait (s : State) (x : Warp) (w p : Nat) (slots : List Nat) : State × Wait :=
  if slots.all x.refills then (s, .refill slots)
  else (s.setWarp w { x.countMiss with foehn := x.foehn ++ [.miss p] }, .miss slots)

/-- The checks of R416 step 3 that precede the IOP's own, then the interlocks and the register cache, for the path that issues
it; `none` when no path issues. -/
def issue (opc : Nat) (f : Form) (s : State) : Option Issue :=
  match s.cur with
  | none => none
  | some k =>
    match s.warp? k.w with
    | none => none
    | some x =>
      match x.regs.paths.find? k.p with
      | none => none
      | some q =>
        let c : Ctx := { w := k.w, p := k.p, warp := x, path := q, cur := k, opc := opc, f := f, sh := (shape opc f).getD {} }
        let rs := iopRegs q f c.sh
        some <|
          if !legal opc f then faulted s c .illop (q.pc.zeroExtend 64)
          else if isPrivileged opc && !x.privileged then faulted s c .illpriv 0
          else if x.privileged && !privilegedSubset opc f c.sh then faulted s c .illop (q.pc.zeroExtend 64)
          else match (if c.act = 0 then none else beyondWindow q rs) with
            | some n =>
              if opc == 0x221 && !x.producer then faulted s c .nocpyright 0
              else faulted s c .regbound (BitVec.ofNat 64 n)
            | none =>
              match rs.filter (busyRegs s k.w).contains with
              | r :: more => blocked s c (.regs (r :: more))
              | [] =>
                match (if c.act = 0 then [] else (neededSlots q f c.sh).filter fun n => !x.holds n) with
                | n :: more =>
                  if !(q.wait.map (·.begun)).getD false then
                    let (s, w) := missWait s x k.w k.p (n :: more)
                    blocked s c w
                  else if (n :: more).all x.refills then .stop { s with cur := none }
                  else .stop { s.setWarp k.w (x.countMiss.startRefill (n :: more) (slotsOf (busyRegs s k.w))) with cur := none }
                | [] => .go c

/-- The IOP takes its slots into use: room is made for those it writes whole, and all become the most recently used (R347). The warp has
issued (R343). -/
def prepare (c : Ctx) (s : State) : State :=
  let slots := if c.act = 0 then [] else slotsOf (iopRegs c.path c.f c.sh)
  let busy := slotsOf (busyRegs s c.w)
  let room (x : Warp) : Warp := x.makeRoom (slots.filter fun n => !x.holds n).length (x.victims (slots ++ busy))
  s.modWarp c.w fun x => { (room x).touch slots with issuedAt := s.clock }

/-- An IOP: issue, effect, and what follows (R39, R116, R416). -/
def runIop (opc : Nat) (f : Form) (body : Ctx → State → Res) (s : State) : Host.Outcome State Fault Refusal :=
  match issue opc f s with
  | none => .fault .noIssue
  | some (.stop t) => .next t
  | some (.go c) => .next (finish c s (body c (prepare c s)))

/-- The state that an answer gives. -/
def Res.state? : Res → Option State
  | .done t | .moved t | .trapIn t _ _ | .wait t _ => some t
  | .trap _ _ => none

/-- An IOP that makes accesses of its own at once: while one of their pages is flipping owner, its path waits, and the IOP has had no effect
(R291). -/
def runIopFlip (opc : Nat) (f : Form) (body : Ctx → State → Res) (s : State) : Host.Outcome State Fault Refusal :=
  if s.flips.isEmpty then runIop opc f body s
  else runIop opc f (fun c t => match (body c t).state?.bind (·.flipHit) with | some page => .wait t (.flip page) | none => body c t) s

/-- A step of the machine: `f` answers none where the state does not enable it. -/
def runEvent (f : State → Option State) (s : State) : Host.Outcome State Fault Refusal :=
  match f s with
  | some t => .next t
  | none => .fault .notEnabled

/-- A step whose accesses wait while one of their pages is flipping owner (R291). -/
def runEventFlip (f : State → Option State) (s : State) : Host.Outcome State Fault Refusal :=
  if s.flips.isEmpty then runEvent f s
  else runEvent (fun s => (f s).filter (·.flipHit.isNone)) s

end Sys2Proof.Machine
end

