-- ==== Sys2Proof/Machine/Cache.lean ====
section
/-!
DEFINITION. The caches of R25, R28, R29, R235, R258, R259, R261 and R262: LLC slices with their near-store, local and remote-line ways,
copies on other dies, constant caches, and L1 with the publish buffer. What a read returns is the memory model's (R299); a cache decides when
a core passes a boundary of its own accord (R259).
-/

namespace Sys2Proof.Machine

/-! ### LLC slices -/

/-- A line of this package's DRAM, of a host, of a peer package (R260). -/
def dramLine (line : Nat) : Bool := line / 2 ^ 32 == 0
def hostLine (line : Nat) : Bool := line / 2 ^ 42 % 16 == 2

/-- The home die of a line, and the stop index of a line (R21, R25). -/
def homeDie (line : Nat) : Nat := line / 2 ^ 30 % 4
def stopIndex (line : Nat) : Nat := (line % 64) ^^^ (line / 64 % 64)

/-- The lines of a slice that its ways hold: 2,048 for each way that serves local lines, or each remote-line way (R25, R28, R29). -/
def sliceLines (s : State) (slice : Nat) (remote : Bool) : Nat :=
  let far := s.remoteWays.get 0 slice
  2048 * (if remote then far else 16 - s.nearWays.get 0 slice - far)

/-- A line enters a slice. A pinned line is never replaced (R235); the line that has stood longest leaves a full slice (DESIGN CHOICE,
notes/assumptions/58.md), and a die whose copy leaves is no longer in the home slice's mask (R261). -/
def llcFill (s : State) (slice line : Nat) (remote : Bool) : State :=
  if s.llc.any fun l => l.slice == slice && l.line == line && l.remote == remote then s
  else
    let mine := s.llc.filter fun l => l.slice == slice && l.remote == remote
    let new : LlcLine := { slice := slice, line := line, remote := remote }
    if mine.length < sliceLines s slice remote then { s with llc := s.llc ++ [new] }
    else if sliceLines s slice remote = 0 then s
    else match mine.find? (·.pins.isEmpty) with
      | none => s
      | some v =>
        { s with llc := s.llc.filter (· != v) ++ [new]
                 copies := if remote then s.copies.put 0 v.line (s.copies.get 0 v.line &&& ~~~(1#4 <<< (slice / 64))) else s.copies }

/-- A read by a die brings a line into its home slice, and into a remote-line way of the die where its home is another (R51, R261). Host lines
stand in remote-line ways only, and peer lines nowhere (R262). -/
def llcRead (s : State) (die line : Nat) : State :=
  let far := 64 * die + stopIndex line
  if dramLine line then
    let s := llcFill s (64 * homeDie line + stopIndex line) line false
    if homeDie line = die then s
    else
      let s := llcFill s far line true
      if s.llc.any fun l => l.slice == far && l.line == line && l.remote
      then { s with copies := s.copies.put 0 line (s.copies.get 0 line ||| (1#4 <<< die)) } else s
  else if hostLine line then llcFill s far line true
  else s

/-- Every copy of lines on other dies than their home is invalidated (R261), and the home slices hold them. -/
def llcWrite (s : State) (lines : List Nat) : State :=
  let s := { s with copies := lines.foldl (fun m l => m.put 0 l 0) s.copies, llc := s.llc.filter fun l => !(l.remote && lines.contains l.line) }
  lines.foldl (fun s l => if dramLine l then llcFill s (64 * homeDie l + stopIndex l) l false else s) s

/-- A line leaves every slice and every remote-line way (R286, R291). -/
def llcDrop (s : State) (f : Nat → Bool) : State :=
  { s with llc := s.llc.filter fun l => !f l.line, copies := s.copies.filter fun c => !f c.1 }

/-! ### Constant caches -/

/-- A line enters the constant cache of a cluster, of 1,024 lines; the line that has stood longest leaves it (R258; DESIGN CHOICE,
notes/assumptions/58.md). -/
def conFill (s : State) (cluster line : Nat) : State :=
  if s.con.any fun l => l.owner == cluster && l.line == line then s
  else
    let mine := s.con.filter (·.owner == cluster)
    let old := match mine with | v :: _ => if mine.length < 1024 then s.con else s.con.filter (· != v) | [] => s.con
    { s with con := old ++ [{ owner := cluster, line := line }] }

/-! ### L1 and the publish buffer (R258, R259, R281) -/

/-- A core's store to the line is held: neither strong nor published wider than `.core` (R298). -/
def Held.moving (h : Held) : Bool := h.strong || (match h.scope with | none | some .core => false | some _ => true)

/-- The stores of a core that are held: neither strong nor published wider than `.core`. -/
def Held.heldBy (h : Held) (core : Nat) : Bool := h.core == core && !h.moving

/-- A core holds unpublished bytes of a line. -/
def dirtyLine (s : State) (core line : Nat) : Bool := s.held.any fun h => h.heldBy core && h.cells.any (·.1 / 64 == line)

/-- A line leaves a core's full L1: one that is next to be replaced, otherwise any of them (R281). -/
def l1Victim (s : State) (core : Nat) : State × Option CacheLine :=
  let mine := s.l1.filter (·.owner == core)
  match mine.find? (·.next) with
  | some v => (s, some v)
  | none => ({ s with fresh := s.fresh + 1 }, mine[Config.victim s.fresh % mine.length]?)

/-- A line enters a core's L1 of 2,048 lines; a line with unpublished bytes that leaves it goes to the publish buffer of 64 lines. `true`
says that the buffer is full, so that the core must pass a boundary first (R259). -/
def l1Fill (s : State) (core line : Nat) (next : Bool) : State × Bool :=
  let new : CacheLine := { owner := core, line := line, next := next }
  if (s.l1.any fun l => l.owner == core && l.line == line) || s.buffer.contains (core, line) then (s, false)
  else if (s.l1.filter (·.owner == core)).length < 2048 then ({ s with l1 := s.l1 ++ [new] }, false)
  else match l1Victim s core with
    | (t, none) => (t, false)
    | (t, some v) =>
      let put (t : State) : State := { t with l1 := t.l1.filter (· != v) ++ [new] }
      if !dirtyLine s core v.line then (put t, false)
      else if (s.buffer.filter (·.1 == core)).length < 64 then (put { t with buffer := t.buffer ++ [(core, v.line)] }, false)
      else (s, true)

/-- Lines enter a core's L1 in order; `true` says that the core must pass a boundary first, and nothing has entered. -/
def l1FillAll (s : State) (core : Nat) (next : Bool) (lines : List Nat) : State × Bool :=
  let r := lines.foldl (fun (acc : State × Bool) l => if acc.2 then acc else l1Fill acc.1 core l next) (s, false)
  if r.2 then (s, true) else r

/-- Lines of the publish buffer whose bytes have been published leave it. -/
def tidyBuffer (s : State) : State := { s with buffer := s.buffer.filter fun b => dirtyLine s b.1 b.2 }

end Sys2Proof.Machine
end

