-- ==== Sys2Proof/Machine/Coherence.lean ====
section
/-!
DEFINITION. The memory model of R295-R304 (09_ordering.md): performed writes in coherence order, held stores and their publication
by phase boundaries, read bounds, and what a read may return.
-/

namespace Sys2Proof.Machine

/-! ### Domains and bounds -/

/-- Core `b` lies in the S-domain of core `a` (R296). -/
def inDomain (sc : Scope) (a b : Nat) : Bool :=
  match sc with
  | .core => a == b
  | .quad => quadOf a == quadOf b
  | .clus => clusterOf a == clusterOf b
  | .die => dieOf a == dieOf b
  | .pkg | .pod => true

/-- The bound that a core's reads on a path use: one per core and path, and one per cluster for CON (R299). -/
def boundKey (core : Nat) (q : Chan) : Nat :=
  match q with
  | .con => 2048 + clusterOf core
  | q => 4 * core + q.code

/-- Whether a performed write covers an address. -/
def Performed.covers (w : Performed) (a : Nat) : Bool := w.cells.any (·.1 == a)

/-- The position of the latest performed write to an address that satisfies a test; 0 is the write that initialised it. -/
def latestPos (s : State) (a : Nat) (f : Performed → Bool) : Nat :=
  s.performed.foldl (fun p w => if w.covers a && f w && decide (p < w.pos) then w.pos else p) 0

/-- A write is published to a core by one in the core's domain of a scope (R296, R300). A write that no core makes, such as a host's or a
peer package's, is published at `.pod`. -/
def publishedTo (d : Nat) (sc : Scope) (w : Performed) : Bool :=
  match w.core with
  | some k => inDomain sc d k && inDomain w.scope k d
  | none => w.chan == .gen && sc == .pod

/-- The position that a term of a bound gives an address. -/
def BoundTerm.at (s : State) (a : Nat) : BoundTerm → Nat
  | .refresh d sc pos => latestPos s a fun w => decide (w.pos ≤ pos) && publishedTo d sc w
  | .byte addr pos => if addr = a then pos else 0
  | .warpWrites n ch pos => latestPos s a fun w => decide (w.pos ≤ pos) && w.warp == n && w.chan == ch
  | .op id => latestPos s a fun w => w.seq == id && (w.chan == .mat || w.chan == .cpy)
  | .reread pos kept => if kept.contains (a / 64) then 0 else latestPos s a fun w => decide (w.pos ≤ pos)

/-- The bound B(D, Q, x) of R299, with the latest performed store of the core itself. -/
def lowerBound (s : State) (core : Nat) (q : Chan) (a : Nat) : Nat :=
  let own := latestPos s a fun w => w.core == some core && w.chan == .gen
  (s.bounds.get [] (boundKey core q)).foldl (fun p t => max p (t.at s a)) own

/-- Raises a bound by terms. -/
def raiseBound (s : State) (key : Nat) (ts : List BoundTerm) : State :=
  let old := s.bounds.get [] key
  { s with bounds := s.bounds.put [] key (ts.foldl (fun b t => if b.contains t then b else b ++ [t]) old) }

/-- The refresh of a core at a scope (R300); an older refresh of the same scope is covered by the new one. -/
def refresh (s : State) (core : Nat) (sc : Scope) : State :=
  let key := boundKey core .gen
  let old := (s.bounds.get [] key).filter fun t => match t with | .refresh _ sc' _ => sc' != sc | _ => true
  { s with bounds := s.bounds.put [] key (old ++ [.refresh core sc s.performed.length]) }

/-! ### Performing -/

/-- A write performs (R297): copies of its lines on other dies have gone (R261), it takes the next place in the coherence order of each of its
bytes, and a store of whole granules clears their poison (R292). -/
def perform (s : State) (wid : Nat) (core : Option Nat) (warp : Nat) (lanes : BitVec 32) (seq : Nat) (chan : Chan) (scope : Scope)
    (base size : Nat) (cells : List Host.Cell) : State :=
  let old := cells.map fun c => (c.1, s.byte c.1)
  let w : Performed := { pos := s.performed.length + 1, wid := wid, core := core, warp := warp, lanes := lanes, seq := seq
                         chan := chan, scope := scope, base := base, size := size, cells := cells, old := old }
  let s := llcWrite s (NSet.insertAll [] (cells.map (·.1 / 64)))
  let s := { s.setCells cells with performed := s.performed ++ [w] }
  let whole (g : Nat) : Bool := (List.range 16).all fun i =>
    s.performed.any fun v => v.warp == warp && v.seq == seq && v.covers (16 * g + i)
  { s with poison := s.poison.filter fun g => !(cells.any (fun c => c.1 / 16 == g) && whole g) }

/-- The cells of bytes from an address on. -/
def cellsAt (a : Nat) (bs : List Byte) : List Host.Cell := (List.range bs.length).zip bs |>.map fun x => (a + x.1, x.2)

/-- A write by an agent that is no path: an engine, the walker, Foehn, firmware or an agent outside the package. -/
def agentWrite (s : State) (a : Nat) (bs : List Byte) (warp : Nat := 0) (chan : Chan := .gen) : State :=
  let s := { s with nextId := s.nextId + 1, seq := s.seq + 1 }
  perform s (s.nextId - 1) none warp 0 s.seq chan .pod a bs.length (cellsAt a bs)

/-- A write of a copy or of an engine operation, which performs as it is written (R245, R329). -/
def opWrite (s : State) (id warp : Nat) (chan : Chan) (a : Nat) (bs : List Byte) : State :=
  let s := { s with nextId := s.nextId + 1 }
  perform s (s.nextId - 1) none warp 0 id chan .pod a bs.length (cellsAt a bs)

/-- An `n`-byte little-endian number written by an agent. -/
def agentWriteLe (s : State) (a n x : Nat) : State := agentWrite s a (leBytes n x)

/-! ### Held stores and publication (R298, R300) -/

/-- Numbers of the writes of a core, other than strong ones, that have been published and not performed. -/
def publishedWids (s : State) (core : Nat) : List Nat :=
  (s.held.filter fun h => h.core == core && h.moving && !h.strong).map (·.wid)

/-- Whether two stores share a byte. -/
def Held.overlaps (h g : Held) : Bool := h.cells.any fun c => g.cells.any fun d => c.1 == d.1

/-- Publishes the stores of a core that satisfy a test, at a scope, as phase boundary `n` of the core, or as none when `n` is 0 (R298, R301):
a held store is published and follows the earlier published stores of the core to its bytes; one that has been published at a narrower
scope has this scope now, and belongs to the first boundary that published it. -/
def publishIf (s : State) (core : Nat) (sc : Scope) (n : Nat) (f : Held → Bool) : State :=
  let publish (h : Held) : Held :=
    if h.heldBy core && f h && (match h.scope with | none => true | some o => o.code < sc.code) then
      { h with scope := some sc, boundary := n
               after := NSet.insertAll h.after
                 ((s.held.filter fun g => g.core == core && g.moving && decide (g.seq < h.seq) && h.overlaps g).map (·.wid)) }
    else if h.core == core && h.moving && !h.strong && f h then
      { h with scope := h.scope.map fun o => if o.code < sc.code then sc else o
               boundary := if h.boundary = 0 then n else h.boundary }
    else h
  tidyBuffer { s with held := s.held.map publish }

/-- A phase boundary (R298) that publishes the stores satisfying a test. -/
def boundaryOf (s : State) (core : Nat) (sc : Scope) (f : Held → Bool) : State :=
  let n := s.boundaries.get 0 core + 1
  { publishIf s core sc n f with boundaries := s.boundaries.put 0 core n }

/-- A phase boundary (R298): the core publishes every store at the scope. -/
def boundary (s : State) (core : Nat) (sc : Scope) : State := boundaryOf s core sc fun _ => true

/-- Stores to one of the lines. -/
def Held.inLines (h : Held) (lines : List Nat) : Bool := h.cells.any fun c => lines.contains (c.1 / 64)

/-- The publication that a strong access makes first: the core's held stores to its lines (R301). -/
def publishLines (s : State) (core : Nat) (sc : Scope) (lines : List Nat) : State := publishIf s core sc 0 (·.inLines lines)

/-- The publication that the end of a warp's last lane makes, so that every store it issued can perform (R162): each core that holds a
store of the warp passes a boundary for what it holds to those lines. -/
def publishOwn (s : State) (w : Nat) : State :=
  let mine := s.held.filter fun h => h.warp == w && !h.moving
  let lines := mine.flatMap fun h => h.cells.map fun c => c.1 / 64
  (NSet.insertAll [] (mine.map (·.core))).foldl (fun s core => boundaryOf s core .pod (·.inLines lines)) s

/-- Whether an older strong access of the same path to one of the bytes has not performed (R301). -/
def olderStrong (s : State) (warp : Nat) (path : BitVec 32) (seq a n : Nat) : Bool :=
  (s.held.any fun g => g.strong && g.warp == warp && (g.path &&& path) != 0 && decide (g.seq < seq)
      && g.cells.any fun c => decide (a ≤ c.1) && decide (c.1 < a + n))
    || (s.inflight.any fun r => (match r.op with | .weak _ => false | _ => true) && r.warp == warp && (r.path &&& path) != 0
      && decide (r.seq < seq) && r.elems.any fun e => e.val.isNone && decide (e.pa < a + n) && decide (a < e.pa + r.size))

/-- Whether a store may perform now: it is published, the writes of earlier boundaries of its core have performed (R298), and so
have those that it follows. -/
def mayPerform (s : State) (h : Held) : Bool :=
  h.moving
    && (h.boundary == 0 || s.held.all fun g => !(g.core == h.core && g.moving && !g.strong && decide (0 < g.boundary)
          && decide (g.boundary < h.boundary)))
    && (h.after.all fun w => s.held.all fun g => g.wid != w)
    && !(h.strong && olderStrong s h.warp h.path h.seq h.base h.size)

/-- Numbers the writes and reads of one instruction alike, in the order of issue. -/
def nextSeq (s : State) : State := { s with seq := s.seq + 1 }

/-- One element of a store: its lanes, physical address and bytes, and the page when it is mapped executable (R111). -/
structure StoreElem where
  lanes : BitVec 32
  va   : Nat
  pa   : Nat
  bytes : List Byte
  exec : Option (Nat × Nat × Nat) := none

/-- A weak GEN store issues (R298): it is held, and hides what the core held for its bytes. -/
def holdStore (s : State) (c : Ctx) (e : StoreElem) : State :=
  let core := c.warp.core
  let cells := cellsAt e.pa e.bytes
  let h : Held := { wid := s.nextId, core := core, warp := c.w, wg := c.warp.wg, lanes := e.lanes, path := c.path.lmask
                    seq := s.seq, after := c.path.after, va := e.va, base := e.pa, size := e.bytes.length, cells := cells, exec := e.exec }
  let trim (g : Held) : Held :=
    if g.heldBy core then { g with cells := g.cells.filter fun x => !cells.any (·.1 == x.1) } else g
  { s with nextId := s.nextId + 1, held := (s.held.map trim).filter (fun g => !g.cells.isEmpty) ++ [h] }

/-- The weak stores of one instruction issue. -/
def holdStores (s : State) (c : Ctx) (es : List StoreElem) : State := es.foldl (fun s e => holdStore s c e) (nextSeq s)

/-! ### Reads -/

/-- Reads of a path that have issued and not returned. -/
def pendingReads (s : State) (w : Nat) (lmask : BitVec 32) : List Nat :=
  (s.inflight.filter fun r => r.warp == w && (r.lanes &&& lmask) != 0).map (·.rid)

/-- Strong writes of a path that have not performed. -/
def strongWrites (s : State) (w : Nat) (lmask : BitVec 32) : List Nat :=
  (s.held.filter fun h => h.strong && h.warp == w && (h.lanes &&& lmask) != 0).map (·.wid)

/-- The byte that a core forwards to its own weak GEN read: its latest store not yet performed (R259, R299). -/
def forwarded (s : State) (core a : Nat) : Option Byte :=
  s.held.foldl (fun b h =>
    if h.core == core && !h.strong && h.chan == .gen then ((h.cells.find? (·.1 == a)).map (·.2)).or b else b) none

/-- What a weak read may return for a byte, fixed when it issues (R299). -/
def byteSource (s : State) (core : Nat) (q : Chan) (a : Nat) : ByteSource :=
  match (if q = .gen then forwarded s core a else none) with
  | some b => .value b
  | none => .since (lowerBound s core q a)

/-- The byte that initialised an address. -/
def initialByte (s : State) (a : Nat) : Byte :=
  match s.performed.find? (·.covers a) with
  | some w => ((w.old.find? (·.1 == a)).map (·.2)).getD emptyByte
  | none => s.byte a

/-- The bytes of a choice of writes for an address: one for the initial write when `from_` is 0, and one for each write at or after
`from_` that satisfies the test. -/
def candidates (s : State) (f : Performed → Bool) (from_ a : Nat) : List Byte :=
  (if from_ = 0 then [initialByte s a] else [])
    ++ (s.performed.filter fun w => decide (from_ ≤ w.pos) && w.covers a && f w).map fun w =>
        ((w.cells.find? (·.1 == a)).map (·.2)).getD emptyByte

/-- One of a list of choices: the only one, or one that nothing in the model fixes. -/
def choose {α : Type} (d : α) (s : State) (xs : List α) : State × α :=
  match xs with
  | [] => (s, d)
  | [x] => (s, x)
  | xs => ({ s with fresh := s.fresh + 1 }, xs.getD (Config.readChoice s.fresh % xs.length) d)

/-- The bytes that a weak read of `n` bytes from `a` returns (R297, R299): all from one write when every write that it may return
has its size and place, otherwise each byte on its own. -/
def readBytes (s : State) (f : Performed → Bool) (a : Nat) (src : List ByteSource) : State × List Byte :=
  let n := src.length
  let from_ := src.foldl (fun p x => match x with | .since q => max p q | .value _ => p) 0
  let whole := src.all (fun x => match x with | .since _ => true | .value _ => false) && decide (n ≤ 8) && a % n == 0
  let ws := s.performed.filter fun w => f w && decide (from_ ≤ w.pos) && (List.range n).any fun i => w.covers (a + i)
  if whole && ws.all fun w => w.base == a && w.size == n && w.cells.length == n then
    choose (List.replicate n emptyByte) s
      ((if from_ = 0 then [(List.range n).map fun i => initialByte s (a + i)] else []) ++ ws.map fun w => w.cells.map (·.2))
  else
    ((List.range n).zip src).foldl (fun (acc : State × List Byte) x =>
      match x.2 with
      | .value b => (acc.1, acc.2 ++ [b])
      | .since p =>
        let (s', b) := choose emptyByte acc.1 (candidates acc.1 f p (a + x.1))
        (s', acc.2 ++ [b])) (s, [])

/-- A weak read made at once by an engine or a unit of a core (R218, R234, R319): the bytes it may return now. -/
def weakNow (s : State) (core : Nat) (q : Chan) (a n : Nat) : State × List Byte :=
  readBytes s (fun _ => true) a ((List.range n).map fun i => byteSource s core q (a + i))

/-- Whether a performed write is a later one of the thread that issued a read. -/
def laterOwn (r : Inflight) (w : Performed) : Bool :=
  w.warp == r.warp && (w.lanes &&& r.lanes) != 0 && decide (r.seq < w.seq)

/-- A loaded element as 64 bits (R265). -/
def extended (t : ElemType) (bs : List Byte) : Word64 :=
  let n := leNat bs
  if t.signed then BitVec.ofInt 64 (if n < 2 ^ (8 * bs.length - 1) then n else (n : Int) - 2 ^ (8 * bs.length))
  else BitVec.ofNat 64 n

/-! ### Rate limiters (R439) -/

/-- The number of a cluster's limiter for a VF. -/
def limitKey (cluster vf : Nat) : Nat := cluster * 256 + vf

/-- A request of a VF enters the torus from a cluster: it takes a token where RATE is not 0, and waits while there is none. -/
def spend (s : State) (cluster vf : Nat) : Option State :=
  let k := limitKey cluster vf
  if (s.sys.limits.get 0 k).toNat % 2 ^ 16 = 0 then some s
  else match s.sys.tokens.get 0 k with
    | 0 => none
    | n + 1 => some { s with sys := { s.sys with tokens := s.sys.tokens.put 0 k n } }

/-- The cluster and VF that a warp's request counts for. -/
def requester (s : State) (core w : Nat) : Option (Nat × Nat) := (s.warp? w).map fun x => (clusterOf core, x.vf)

/-- A step that is a request of the cluster and VF that `who` names. -/
def limited (who : State → Option (Nat × Nat)) (f : State → Option State) (s : State) : Option State :=
  match who s with
  | some (cluster, vf) => (spend s cluster vf).bind f
  | none => f s

/-- Whether an address lies in a poisoned granule (R292). -/
def poisoned (s : State) (a n : Nat) : Bool := (List.range n).any fun i => s.poison.contains ((a + i) / 16)

end Sys2Proof.Machine
end

