-- ==== Sys2Proof/Machine/Xlate.lean ====
section
/-!
DEFINITION. Address translation (R260, R268-R277, 08_memory.md): the nested walk, the TLBs, page requests, the rings that reports
go to, and the clearing of X by a store (R111).
-/

namespace Sys2Proof.Machine

/-! ### Walks (R268-R273) -/

/-- Hardware sets A, and D on a write, in the entries that a walk has used, unless software has changed one meanwhile (R270, R272, R274). -/
def markUsed (s : State) (c : Combined) (write : Bool) : State :=
  (c.marks write).foldl (fun s (u, d) =>
    let now := s.readLe u.epa 8
    let e := now ||| (if d then 0x300 else 0x100)
    if now ||| 0x300 != u.e ||| 0x300 || e == now then s else agentWriteLe s u.epa 8 e) s

/-- A translation made at once by a unit that keeps no path waiting: A and D are set, and the physical address is given. One that meets a
page in flip says so in `flipHit`, and the step that makes it is not taken (R291). -/
def xlateNow (s : State) (vf asid va : Nat) (kind : Access) (ctx : Bool := false) : State × WalkRes Nat :=
  match combine s none vf asid va kind ctx with
  | .ok c =>
    let s := if s.flips.contains (c.pa / 4096) then { s with flipHit := s.flipHit.or (some (c.pa / 4096)) } else s
    (markUsed s c (kind == .write), .ok c.pa)
  | .fail f => (s, .fail f)

/-- A translation that changes nothing that a program can see (R286); none where it fails or the page is flipping. -/
def xlateQuiet (s : State) (vf asid va : Nat) : Option Nat :=
  match combine s none vf asid va .read false false with
  | .ok c => if s.flips.contains (c.pa / 4096) then none else some c.pa
  | .fail _ => none

/-! ### TLBs (R273) -/

/-- An entry serves an access of a kind: it matches, and allows the access without setting D. -/
def TlbEntry.serves (e : TlbEntry) (home : TlbHome) (vf asid va : Nat) (kind : Access) (ctx : Bool) : Bool :=
  e.home == home && e.vf == vf && (e.glob || e.asid == asid) && decide (e.vbase ≤ va) && decide (va < e.vbase + e.size)
    && e.ctx == ctx
    && (match kind with | .read => e.r | .write => e.r && e.w && e.dirty | .fetch => e.x && e.sv)

/-- The entry of a walk that has succeeded. -/
def Combined.entry (c : Combined) (home : TlbHome) (vf asid va : Nat) (write : Bool) : TlbEntry :=
  { home := home, vf := vf, asid := asid, glob := c.l1.e.testBit 10, vbase := va / c.size * c.size
    pbase := c.pa / c.size * c.size, size := c.size, r := c.r, w := c.w, x := c.x, ctx := c.l1.e.testBit 58
    sv := c.l1.e.testBit 59, pid := c.l1.e / 2 ^ 60
    dirty := write || (c.marks true).all fun u => !u.2 || u.1.e.testBit 9 }

/-- Adds an entry to a TLB of `cap` entries; the oldest leaves it. -/
def addTlb (tlb : List TlbEntry) (e : TlbEntry) (cap : Nat) : List TlbEntry :=
  let mine := tlb.filter (·.home == e.home)
  let tlb := if mine.length < cap then tlb
    else match tlb.findIdx? (·.home == e.home) with
      | some i => tlb.eraseIdx i
      | none => tlb
  tlb ++ [e]

/-- Drops the translations that satisfy a test, with the Gazetteer entries and the fills in flight of their pages (R114, R422). -/
def dropTranslations (s : State) (f : TlbEntry → Bool) (g : (vf asid line : Nat) → Bool) : State :=
  { s with tlb := s.tlb.filter fun e => !f e
           gaz := s.gaz.filter fun e => !g e.vf e.asid e.line
           fills := s.fills.filter fun e => !g e.vf e.asid e.line }

/-- Drops every translation of the 4 KiB page of an address (R422). The page may be global, so that its Gazetteer entries of every address
space of the VF go. -/
def dropPage (s : State) (vf asid va : Nat) : State :=
  dropTranslations s
    (fun e => e.vf == vf && (e.glob || e.asid == asid) && decide (e.vbase < va / 4096 * 4096 + 4096)
      && decide (va / 4096 * 4096 < e.vbase + e.size))
    (fun v _ line => v == vf && line / 64 == va / 4096)

/-- A store to an executable page: X is cleared, then the page's translations and Gazetteer entries go, and later fetches from the page fault
with PFAULT (R111). -/
def clearExec (s : State) (vf asid va : Nat) : State :=
  match walk1 s none vf asid va with
  | .ok l =>
    let s := if l.e.testBit 7 then agentWriteLe s l.epa 8 (l.e - 2 ^ 7) else s
    dropPage { s with cleared := s.cleared.filter (· != (vf, asid, va / 4096)) ++ [(vf, asid, va / 4096)] } vf asid va
  | .fail _ => s

/-! ### The translation of a path's access -/

/-- What a path finds for an address: a physical address and whether the page is executable, a failure, a page that is flipping,
or nothing yet, so that it needs a walk. -/
inductive Found where
  | ok (pa : Nat) (exec : Bool)
  | fail (f : WalkFail)
  | flip (page : Nat)
  | walk

/-- A host page whose host has restarted is revoked (R437). -/
def hostPageLost (s : State) (vf pa : Nat) : Bool := pa / 2 ^ 48 % 16 == 2 && s.revoked.contains (s.vfs.get {} vf).dev

/-- The translation of an address for a path: its core's TLB, its cluster's, or the outcome of its own walk. -/
def lookupVa (s : State) (x : Warp) (q : Path) (va : Nat) (kind : Access) : Found :=
  let e := (s.tlb.find? fun e => e.serves (.core x.core) x.vf x.asid va kind false).or
    (s.tlb.find? fun e => e.serves (.cluster (clusterOf x.core)) x.vf x.asid va kind false)
  match e with
  | some e =>
    let pa := e.pbase + (va - e.vbase)
    if s.flips.contains (pa / 4096) then .flip (pa / 4096)
    else if hostPageLost s x.vf pa then .fail .hostLost
    else .ok pa e.x
  | none =>
    match q.notes.find? fun n => n.va / 4096 == va / 4096 && n.kind == kind with
    | some n => .fail n.fail
    | none => .walk

/-- Starts a walk for a path, unless its walk for the page is outstanding, and answers what the path waits for: the walk, or one of the 64
walks of its cluster's walker (R273). -/
def startWalk (s : State) (w p : Nat) (x : Warp) (va : Nat) (kind : Access) : State × Wait :=
  match s.walks.find? fun k => k.warp == w && k.path == p && k.va / 4096 == va / 4096 && k.kind == kind with
  | some k => (s, .walk k.k)
  | none =>
    if 64 ≤ (s.walks.filter fun k => clusterOf k.core == clusterOf x.core).length then (s, .walkRoom)
    else
      let k := s.nextId
      ({ s with nextId := k + 1
                walks := s.walks ++ [{ k := k, core := x.core, vf := x.vf, asid := x.asid, va := va, kind := kind, warp := w, path := p }] }, .walk k)

/-- The fault code of a failed walk (R272, R277, R437). -/
def WalkFail.code : WalkFail → FaultCode
  | .absent .. | .unscanned | .invalid => .pfault
  | .prot => .prot
  | .hostLost => .hostlost

/-! ### Event rings (R467, R468) -/

/-- A host address of a VF's host (R467). -/
def hostAddr (s : State) (vf a : Nat) : Nat := hostKey (s.vfs.get {} vf).dev a

/-- The key of a ring of a VF. -/
def ringKey (vf : Nat) (k : RingKind) : Nat := 4 * vf + (match k with | .pageRequest => 0 | .trap => 1 | .scan => 2)

/-- The ring of a VF, when RINGCFG has set it. -/
def State.ring? (s : State) (vf : Nat) (k : RingKind) : Option Ring := s.rings.find? (ringKey vf k)

/-- The lowest RID of a VF without an entry (R275). -/
def freeRid (s : State) (vf : Nat) : Option Nat :=
  (List.range 32).find? fun r => s.requests.all fun q => !(q.vf == vf && q.rid == r)

/-- The code of an access kind (R276). -/
def Access.code : Access → Nat
  | .read => 0 | .write => 1 | .fetch => 2

/-- The words of a page-request entry (R276). -/
def PageRequest.slot (r : PageRequest) : List Byte :=
  leBytes 8 (r.page + 4 * r.kind.code + (if r.stage2 then 2 else 0) + 1) ++ leBytes 1 r.rid ++ leBytes 1 r.vf
    ++ leBytes 2 r.asid ++ leBytes 4 0

/-- What raising a page request answers: the number of its entry, no room, or no ring (R275, R467). -/
inductive Raised where
  | rid (n : Nat)
  | full
  | noRing

/-- Raises a page request for a page of a VF, or joins the one that is outstanding (R275, R276). -/
def raiseRequest (s : State) (vf asid page : Nat) (stage2 : Bool) (kind : Access) : State × Raised :=
  match s.ring? vf .pageRequest with
  | none => (s, .noRing)
  | some ring =>
    match s.requests.find? fun r => r.vf == vf && r.page == page && r.stage2 == stage2 && r.kind == kind with
    | some r => (s, .rid r.rid)
    | none =>
      match freeRid s vf with
      | none => (s, .full)
      | some rid =>
        let r : PageRequest := { vf := vf, rid := rid, page := page, kind := kind, stage2 := stage2, asid := asid }
        let s := { s with requests := s.requests ++ [r] }
        ((agentWrite s (hostAddr s vf (ring.base + 16 * rid)) r.slot).emit (.msix (.vf vf) ring.vec), .rid rid)

end Sys2Proof.Machine
end

