-- ==== Sys2Proof/Machine/Record.lean ====
section
/-!
DEFINITION. The context record (R336-R341, 11_context.md; R441, 15_debug.md): its layout to the byte, reading and writing it on the
CTX path, context faults (R153, R348), and changes to the saved state of a warp whether resident or dormant (R346).
-/

namespace Sys2Proof.Machine

/-! ### Layout -/

/-- VOFS, and the size of the record (R336). -/
def Regs.vofs (r : Regs) : Nat := 4096 + 16384 * r.nacc
def Regs.recordSize (r : Regs) : Nat := r.vofs + 128 * r.stackSize

/-- The slices of a lane mask (R135). -/
def sliceSet (m : BitVec 32) : Nat :=
  (List.range 8).foldl (fun n i => if m.extractLsb' (4 * i) 4 = 0 then n else n + 2 ^ i) 0

/-- The 32 bytes of a path-table or path-stack entry (R135). -/
def pathBytes (idx : Nat) (q : Path) : List Byte :=
  words64 [q.pc.toNat,
    q.lmask.toNat * 2 ^ 32 + sliceSet q.lmask * 2 ^ 24 + idx * 2 ^ 20 + bit q.emu * 2 ^ 18 + bit q.park * 2 ^ 17 + 2 ^ 16
      + q.depth.toNat,
    q.wtop.toNat * 2 ^ 32 + q.wbase.toNat, q.iter.toNat]

/-- WSTATE (R339). -/
def Regs.wstate (r : Regs) : Nat :=
  r.blast.toNat * 2 ^ 48 + r.dorm.toNat * 2 ^ 36 + bit r.wakep * 2 ^ 7 + bit r.ctxf * 2 ^ 6 + r.stack.length

/-- FCNT (R338). -/
def Regs.fcntWord (r : Regs) : Nat := (List.range 12).foldl (fun n i => n + r.flagCount i % 1024 * 2 ^ (10 * i)) 0

/-- The header (R338). -/
def headerBytes (r : Regs) : List Byte :=
  words64 [r.gmode.toNat, r.gstat.toNat, r.fcntWord % 2 ^ 64, r.fcntWord / 2 ^ 64, r.savectr.toNat, r.empc.toNat, r.emword.toNat,
    r.eminfo.toNat, r.wstate, r.decl.toNat, r.ident.toNat, r.uimask.toNat, r.uipend.toNat, r.misscnt.toNat, 0, 0]
    ++ words64 ((List.range 16).map fun i => ((r.paths.find? i).map fun q => q.rst.toNat).getD 0)
    ++ words64 ((List.range 16).map fun i => (r.bring.get 0 i).toNat)
    ++ (List.range 32).flatMap fun l => leBytes 4 (r.srst.lane l).toNat

/-- The uniform area: uniforms, then interrupt payload slots (R336). -/
def uniformBytes (r : Regs) : List Byte :=
  words64 ((List.range 64).map fun i => (r.uni i).toNat) ++ words64 ((List.range 64).map fun i => (r.pay.get 0 i).toNat)

/-- The predicate area: predicates, path table, path stack (R336, R341). R135 gives an entry of the stack no index; its PIDX reads 0 (DESIGN
CHOICE, notes/assumptions/50.md). -/
def predicateBytes (r : Regs) : List Byte :=
  (List.range 16).flatMap (fun i => leBytes 4 (if i = 15 then 0xFFFFFFFF else (r.p.get 0 i).toNat))
    ++ (List.range 16).flatMap (fun i => match r.paths.find? i with | some q => pathBytes i q | none => words64 [0, 0, 0, 0])
    ++ (List.range 16).flatMap fun j =>
        match r.stack[r.stack.length - 1 - j]? with
        | some q => if j < r.stack.length then pathBytes 0 q else words64 [0, 0, 0, 0]
        | none => words64 [0, 0, 0, 0]

/-- The tensor-record area (R230, R336). -/
def tensorBytes (r : Regs) : List Byte := (List.range 16).flatMap fun i => leBytes 64 (r.tensor i).toNat

/-- The first 57 lines of the record: header, uniform, predicate and tensor areas (R345). -/
def mainBytes (r : Regs) : List Byte := headerBytes r ++ uniformBytes r ++ predicateBytes r ++ tensorBytes r

/-- The accumulator area, element (r, c) of aj at 16384 j + 256 r + 4 c (R336). -/
def accBytes (r : Regs) : List Byte :=
  (List.range (64 * r.nacc)).flatMap fun k =>
    let row := (r.acc.find? k).getD []
    (List.range 64).flatMap fun c => leBytes 4 (row.getD c 0).toNat

/-- The debug area (R441). -/
def debugBytes (r : Regs) : List Byte :=
  words64 ((List.range 16).map fun i => ((r.paths.find? i).map fun q => q.bearing.toNat).getD 0)
    ++ words64 ((List.range 16).map fun j =>
        if j < r.stack.length then ((r.stack[r.stack.length - 1 - j]?).map fun q => q.bearing.toNat).getD 0 else 0)
    ++ words64 [r.prog.toNat]
    ++ leBytes 2 (r.paths.foldl (fun n x => if x.2.stopped then n + 2 ^ x.1 else n) 0)
    ++ leBytes 2 (r.paths.foldl (fun n x => if x.2.skip then n + 2 ^ x.1 else n) 0)
    ++ List.replicate 180 0

/-- The offset of slice k's four lanes of a slot (R337). -/
def slotOffset (r : Regs) (slot k : Nat) : Nat := r.vofs + k * 16 * r.stackSize + slot / 4 * 64 + slot % 4 * 16

/-- The pieces of a slot's row, by offset. -/
def slotPieces (r : Regs) (slot : Nat) (x : Row) : List (Nat × List Byte) :=
  (List.range 8).map fun k => (slotOffset r slot k, (List.range 4).flatMap fun i => leBytes 4 (x.lane (4 * k + i)).toNat)

/-! ### Reading a record back -/

/-- A path entry read from its four words; what the record does not hold is kept from `old`. -/
def parsePath (old : Option Path) (w : Nat → Nat) : Option Path :=
  let w1 := w 1
  if !w1.testBit 16 then none
  else
    let base : Path := old.getD { pc := 0, lmask := 0, wtop := 0 }
    some { base with
      pc := BitVec.ofNat 57 (w 0), lmask := BitVec.ofNat 32 (w1 / 2 ^ 32), emu := w1.testBit 18, park := w1.testBit 17
      depth := BitVec.ofNat 16 w1, wtop := BitVec.ofNat 17 (w 2 / 2 ^ 32), wbase := BitVec.ofNat 16 (w 2)
      iter := BitVec.ofNat 32 (w 3) }

/-- A number's `n` bytes from offset `o` of a list. -/
def numAt (bs : List Byte) (o n : Nat) : Nat := leNat ((bs.drop o).take n)

/-- A table of numbers of `n` bytes as a map without zeros. -/
def tableAt {w : Nat} (bs : List Byte) (o n count : Nat) : SMap (BitVec w) :=
  (List.range count).foldl (fun m i => m.put 0 i (BitVec.ofNat w (numAt bs (o + n * i) n))) []

/-- The registers that the main areas hold; vector slots and accumulators are kept from `old`. -/
def parseMain (old : Regs) (bs dbg : List Byte) : Regs :=
  let n (o k : Nat) := numAt bs o k
  let ws := n 64 8
  let entry (o i : Nat) (q : Option Path) : Option Path := parsePath q fun k => n (o + 32 * i + 8 * k) 8
  let paths : SMap Path := (List.range 16).foldl (fun m i =>
    match entry 1600 i (old.paths.find? i) with
    | some q => m.insert i { q with rst := BitVec.ofNat 64 (n (128 + 8 * i) 8), bearing := BitVec.ofNat 64 (numAt dbg (8 * i) 8)
                                    stopped := (numAt dbg 264 2).testBit i, skip := (numAt dbg 266 2).testBit i }
    | none => m) []
  let depth := ws % 32
  let stack : List Path := (List.range depth).filterMap fun k =>
    let j := depth - 1 - k
    (entry 2112 j (old.stack[k]?)).map fun q => { q with bearing := BitVec.ofNat 64 (numAt dbg (128 + 8 * j) 8) }
  { old with
    gmode := BitVec.ofNat 64 (n 0 8), gstat := BitVec.ofNat 64 (n 8 8)
    fcnt := (List.range 12).foldl (fun m i => m.put 0 i (n 16 16 / 2 ^ (10 * i) % 1024)) []
    savectr := BitVec.ofNat 64 (n 32 8), empc := BitVec.ofNat 64 (n 40 8), emword := BitVec.ofNat 64 (n 48 8)
    eminfo := BitVec.ofNat 32 (n 56 4), blast := BitVec.ofNat 16 (ws / 2 ^ 48), dorm := BitVec.ofNat 4 (ws / 2 ^ 36)
    wakep := ws.testBit 7, ctxf := ws.testBit 6, decl := BitVec.ofNat 64 (n 72 8), ident := BitVec.ofNat 64 (n 80 8)
    uimask := BitVec.ofNat 64 (n 88 8), uipend := BitVec.ofNat 64 (n 96 8), misscnt := BitVec.ofNat 32 (n 104 4)
    bring := tableAt bs 256 8 16, srst := (List.range 32).map fun l => BitVec.ofNat 32 (n (384 + 4 * l) 4)
    u := tableAt bs 512 8 64, pay := tableAt bs 1024 8 64
    p := (List.range 15).foldl (fun m i => m.put 0 i (BitVec.ofNat 32 (n (1536 + 4 * i) 4))) []
    t := tableAt bs 2624 64 16, paths := paths, stack := stack, prog := BitVec.ofNat 64 (numAt dbg 256 8) }

/-- The accumulators that an accumulator area holds. -/
def parseAcc (old : Regs) (bs : List Byte) : Regs :=
  { old with acc := (List.range (64 * old.nacc)).foldl (fun m k =>
      let row : List Word32 := (List.range 64).map fun c => BitVec.ofNat 32 (numAt bs (256 * k + 4 * c) 4)
      if row.all (· == 0) then m else m.insert k row) [] }

/-! ### The CTX path (R289) -/

/-- Writes pieces of a record, each within a line, on the CTX path; the address of the first piece that faults is kept, and the
pieces that translate are written. -/
def recordWrite (s : State) (x : Warp) (pieces : List (Nat × List Byte)) : State × Option Nat :=
  pieces.foldl (fun (acc : State × Option Nat) p =>
    let va := x.record.toNat + p.1
    match xlateNow acc.1 x.vf x.asid va .write true with
    | (s, .ok pa) => (agentWrite s pa p.2, acc.2)
    | (s, .fail _) => (s, acc.2.or (some va))) (s, none)

/-- Cuts bytes into lines, from an offset that is a multiple of 64. -/
def linesFrom : Nat → Nat → List Byte → List (Nat × List Byte)
  | 0, _, _ => []
  | n + 1, o, bs => if bs.isEmpty then [] else (o, bs.take 64) :: linesFrom n (o + 64) (bs.drop 64)

/-- Reads the `n` bytes of a record from an offset, line by line. -/
def recordRead (s : State) (x : Warp) : Nat → Nat → State × Except Nat (List Byte)
  | _, 0 => (s, .ok [])
  | o, k + 1 =>
    let va := x.record.toNat + o
    match xlateNow s x.vf x.asid va .read true with
    | (s, .ok pa) =>
      (match recordRead s x (o + 64) k with
        | (t, .ok rest) => (t, .ok (s.bytes pa 64 ++ rest))
        | r => r)
    | (s, .fail _) => (s, .error va)

/-- Reads the row of a slot from the record (R337). -/
def readSlot (s : State) (x : Warp) (slot : Nat) : State × Except Nat Row :=
  (List.range 8).foldl (fun (acc : State × Except Nat Row) k =>
    match acc.2 with
    | .error _ => acc
    | .ok row =>
      let va := x.record.toNat + slotOffset x.regs slot k
      match xlateNow acc.1 x.vf x.asid va .read true with
      | (s, .ok pa) => (s, .ok (row ++ (List.range 4).map fun i => BitVec.ofNat 32 (s.readLe (pa + 4 * i) 4)))
      | (s, .fail _) => (s, .error va)) (s, .ok [])

/-! ### Context faults (R153, R348) -/

/-- The slots of a report of 32 bytes in the form of R420. -/
def trapReport (info : Word64) (pc ident : Nat) (wg asid : Nat) (nest : Bool) (code : Nat) : List Byte :=
  words64 [info.toNat, pc, ident] ++ leBytes 4 wg ++ leBytes 2 asid ++ leBytes 1 (bit nest) ++ leBytes 1 (code % 256)

/-- Adds a report to those that wait for their ring (R468). -/
def addReport (s : State) (vf : Nat) (ring : RingKind) (slots : List (List Byte)) (warp : Option Nat) : State :=
  { s with reports := s.reports ++ [{ vf := vf, ring := ring, slots := slots, warp := warp }] }

/-- Writes every piece of a warp's record but the clean vector slots; answers the dirty slots whose lines fault, which stay pinned, and
the first address that faults (R153, R344, R348). -/
def writeRecord (s : State) (x : Warp) (acc : Bool) : State × List Nat × Option Nat :=
  let r := x.regs
  let (s, pinned, va) := (r.v.map (·.1)).foldl (fun (a : State × List Nat × Option Nat) n =>
    if x.dirty.contains n then
      match recordWrite a.1 x (slotPieces r n (r.row n)) with
      | (s, none) => (s, a.2)
      | (s, some va) => (s, NSet.insert a.2.1 n, a.2.2.or (some va))
    else a) (s, [], none)
  let main := (if acc then linesFrom (256 * r.nacc) 3648 (accBytes r) else [])
    ++ linesFrom 7 (r.vofs - 448) (debugBytes r) ++ linesFrom 57 0 (mainBytes r)
  match recordWrite s x main with
  | (s, bad) => (s, pinned, va.or bad)

/-- Clears a range of physical memory (records of a launch read as zero, R368). -/
def clearRange (s : State) (pa n : Nat) : State := { s with mem := SMap.clear s.mem pa (pa + n) }

/-- Zeroes a record page by page on the CTX path; the first address that faults. -/
def zeroRecord (s : State) (x : Warp) : State × Option Nat :=
  (List.range ((x.regs.recordSize + 4095) / 4096)).foldl (fun (acc : State × Option Nat) i =>
    match acc.2 with
    | some _ => acc
    | none =>
      match xlateNow acc.1 x.vf x.asid (x.record.toNat + 4096 * i) .write true with
      | (s, .ok pa) => (clearRange s pa (min 4096 (x.regs.recordSize - 4096 * i)), none)
      | (s, .fail _) => (s, some (x.record.toNat + 4096 * i))) (s, none)

/-- The warp as it is once its record holds its state: no slot in the register cache but the pinned ones, which stay where it was. -/
def Warp.emptied (x : Warp) (pinned : List Nat) : Warp :=
  { x with place := none, arriving := false, leaving := false, foehn := [], lru := [], pinned := pinned, accDirty := false
           pinnedAt := if pinned.isEmpty then none else (x.place.map fun p => (p.core, p.half)).or x.pinnedAt
           dirty := x.dirty.filter pinned.contains, regs := { x.regs with v := x.regs.v.filter fun kv => pinned.contains kv.1 } }

/-- DORM and CTXF of a dormant warp whose record holds its state (R339). -/
def markRecord (s : State) (x : Warp) (dorm : Nat) (ctxf : Bool) : State :=
  match recordRead s x 64 1 with
  | (s, .error _) => s
  | (s, .ok bs) =>
    let w := leNat (bs.take 8)
    let w := w - w / 2 ^ 36 % 16 * 2 ^ 36 + dorm * 2 ^ 36
    let w := w - bit (w.testBit 6) * 64 + bit ctxf * 64
    (recordWrite s x [(64, leBytes 8 w)]).1

/-- A context-faulted warp is dormant, and the supervisor is told (R153 steps 2 and 3, R348). `unsaved` says that its record lacks a part
of its state. -/
def faultDormant (s : State) (w : Nat) (x : Warp) (va : Nat) (pinned : List Nat) (unsaved : Bool) : State :=
  let s := if unsaved then s else markRecord s x 9 true
  let x := x.emptied pinned
  let s := s.setWarp w { x with faultVa := some va, unsaved := unsaved, regs := { x.regs with dorm := 9, ctxf := true } }
  addReport s x.vf .trap [trapReport (BitVec.ofNat 64 va) 0 x.regs.ident.toNat x.wg x.asid false (faultNumber .ctxfault)] (some w)

/-- A fault of a CTX-path access (R153, R348). The paths of a resident warp stop at their next clause boundaries, and EVICTION_COMMIT makes it
dormant; a warp that is dormant, or whose activation meets the fault, stays dormant. -/
def contextFault (s : State) (w va : Nat) : State :=
  match s.warp? w with
  | none => s
  | some x =>
    if x.faultVa.isSome then s
    else if x.place.isSome && !x.arriving then
      s.setWarp w { x with faultVa := some va, leaving := true, regs := { x.regs with ctxf := true } }
    else faultDormant s w x va x.pinned (x.unsaved || x.fresh)

/-- A resident warp's whole state goes to its record, and it becomes dormant with its reason (R344 steps 3 and 4). The accumulators are
written if one has changed since activation. Lines that fault keep it context-faulted (R348). -/
def commitRecord (s : State) (w : Nat) (dorm : BitVec 4) : State :=
  match s.warp? w with
  | none => s
  | some x =>
    let x := { x with regs := { x.regs with dorm := if x.faultVa.isSome then 9 else dorm } }
    match writeRecord s x x.accDirty, x.faultVa with
    | (s, _, none), none => s.setWarp w (x.emptied [])
    | (s, pinned, bad), va => faultDormant s w x (va.getD (bad.getD 0)) pinned bad.isSome

/-- Brings slots that are not in the register cache in from the record; the address of the first that faults otherwise. -/
def bringSlots (s : State) (w : Nat) (slots : List Nat) : State × Option Nat :=
  slots.foldl (fun (acc : State × Option Nat) n =>
    match acc.2, acc.1.warp? w with
    | none, some x =>
      if (x.regs.v.find? n).isSome then acc
      else
        (match readSlot acc.1 x n with
          | (s, .ok row) => (s.setWarp w { x with regs := { x.regs with v := x.regs.v.insert n row }, lru := x.lru.filter (· != n) ++ [n] }, none)
          | (s, .error va) => (s, some va))
    | _, _ => acc) (s, none)

/-- The registers of a warp as its record holds them, but for vector slots and accumulators (R345). -/
def readRegs (s : State) (x : Warp) : State × Except Nat Regs :=
  match recordRead s x 0 57 with
  | (s, .error va) => (s, .error va)
  | (s, .ok bs) =>
    match recordRead s x ((parseMain x.regs bs []).vofs - 448) 7 with
    | (s, .error va) => (s, .error va)
    | (s, .ok dbg) => (s, .ok (parseMain x.regs bs dbg))

/-- The state of a warp is in its record: it is dormant, or its activation has not read the record yet. -/
def Warp.away (x : Warp) : Bool := x.place.isNone || x.arriving

/-- A completion that changes the saved state of a dormant warp waits until its context fault is resolved. -/
def Warp.stuck (x : Warp) : Bool := x.faultVa.isSome && x.away

/-- The record holds the whole state of a warp: it has been activated before, and no context fault keeps a part of its state out of the
record. -/
def Warp.inRecord (x : Warp) : Bool := x.kind == .ordinary && x.away && !x.fresh && !x.unsaved

/-- Takes the state of a dormant warp from its record, which firmware may have written (R346, R421). -/
def reload (s : State) (w : Nat) : Except State State :=
  match s.warp? w with
  | none => .ok s
  | some x =>
    if !x.inRecord then .ok s
    else match readRegs s x with
      | (s, .ok r) => .ok (s.setWarp w { x with regs := r })
      | (s, .error va) => .error (contextFault s w va)

/-- The state of a dormant warp goes back to its record. -/
def writeBack (s : State) (w : Nat) : State :=
  match s.warp? w with
  | none => s
  | some x =>
    if !x.away || x.unsaved then s
    else
      match writeRecord s x false with
      | (s, _, none) => s.setWarp w { x.emptied [] with place := x.place, arriving := x.arriving, accDirty := x.accDirty }
      | (s, pinned, some va) => faultDormant s w x va pinned true

/-- Changes the saved state of a warp, vector slots among it: in place while it is resident, otherwise in its record (R341, R346). An error
is the state after a context fault, where the record cannot be read and nothing has changed. -/
def updateSlots (s : State) (w : Nat) (slots : List Nat) (f : Warp → Warp) : Except State State :=
  match reload s w with
  | .error s => .error s
  | .ok s =>
    match bringSlots s w slots with
    | (s, some va) => .error (contextFault s w va)
    | (s, none) => .ok (writeBack (s.modWarp w f) w)

/-- Changes the saved state of a warp but for its vector slots (R341, R346). -/
def updateSaved (s : State) (w : Nat) (f : Warp → Warp) : Except State State := updateSlots s w [] f

/-- What the saved registers become when an operation attached to a flag completes (R70, R338, R346). -/
def Warp.flagDone (f : Option Nat) (x : Warp) : Warp :=
  match f with
  | none => x
  | some f => { x with regs := x.regs.clearFlag f }

/-- Completion of an operation attached to a flag. -/
def flagDone (s : State) (w : Nat) (f : Option Nat) : Except State State :=
  match f with
  | none => .ok s
  | some _ => updateSaved s w (·.flagDone f)

end Sys2Proof.Machine
end

