-- ==== Sys2Proof/Machine/Foehn.lean ====
section
/-!
DEFINITION. Foehn, the window engine (R150-R154, R347, R348, 11_context.md): room for a new frame, refills of a window, spills, misses,
and the retry after a context fault.
-/

namespace Sys2Proof.Machine

/-- The slots of a window. -/
def windowSlots (wbase wtop : Nat) : List Nat := (List.range (wtop - wbase)).map (wbase + ·)

/-- Slots of a warp that are not in the register cache. -/
def absent (x : Warp) (slots : List Nat) : List Nat := slots.filter fun n => !x.holds n

/-- Slots of a warp with a write outstanding, which Foehn does not spill (R151). -/
def pendingSlots (s : State) (w : Nat) : List Nat := slotsOf (busyRegs s w)

/-- Room for a callee's frame (R150, R478): slots outside every window are spilled, lowest first, and as many of the callee's slots as
then fit are allocated with the values they hold. -/
def allocateFrame (s : State) (w wbase wtop : Nat) : State :=
  match s.warp? w with
  | none => s
  | some x =>
    let new := absent x (windowSlots wbase wtop)
    let outside := (x.victims (pendingSlots s w)).filter fun n => !x.regs.inWindow n
    let x := x.makeRoom new.length outside
    let fit := new.take (x.regs.hotSet - x.cached)
    (bringSlots (s.setWarp w x) w fit).1

/-- Starts the refill of a window without a miss, in increasing slot order (R152, R345). -/
def refillWindow (s : State) (w wbase wtop : Nat) : State :=
  match s.warp? w with
  | none => s
  | some x =>
    let new := (absent x (windowSlots wbase wtop)).filter fun n => !x.refills n
    let outside := (x.victims (pendingSlots s w)).filter fun n => !x.regs.inWindow n
    let x := x.makeRoom new.length outside
    s.setWarp w (x.addRefills (new.take (x.regs.hotSet - x.cached)))

/-- The move that Foehn makes next for a warp: the oldest, in the order of the IOPs that caused them (R151). -/
def Warp.nextMove (x : Warp) : Option FoehnMove := if x.place.isSome then x.foehn.head? else none

/-- REGISTER_CACHE_MISS (R347): room is made for the path's missing slots, and they are on their way. -/
def missStep (w p : Nat) (s : State) : Option State :=
  match s.warp? w with
  | none => none
  | some x =>
    if x.nextMove != some (.miss p) then none
    else
      let x := { x with foehn := x.foehn.tail }
      match (s.path? w p).bind (·.wait) with
      | some (.miss slots) =>
        let y := x.startRefill slots (pendingSlots s w)
        let y := { y with foehn := y.foehn.drop x.foehn.length ++ x.foehn }
        some ((s.setWarp w y).modPath w p fun q => { q with wait := some (.refill slots) })
      | _ => some (s.setWarp w x)

/-- REFILL_ARRIVE (R152, R348): a slot comes in from the record, unless a write has allocated it meanwhile. -/
def refillStep (w slot : Nat) (s : State) : Option State :=
  match s.warp? w with
  | none => none
  | some x =>
    if x.nextMove != some (.refill slot) then none
    else
      let x := { x with foehn := x.foehn.tail }
      if (x.regs.v.find? slot).isSome then some (s.setWarp w x)
      else
        match bringSlots (s.setWarp w x) w [slot] with
        | (s, none) => some s
        | (s, some va) => some (contextFault s w va)

/-- FOEHN_SPILL_COMPLETE (R151, R153): the slot's row is written on the CTX path; where that faults it stays in the register cache. -/
def spillStep (w slot : Nat) (s : State) : Option State :=
  match s.warp? w with
  | none => none
  | some x =>
    if x.nextMove != some (.spill slot) then none
    else
      let y := { x with foehn := x.foehn.tail }
      match recordWrite s x (slotPieces x.regs slot (x.regs.row slot)) with
      | (s, none) =>
        some (s.setWarp w { y with dirty := x.dirty.filter (· != slot), regs := { x.regs with v := x.regs.v.erase slot } })
      | (s, some va) => some (contextFault (s.setWarp w y) w va)

/-- CTXFAULT_RETRY (R153): the access is made again. What the record lacks of the state goes to it, and the warp is activatable, or it faults
again. -/
def retryStep (w : Nat) (s : State) : Option State :=
  match s.warp? w with
  | none => none
  | some x =>
    match x.faultVa with
    | none => none
    | some va =>
      if x.place.isSome then none
      else
        let x' := { x with faultVa := none, faultSlot := none, waitingSince := none, regs := { x.regs with ctxf := false } }
        match xlateNow s x.vf x.asid va .write true with
        | (s, .fail _) => some (faultDormant s w x va x.pinned x.unsaved)
        | (s, .ok _) =>
          if !x.unsaved then some ((markRecord s x' 9 false).setWarp w x')
          else
            let (s, unzeroed) := if x.fresh then zeroRecord s x else (s, none)
            match (match unzeroed with | some va => (s, x.pinned, some va) | none => writeRecord s x' true) with
            | (s, _, none) => some (s.setWarp w { x'.emptied [] with unsaved := false })
            | (s, pinned, some va) => some (faultDormant s w x' va pinned true)

/-- REGISTER_CACHE_MISS (R347). -/
def execRegisterCacheMiss (w p : Nat) : State → Host.Outcome State Fault Refusal := runEvent (missStep w p)
/-- REFILL_ARRIVE (R152). -/
def execRefillArrive (w slot : Nat) : State → Host.Outcome State Fault Refusal := runEventFlip (refillStep w slot)
/-- FOEHN_SPILL_COMPLETE (R151). -/
def execFoehnSpillComplete (w slot : Nat) : State → Host.Outcome State Fault Refusal := runEventFlip (spillStep w slot)

end Sys2Proof.Machine
end

