-- ==== Sys2Proof/Machine/Integer.lean ====
section
/-!
DEFINITION. The integer, address and bit instructions (R171-R185, 05_integer.md).
-/

namespace Sys2Proof.Machine

/-- The width of the type: 64 or 32 bits (R171). -/
def Ctx.w64 (c : Ctx) : Bool := c.ty.bytes == 8
def Ctx.width (c : Ctx) : Nat := if c.w64 then 64 else 32

/-- Val: the number that an operand holds under the type (R171). -/
def Ctx.num (c : Ctx) (x : Word64) : Int :=
  if c.w64 then (if c.ty.signed then x.toInt else x.toNat)
  else (if c.ty.signed then (x.truncate 32 : Word32).toInt else (x.truncate 32 : Word32).toNat)

/-- A result mod 2^w, extended to 64 bits by Val (R171, R173). -/
def Ctx.res (c : Ctx) (e : Int) : Word64 :=
  if c.w64 then BitVec.ofInt 64 e
  else if c.ty.signed then (BitVec.ofInt 32 e).signExtend 64 else (BitVec.ofInt 32 e).zeroExtend 64

/-- The least and the greatest value of the type. -/
def Ctx.lo (c : Ctx) : Int := intLo c.ty.signed c.width
def Ctx.hi (c : Ctx) : Int := intHi c.ty.signed c.width

/-- An IOP that computes on the values of a, b and c; `sat` clamps the exact result (R176, R178). -/
def intOp (f : Int → Int → Int → Int) (sat : Bool) (c : Ctx) (s : State) : Res :=
  lanewise c s fun l =>
    let e := f (c.num (c.srcA l)) (c.num (c.srcB c.ty.signed l)) (c.num (c.srcC c.ty.signed l))
    c.res (if sat && c.q == 1 then saturate e c.lo c.hi else e)

/-- ICADD (R177): the predicate is read and written in the same instruction. -/
def icaddBody (c : Ctx) (s : State) : Res :=
  let e (l : Nat) : Int :=
    let k := (c.srcC false l).toNat
    if c.q = 0 then c.num (c.srcA l) + c.num (c.srcB false l) + k else c.num (c.srcA l) - c.num (c.srcB false l) - k
  let out (l : Nat) : Bool := if c.q = 0 then decide (2 ^ c.width ≤ e l) else decide (e l < 0)
  match lanewise c s fun l => c.res (e l) with
  | .done t =>
    if c.f.u then
      (if c.guard0 then .done (writePred t c c.f.fc.toNat 0xFFFFFFFF (if out c.lane0 then 0xFFFFFFFF else 0)) else .done t)
    else .done (writePred t c c.f.fc.toNat c.act (maskOf out))
  | r => r

/-- Ext32 of R178. -/
def Ctx.ext32 (c : Ctx) (x : Word64) : Int :=
  if c.ty.signed then (x.truncate 32 : Word32).toInt else (x.truncate 32 : Word32).toNat

/-- IMADW (R178). -/
def imadwBody (c : Ctx) (s : State) : Res :=
  lanewise c s fun l =>
    c.res (c.ext32 (c.srcA l) * c.ext32 (c.srcB c.ty.signed l) + c.num (c.srcC c.ty.signed l))

/-- Byte i of a word, sign-extended when `sx` (R178). -/
def byteNum (sx : Bool) (x : Word64) (i : Nat) : Int :=
  let b := x.extractLsb' (8 * i) 8
  if sx then b.toInt else b.toNat

/-- IDOT4 (R178). -/
def idot4Body (c : Ctx) (s : State) : Res :=
  lanewise c s fun l =>
    let p (i : Nat) : Int := byteNum (c.q % 2 == 1) (c.srcA l) i * byteNum (c.q / 2 == 1) (c.srcB true l) i
    c.res (c.num (c.srcC true l) + p 0 + p 1 + p 2 + p 3)

/-- ICMP (R179). -/
def icmpBody (c : Ctx) (s : State) : Res :=
  lanewisePred c s fun l => intCond c.q (c.num (c.srcA l)) (c.num (c.srcB c.ty.signed l))

/-- SEL (R179). -/
def selBody (c : Ctx) (s : State) : Res :=
  lanewise c s fun l => c.res (c.num (if c.srcC false l = 1 then c.srcA l else c.srcB false l))

/-- An IOP on the bit patterns of a, b, c and the old D (R180-R183). -/
def bitOp (f : Nat → Nat → Nat → Nat → Nat → Nat) (c : Ctx) (s : State) : Res :=
  let low (x : Word64) : Nat := x.toNat % 2 ^ c.width
  lanewise c s fun l =>
    c.res (f c.width (low (c.srcA l)) (low (c.srcB false l)) (low (c.srcC false l)) (low (c.oldD l)) : Nat)

/-- The number with bit i given by `f`, for i below `w`. -/
def bitsOf (w : Nat) (f : Nat → Bool) : Nat := (List.range w).foldl (fun n i => if f i then n + 2 ^ i else n) 0

/-- LOP3 (R180). -/
def lop3 (lut : BitVec 8) (w a b d : Nat) : Nat :=
  bitsOf w fun i => lutBit lut (a.testBit i) (b.testBit i) (d.testBit i)

/-- SHL, SHR, SAR and ROT (R181); the count is b[7:0]. -/
def shl (w a b : Nat) : Nat := a * 2 ^ (b % 256) % 2 ^ w
def shr (_ a b : Nat) : Nat := a / 2 ^ (b % 256)
def sar (w a b : Nat) : Nat :=
  let x : Int := if a < 2 ^ (w - 1) then a else (a : Int) - 2 ^ w
  (x / 2 ^ (min (b % 256) w) % 2 ^ w).toNat
def rot (w a b : Nat) : Nat :=
  let n := b % 256 % w
  (a * 2 ^ n % 2 ^ w) + a / 2 ^ (w - n)

/-- FSHF (R181). -/
def fshf (left : Bool) (w a b k : Nat) : Nat :=
  let x := a * 2 ^ w + b
  let n := min (k % 256) w
  if left then x * 2 ^ n / 2 ^ w % 2 ^ w else x / 2 ^ n % 2 ^ w

/-- BFE (R182). -/
def bfeBody (c : Ctx) (s : State) : Res :=
  lanewise c s fun l =>
    let b := (c.srcB false l).toNat
    let pos := min (b % 256) c.width
    let len := min (b / 256 % 256) c.width
    let f := (c.num (c.srcA l) / 2 ^ pos) % 2 ^ len
    c.res (if c.ty.signed && 0 < len && decide ((2 : Int) ^ (len - 1) ≤ f) then f - 2 ^ len else f)

/-- BFI (R182). -/
def bfi (w a b d : Nat) : Nat :=
  let pos := min (b % 256) w
  let len := min (b / 256 % 256) w
  bitsOf w fun i => if pos ≤ i && i < min (pos + len) w then a.testBit (i - pos) else d.testBit i

/-- BREV, POPC, CLZ and CTZ (R183). -/
def brev (w a : Nat) : Nat := bitsOf w fun i => a.testBit (w - 1 - i)
def popc (w a : Nat) : Nat := ((List.range w).filter a.testBit).length
def clz (w a : Nat) : Nat := ((List.range w).takeWhile fun i => !a.testBit (w - 1 - i)).length
def ctz (w a : Nat) : Nat := ((List.range w).takeWhile fun i => !a.testBit i).length

/-- MOV (R183): A, or uniform B into each active lane. -/
def movBody (c : Ctx) (s : State) : Res :=
  lanewise c s fun l => c.res (c.num (if c.q = 1 then c.uB else c.srcA l))

/-- MOVI (R184). -/
def moviBody (x : IForm) (c : Ctx) (s : State) : Res :=
  lanewise c s fun l =>
    if c.q = 0 then c.res x.imm.toInt
    else
      let old := c.oldD l
      let m : Word64 := 0xFFFF#64 <<< (16 * c.q)
      c.res (c.num ((old &&& ~~~m) ||| ((x.imm.zeroExtend 64 <<< (16 * c.q)) &&& m)))

/-- LEA (R185). -/
def leaBody (c : Ctx) (s : State) : Res :=
  lanewise c s fun l =>
    let k : Int := if c.sh.ci then c.f.fc.toInt else 0
    BitVec.ofInt 64 ((c.val c.sh.b (c.f.km.getLsbD 1) c.f.fb.toNat l).toNat + c.ext32 (c.srcA l) * 2 ^ c.q + k)

/-- IADD (R176). -/
def execIadd (x : RForm) : State → Host.Outcome State Fault Refusal := runIop 0x040 (.r x) (intOp (fun a b _ => a + b) true)
/-- ISUB (R176). -/
def execIsub (x : RForm) : State → Host.Outcome State Fault Refusal := runIop 0x041 (.r x) (intOp (fun a b _ => a - b) true)
/-- ISUM (R176). -/
def execIsum (x : RForm) : State → Host.Outcome State Fault Refusal := runIop 0x042 (.r x) (intOp (fun a b k => a + b + k) false)
/-- ICADD (R177). -/
def execIcadd (x : RForm) : State → Host.Outcome State Fault Refusal := runIop 0x043 (.r x) icaddBody
/-- INEG (R176). -/
def execIneg (x : RForm) : State → Host.Outcome State Fault Refusal := runIop 0x044 (.r x) (intOp (fun a _ _ => -a) true)
/-- IABS (R176). -/
def execIabs (x : RForm) : State → Host.Outcome State Fault Refusal := runIop 0x045 (.r x) (intOp (fun a _ _ => a.natAbs) true)
/-- IMIN (R176). -/
def execImin (x : RForm) : State → Host.Outcome State Fault Refusal := runIop 0x046 (.r x) (intOp (fun a b _ => min a b) false)
/-- IMAX (R176). -/
def execImax (x : RForm) : State → Host.Outcome State Fault Refusal := runIop 0x047 (.r x) (intOp (fun a b _ => max a b) false)
/-- IMUL (R178). -/
def execImul (x : RForm) : State → Host.Outcome State Fault Refusal := runIop 0x048 (.r x) (intOp (fun a b _ => a * b) false)
/-- IMULHI (R178). -/
def execImulhi (x : RForm) : State → Host.Outcome State Fault Refusal := runIop 0x049 (.r x) fun c => intOp (fun a b _ => a * b / 2 ^ c.width) false c
/-- IMAD (R178). -/
def execImad (x : RForm) : State → Host.Outcome State Fault Refusal := runIop 0x04A (.r x) (intOp (fun a b k => a * b + k) false)
/-- IMADW (R178). -/
def execImadw (x : RForm) : State → Host.Outcome State Fault Refusal := runIop 0x04B (.r x) imadwBody
/-- SAD (R178). -/
def execSad (x : RForm) : State → Host.Outcome State Fault Refusal := runIop 0x04C (.r x) (intOp (fun a b k => (a - b).natAbs + k) false)
/-- IDOT4 (R178). -/
def execIdot4 (x : RForm) : State → Host.Outcome State Fault Refusal := runIop 0x04D (.r x) idot4Body
/-- ICMP (R179). -/
def execIcmp (x : RForm) : State → Host.Outcome State Fault Refusal := runIop 0x04E (.r x) icmpBody
/-- SEL (R179). -/
def execSel (x : RForm) : State → Host.Outcome State Fault Refusal := runIop 0x04F (.r x) selBody
/-- AND (R180). -/
def execAnd (x : RForm) : State → Host.Outcome State Fault Refusal := runIop 0x050 (.r x) (bitOp fun _ a b _ _ => a &&& b)
/-- OR (R180). -/
def execOr (x : RForm) : State → Host.Outcome State Fault Refusal := runIop 0x051 (.r x) (bitOp fun _ a b _ _ => a ||| b)
/-- XOR (R180). -/
def execXor (x : RForm) : State → Host.Outcome State Fault Refusal := runIop 0x052 (.r x) (bitOp fun _ a b _ _ => a ^^^ b)
/-- LOP3 (R180). -/
def execLop3 (x : RForm) : State → Host.Outcome State Fault Refusal := runIop 0x053 (.r x) (bitOp fun w a b _ d => lop3 x.c w a b d)
/-- SHL (R181). -/
def execShl (x : RForm) : State → Host.Outcome State Fault Refusal := runIop 0x054 (.r x) (bitOp fun w a b _ _ => shl w a b)
/-- SHR (R181). -/
def execShr (x : RForm) : State → Host.Outcome State Fault Refusal := runIop 0x055 (.r x) (bitOp fun w a b _ _ => shr w a b)
/-- SAR (R181). -/
def execSar (x : RForm) : State → Host.Outcome State Fault Refusal := runIop 0x056 (.r x) (bitOp fun w a b _ _ => sar w a b)
/-- ROT (R181). -/
def execRot (x : RForm) : State → Host.Outcome State Fault Refusal := runIop 0x057 (.r x) (bitOp fun w a b _ _ => rot w a b)
/-- FSHF (R181). -/
def execFshf (x : RForm) : State → Host.Outcome State Fault Refusal := runIop 0x058 (.r x) (bitOp fun w a b k _ => fshf (x.q == 1) w a b k)
/-- BFE (R182). -/
def execBfe (x : RForm) : State → Host.Outcome State Fault Refusal := runIop 0x059 (.r x) bfeBody
/-- BFI (R182). -/
def execBfi (x : RForm) : State → Host.Outcome State Fault Refusal := runIop 0x05A (.r x) (bitOp fun w a b _ d => bfi w a b d)
/-- BREV (R183). -/
def execBrev (x : RForm) : State → Host.Outcome State Fault Refusal := runIop 0x05B (.r x) (bitOp fun w a _ _ _ => brev w a)
/-- POPC (R183). -/
def execPopc (x : RForm) : State → Host.Outcome State Fault Refusal := runIop 0x05C (.r x) (bitOp fun w a _ _ _ => popc w a)
/-- CLZ (R183). -/
def execClz (x : RForm) : State → Host.Outcome State Fault Refusal := runIop 0x05D (.r x) (bitOp fun w a _ _ _ => clz w a)
/-- CTZ (R183). -/
def execCtz (x : RForm) : State → Host.Outcome State Fault Refusal := runIop 0x05E (.r x) (bitOp fun w a _ _ _ => ctz w a)
/-- MOV (R183). -/
def execMov (x : RForm) : State → Host.Outcome State Fault Refusal := runIop 0x05F (.r x) movBody
/-- MOVI (R184). -/
def execMovi (x : IForm) : State → Host.Outcome State Fault Refusal := runIop 0x060 (.i x) (moviBody x)
/-- LEA (R185). -/
def execLea (x : RForm) : State → Host.Outcome State Fault Refusal := runIop 0x061 (.r x) leaBody

end Sys2Proof.Machine
end

