-- ==== Sys2Proof/Machine/FloatNum.lean ====
section
/-!
DEFINITION. Floating-point values and rounding (R195-R205, 06_float.md): formats to the bit, exact values, RoundTo with its
flags, overflow and NaN results, and the frame of the lane-wise floating-point IOPs.
-/

namespace Sys2Proof.Machine

/-! ### Formats (R195) -/

/-- The width of the exponent field. -/
def expBits : ElemType → Nat
  | .f64 => 11 | .f32 | .bf16 => 8 | .f16 | .e5m2 => 5 | .e4m3 => 4 | _ => 2

/-- The width F of the fraction field. -/
def fracBits : ElemType → Nat
  | .f64 => 52 | .f32 => 23 | .bf16 => 7 | .f16 => 10 | .e5m2 => 2 | .e4m3 => 3 | _ => 1

/-- The bias. -/
def expBias (t : ElemType) : Nat := 2 ^ (expBits t - 1) - 1

/-- The position of the sign bit. -/
def signPos (t : ElemType) : Nat := expBits t + fracBits t

/-- The pattern of the largest finite magnitude. -/
def maxFinite : ElemType → Nat
  | .e4m3 => 0x7E
  | .e2m1 => 7
  | t => (2 ^ expBits t - 1) * 2 ^ fracBits t - 1

/-- The pattern of +∞ of the formats that have one. -/
def infPattern (t : ElemType) : Nat := (2 ^ expBits t - 1) * 2 ^ fracBits t

/-- The canonical NaN (R204); E2M1 has none, and a NaN becomes +0 there (R203). -/
def canonicalNan : ElemType → Nat
  | .e4m3 => 0x7F
  | .e2m1 => 0
  | t => infPattern t + 2 ^ (fracBits t - 1)

/-- Whether DAZ and FTZ act on a format (R202). -/
def flushable : ElemType → Bool
  | .f32 | .bf16 | .f16 => true
  | _ => false

/-! ### Exact values -/

/-- The value (-1)^neg · m · 2^e. -/
structure Dyad where
  neg : Bool
  m   : Nat
  e   : Int
deriving DecidableEq, Repr

/-- A floating-point datum: a NaN with its fraction of `w` bits, an infinity, or a number. -/
inductive FNum where
  | nan (sig neg : Bool) (frac w : Nat)
  | inf (neg : Bool)
  | fin (d : Dyad)
deriving DecidableEq, Repr

/-- The datum that a pattern holds (R195); with `daz` a subnormal of the formats of R202 reads as zero. -/
def readFloat (t : ElemType) (daz : Bool) (x : Nat) : FNum :=
  let fb := fracBits t
  let neg := x.testBit (signPos t)
  let e := x / 2 ^ fb % 2 ^ expBits t
  let f := x % 2 ^ fb
  let top := e == 2 ^ expBits t - 1
  if t == .e4m3 && top && f == 7 then .nan false neg f fb
  else if t != .e4m3 && t != .e2m1 && top then
    (if f = 0 then .inf neg else .nan (!f.testBit (fb - 1)) neg f fb)
  else if e = 0 then .fin ⟨neg, if daz && flushable t then 0 else f, 1 - expBias t - fb⟩
  else .fin ⟨neg, f + 2 ^ fb, (e : Int) - expBias t - fb⟩

namespace FNum

def isNan : FNum → Bool | .nan .. => true | _ => false
def isSignalling : FNum → Bool | .nan s _ _ _ => s | _ => false
def isInf : FNum → Bool | .inf _ => true | _ => false
def isZero : FNum → Bool | .fin d => d.m == 0 | _ => false
def neg : FNum → Bool | .nan _ n _ _ => n | .inf n => n | .fin d => d.neg
/-- The datum with the sign changed. -/
def negate : FNum → FNum
  | .nan s n f w => .nan s n f w
  | .inf n => .inf (!n)
  | .fin d => .fin { d with neg := !d.neg }

end FNum

namespace Dyad

/-- The signed multiple of 2^k, for k at most e. -/
def units (d : Dyad) (k : Int) : Int :=
  let n : Int := d.m * 2 ^ (d.e - k).toNat
  if d.neg then -n else n

/-- The dyadic of a signed multiple of 2^k; `zneg` is the sign of a zero. -/
def ofUnits (n k : Int) (zneg : Bool) : Dyad := ⟨if n = 0 then zneg else decide (n < 0), n.natAbs, k⟩

/-- The exact product. -/
def mul (a b : Dyad) : Dyad := ⟨a.neg != b.neg, a.m * b.m, a.e + b.e⟩

/-- The exact sum; an exact zero takes the sign of IEEE 754-2019: both signs' when they agree, otherwise minus only when rounding
down. -/
def add (a b : Dyad) (down : Bool) : Dyad :=
  let k := min a.e b.e
  ofUnits (a.units k + b.units k) k (if a.neg == b.neg then a.neg else down)

/-- a < b, by value. -/
def lt (a b : Dyad) : Bool :=
  let k := min a.e b.e
  decide (a.units k < b.units k)

/-- a = b, by value. -/
def eq (a b : Dyad) : Bool :=
  let k := min a.e b.e
  a.units k == b.units k

/-- The magnitude. -/
def abs (d : Dyad) : Dyad := { d with neg := false }

/-- The dyadic of an integer. -/
def ofInt (n : Int) : Dyad := ofUnits n 0 false

end Dyad

/-- A real of magnitude m · 2^e, or strictly between that and (m + 1) · 2^e when `sticky`; m has enough bits for every format. -/
structure Approx where
  neg : Bool
  m   : Nat
  e   : Int
  sticky : Bool
deriving DecidableEq, Repr

/-- An exact value as such a real. -/
def Dyad.toApprox (d : Dyad) : Approx := ⟨d.neg, d.m, d.e, false⟩

/-! ### Rounding (R202, R203, R205) -/

/-- What an IOP rounds and reads by: the rounding mode (R53), and DAZ, FTZ, SATN and NANP of GMODE (R198). -/
structure FEnv where
  mode : Nat
  daz  : Bool
  ftz  : Bool
  satn : Bool
  nanp : Bool
deriving DecidableEq, Repr

/-- What one lane carries through its roundings: the flags raised and SRSTATE. -/
structure FLane where
  fl : Exc := 0
  sr : Word32 := 0
deriving DecidableEq, Repr

/-- A lane raises flags. -/
def FLane.raise (st : FLane) (x : Exc) : FLane := { st with fl := st.fl ||| x }

/-- One step of a lane's stochastic state (R201). -/
def xorshift (x : Word32) : Word32 :=
  let x := x ^^^ (x <<< 13)
  let x := x ^^^ (x >>> 17)
  x ^^^ (x <<< 5)

/-- In stochastic mode the state advances once for each element rounded (R205). -/
def FLane.draw (st : FLane) (env : FEnv) : FLane := if env.mode = 6 then { st with sr := xorshift st.sr } else st

/-- The magnitude rounded to a multiple of 2^q by a mode, and whether it is inexact; `u` is SRSTATE[31:16] (R205). -/
def roundUnits (mode u : Nat) (x : Approx) (q : Int) : Nat × Bool :=
  if q ≤ x.e then (x.m * 2 ^ (x.e - q).toNat, x.sticky)
  else
    let sh := (q - x.e).toNat
    let n := x.m / 2 ^ sh
    let r := x.m % 2 ^ sh
    let inexact := r != 0 || x.sticky
    let up := match mode with
      | 1 => decide (2 ^ sh < 2 * r) || (decide (2 ^ sh = 2 * r) && (x.sticky || n % 2 == 1))
      | 5 => decide (2 ^ sh ≤ 2 * r)
      | 3 => !x.neg
      | 4 => x.neg
      | 6 => decide (65536 ≤ r * 65536 / 2 ^ sh + u)
      | _ => false
    (if inexact && up then n + 1 else n, inexact)

/-- The pattern with a sign. -/
def withSign (t : ElemType) (neg : Bool) (x : Nat) : Nat := if neg then x + 2 ^ signPos t else x

/-- The entry of R203 for an infinite result of a format: the pattern, and whether it is finite. `narrow` marks the narrowing
instructions. -/
def infResult (env : FEnv) (t : ElemType) (narrow neg : Bool) : Nat × Bool :=
  match t with
  | .e2m1 => (withSign t neg (maxFinite t), true)
  | .e4m3 => if env.satn then (withSign t neg (maxFinite t), true) else (0x7F, false)
  | .f16 | .bf16 | .e5m2 =>
    if narrow && env.satn then (withSign t neg (maxFinite t), true) else (withSign t neg (infPattern t), false)
  | _ => (withSign t neg (infPattern t), false)

/-- RoundTo (R202, R203, R205). `plain` keeps FTZ out. -/
def roundTo (env : FEnv) (t : ElemType) (narrow plain : Bool) (x : Approx) (st : FLane) : Nat × FLane :=
  let st := st.draw env
  if x.m = 0 then (withSign t x.neg 0, st)
  else
    let u := st.sr.toNat / 65536
    let fb : Int := fracBits t
    let emin : Int := 1 - expBias t
    let top : Int := x.e + x.m.log2
    let q := max top emin - fb
    let (n, inexact) := roundUnits env.mode u x q
    let biggest := maxFinite t
    let qMax : Int := (biggest / 2 ^ fracBits t : Nat) - expBias t - fb
    let mMax := biggest % 2 ^ fracBits t + 2 ^ fracBits t
    if qMax < q ∨ (q = qMax ∧ mMax < n) then
      let toInf := env.mode == 1 || env.mode == 5 || env.mode == 6 || (env.mode == 3 && !x.neg) || (env.mode == 4 && x.neg)
      (if toInf then (infResult env t narrow x.neg).1 else withSign t x.neg biggest, st.raise (Exc.of ||| Exc.ix))
    else
      let tiny := decide (top < emin) &&
        decide ((roundUnits env.mode u x (top - fb)).1 < 2 ^ (fb + emin - top).toNat)
      let st := if inexact then st.raise (if tiny then Exc.ix ||| Exc.uf else Exc.ix) else st
      if n < 2 ^ fracBits t then
        if n ≠ 0 ∧ flushable t ∧ env.ftz ∧ !plain then (withSign t x.neg 0, st.raise (Exc.uf ||| Exc.ix))
        else (withSign t x.neg n, st)
      else (withSign t x.neg ((q + fb + expBias t).toNat * 2 ^ fracBits t + (n - 2 ^ fracBits t)), st)

/-- A NaN result (R204): canonical, or with NANP the first NaN source, quieted, its fraction bits kept from the top. -/
def nanResult (env : FEnv) (t : ElemType) (srcs : List FNum) : Nat :=
  if t == .e4m3 || t == .e2m1 || !env.nanp then canonicalNan t
  else match srcs.find? FNum.isNan with
    | some (.nan _ neg frac w) =>
      let fb := fracBits t
      let f := if w ≤ fb then frac * 2 ^ (fb - w) else frac / 2 ^ (w - fb)
      withSign t neg (infPattern t + (f ||| 2 ^ (fb - 1)))
    | _ => canonicalNan t

/-- IV for a signalling NaN among the sources (R204). -/
def FLane.signal (st : FLane) (srcs : List FNum) : FLane := if srcs.any FNum.isSignalling then st.raise Exc.iv else st

/-- An invalid operation (R204). -/
def invalid (env : FEnv) (t : ElemType) (srcs : List FNum) (st : FLane) : Nat × FLane :=
  (nanResult env t srcs, st.raise Exc.iv)

/-- A datum written in a format: a number is rounded, an infinity takes its entry of R203, `none` is an invalid operation. -/
def writeFloat (env : FEnv) (t : ElemType) (narrow plain : Bool) (srcs : List FNum) (r : Option FNum) (st : FLane) :
    Nat × FLane :=
  match r with
  | none => invalid env t srcs st
  | some (.nan ..) => (nanResult env t srcs, st)
  | some (.inf neg) =>
    let (x, finite) := infResult env t narrow neg
    (x, if finite then st.raise (Exc.of ||| Exc.ix) else if t == .e4m3 then st.raise Exc.iv else st)
  | some (.fin d) => roundTo env t narrow plain d.toApprox st

/-! ### Operations on data; `none` is an invalid operation (R204) -/

/-- The product; a NaN factor gives NaN. -/
def FNum.mul (a b : FNum) : Option FNum :=
  match a, b with
  | .nan s n f w, _ => some (.nan s n f w)
  | _, .nan s n f w => some (.nan s n f w)
  | .fin x, .fin y => some (.fin (x.mul y))
  | x, y => if x.isZero || y.isZero then none else some (.inf (x.neg != y.neg))

/-- The sum. -/
def FNum.add (down : Bool) (a b : FNum) : Option FNum :=
  match a, b with
  | .nan s n f w, _ => some (.nan s n f w)
  | _, .nan s n f w => some (.nan s n f w)
  | .fin x, .fin y => some (.fin (x.add y down))
  | .inf x, .inf y => if x = y then some (.inf x) else none
  | .inf x, _ => some (.inf x)
  | _, .inf y => some (.inf y)

/-- a < b on numbers and infinities. -/
def FNum.lt (a b : FNum) : Bool :=
  match a, b with
  | .inf x, .inf y => x && !y
  | .inf x, .fin _ => x
  | .fin _, .inf y => !y
  | .fin x, .fin y => x.lt y
  | _, _ => false

/-- a = b on numbers and infinities. -/
def FNum.same (a b : FNum) : Bool :=
  match a, b with
  | .inf x, .inf y => x == y
  | .fin x, .fin y => x.eq y
  | _, _ => false

/-! ### The frame of a lane-wise floating-point IOP -/

/-- What an IOP with rounding field M rounds by under a value of GMODE (R53, R198). -/
def envOf (m : Nat) (g : Word64) : FEnv :=
  let r := g.toNat % 8
  { mode := if m = 0 then (if r = 0 ∨ r = 7 then 1 else r) else m
    daz := g.getLsbD 6, ftz := g.getLsbD 7, satn := g.getLsbD 8, nanp := g.getLsbD 9 }

/-- The rounding field M of formats R and A. -/
def Ctx.roundM (c : Ctx) : Nat := match c.f with | .a x => x.m.toNat | .r x => x.m.toNat | _ => 0

/-- What the issuing IOP rounds by (R53, R198, R200). -/
def Ctx.fenv (c : Ctx) : FEnv := envOf c.roundM c.warp.regs.gmode

/-- Lanes in which a lane-wise IOP runs: the active ones, or with U = 1 the lowest lane of the path when the guard holds there. -/
def Ctx.runLanes (c : Ctx) : List Nat := if c.f.u then (if c.guard0 then [c.lane0] else []) else lanesOf c.act

/-- The flags of all lanes merge into GSTAT, and each lane keeps its stochastic state (R199, R201). -/
def keepLanes (c : Ctx) (s : State) (outs : List (Nat × FLane)) : State :=
  let s := raiseExc s c (outs.foldl (fun x o => x ||| o.2.fl) 0)
  s.modRegs c.w fun r => { r with srst := Row.ofFn fun l => (laneValue { sr := r.srst.lane l } outs l).sr }

/-- The lane results of an IOP, each lane starting from its stochastic state. -/
def Ctx.floatLanes (c : Ctx) (f : Nat → FLane → Nat × FLane) : List (Nat × Nat × FLane) :=
  c.runLanes.map fun l => (l, f l { sr := c.warp.regs.srst.lane l })

/-- A lane-wise floating-point IOP: `f` gives the pattern of the result of a lane. -/
def floatOp (f : Ctx → Nat → FLane → Nat × FLane) (c : Ctx) (s : State) : Res :=
  let outs := c.floatLanes (f c)
  match lanewise c s fun l => BitVec.ofNat 64 (laneValue 0 (outs.map fun o => (o.1, o.2.1)) l) with
  | .done t => .done (keepLanes c t (outs.map fun o => (o.1, o.2.2)))
  | r => r

/-- A floating-point source under the type of the IOP, by its number: 0 is A, 1 is b, 2 is c. -/
def Ctx.fsrc (c : Ctx) (t : ElemType) (i l : Nat) : FNum :=
  let x := match i with | 0 => c.srcA l | 1 => c.srcB true l | _ => c.srcC true l
  readFloat t c.fenv.daz (x.toNat % 2 ^ t.bits)

end Sys2Proof.Machine
end

