-- ==== Sys2Proof/Machine/FloatMath.lean ====
section
/-!
DEFINITION. Roots, quotients and the transcendental functions of R210 as reals with more than enough bits: an algebraic result is
exact or marked as strictly above its truncation, and a transcendental one is computed in fixed point with 700 fraction bits.
-/

namespace Sys2Proof.Machine

/-- Bits of a square root, from bit i down. -/
def isqrtFrom : Nat → Nat → Nat → Nat
  | 0, n, r => if (r + 1) * (r + 1) ≤ n then r + 1 else r
  | i + 1, n, r => isqrtFrom i n (if (r + 2 ^ (i + 1)) * (r + 2 ^ (i + 1)) ≤ n then r + 2 ^ (i + 1) else r)

/-- The integer square root. -/
def isqrt (n : Nat) : Nat := isqrtFrom (n.log2 / 2 + 1) n 0

/-- a / b, for b not zero. -/
def quotient (a b : Dyad) : Approx :=
  let k := 160 + b.m.log2
  let n := a.m * 2 ^ k
  ⟨a.neg != b.neg, n / b.m, a.e - b.e - k, n % b.m != 0⟩

/-- The square root of a positive number. -/
def root (a : Dyad) : Approx :=
  let m := if a.e % 2 = 0 then a.m else 2 * a.m
  let e := if a.e % 2 = 0 then a.e else a.e - 1
  let n := m * 2 ^ 320
  let r := isqrt n
  ⟨false, r, e / 2 - 160, r * r != n⟩

/-- The reciprocal of the square root of a positive number. -/
def invRoot (a : Dyad) : Approx :=
  let m := if a.e % 2 = 0 then a.m else 2 * a.m
  let e := if a.e % 2 = 0 then a.e else a.e - 1
  let j := 200 + m.log2
  let r := isqrt (2 ^ (2 * j) / m)
  ⟨false, r, -(e / 2) - j, r * r * m != 2 ^ (2 * j)⟩

/-! ### Fixed point with 700 fraction bits -/

/-- Fraction bits. -/
def fixBits : Nat := 700
def fixOne : Int := 2 ^ 700

/-- Product and quotient in fixed point. -/
def fixMul (a b : Int) : Int := a * b / fixOne
def fixDiv (a b : Int) : Int := a * fixOne / b

/-- A dyadic in fixed point; the operands of the functions below are exact there. -/
def Dyad.toFix (d : Dyad) : Int :=
  let n : Int := if d.e + 700 < 0 then d.m / 2 ^ (-(d.e + 700)).toNat else d.m * 2 ^ (d.e + 700).toNat
  if d.neg then -n else n

/-- A positive fixed-point number as a real. -/
def ofFix (neg : Bool) (x : Int) : Approx := ⟨neg, x.toNat, -700, true⟩

/-- sum of z^(2k+1) / (2k+1) from k on, with `p` the power of z: the area tangent (`alt = 1`) or the arc tangent (`alt = -1`). -/
def oddSeries (alt z2 : Int) : Nat → Nat → Int → Int
  | 0, _, _ => 0
  | n + 1, k, p => p / (2 * k + 1 : Nat) + oddSeries alt z2 n (k + 1) (alt * fixMul p z2)

/-- π, by Machin's formula. -/
def fixPi : Int :=
  let at_ (n : Int) : Int := oddSeries (-1) (fixOne / (n * n)) 170 0 (fixOne / n)
  16 * at_ 5 - 4 * at_ 239

/-- ln x for x from 1 to 2: 2 artanh((x - 1) / (x + 1)). -/
def fixLn (x : Int) : Int :=
  let z := fixDiv (x - fixOne) (x + fixOne)
  2 * oddSeries 1 (fixMul z z) 230 0 z

/-- ln 2. -/
def fixLn2 : Int := fixLn (2 * fixOne)

/-- The series of e^x from its k-th term `t` on. -/
def expSeries (x : Int) : Nat → Nat → Int → Int
  | 0, _, t => t
  | n + 1, k, t => t + expSeries x n (k + 1) (fixMul t x / (k + 1 : Nat))

/-- The series of sin x from the term `t` of power k on. -/
def sinSeries (x2 : Int) : Nat → Nat → Int → Int
  | 0, _, t => t
  | n + 1, k, t => t + sinSeries x2 n (k + 2) (-(fixMul t x2) / ((k + 1) * (k + 2) : Nat))

/-- 2^y for a fixed-point y: the fixed-point value of 2^(fraction) in [1, 2), and the integer part. -/
def fixExp2 (y : Int) : Int × Int :=
  (expSeries (fixMul (y % fixOne) fixLn2) 160 0 fixOne, y / fixOne)

/-- Whether a dyadic is an integer. -/
def Dyad.isInteger (d : Dyad) : Bool := d.e ≥ 0 || d.m % 2 ^ (-d.e).toNat == 0

/-- The integer of a dyadic that is one, cut to ±2^14. -/
def Dyad.smallInt (d : Dyad) : Int :=
  let n : Nat := if 20 < d.e then 2 ^ 14 else if 0 ≤ d.e then d.m * 2 ^ d.e.toNat else d.m / 2 ^ (-d.e).toNat
  let n : Int := min n (2 ^ 14)
  if d.neg then -n else n

/-- The magnitude is at least 2^k. -/
def Dyad.atLeast (d : Dyad) (k : Int) : Bool := d.m != 0 && decide (k ≤ d.e + d.m.log2)

/-- 2^x (R210); beyond ±2^12 every result rounds alike. -/
def exp2Real (d : Dyad) : Approx :=
  if d.isInteger then ⟨false, 1, d.smallInt, false⟩
  else if d.atLeast 12 then ⟨false, 1, if d.neg then -16384 else 16384, true⟩
  else
    let (f, k) := fixExp2 d.toFix
    ⟨false, f.toNat, k - 700, true⟩

/-- log2 x for a positive x (R210). -/
def log2Real (d : Dyad) : Approx :=
  let top := d.m.log2
  let k : Int := d.e + top
  if d.m = 2 ^ top then (Dyad.ofInt k).toApprox
  else
    let y := fixDiv (fixLn (d.m * 2 ^ (700 - top) : Nat)) fixLn2 + k * fixOne
    ofFix (decide (y < 0)) y.natAbs

/-- sin(π x) (R210), for x in fixed point modulo 2, which is not a multiple of 1/2. -/
def sinPi (x : Int) : Approx :=
  let r := x % (2 * fixOne)
  let neg := decide (fixOne ≤ r)
  let r := if neg then r - fixOne else r
  let r := if fixOne < 2 * r then fixOne - r else r
  let a := fixMul r fixPi
  ofFix neg (sinSeries (fixMul a a) 130 1 a)

/-- A finite number modulo 2, in fixed point. -/
def Dyad.mod2 (d : Dyad) : Int :=
  if 1 ≤ d.e then 0 else d.toFix % (2 * fixOne)

/-- tanh x for a positive x (R210); above 64 the result lies within 2^-180 of 1. -/
def tanhReal (d : Dyad) : Approx :=
  if d.atLeast 6 then ⟨d.neg, 2 ^ 150 - 1, -150, true⟩
  else
    let (f, k) := fixExp2 (fixDiv (2 * d.abs.toFix) fixLn2)
    let e := f * 2 ^ k.toNat
    ofFix d.neg (fixDiv (e - fixOne) (e + fixOne))

end Sys2Proof.Machine
end

