-- ==== Sys2Proof/Machine/Float.lean ====
section
/-!
DEFINITION. The floating-point arithmetic, comparison, special-function, packed and conversion instructions (R207-R216,
06_float.md).
-/

namespace Sys2Proof.Machine

/-! ### Arithmetic -/

/-- A result from sources: a NaN source gives a NaN, with IV for a signalling one; otherwise `f` gives the datum. -/
def nanOr (env : FEnv) (t : ElemType) (srcs : List FNum) (st : FLane) (f : FLane → Nat × FLane) : Nat × FLane :=
  let st := st.signal srcs
  if srcs.any FNum.isNan then (nanResult env t srcs, st) else f st

/-- Whether rounding is toward minus infinity, for the sign of an exact zero sum. -/
def FEnv.down (env : FEnv) : Bool := env.mode == 4

/-- FADD, FSUB and FMUL of two data (R207). -/
def addValue (env : FEnv) (t : ElemType) (x y : FNum) (st : FLane) : Nat × FLane :=
  nanOr env t [x, y] st fun st => writeFloat env t false false [x, y] (x.add env.down y) st
def mulValue (env : FEnv) (t : ElemType) (x y : FNum) (st : FLane) : Nat × FLane :=
  nanOr env t [x, y] st fun st => writeFloat env t false false [x, y] (x.mul y) st

/-- The sum of two data, either of which may be invalid. -/
def addOption (down : Bool) (a b : Option FNum) : Option FNum := a.bind fun x => b.bind fun y => FNum.add down x y

/-- FFMA (R207): 0 × ∞ is invalid whatever c holds (R204). -/
def fmaValue (env : FEnv) (t : ElemType) (x y z : FNum) (st : FLane) : Nat × FLane :=
  let st := if !x.isNan && !y.isNan && (x.mul y).isNone then st.raise Exc.iv else st
  nanOr env t [x, y, z] st fun st =>
    writeFloat env t false false [x, y, z] (addOption env.down (x.mul y) (some z)) st

/-- FDIVS (R207). -/
def divValue (env : FEnv) (t : ElemType) (x y : FNum) (st : FLane) : Nat × FLane :=
  nanOr env t [x, y] st fun st =>
    let neg := x.neg != y.neg
    match x, y with
    | .inf _, .inf _ => invalid env t [] st
    | .inf _, _ => (withSign t neg (infPattern t), st)
    | _, .inf _ => roundTo env t false false ⟨neg, 0, 0, false⟩ st
    | .fin a, .fin b =>
      if b.m = 0 then
        if a.m = 0 then invalid env t [] st else (withSign t neg (infPattern t), st.raise Exc.dz)
      else roundTo env t false false (quotient a b) st
    | _, _ => invalid env t [] st

/-- FMIN and FMAX (R207): minimumNumber and maximumNumber, exact; -0 is less than +0. -/
def minMaxValue (isMax : Bool) (env : FEnv) (t : ElemType) (x y : FNum) (st : FLane) : Nat × FLane :=
  let st := st.signal [x, y]
  let out (r : FNum) : Nat × FLane := writeFloat { env with mode := 2 } t false false [x, y] (some r) st
  let less := x.lt y || (x.same y && x.neg && !y.neg)
  match x.isNan, y.isNan with
  | true, true => (nanResult env t [x, y], st)
  | true, false => out y
  | false, true => out x
  | false, false => out (if less != isMax then x else y)

/-- FADD (R207). -/
def faddBody : Ctx → State → Res :=
  floatOp fun c l st => addValue c.fenv c.ty (c.fsrc c.ty 0 l) (c.fsrc c.ty 1 l) st
/-- FSUB (R207): a NaN source keeps its sign. -/
def fsubBody : Ctx → State → Res :=
  floatOp fun c l st => addValue c.fenv c.ty (c.fsrc c.ty 0 l) (c.fsrc c.ty 1 l).negate st
/-- FMUL (R207). -/
def fmulBody : Ctx → State → Res :=
  floatOp fun c l st => mulValue c.fenv c.ty (c.fsrc c.ty 0 l) (c.fsrc c.ty 1 l) st
/-- FFMA (R207). -/
def ffmaBody : Ctx → State → Res :=
  floatOp fun c l st => fmaValue c.fenv c.ty (c.fsrc c.ty 0 l) (c.fsrc c.ty 1 l) (c.fsrc c.ty 2 l) st
/-- FDIVS (R207). -/
def fdivsBody : Ctx → State → Res :=
  floatOp fun c l st => divValue c.fenv c.ty (c.fsrc c.ty 0 l) (c.fsrc c.ty 1 l) st
/-- FMIN and FMAX (R207). -/
def fminmaxBody (isMax : Bool) : Ctx → State → Res :=
  floatOp fun c l st => minMaxValue isMax c.fenv c.ty (c.fsrc c.ty 0 l) (c.fsrc c.ty 1 l) st

/-! ### Comparison and classification (R208) -/

/-- The condition of FCMP: eq, ne, lt, le, gt, ge, ord, uno. -/
def floatCond (q : Nat) (x y : FNum) : Bool :=
  if x.isNan || y.isNan then q == 1 || q == 7
  else match q with
    | 0 => x.same y
    | 1 => !x.same y
    | 2 => x.lt y
    | 3 => x.lt y || x.same y
    | 4 => y.lt x
    | 5 => y.lt x || x.same y
    | 6 => true
    | _ => false

/-- FCMP (R208). -/
def fcmpBody (c : Ctx) (s : State) : Res :=
  let one (l : Nat) : Bool × Exc :=
    let x := c.fsrc c.ty 0 l
    let y := c.fsrc c.ty 1 l
    let bad := x.isSignalling || y.isSignalling || ((x.isNan || y.isNan) && decide (2 ≤ c.q) && decide (c.q ≤ 5))
    (floatCond c.q x y, if bad then Exc.iv else 0)
  match lanewisePred c s fun l => (one l).1 with
  | .done t => .done (raiseExc t c (c.runLanes.foldl (fun x l => x ||| (one l).2) 0))
  | r => r

/-- FCLASS (R208): the bit of the class. -/
def floatClass (t : ElemType) (x : Nat) : Nat :=
  match readFloat t false x with
  | .inf neg => if neg then 0 else 7
  | .nan sig _ _ _ => if sig then 8 else 9
  | .fin d =>
    if d.m = 0 then (if d.neg then 3 else 4)
    else if d.m < 2 ^ fracBits t then (if d.neg then 2 else 5)
    else (if d.neg then 1 else 6)

/-- FCLASS (R208). -/
def fclassBody (c : Ctx) (s : State) : Res :=
  lanewise c s fun l => BitVec.ofNat 64 (2 ^ floatClass c.ty ((c.srcA l).toNat % 2 ^ c.ty.bits))

/-! ### Rounding to an integer, scaling, exponents (R209) -/

/-- FRND (R209): exact, so it raises only IV for a signalling NaN. -/
def frndValue (env : FEnv) (t : ElemType) (x : FNum) (st : FLane) : Nat × FLane :=
  nanOr env t [x] st fun st =>
    match x with
    | .fin d =>
      let st := st.draw env
      let (n, _) := roundUnits env.mode (st.sr.toNat / 65536) d.toApprox 0
      let (r, _) := roundTo { env with mode := 2 } t false true ⟨d.neg, n, 0, false⟩ st
      (r, st)
    | _ => (withSign t x.neg (infPattern t), st)

/-- x × 2^n; beyond ±2^13 every result rounds alike. -/
def FNum.scale (x : FNum) (n : Int) : FNum :=
  match x with
  | .fin d => .fin { d with e := d.e + saturate n (-8192) 8192 }
  | y => y

/-- FLDEXP (R209). -/
def fldexpBody : Ctx → State → Res :=
  floatOp fun c l st =>
    let x := c.fsrc c.ty 0 l
    let n : Int := ((c.srcB true l).truncate 32 : Word32).toInt
    nanOr c.fenv c.ty [x] st fun st => writeFloat c.fenv c.ty false false [x] (some (x.scale n)) st

/-- FGETEXP (R209); a uniform takes the `.s32` result sign-extended (R173, R212). -/
def fgetexpBody : Ctx → State → Res :=
  floatOp fun c l st =>
    let put (n : Int) : Nat := (BitVec.ofInt 64 n).toNat
    match c.fsrc c.ty 0 l with
    | .fin d =>
      if d.m = 0 then (put (-2 ^ 31), st.raise Exc.iv)
      else (put (d.e + d.m.log2), st)
    | _ => (put (2 ^ 31 - 1), st.raise Exc.iv)

/-! ### Special functions (R210) -/

/-- FRCP. -/
def frcpValue (env : FEnv) (t : ElemType) (x : FNum) (st : FLane) : Nat × FLane :=
  match x with
  | .fin d =>
    if d.m = 0 then (withSign t d.neg (infPattern t), st.raise Exc.dz)
    else roundTo env t false false (quotient ⟨false, 1, 0⟩ d) st
  | _ => (withSign t x.neg 0, st)

/-- FRSQ. -/
def frsqValue (env : FEnv) (t : ElemType) (x : FNum) (st : FLane) : Nat × FLane :=
  match x with
  | .fin d =>
    if d.m = 0 then (withSign t d.neg (infPattern t), st.raise Exc.dz)
    else if d.neg then invalid env t [] st else roundTo env t false false (invRoot d) st
  | _ => if x.neg then invalid env t [] st else (0, st)

/-- FSQRT; the root of +0 is an exact result, which a stochastic mode draws for (R205). -/
def fsqrtValue (env : FEnv) (t : ElemType) (x : FNum) (st : FLane) : Nat × FLane :=
  match x with
  | .fin d =>
    if d.m = 0 then (if d.neg then (withSign t true 0, st) else roundTo env t false false d.toApprox st)
    else if d.neg then invalid env t [] st else roundTo env t false false (root d) st
  | _ => if x.neg then invalid env t [] st else (infPattern t, st)

/-- FEXP2. -/
def fexp2Value (env : FEnv) (t : ElemType) (x : FNum) (st : FLane) : Nat × FLane :=
  match x with
  | .fin d => roundTo env t false false (exp2Real d) st
  | _ => if x.neg then (0, st) else (infPattern t, st)

/-- FLOG2. -/
def flog2Value (env : FEnv) (t : ElemType) (x : FNum) (st : FLane) : Nat × FLane :=
  match x with
  | .fin d =>
    if d.m = 0 then (withSign t true (infPattern t), st.raise Exc.dz)
    else if d.neg then invalid env t [] st else roundTo env t false false (log2Real d) st
  | _ => if x.neg then invalid env t [] st else (infPattern t, st)

/-- FSIN and FCOS of x half-turns; cos(π x) is sin(π (x + 1/2)). -/
def fsinValue (cos : Bool) (env : FEnv) (t : ElemType) (x : FNum) (st : FLane) : Nat × FLane :=
  match x with
  | .fin d =>
    let y := (d.mod2 + if cos then fixOne / 2 else 0) % (2 * fixOne)
    if y % fixOne = 0 then roundTo env t false false ⟨!cos && d.neg, 0, 0, false⟩ st
    else if 2 * y % fixOne = 0 then roundTo env t false false ⟨decide (fixOne < y), 1, 0, false⟩ st
    else roundTo env t false false (sinPi y) st
  | _ => invalid env t [] st

/-- FTANH. -/
def ftanhValue (env : FEnv) (t : ElemType) (x : FNum) (st : FLane) : Nat × FLane :=
  match x with
  | .fin d =>
    if d.m = 0 then roundTo env t false false d.toApprox st else roundTo env t false false (tanhReal d) st
  | _ => roundTo env t false false ⟨x.neg, 1, 0, false⟩ st

/-- A function of one source: a NaN gives a NaN. -/
def unaryBody (f : FEnv → ElemType → FNum → FLane → Nat × FLane) : Ctx → State → Res :=
  floatOp fun c l st =>
    let x := c.fsrc c.ty 0 l
    nanOr c.fenv c.ty [x] st fun st => f c.fenv c.ty x st

/-! ### Packed 16-bit instructions (R211) -/

/-- Element i of a register in format t (R197). -/
def element (env : FEnv) (t : ElemType) (x : Word64) (i : Nat) : FNum :=
  readFloat t env.daz (x.toNat / 2 ^ (t.bits * i) % 2 ^ t.bits)

/-- A packed IOP: element 0 is rounded before element 1. -/
def packedBody (f : FEnv → ElemType → FNum → FNum → FNum → FLane → Nat × FLane) : Ctx → State → Res :=
  floatOp fun c l st =>
    let e (x : Word64) (i : Nat) := element c.fenv c.ty x i
    let a := c.srcA l
    let b := c.srcB false l
    let k := c.srcC false l
    let (r0, st) := f c.fenv c.ty (e a 0) (e b 0) (e k 0) st
    let (r1, st) := f c.fenv c.ty (e a 1) (e b 1) (e k 1) st
    (r0 + 2 ^ 16 * r1, st)

/-- HDOT2 (R211): one rounding of the exact sum; ∞ × 0 and opposite infinities among the terms are invalid. -/
def hdot2Body : Ctx → State → Res :=
  floatOp fun c l st =>
    let env := c.fenv
    let e (x : Word64) (i : Nat) := element env c.ty x i
    let a := c.srcA l
    let b := c.srcB false l
    let z := readFloat .f32 env.daz ((c.srcC false l).toNat % 2 ^ 32)
    let srcs := [e a 0, e a 1, e b 0, e b 1, z]
    let p0 := (e a 0).mul (e b 0)
    let p1 := (e a 1).mul (e b 1)
    let infs := [p0, p1, some z].filterMap fun t => t.bind fun x => if x.isInf then some x.neg else none
    let bad := p0.isNone || p1.isNone || (infs.contains true && infs.contains false)
    let st := if bad then st.raise Exc.iv else st
    nanOr env .f32 srcs st fun st =>
      writeFloat env .f32 false false srcs (addOption env.down (addOption env.down p0 p1) (some z)) st

/-! ### Conversions (R213-R216) -/

/-- The number that a source of CVT holds under its type. -/
def convSource (env : FEnv) (t : ElemType) (x : Word64) : FNum :=
  let n := x.toNat % 2 ^ t.bits
  if t.isFloat then readFloat t env.daz n
  else .fin (Dyad.ofInt (if t.signed && n.testBit (t.bits - 1) then (n : Int) - 2 ^ t.bits else n))

/-- The conversion to a float or integer type (R213), as 64 bits. -/
def convert (env : FEnv) (t : ElemType) (x : FNum) (st : FLane) : Nat × FLane :=
  if t.isFloat then
    let st := if t == .e2m1 && x.isNan then st.raise Exc.iv else st
    nanOr env t [x] st fun st => writeFloat env t true false [x] (some x) st
  else
    let lo := intLo t.signed t.bits
    let hi := intHi t.signed t.bits
    let out (n : Int) : Nat := (BitVec.ofInt 64 n).toNat
    match x with
    | .nan .. => (0, st.raise Exc.iv)
    | .inf neg => (out (if neg then lo else hi), st.raise Exc.iv)
    | .fin d =>
      let st := st.draw env
      let (n, inexact) := roundUnits env.mode (st.sr.toNat / 65536) d.toApprox 0
      let q : Int := if d.neg then -n else n
      if q < lo ∨ hi < q then (out (saturate q lo hi), st.raise Exc.iv)
      else (out q, if inexact then st.raise Exc.ix else st)

/-- The source type of the two-type forms (R57). -/
def Ctx.tsrc (c : Ctx) : ElemType := ElemType.ofCode c.f.fc.toNat

/-- CVT (R213); CVTI scales the exact source by 2^b first (R214). -/
def cvtBody (scaled : Bool) : Ctx → State → Res :=
  floatOp fun c l st =>
    let x := convSource c.fenv c.tsrc (c.srcA l)
    let n : Int := ((c.srcB true l).truncate 32 : Word32).toInt
    convert c.fenv c.ty (if scaled then x.scale n else x) st

/-- The word with element i of a format replaced (R197). -/
def setElement (t : ElemType) (w : Nat) (i x : Nat) : Nat :=
  let lo := t.bits * i
  w % 2 ^ lo + (x % 2 ^ t.bits) * 2 ^ lo + w / 2 ^ (lo + t.bits) * 2 ^ (lo + t.bits)

/-- CVTP (R215). -/
def cvtpBody : Ctx → State → Res :=
  floatOp fun c l st =>
    let src (x : Word64) := readFloat .f32 c.fenv.daz (x.toNat % 2 ^ 32)
    let (r0, st) := convert c.fenv c.ty (src (c.srcA l)) st
    let (r1, st) := convert c.fenv c.ty (src (c.srcB false l)) st
    let old := (c.oldD l).toNat % 2 ^ 32
    (setElement c.ty (setElement c.ty old (2 * c.q) r0) (2 * c.q + 1) r1, st)

/-- CVTF (R216): exact, two FP32 values in one pair. -/
def cvtfBody : Ctx → State → Res :=
  floatOp fun c l st =>
    let one (i : Nat) (st : FLane) : Nat × FLane :=
      let x := element c.fenv c.tsrc (c.srcA l) i
      nanOr c.fenv .f32 [x] st fun st => writeFloat { c.fenv with mode := 2 } .f32 false false [x] (some x) st
    let (r0, st) := one (2 * c.q) st
    let (r1, st) := one (2 * c.q + 1) st
    (r0 + 2 ^ 32 * r1, st)

/-- FADD (R207). -/
def execFadd (x : RForm) : State → Host.Outcome State Fault Refusal := runIop 0x0C0 (.r x) faddBody
/-- FSUB (R207). -/
def execFsub (x : RForm) : State → Host.Outcome State Fault Refusal := runIop 0x0C1 (.r x) fsubBody
/-- FMUL (R207). -/
def execFmul (x : RForm) : State → Host.Outcome State Fault Refusal := runIop 0x0C2 (.r x) fmulBody
/-- FFMA (R207). -/
def execFfma (x : RForm) : State → Host.Outcome State Fault Refusal := runIop 0x0C3 (.r x) ffmaBody
/-- FMIN (R207). -/
def execFmin (x : RForm) : State → Host.Outcome State Fault Refusal := runIop 0x0C4 (.r x) (fminmaxBody false)
/-- FMAX (R207). -/
def execFmax (x : RForm) : State → Host.Outcome State Fault Refusal := runIop 0x0C5 (.r x) (fminmaxBody true)
/-- FCMP (R208). -/
def execFcmp (x : RForm) : State → Host.Outcome State Fault Refusal := runIop 0x0C6 (.r x) fcmpBody
/-- FCLASS (R208). -/
def execFclass (x : RForm) : State → Host.Outcome State Fault Refusal := runIop 0x0C7 (.r x) fclassBody
/-- FRND (R209). -/
def execFrnd (x : RForm) : State → Host.Outcome State Fault Refusal := runIop 0x0C8 (.r x) (unaryBody frndValue)
/-- FLDEXP (R209). -/
def execFldexp (x : RForm) : State → Host.Outcome State Fault Refusal := runIop 0x0C9 (.r x) fldexpBody
/-- FGETEXP (R209). -/
def execFgetexp (x : RForm) : State → Host.Outcome State Fault Refusal := runIop 0x0CA (.r x) fgetexpBody
/-- FDIVS (R207). -/
def execFdivs (x : RForm) : State → Host.Outcome State Fault Refusal := runIop 0x0CB (.r x) fdivsBody
/-- FRCP (R210). -/
def execFrcp (x : RForm) : State → Host.Outcome State Fault Refusal := runIop 0x0CC (.r x) (unaryBody frcpValue)
/-- FRSQ (R210). -/
def execFrsq (x : RForm) : State → Host.Outcome State Fault Refusal := runIop 0x0CD (.r x) (unaryBody frsqValue)
/-- FSQRT (R210). -/
def execFsqrt (x : RForm) : State → Host.Outcome State Fault Refusal := runIop 0x0CE (.r x) (unaryBody fsqrtValue)
/-- FEXP2 (R210). -/
def execFexp2 (x : RForm) : State → Host.Outcome State Fault Refusal := runIop 0x0CF (.r x) (unaryBody fexp2Value)
/-- FLOG2 (R210). -/
def execFlog2 (x : RForm) : State → Host.Outcome State Fault Refusal := runIop 0x0D0 (.r x) (unaryBody flog2Value)
/-- FSIN (R210). -/
def execFsin (x : RForm) : State → Host.Outcome State Fault Refusal := runIop 0x0D1 (.r x) (unaryBody (fsinValue false))
/-- FCOS (R210). -/
def execFcos (x : RForm) : State → Host.Outcome State Fault Refusal := runIop 0x0D2 (.r x) (unaryBody (fsinValue true))
/-- FTANH (R210). -/
def execFtanh (x : RForm) : State → Host.Outcome State Fault Refusal := runIop 0x0D3 (.r x) (unaryBody ftanhValue)
/-- HADD2 (R211). -/
def execHadd2 (x : RForm) : State → Host.Outcome State Fault Refusal := runIop 0x0D4 (.r x) (packedBody fun env t a b _ st => addValue env t a b st)
/-- HMUL2 (R211). -/
def execHmul2 (x : RForm) : State → Host.Outcome State Fault Refusal := runIop 0x0D5 (.r x) (packedBody fun env t a b _ st => mulValue env t a b st)
/-- HFMA2 (R211). -/
def execHfma2 (x : RForm) : State → Host.Outcome State Fault Refusal := runIop 0x0D6 (.r x) (packedBody fun env t a b k st => fmaValue env t a b k st)
/-- HMIN2 (R211). -/
def execHmin2 (x : RForm) : State → Host.Outcome State Fault Refusal := runIop 0x0D7 (.r x) (packedBody fun env t a b _ st => minMaxValue false env t a b st)
/-- HMAX2 (R211). -/
def execHmax2 (x : RForm) : State → Host.Outcome State Fault Refusal := runIop 0x0D8 (.r x) (packedBody fun env t a b _ st => minMaxValue true env t a b st)
/-- HDOT2 (R211). -/
def execHdot2 (x : RForm) : State → Host.Outcome State Fault Refusal := runIop 0x0D9 (.r x) hdot2Body
/-- CVT (R213). -/
def execCvt (x : RForm) : State → Host.Outcome State Fault Refusal := runIop 0x0DA (.r x) (cvtBody false)
/-- CVTI (R214). -/
def execCvti (x : RForm) : State → Host.Outcome State Fault Refusal := runIop 0x0DB (.r x) (cvtBody true)
/-- CVTF (R216). -/
def execCvtf (x : RForm) : State → Host.Outcome State Fault Refusal := runIop 0x0DC (.r x) cvtfBody
/-- CVTP (R215). -/
def execCvtp (x : RForm) : State → Host.Outcome State Fault Refusal := runIop 0x0DD (.r x) cvtpBody

end Sys2Proof.Machine
end

