-- ==== Sys2Proof/Machine/Memory.lean ====
section
/-!
DEFINITION. The memory-access instructions (R264-R286, 08_memory.md): address checks, translation of all lanes, page requests and
replay, loads and stores, and cache maintenance.
-/

namespace Sys2Proof.Machine

/-! ### Addresses (R264) -/

/-- One element of a memory instruction: its lane and effective address. -/
structure Access1 where
  lane : Nat
  va   : Nat

/-- A translated element. -/
structure Access2 where
  lane : Nat
  va   : Nat
  pa   : Nat
  exec : Bool

/-- The elements of an instruction: one for each active lane, or one for a uniform form whose guard holds (R267). -/
def Ctx.elems (c : Ctx) (uniform : Bool) : List Access1 :=
  (if uniform then (if c.guard0 then [c.lane0] else []) else lanesOf c.act).map fun l => { lane := l, va := (c.ea l).toNat }

/-- The checks of R264: bits [63:57], then alignment. -/
def eaFault (es : List Access1) (align : Nat) : Option (FaultCode × Word64) :=
  match es.find? fun e => decide (2 ^ 57 ≤ e.va) with
  | some e => some (.pfault, BitVec.ofNat 64 e.va)
  | none => (es.find? fun e => e.va % align != 0).map fun e => (.align, BitVec.ofNat 64 e.va)

/-! ### Translation of all elements (R272, R275, R278) -/

/-- What the translation of the elements in lane order has met. -/
structure Scan where
  done   : List Access2 := []
  /-- elements with V = 0, and what they need -/
  absent : List (Access1 × Bool × Bool × Nat) := []
  /-- the first element that stops the instruction -/
  stop   : Option (Access1 × Found) := none

/-- Translates one element, unless one before it stops the instruction: it needs a walk, meets a flipping page or fails for good. -/
def scanElem (s : State) (c : Ctx) (kind : Access) (r : Scan) (e : Access1) : Scan :=
  match r.stop with
  | some _ => r
  | none =>
    match lookupVa s c.warp c.path e.va kind with
    | .ok pa x => { r with done := r.done ++ [{ lane := e.lane, va := e.va, pa := pa, exec := x }] }
    | .fail (.absent st tb pg) => { r with absent := r.absent ++ [(e, st, tb, pg)] }
    | f => { r with stop := some (e, f) }

/-- Translates the elements in order. -/
def scanElems (s : State) (c : Ctx) (kind : Access) (es : List Access1) : Scan := es.foldl (scanElem s c kind) {}

/-- The lowest faulting address of an instruction, for an INVALID reply (R277). -/
def lowestFailing (s : State) (c : Ctx) (kind : Access) (es : List Access1) : Nat :=
  let bad := es.filter fun e => match lookupVa s c.warp c.path e.va kind with
    | .fail .invalid | .fail (.absent ..) => true
    | _ => false
  (bad.map (·.va)).foldl (fun m x => min m x) ((bad.head?.map (·.va)).getD 0)

/-- What stops an instruction at an element: a wait, or a fault. -/
def stopAt (s : State) (c : Ctx) (kind : Access) (es : List Access1) (e : Access1) (f : Found) : Res :=
  match f with
  | .walk => let (s, wt) := startWalk s c.w c.p c.warp e.va kind; .wait s wt
  | .flip page => .wait s (.flip page)
  | .fail .invalid => .trap .pfault (BitVec.ofNat 64 (lowestFailing s c kind es))
  | .fail f => .trap f.code (BitVec.ofNat 64 e.va)
  | .ok _ _ => .done s

/-- Raises the page requests of the absent elements and waits for their answers (R275). -/
def requestAll (s : State) (c : Ctx) (kind : Access) (xs : List (Access1 × Bool × Bool × Nat)) : Res :=
  let go (acc : State × List Nat × Option Res) (x : Access1 × Bool × Bool × Nat) : State × List Nat × Option Res :=
    match acc.2.2 with
    | some _ => acc
    | none =>
      let (e, st, tb, pg) := x
      match raiseRequest acc.1 c.warp.vf c.warp.asid pg st (if tb then .read else kind) with
      | (s, .rid n) => (s, NSet.insert acc.2.1 n, none)
      | (s, .full) => (s, acc.2.1, some (.wait s (.requestRoom c.warp.vf acc.2.1)))
      | (s, .noRing) => (s, acc.2.1, some (.trapIn s .pfault (BitVec.ofNat 64 e.va)))
  match xs.foldl go (s, [], none) with
  | (_, _, some r) => r
  | (s, rids, none) => .wait s (.requests c.warp.vf rids)

/-- The translation of every element before any has an effect (R278, R307); `request` says whether V = 0 raises a page request. -/
def translateAll (s : State) (c : Ctx) (kind : Access) (request : Bool) (es : List Access1) (f : List Access2 → Res) : Res :=
  let r := scanElems s c kind es
  match r.stop, r.absent with
  | some (e, .walk), _ => stopAt s c kind es e .walk
  | some (e, .flip p), _ => stopAt s c kind es e (.flip p)
  | some (e, x), [] => stopAt s c kind es e x
  | _, a :: more =>
    if request then requestAll s c kind (a :: more) else .trap .pfault (BitVec.ofNat 64 a.1.va)
  | none, [] => f r.done

/-- The first element that reads poisoned data (R292). -/
def poisonedElem (s : State) (n : Nat) (es : List Access2) : Option Access2 := es.find? fun e => poisoned s e.pa n

/-! ### Lines that an access brings in (R258, R259, R281) -/

/-- The lines of addresses, each once. -/
def linesOf (pas : List Nat) : List Nat := NSet.insertAll [] (pas.map (· / 64))

/-- The lines that L1 takes: for a read those of this package's DRAM (R262); for a store every line, since L1 holds its bytes (R259). -/
def l1Lines (store : Bool) (pas : List Nat) : List Nat := (linesOf pas).filter fun l => store || dramLine l

/-- A GEN access brings its lines into L1 and goes on. Where the publish buffer has no room, the core first passes a phase boundary at `.pod`
of its own accord, whose refresh follows the path's earlier reads (R259, R300). -/
def withL1 (c : Ctx) (s : State) (next : Bool) (lines : List Nat) (f : State → Res) : Res :=
  let core := c.warp.core
  match l1FillAll s core next lines with
  | (t, false) => f t
  | (_, true) =>
    let s := boundary s core .pod
    match pendingReads s c.w c.path.lmask with
    | [] => f (l1FillAll (refresh s core .pod) core next lines).1
    | rids => .wait s (.reads rids)

/-- The access whose path has waited for its earlier reads to return makes the refresh of that boundary first. -/
def afterOverflow (body : Ctx → State → Res) (c : Ctx) (s : State) : Res :=
  match c.path.wait with
  | some (.reads _) =>
    let s := refresh s c.warp.core .pod
    (match body c s with | .trap code info => .trapIn s code info | r => r)
  | _ => body c s

/-- A weak read brings its lines into the caches that its path and its qualifier name: `.strm` (1) as next to be replaced, `.llc` (2) not into
L1 (R281, R284). -/
def withLines (c : Ctx) (s : State) (q : Chan) (qual : Nat) (pas : List Nat) (f : State → Res) : Res :=
  let s := (linesOf pas).foldl (fun s l => llcRead s (dieOf c.warp.core) l) s
  match q with
  | .con => f ((linesOf pas).foldl (fun s l => conFill s (clusterOf c.warp.core) l) s)
  | _ => if qual = 2 then f s else withL1 c s (qual == 1) (l1Lines false pas) f

/-! ### Reads and stores issue -/

/-- The mask of the lanes of elements. -/
def lanesMask (es : List Access2) : BitVec 32 := maskOf fun l => es.any (·.lane == l)

/-- A read issues (R299, R301): it stays in flight until it returns. `idx` gives each element's register after D. An atomic follows the
writes of a release fence of its path (R302). -/
def issueRead (s : State) (c : Ctx) (op : ReadOp) (size : Nat) (lanes : BitVec 32) (es : List (Nat × Access2)) (dest : Dest)
    (busy : List Reg) : State :=
  let s := nextSeq s
  let core := c.warp.core
  let src (pa : Nat) : List ByteSource :=
    match op with | .weak q => (List.range size).map fun i => byteSource s core q (pa + i) | _ => []
  let r : Inflight :=
    { rid := s.nextId, core := core, warp := c.w, lanes := lanes, seq := s.seq, op := op, size := size
      elems := es.map fun x => { lane := x.2.lane, idx := x.1, va := x.2.va, pa := x.2.pa, src := src x.2.pa }
      dest := dest, busy := busy, path := c.path.lmask
      after := match op with | .atomic .. => c.path.after | _ => [] }
  { s with nextId := s.nextId + 1, inflight := s.inflight ++ [r] }

/-- The page of an element of a store when it is mapped executable (R111). -/
def Access2.execPage (c : Ctx) (e : Access2) : Option (Nat × Nat × Nat) :=
  if e.exec then some (c.warp.vf, c.warp.asid, e.va) else none

/-- The vector registers of a destination of n slots from vD. -/
def Ctx.destRegs (c : Ctx) (n : Nat) : List Reg := (List.range n).map fun i => .slot (c.slot c.f.d.toNat + i)

/-- The element size of the type. -/
def Ctx.esize (c : Ctx) : Nat := c.ty.bytes

/-- The slots of one element in vectors: 2 for 8-byte types. -/
def Ctx.eslots (c : Ctx) : Nat := if c.ty.bytes = 8 then 2 else 1

/-! ### Loads -/

/-- QA of format M. -/
def Ctx.qa (c : Ctx) : Nat := match c.f with | .m x => x.qa.toNat | _ => 0
def Ctx.qb (c : Ctx) : Bool := match c.f with | .m x => x.qb | _ => false

/-- A weak load of one element in each active lane (R281, R284). -/
def loadBody (q : Chan) (c : Ctx) (s : State) : Res :=
  let es := c.elems false
  match es, eaFault es c.esize with
  | [], _ => .done s
  | _, some (code, info) => .trap code info
  | _, none =>
    translateAll s c .read true es fun xs =>
      match poisonedElem s c.esize xs with
      | some e => .trap .poison (BitVec.ofNat 64 e.va)
      | none =>
        withLines c s q c.qa (xs.map (·.pa)) fun s =>
          .done (issueRead s c (.weak q) c.esize (lanesMask xs) (xs.map fun x => (0, x))
            (.vector (c.slot c.f.d.toNat) c.eslots c.ty) (c.destRegs c.eslots))

/-- LDV (R281): four or eight words, each single-copy atomic (R297). -/
def loadWordsBody (c : Ctx) (s : State) : Res :=
  let n := if c.qa = 0 then 4 else 8
  let es := c.elems false
  match es, eaFault es (4 * n) with
  | [], _ => .done s
  | _, some (code, info) => .trap code info
  | _, none =>
    translateAll s c .read true es fun xs =>
      match poisonedElem s (4 * n) xs with
      | some e => .trap .poison (BitVec.ofNat 64 e.va)
      | none =>
        let words := xs.flatMap fun x => (List.range n).map fun i => (i, { x with pa := x.pa + 4 * i, va := x.va + 4 * i })
        withLines c s .gen 0 (xs.map (·.pa)) fun s =>
          .done (issueRead s c (.weak .gen) 4 (lanesMask xs) words (.vector (c.slot c.f.d.toNat) 1 .z32) (c.destRegs n))

/-- LDU, CLDU and LDP (R283, R284): one element for the path. -/
def loadUniformBody (q : Chan) (pred : Bool) (c : Ctx) (s : State) : Res :=
  let es := c.elems true
  match es, eaFault es c.esize with
  | [], _ => .done s
  | _, some (code, info) => .trap code info
  | _, none =>
    translateAll s c .read true es fun xs =>
      match poisonedElem s c.esize xs with
      | some e => .trap .poison (BitVec.ofNat 64 e.va)
      | none =>
        let n := c.f.d.toNat
        withLines c s q 0 (xs.map (·.pa)) fun s =>
          .done (issueRead s c (.weak q) c.esize c.path.lmask (xs.map fun x => (0, x))
            (if pred then .predicate n else .uniform n c.ty)
            (if pred then (if n = 15 then [] else [.pred n]) else [.uni n]))

/-- LDNF (R282): a lane whose translation fails reads 0, and its predicate says so. -/
def loadNoFaultBody (c : Ctx) (s : State) : Res :=
  let es := c.elems false
  let n := 2 * c.qa + bit c.qb
  match es, eaFault es c.esize with
  | [], _ => .done s
  | _, some (code, info) => .trap code info
  | _, none =>
    let look (e : Access1) := lookupVa s c.warp c.path e.va .read
    match es.find? fun e => match look e with | .walk | .flip _ => true | _ => false with
    | some e => stopAt s c .read es e (look e)
    | none =>
      let xs := es.filterMap fun e => match look e with
        | .ok pa x => some ({ lane := e.lane, va := e.va, pa := pa, exec := x } : Access2)
        | _ => none
      match poisonedElem s c.esize xs with
      | some e => .trap .poison (BitVec.ofNat 64 e.va)
      | none =>
        let failed := c.act &&& ~~~(lanesMask xs)
        withLines c s .gen 0 (xs.map (·.pa)) fun s =>
          .done (issueRead s c (.weak .gen) c.esize c.act (xs.map fun x => (0, x))
            (.noFault (c.slot c.f.d.toNat) c.eslots c.ty failed n)
            (c.destRegs c.eslots ++ (if n = 15 then [] else [.pred n])))

/-- SMPL (R285): both elements lie in one 4 KiB page. -/
def sampleBody (c : Ctx) (s : State) : Res :=
  let es := c.elems false
  let n := c.esize
  match es, eaFault es n with
  | [], _ => .done s
  | _, some (code, info) => .trap code info
  | _, none =>
    match es.find? fun e => decide (4096 < e.va % 4096 + 2 * n) with
    | some e => .trap .align (BitVec.ofNat 64 e.va)
    | none =>
      translateAll s c .read true es fun xs =>
        match poisonedElem s (2 * n) xs with
        | some e => .trap .poison (BitVec.ofNat 64 e.va)
        | none =>
          let two := xs.flatMap fun x => [(0, x), (1, { x with pa := x.pa + n, va := x.va + n })]
          withLines c s .con 0 (two.map (·.2.pa)) fun s =>
            .done (issueRead s c (.weak .con) n (lanesMask xs) two
              (.sample (c.slot c.f.d.toNat) c.ty (c.vrow (c.f.km.getLsbD 3) c.f.d.toNat) c.warp.regs.gmode) (c.destRegs 1))

/-! ### Stores -/

/-- The low bytes of a lane's source D. -/
def Ctx.storeBytes (c : Ctx) (l : Nat) : List Byte := leBytes c.esize (c.oldD l).toNat

/-- The weak stores of one instruction issue, as next to be replaced under `.strm` (R259, R281, R298). -/
def issueStores (c : Ctx) (s : State) (strm : Bool) (es : List StoreElem) (f : State → Res) : Res :=
  withL1 c s strm (l1Lines true (es.map (·.pa))) fun s => f (holdStores s c es)

/-- A weak store of one element in each active lane (R281). -/
def storeBody (c : Ctx) (s : State) : Res :=
  let es := c.elems false
  match es, eaFault es c.esize with
  | [], _ => .done s
  | _, some (code, info) => .trap code info
  | _, none =>
    translateAll s c .write true es fun xs =>
      issueStores c s (c.qa == 1) (xs.map fun x =>
        { lanes := 1#32 <<< x.lane, va := x.va, pa := x.pa, bytes := c.storeBytes x.lane, exec := x.execPage c }) .done

/-- STV (R281). -/
def storeWordsBody (c : Ctx) (s : State) : Res :=
  let n := if c.qa = 0 then 4 else 8
  let es := c.elems false
  match es, eaFault es (4 * n) with
  | [], _ => .done s
  | _, some (code, info) => .trap code info
  | _, none =>
    translateAll s c .write true es fun xs =>
      issueStores c s false (xs.flatMap fun x => (List.range n).map fun i =>
        { lanes := 1#32 <<< x.lane, va := x.va + 4 * i, pa := x.pa + 4 * i, exec := x.execPage c
          bytes := leBytes 4 ((c.warp.regs.row (c.slot c.f.d.toNat + i)).lane x.lane).toNat }) .done

/-- The word that STP stores (R283). -/
def Ctx.predWord (c : Ctx) : BitVec 32 := c.warp.regs.pred c.f.d.toNat &&& c.path.lmask

/-- STU and STP (R283). -/
def storeUniformBody (pred : Bool) (c : Ctx) (s : State) : Res :=
  let es := c.elems true
  match es, eaFault es c.esize with
  | [], _ => .done s
  | _, some (code, info) => .trap code info
  | _, none =>
    translateAll s c .write true es fun xs =>
      issueStores c s false (xs.map fun x =>
        { lanes := c.path.lmask, va := x.va, pa := x.pa, exec := x.execPage c
          bytes := leBytes c.esize (if pred then c.predWord.toNat else c.uD.toNat) }) .done

/-! ### Gather and scatter (R278-R280) -/

/-- The restart record of R279: RMASK, RPC and RV. -/
def restartMask (c : Ctx) : BitVec 32 :=
  let r := c.path.rst
  if r.getLsbD 0 && r.extractLsb' 1 31 == c.path.pc.extractLsb' 1 31 then r.extractLsb' 32 32 else 0

/-- A valid restart record for the elements done. -/
def restartRecord (c : Ctx) (done : BitVec 32) : BitVec 64 := done ++ (c.path.pc.extractLsb' 1 31 ++ 1#1 : BitVec 32)

/-- GATH and SCAT run progressively unless `.np`, or a GATH whose D names a slot that B names (R278). -/
def progressive (gather : Bool) (c : Ctx) : Bool :=
  !(gather && (c.qb || (match c.f with
    | .m x => x.iv && x.km.getLsbD 1 == x.km.getLsbD 3 && decide (x.d.toNat ≤ x.b.toNat) && decide (x.b.toNat < x.d.toNat + c.eslots)
    | _ => false)))

/-- What ends a run of a progressive instruction whose elements are not all done: a fault, or page requests, which the lower lanes raise before a
higher lane faults (R275, R279). -/
def stopProgressive (t : State) (c : Ctx) (kind : Access) (absent : List (Access1 × Bool × Bool × Nat))
    (fault : Option (FaultCode × Word64)) : Res :=
  match absent, fault with
  | [], some (code, info) => .trapIn t code info
  | [], none => .done t
  | _, none => requestAll t c kind absent
  | _, some (code, info) =>
    match requestAll t c kind absent with
    | .wait t (.requests _ _) => .trapIn t code info
    | r => r

/-- The elements of a progressive instruction that are done now, and what then follows: `rest` says what ends the run where elements are
left, and none that the instruction completes with RV := 0 (R279). -/
def doElements (gather : Bool) (c : Ctx) (s : State) (xs : List Access2) (rest : Option (State → Res)) : Res :=
  let next (t : State) : Res :=
    match rest with
    | none => .done (t.modPath c.w c.p fun q => { q with rst := q.rst &&& ~~~1#64 })
    | some f => f (t.modPath c.w c.p fun q => { q with rst := restartRecord c (restartMask c ||| lanesMask xs) })
  if xs.isEmpty then next s
  else if gather then
    withLines c s .gen c.qa (xs.map (·.pa)) fun s =>
      next (issueRead s c (.weak .gen) c.esize (lanesMask xs) (xs.map fun x => (0, x))
        (.vector (c.slot c.f.d.toNat) c.eslots c.ty) (c.destRegs c.eslots))
  else
    issueStores c s (c.qa == 1) (xs.map fun x =>
      { lanes := 1#32 <<< x.lane, va := x.va, pa := x.pa, bytes := c.storeBytes x.lane, exec := x.execPage c }) next

/-- A progressive instruction (R279): the elements that translate are done now, the others wait for their page requests. -/
def progressiveBody (gather : Bool) (c : Ctx) (s : State) : Res :=
  let kind : Access := if gather then .read else .write
  let done0 := restartMask c
  let es := (c.elems false).filter fun e => !done0.getLsbD e.lane
  match eaFault es c.esize with
  | some (code, info) => .trap code info
  | none =>
    match es.find? fun e => match lookupVa s c.warp c.path e.va kind with | .walk | .flip _ => true | _ => false with
    | some e => stopAt s c kind es e (lookupVa s c.warp c.path e.va kind)
    | none =>
      let r := scanElems s c kind es
      let bad := if gather then poisonedElem s c.esize r.done else none
      let xs := match bad with | some b => r.done.filter fun e => decide (e.lane < b.lane) | none => r.done
      let fault : Option (FaultCode × Word64) :=
        match bad, r.stop with
        | some b, _ => some (.poison, BitVec.ofNat 64 b.va)
        | none, some (e, f) => (match stopAt s c kind es e f with | .trap code info => some (code, info) | _ => none)
        | none, none => none
      let absent := match bad with | some b => r.absent.filter fun a => decide (a.1.lane < b.lane) | none => r.absent
      doElements gather c s xs
        (if absent.isEmpty && fault.isNone then none else some fun t => stopProgressive t c kind absent fault)

/-- GATH and SCAT. -/
def gathBody (c : Ctx) (s : State) : Res := if progressive true c then progressiveBody true c s else loadBody .gen c s
def scatBody (c : Ctx) (s : State) : Res := progressiveBody false c s

/-! ### Cache maintenance (R286) -/

/-- The physical addresses of the elements that translate, with nothing that a program sees changed. -/
def prefetchable (c : Ctx) (s : State) (es : List Access1) : List Nat :=
  es.filterMap fun e => if 2 ^ 57 ≤ e.va then none else xlateQuiet s c.warp.vf c.warp.asid e.va

/-- PREF and PREFU (R286): they never fault and raise no request. A prefetch into L1 that would make the core pass a boundary is
dropped, since it would change visible state. -/
def prefBody (uniform : Bool) (c : Ctx) (s : State) : Res :=
  let pas := prefetchable c s ((c.elems uniform).map fun e => { e with va := e.va / 64 * 64 })
  let s := (linesOf pas).foldl (fun s l => llcRead s (dieOf c.warp.core) l) s
  .done (if c.qa = 0 then (l1Lines false pas).foldl (fun s l => match l1Fill s c.warp.core l false with | (t, false) => t | (_, true) => s) s
    else s)

/-- CWB (R286): the line goes back to its home memory, which holds its performed writes already; `.inv` drops it from the LLC. It
faults as a store would, and raises no request (R275). -/
def cwbBody (c : Ctx) (s : State) : Res :=
  let es := c.elems false
  match eaFault es 1 with
  | some (code, info) => .trap code info
  | none =>
    translateAll s c .write false (es.map fun e => { e with va := e.va / 64 * 64 }) fun xs =>
      .done (if c.qa = 1 then llcDrop s (linesOf (xs.map (·.pa))).contains else s)

/-- The lines in which a core holds unpublished stores. -/
def heldLines (s : State) (core : Nat) : List Nat :=
  linesOf ((s.held.filter (·.heldBy core)).flatMap fun h => h.cells.map (·.1))

/-- CINV (R286): lines leave the caches, but for those that hold unpublished stores, and a later weak read of one returns what the LLC holds
now or later. -/
def cinvBody (c : Ctx) (s : State) : Res :=
  if c.act = 0 then .done s
  else
    let core := c.warp.core
    let kept := heldLines s core
    match c.q with
    | 0 =>
      let s := { s with l1 := s.l1.filter fun l => l.owner != core || kept.contains l.line }
      .done (raiseBound s (boundKey core .gen) [.reread s.performed.length kept])
    | 1 =>
      let s := { s with con := s.con.filter (·.owner != clusterOf core) }
      .done (raiseBound s (boundKey core .con) [.reread s.performed.length []])
    | _ =>
      let lines := (linesOf (prefetchable c s [{ lane := c.lane0, va := c.uA.toNat }])).filter fun l => !kept.contains l
      let s := { s with l1 := s.l1.filter fun l => !(l.owner == core && lines.contains l.line) }
      .done (raiseBound s (boundKey core .gen)
        (lines.flatMap fun l => (List.range 64).map fun i => .byte (64 * l + i) (latestPos s (64 * l + i) fun _ => true)))

/-- LD (R281). -/
def execLd (x : MForm) : State → Host.Outcome State Fault Refusal := runIop 0x180 (.m x) (afterOverflow (loadBody .gen))
/-- ST (R281). -/
def execSt (x : MForm) : State → Host.Outcome State Fault Refusal := runIop 0x181 (.m x) (afterOverflow storeBody)
/-- LDV (R281). -/
def execLdv (x : MForm) : State → Host.Outcome State Fault Refusal := runIop 0x182 (.m x) (afterOverflow loadWordsBody)
/-- STV (R281). -/
def execStv (x : MForm) : State → Host.Outcome State Fault Refusal := runIop 0x183 (.m x) (afterOverflow storeWordsBody)
/-- LDP (R283). -/
def execLdp (x : MForm) : State → Host.Outcome State Fault Refusal := runIop 0x184 (.m x) (afterOverflow (loadUniformBody .gen true))
/-- STP (R283). -/
def execStp (x : MForm) : State → Host.Outcome State Fault Refusal := runIop 0x185 (.m x) (afterOverflow (storeUniformBody true))
/-- LDU (R283). -/
def execLdu (x : MForm) : State → Host.Outcome State Fault Refusal := runIop 0x186 (.m x) (afterOverflow (loadUniformBody .gen false))
/-- STU (R283). -/
def execStu (x : MForm) : State → Host.Outcome State Fault Refusal := runIop 0x187 (.m x) (afterOverflow (storeUniformBody false))
/-- GATH (R279). -/
def execGath (x : MForm) : State → Host.Outcome State Fault Refusal := runIop 0x188 (.m x) (afterOverflow gathBody)
/-- SCAT (R279). -/
def execScat (x : MForm) : State → Host.Outcome State Fault Refusal := runIop 0x189 (.m x) (afterOverflow scatBody)
/-- LDNF (R282). -/
def execLdnf (x : MForm) : State → Host.Outcome State Fault Refusal := runIop 0x18A (.m x) (afterOverflow loadNoFaultBody)
/-- CLD (R284). -/
def execCld (x : MForm) : State → Host.Outcome State Fault Refusal := runIop 0x190 (.m x) (loadBody .con)
/-- CLDU (R284). -/
def execCldu (x : MForm) : State → Host.Outcome State Fault Refusal := runIop 0x191 (.m x) (loadUniformBody .con false)
/-- SMPL (R285). -/
def execSmpl (x : MForm) : State → Host.Outcome State Fault Refusal := runIop 0x192 (.m x) sampleBody
/-- PREF (R286). -/
def execPref (x : MForm) : State → Host.Outcome State Fault Refusal := runIop 0x193 (.m x) (prefBody false)
/-- PREFU (R286). -/
def execPrefu (x : MForm) : State → Host.Outcome State Fault Refusal := runIop 0x194 (.m x) (prefBody true)
/-- CWB (R286). -/
def execCwb (x : MForm) : State → Host.Outcome State Fault Refusal := runIop 0x195 (.m x) cwbBody
/-- CINV (R286). -/
def execCinv (x : RForm) : State → Host.Outcome State Fault Refusal := runIop 0x196 (.r x) cinvBody

end Sys2Proof.Machine
end

