-- ==== Sys2Proof/Machine/NearStore.lean ====
section
/-!
DEFINITION. The near-store instructions with their full and empty bits (R287, R288, 08_memory.md).
-/

namespace Sys2Proof.Machine

/-- A byte of a near-store allocation; nothing written reads as zero (R287). -/
def Workgroup.nearByte (g : Workgroup) (a : Nat) : Byte := g.near.get 0 a

/-- Bytes of a near-store allocation. -/
def Workgroup.nearBytes (g : Workgroup) (a n : Nat) : List Byte := (List.range n).map fun i => g.nearByte (a + i)

/-- Writes bytes of a near-store allocation. -/
def Workgroup.setNear (g : Workgroup) (a : Nat) (bs : List Byte) : Workgroup :=
  { g with near := ((List.range bs.length).zip bs).foldl (fun m x => m.put 0 (a + x.1) x.2) g.near }

/-- Sets the full/empty bit of a granule. -/
def Workgroup.setFullBit (g : Workgroup) (granule : Nat) (full : Bool) : Workgroup :=
  { g with full := if full then NSet.insert g.full granule else NSet.erase g.full granule }

/-- A record of a transaction barrier is live at this offset (R313). -/
def Workgroup.liveTb (g : Workgroup) (off : Nat) : Bool := g.tbs.any (·.ofs == off)

/-- A granule belongs to a live record (R313). -/
def Workgroup.tbGranule (g : Workgroup) (granule : Nat) : Bool :=
  g.tbs.any fun t => t.ofs / 16 == granule || t.ofs / 16 + 1 == granule

/-- Whether an operation writes data or a bit as a store does. -/
def NearOp.writes : NearOp → Bool
  | .write | .writeFull | .writeEmpty | .setEmpty | .setFull => true
  | .read | .readFull | .readEmpty => false

/-- Whether a granule is in the state that a step needs. -/
def NearOp.ready (op : NearOp) (full : Bool) : Bool :=
  match op with
  | .readFull | .readEmpty => full
  | .writeEmpty => !full
  | _ => true

/-- One granule's step, with every element that names it (R288): the new allocation and what the lanes read. -/
def granuleStep (op : NearOp) (granule : Nat) (es : List NearElem) (g : Workgroup) : Workgroup × List (Nat × List Byte) :=
  let got := es.map fun e => (e.lane, g.nearBytes e.off e.size)
  let put (g : Workgroup) : Workgroup := es.foldl (fun g e => g.setNear e.off e.data) g
  match op with
  | .read | .readFull => (g, got)
  | .readEmpty => (g.setFullBit granule false, got)
  | .write => (put g, [])
  | .writeFull | .writeEmpty => ((put g).setFullBit granule true, [])
  | .setEmpty => (g.setFullBit granule false, [])
  | .setFull => (g.setFullBit granule true, [])

/-- The granules of elements, in rising order. -/
def granulesOf (es : List NearElem) : List Nat := NSet.insertAll [] (es.map fun e => e.off / 16)

/-- Some element of an operation that writes names a granule of a live record, so that the operation is discarded (R313). -/
def tbStopped (op : NearOp) (g : Workgroup) (es : List NearElem) : Bool := op.writes && es.any fun e => g.tbGranule (e.off / 16)

/-- The step of one granule when it is ready and belongs to no live record that it would write: the state, the elements left, and what has
been read. -/
def stepGranule (s : State) (wg : Nat) (op : NearOp) (granule : Nat) (todo : List NearElem) (got : List (Nat × List Byte)) :
    State × List NearElem × List (Nat × List Byte) :=
  match s.wg? wg with
  | none => (s, todo, got)
  | some g =>
    if !op.ready (g.full.contains granule) || (op.writes && g.tbGranule granule) then (s, todo, got)
    else
      let (g', r) := granuleStep op granule (todo.filter fun e => e.off / 16 == granule) g
      ({ s with wgs := s.wgs.insert wg g' }, todo.filter fun e => e.off / 16 != granule, got ++ r)

/-- The checks of R264 and R287 and of R313, in order. -/
def nearFault (op : NearOp) (g : Workgroup) (es : List NearElem) : Option (FaultCode × Word64) :=
  let info (e : NearElem) := BitVec.ofNat 64 e.off
  match es.find? fun e => e.off % e.size != 0 with
  | some e => some (.align, info e)
  | none =>
    match es.find? fun e => decide (g.nearSize ≤ e.off) with
    | some e => some (.nsbound, info e)
    | none => if tbStopped op g es then some (.tbstate, 5) else none

/-- The elements of a near-store instruction. -/
def Ctx.nearElems (c : Ctx) (uniform : Bool) (op : NearOp) : List NearElem :=
  (c.elems uniform).map fun e =>
    { lane := e.lane, off := e.va, size := c.esize
      data := if op.writes then leBytes c.esize (if uniform then c.uD else c.oldD e.lane).toNat else [] }

/-- The register writes of a near-store load land when its last granule has taken its step. -/
def nearLand (uniform : Bool) (c : Ctx) (s : State) (got : List (Nat × List Byte)) : State :=
  let v (l : Nat) : Word64 := extended c.ty (laneValue [] got l)
  if uniform then writeUD s c (v c.lane0)
  else writeVec s c (c.f.km.getLsbD 3) c.f.d.toNat c.eslots (maskOf fun l => got.any (·.1 == l)) v

/-- A near-store instruction (R288): the checks; for an acquire the path's earlier reads; for a write what a release fence of the path
has published (R302), and for a release the publication of its own, which must have performed; then each granule's step as soon as it is
ready; and for an acquire the refresh. A write that waits while one of its granules becomes part of a live record is discarded (R313). -/
def nearBody (uniform : Bool) (op : NearOp) (c : Ctx) (s : State) : Res :=
  let es := c.nearElems uniform op
  let acquire := op == .readFull || op == .readEmpty
  let release := op == .writeFull || op == .writeEmpty
  let core := c.warp.core
  let run (g : Workgroup) (s : State) (todo : List NearElem) (got : List (Nat × List Byte)) : Res :=
    if tbStopped op g todo then .trap .tbstate 5
    else
      let (s, todo, got) := (granulesOf todo).foldl
        (fun (acc : State × List NearElem × List (Nat × List Byte)) n => stepGranule acc.1 c.warp.wg op n acc.2.1 acc.2.2)
        (s, todo, got)
      match todo with
      | [] =>
        let s := if op.writes then s else nearLand uniform c s got
        .done (if acquire then refresh s core .clus else s)
      | e :: more => .wait s (.granules op (e :: more) got)
  match es, s.wg? c.warp.wg with
  | [], _ => .done s
  | _, none => .done s
  | _, some g =>
    match c.path.wait with
    | some (.granules _ todo got) => run g s todo got
    | some (.writes wids _) =>
      if s.held.any (fun h => wids.contains h.wid) then .wait s (.writes wids []) else run g s es []
    | _ =>
      match nearFault op g es with
      | some (code, info) => .trap code info
      | none =>
        if acquire && !(pendingReads s c.w c.path.lmask).isEmpty then .wait s (.reads (pendingReads s c.w c.path.lmask))
        else
          let s := if release then boundary s core .clus else s
          match (if op.writes then c.path.after.filter fun w => s.held.any (·.wid == w) else [])
              ++ if release then publishedWids s core else [] with
          | [] => run g s es []
          | w :: more => .wait s (.writes (w :: more) [])

/-- The operation of a load form: plain, `.fw`, `.fwc`. -/
def Ctx.nearLoadOp (c : Ctx) : NearOp := match c.qa with | 0 => .read | 1 => .readFull | _ => .readEmpty
/-- The operation of a store form: plain, `.sf`, `.we`. -/
def Ctx.nearStoreOp (c : Ctx) : NearOp := match c.qa with | 0 => .write | 1 => .writeFull | _ => .writeEmpty

/-- NLD (R288). -/
def execNld (x : MForm) : State → Host.Outcome State Fault Refusal := runIop 0x18B (.m x) fun c => nearBody false c.nearLoadOp c
/-- NST (R288). -/
def execNst (x : MForm) : State → Host.Outcome State Fault Refusal := runIop 0x18C (.m x) fun c => nearBody false c.nearStoreOp c
/-- NLDU (R288). -/
def execNldu (x : MForm) : State → Host.Outcome State Fault Refusal := runIop 0x18D (.m x) fun c => nearBody true c.nearLoadOp c
/-- NSTU (R288). -/
def execNstu (x : MForm) : State → Host.Outcome State Fault Refusal := runIop 0x18E (.m x) fun c => nearBody true c.nearStoreOp c
/-- NSETF (R288). -/
def execNsetf (x : MForm) : State → Host.Outcome State Fault Refusal :=
  runIop 0x18F (.m x) fun c => nearBody false (if c.qa = 0 then .setEmpty else .setFull) c

end Sys2Proof.Machine
end

