-- ==== Sys2Proof/Machine/Ordering.lean ====
section
/-!
DEFINITION. Phases, fences, strong accesses and atomics (R300-R304, R307-R309, 09_ordering.md).
-/

namespace Sys2Proof.Machine

/-- The scope that an instruction names, in Q of format R or SC of format M. -/
def Ctx.scope (c : Ctx) : Scope :=
  (Scope.ofCode (match c.f with | .m x => x.sc.toNat | _ => c.q)).getD .pod

/-- Whether writes have performed and reads have returned. -/
def allDone (s : State) (wids rids : List Nat) : Bool :=
  !(s.held.any fun h => wids.contains h.wid) && !(s.inflight.any fun r => rids.contains r.rid)

/-- Goes on once the earlier reads of the path have returned (R300). -/
def afterReads (c : Ctx) (s : State) (f : Unit → Res) : Res :=
  match pendingReads s c.w c.path.lmask with
  | [] => f ()
  | r :: more => .wait s (.reads (r :: more))

/-- The phase boundary and the refresh of one event, both at once (R298, R300). -/
def publishAndRefresh (c : Ctx) (s : State) : State := refresh (boundary s c.warp.core c.scope) c.warp.core c.scope

/-- Later writes of the path perform after what its core has published (R302). -/
def holdLater (c : Ctx) (s : State) : State :=
  s.modPath c.w c.p fun q => { q with after := NSet.insertAll q.after (publishedWids s c.warp.core) }

/-- What `FENCE.sc` waits for before its refresh (R302): it publishes, then every write it publishes and every earlier access of the
path must have performed; `f` goes on after the refresh. -/
def seqCst (c : Ctx) (s : State) (f : State → Res) : Res :=
  let core := c.warp.core
  match c.path.wait with
  | some (.writes wids rids) => if allDone s wids rids then f (refresh s core c.scope) else .wait s (.writes wids rids)
  | _ => afterReads c s fun _ =>
    let s := boundary s core c.scope
    match publishedWids s core ++ strongWrites s c.w c.path.lmask with
    | [] => f (refresh s core c.scope)
    | w :: more => .wait s (.writes (w :: more) [])

/-- A release (R300): publishes at a scope, waits until what the core has published has performed, and then goes on. -/
def releaseThen (c : Ctx) (s : State) (sc : Scope) (f : State → Res) : Res :=
  match c.path.wait with
  | some (.writes wids rids) => if allDone s wids rids then f s else .wait s (.writes wids rids)
  | _ =>
    let s := boundary s c.warp.core sc
    match publishedWids s c.warp.core with
    | [] => f s
    | w :: more => .wait s (.writes (w :: more) [])

/-- PHASE (R300). -/
def phaseBody (c : Ctx) (s : State) : Res := oncePerPath c s fun _ => afterReads c s fun _ => .done (publishAndRefresh c s)

/-- FENCE (R300, R302): sc, acq, rel, acqrel. -/
def fenceBody (c : Ctx) (s : State) : Res :=
  oncePerPath c s fun _ =>
    match c.f.fc.toNat with
    | 0 => seqCst c s fun t => .done t
    | 1 => afterReads c s fun _ => .done (refresh s c.warp.core c.scope)
    | 2 => .done (holdLater c (boundary s c.warp.core c.scope))
    | _ => afterReads c s fun _ => .done (holdLater c (publishAndRefresh c s))

/-- The access path of a code (R306). -/
def Chan.ofCode (n : Nat) : Chan := match n with | 0 => .gen | 1 => .mat | 2 => .cpy | _ => .con

/-- The atomics in flight that satisfy a test: writes that have issued and not performed. -/
def atomicsOf (s : State) (f : Inflight → Bool) : List Nat :=
  (s.inflight.filter fun r => f r && (match r.op with | .atomic .. => true | _ => false)).map (·.rid)

/-- The asynchronous operations of a warp that have written and completed (R304). -/
def completedOps (s : State) (w : Nat) : List Nat :=
  let ids := (s.performed.filter fun x => x.warp == w && (x.chan == .mat || x.chan == .cpy)).map (·.seq)
  (NSet.insertAll [] ids).filter fun i => !(s.eng.queue.any (·.id == i)) && !(s.eng.copies.any (·.id == i))

/-- XFENCE (R304): for the path GEN it waits for every write of the warp, atomics of its other paths among them. -/
def xfenceBody (c : Ctx) (s : State) : Res :=
  oncePerPath c s fun _ =>
    let p := Chan.ofCode (c.f.fc.toNat % 16)
    let q := Chan.ofCode (c.f.fc.toNat / 16)
    let core := c.warp.core
    let raise (s : State) : State :=
      let s := refresh s core c.scope
      raiseBound s (boundKey core q)
        (s.bounds.get [] (boundKey core p) ++ [.warpWrites c.w p s.performed.length] ++ (completedOps s c.w).map .op)
    match c.path.wait with
    | some (.writes wids rids) => if allDone s wids rids then .done (raise s) else .wait s (.writes wids rids)
    | _ => afterReads c s fun _ =>
      let s := boundary s core (if p = .gen ∧ c.scope = .core then .quad else c.scope)
      let wids := if p = .gen then (s.held.filter fun h => h.warp == c.w).map (·.wid) else []
      let rids := if p = .gen then atomicsOf s fun r => r.warp == c.w else []
      if wids.isEmpty && rids.isEmpty then .done (raise s) else .wait s (.writes wids rids)

/-- FWAIT (R303). -/
def fwaitBody (c : Ctx) (s : State) : Res :=
  oncePerPath c s fun _ =>
    let strongReads := atomicsOf s fun r => r.warp == c.w && (r.lanes &&& c.path.lmask) != 0
    let (wids, rids) := match c.path.wait with
      | some (.writes wids rids) => (wids, rids)
      | _ => (publishedWids s c.warp.core ++ strongWrites s c.w c.path.lmask, strongReads)
    if allDone s wids rids then .done s else .wait s (.writes wids rids)

/-! ### Strong accesses (R301, R309) -/

/-- The lines of elements. -/
def accessLines (es : List Access2) (n : Nat) : List Nat := NSet.insertAll [] (es.flatMap fun e => [e.pa / 64, (e.pa + n - 1) / 64])

/-- Published stores of a core to lines that have not performed. -/
def publishedOn (s : State) (core : Nat) (lines : List Nat) : List Nat :=
  (s.held.filter fun h => h.core == core && h.moving && !h.strong && h.cells.any fun x => lines.contains (x.1 / 64)).map (·.wid)

/-- The publication that opens a strong access, and the writes that it then follows (R301). -/
def openStrong (c : Ctx) (s : State) (es : List Access2) : State × List Nat :=
  let lines := accessLines es c.esize
  let s := publishLines s c.warp.core c.scope lines
  (s, publishedOn s c.warp.core lines)

/-- Adds the writes that the read just issued must follow. -/
def lastAfter (s : State) (xs : List Nat) (es : List Access2) : State :=
  { s with inflight := s.inflight.map fun r =>
      if r.rid + 1 = s.nextId then
        { r with after := NSet.insertAll r.after xs
                 elems := r.elems.map fun e => { e with exec := es.any fun x => x.lane == e.lane && x.exec } }
      else r }

/-- LDS (R309): the refresh of an acquire follows every earlier read of the path and its own (R300). -/
def ldsBody (c : Ctx) (s : State) : Res :=
  match c.path.wait with
  | some (.loaded rid) =>
    if (pendingReads s c.w c.path.lmask).isEmpty then .done (refresh s c.warp.core c.scope) else .wait s (.loaded rid)
  | _ =>
    let es := c.elems false
    match es, eaFault es c.esize with
    | [], _ => .done s
    | _, some (code, info) => .trap code info
    | _, none =>
      translateAll s c .read false es fun xs =>
        match poisonedElem s c.esize xs with
        | some e => .trap .poison (BitVec.ofNat 64 e.va)
        | none =>
          let load (s : State) : Res :=
            let (s, after) := openStrong c s xs
            let s := issueRead s c (.strong c.scope (c.qa != 0)) c.esize (lanesMask xs) (xs.map fun x => (0, x))
              (.vector (c.slot c.f.d.toNat) c.eslots c.ty) (c.destRegs c.eslots)
            let s := lastAfter s after []
            if c.qa = 0 then .done s else .wait s (.loaded (s.nextId - 1))
          if c.qa = 2 then seqCst c s load else load s

/-- The elements of a strong store issue in lane order; one of a higher lane follows those of lower lanes to its bytes (R266, R301). -/
def holdStrong (c : Ctx) (s : State) (after : List Nat) (xs : List Access2) : State :=
  (xs.foldl (fun (acc : State × List (Nat × Nat)) x =>
    let s := acc.1
    let h : Held :=
      { wid := s.nextId, core := c.warp.core, warp := c.w, wg := c.warp.wg, lanes := 1#32 <<< x.lane, path := c.path.lmask, seq := s.seq
        strong := true, scope := some c.scope, va := x.va, base := x.pa, size := c.esize, cells := cellsAt x.pa (c.storeBytes x.lane)
        exec := x.execPage c, after := NSet.insertAll after ((acc.2.filter (·.2 == x.pa)).map (·.1)) }
    ({ s with nextId := s.nextId + 1, held := s.held ++ [h] }, acc.2 ++ [(s.nextId, x.pa)])) (s, [])).1

/-- STS (R309): `.rel` publishes, and the store follows what has been published. -/
def stsBody (c : Ctx) (s : State) : Res :=
  let es := c.elems false
  match es, eaFault es c.esize with
  | [], _ => .done s
  | _, some (code, info) => .trap code info
  | _, none =>
    translateAll s c .write false es fun xs =>
      let store (s : State) : Res :=
        let core := c.warp.core
        let (s, line) := openStrong c (if c.qa = 0 then s else boundary s core c.scope) xs
        let after := NSet.insertAll c.path.after (line ++ if c.qa = 0 then [] else publishedWids s core)
        .done (holdStrong c (nextSeq s) after xs)
      if c.qa = 2 then seqCst c s store else store s

/-! ### Atomics (R308) -/

/-- The operation of an atomic, QA:QB. -/
def Ctx.atomOp (c : Ctx) : Nat := 2 * c.qa + bit c.qb

/-- Float atomics round to nearest even and raise no flag. -/
def atomEnv : FEnv := { mode := 1, daz := false, ftz := false, satn := false, nanp := false }

/-- Op(old, v) of R308, on patterns of the type. -/
def atomValue (op : Nat) (t : ElemType) (old v : Word64) : Word64 :=
  let w := t.bits
  let low (x : Word64) : Nat := x.toNat % 2 ^ w
  let num (x : Word64) : Int := if t.signed && (low x).testBit (w - 1) then (low x : Int) - 2 ^ w else low x
  let fl (f : FEnv → ElemType → FNum → FNum → FLane → Nat × FLane) : Word64 :=
    BitVec.ofNat 64 (f atomEnv t (readFloat t false (low old)) (readFloat t false (low v)) {}).1
  match op with
  | 0 => if t.isFloat then fl addValue else old + v
  | 1 => if t.isFloat then fl (minMaxValue false) else if num old ≤ num v then old else v
  | 2 => if t.isFloat then fl (minMaxValue true) else if num v ≤ num old then old else v
  | 3 => old &&& v
  | 4 => old ||| v
  | 5 => old ^^^ v
  | 6 => v
  | _ => if low v ≤ low old then 0 else old + 1

/-- An atomic issues (R308): its elements perform one by one, in lane order. -/
def atomicBody (uniform cas red : Bool) (c : Ctx) (s : State) : Res :=
  let es := c.elems uniform
  match es, eaFault es c.esize with
  | [], _ => .done s
  | _, some (code, info) => .trap code info
  | _, none =>
    translateAll s c .write false es fun xs =>
      match poisonedElem s c.esize xs with
      | some e => .trap .poison (BitVec.ofNat 64 e.va)
      | none =>
        let (s, after) := openStrong c s xs
        let d := c.f.d.toNat
        let new (l : Nat) : Word64 :=
          let row (i : Nat) := (c.warp.regs.row (c.slot (d + i))).lane l
          if !cas then 0 else if c.eslots = 2 then row 3 ++ row 2 else (row 1).zeroExtend 64
        let old (l : Nat) : Word64 :=
          if uniform then c.uD
          else if c.eslots = 2 then (c.warp.regs.row (c.slot (d + 1))).lane l ++ (c.warp.regs.row (c.slot d)).lane l
          else ((c.warp.regs.row (c.slot d)).lane l).zeroExtend 64
        let vals := xs.map fun x => (x.lane, old x.lane, new x.lane)
        let dest : Dest := if red then .none else if uniform then .uniform d c.ty else .vector (c.slot d) c.eslots c.ty
        let busy := if red then [] else if uniform then [.uni d] else c.destRegs c.eslots
        let s := issueRead s c (.atomic c.atomOp cas c.ty c.scope vals) c.esize
          (if uniform then c.path.lmask else lanesMask xs) (xs.map fun x => (0, x)) dest busy
        .done (lastAfter s after xs)

/-- PHASE (R300). -/
def execPhase (x : RForm) : State → Host.Outcome State Fault Refusal := runIop 0x1E0 (.r x) phaseBody
/-- FENCE (R302). -/
def execFence (x : RForm) : State → Host.Outcome State Fault Refusal := runIop 0x1E1 (.r x) fenceBody
/-- XFENCE (R304). -/
def execXfence (x : RForm) : State → Host.Outcome State Fault Refusal := runIop 0x1E2 (.r x) xfenceBody
/-- FWAIT (R303). -/
def execFwait (x : RForm) : State → Host.Outcome State Fault Refusal := runIop 0x1E3 (.r x) fwaitBody
/-- LDS (R309). -/
def execLds (x : MForm) : State → Host.Outcome State Fault Refusal := runIop 0x1E4 (.m x) ldsBody
/-- STS (R309). -/
def execSts (x : MForm) : State → Host.Outcome State Fault Refusal := runIop 0x1E5 (.m x) stsBody
/-- ATOM (R308). -/
def execAtom (x : MForm) : State → Host.Outcome State Fault Refusal := runIop 0x1E6 (.m x) (atomicBody false false false)
/-- ATOMU (R308). -/
def execAtomu (x : MForm) : State → Host.Outcome State Fault Refusal := runIop 0x1E7 (.m x) (atomicBody true false false)
/-- CAS (R308). -/
def execCas (x : MForm) : State → Host.Outcome State Fault Refusal := runIop 0x1E8 (.m x) (atomicBody false true false)
/-- RED (R308). -/
def execRed (x : MForm) : State → Host.Outcome State Fault Refusal := runIop 0x1E9 (.m x) (atomicBody false false true)

end Sys2Proof.Machine
end

