-- ==== Sys2Proof/Machine/Tensor.lean ====
section
/-!
DEFINITION. Tensor shape records (R230, R231, 07_matrix.md): their fields, the checks of TLD, and element addresses.
-/

namespace Sys2Proof.Machine

/-- A field of a record. -/
def tfield (t : BitVec 512) (lo n : Nat) : Nat := (t.extractLsb' lo n).toNat

/-- The fields of R230. -/
def tBase (t : BitVec 512) : Nat := tfield t 0 57
def tStride (t : BitVec 512) : Nat := tfield t 64 40
def tRows (t : BitVec 512) : Nat := tfield t 128 32
def tCols (t : BitVec 512) : Nat := tfield t 160 32
def tBrow (t : BitVec 512) : Nat := tfield t 192 32
def tBcol (t : BitVec 512) : Nat := tfield t 224 32
def tBoxr (t : BitVec 512) : Nat := tfield t 256 16
def tBoxc (t : BitVec 512) : Nat := tfield t 272 16
def tFmt (t : BitVec 512) : ElemType := ElemType.ofCode (tfield t 288 4)
def tOvl (t : BitVec 512) : Bool := t.getLsbD 292
def tStatus (t : BitVec 512) : Nat := tfield t 504 8

/-- The bytes of `n` elements of a type. -/
def elemBytes (t : ElemType) (n : Nat) : Nat := n * t.bits / 8

/-- A 4-bit element type. -/
def fourBit (t : ElemType) : Bool := t == .e2m1 || t == .cb4

/-- Replaces a field. -/
def tput (t : BitVec 512) (lo n x : Nat) : BitVec 512 :=
  (t &&& ~~~(BitVec.ofNat 512 ((2 ^ n - 1) * 2 ^ lo))) ||| BitVec.ofNat 512 (x % 2 ^ n * 2 ^ lo)

/-- Writes STATUS. -/
def tputStatus (t : BitVec 512) (x : Nat) : BitVec 512 := tput t 504 8 x

/-- Check 6 of R231: the box lies within the extents. -/
def tensorInside (t : BitVec 512) : Bool :=
  decide (tBrow t + tBoxr t ≤ tRows t) && decide (tBcol t + tBoxc t ≤ tCols t)
    && !(fourBit (tFmt t) && (tBcol t % 2 != 0 || tBoxc t % 2 != 0))

/-- The first check of R231 that fails; 0 when none does. -/
def tensorCheck (t : BitVec 512) : Nat :=
  let row := elemBytes (tFmt t) (tCols t)
  let span := (tRows t - 1) * tStride t + row
  if tBase t % 16 != 0 then 1
  else if tRows t == 0 || tCols t == 0 || tBoxr t == 0 || tBoxc t == 0 || (fourBit (tFmt t) && tCols t % 2 != 0) then 2
  else if tfield t 293 211 != 0 || tfield t 104 24 != 0 || tfield t 57 7 != 0 then 3
  else if tStride t % 16 != 0 || (!tOvl t && decide (tStride t < row)) then 4
  else if tBase t / 2 ^ 30 != (tBase t + span - 1) / 2 ^ 30 then 5
  else if !tensorInside t then 6
  else 0

/-- The record that TLD keeps (R231, R233). -/
def tensorLoaded (t : BitVec 512) : BitVec 512 := tputStatus t (0x80 + tensorCheck t)

/-- The byte address of element (i, k) of the box (R230). -/
def tAddr (t : BitVec 512) (i k : Nat) : Nat := tBase t + (tBrow t + i) * tStride t + elemBytes (tFmt t) (tBcol t + k)

/-- The fault of a record that is not valid (R232). -/
def tensorFault (t : BitVec 512) : Option Nat :=
  let s := tStatus t
  if s = 0 then some 0 else if s = 0x80 then none else some (s - 0x80)

end Sys2Proof.Machine
end

