-- ==== Sys2Proof/Machine/MemoryEvents.lean ====
section
/-!
DEFINITION. The steps of the memory system: reads return, writes perform, walks end, page requests are answered, near-store
granules take their step, and stores to executable pages perform (R111, R273, R277, R288, R297-R301, R308).
-/

namespace Sys2Proof.Machine

/-! ### Reads return -/

/-- Whether the next element of a strong read or an atomic may perform: what it follows has performed (R301, R302). -/
def readEnabled (s : State) (r : Inflight) (e : Elem) : Bool :=
  let olderWrites : Bool := r.after.all fun w => s.held.all fun h => h.wid != w
  match r.op with
  | .weak _ => true
  | .strong .. | .atomic .. => olderWrites && !olderStrong s r.warp r.path r.seq e.pa r.size

/-- SMPL's value (R285): the product and the sum are exact before one rounding. -/
def sampleValue (env : FEnv) (t : ElemType) (t0 t1 f : Nat) (st : FLane) : Nat × FLane :=
  let a := readFloat t env.daz t0
  let b := readFloat t env.daz t1
  let w := readFloat .f32 env.daz f
  let zero : FNum := .fin ⟨false, 0, 0⟩
  let one : FNum := .fin ⟨false, 1, 0⟩
  let w' := if w.isNan then w else if w.lt zero then zero else if one.lt w then one else w
  nanOr env .f32 [w, a, b] st fun st =>
    writeFloat env .f32 false false [w, a, b]
      (addOption env.down (some a) ((b.add env.down a.negate).bind fun d => w'.mul d)) st

/-- The rounding environment of GMODE for an operation that rounds to nearest even. -/
def nearestEnv (g : Word64) : FEnv :=
  { mode := 1, daz := g.getLsbD 6, ftz := g.getLsbD 7, satn := g.getLsbD 8, nanp := g.getLsbD 9 }

/-- The lanes of elements. -/
def elemLanes (es : List Elem) : BitVec 32 := maskOf fun l => es.any (·.lane == l)

/-- The value of a lane's element at a register offset. -/
def elemValue (es : List Elem) (idx l : Nat) : Word64 :=
  (((es.find? fun e => e.lane == l && e.idx == idx).bind (·.val)).getD 0)

/-- The destination of a read that has returned is written (R265). -/
def landRead (x : Warp) (r : Inflight) : Warp :=
  let mask := elemLanes r.elems
  let put (x : Warp) (slot n idx : Nat) (mask : BitVec 32) : Warp :=
    let x := x.setRow slot mask (Row.ofFn fun l => (elemValue r.elems idx l).truncate 32)
    if n = 2 then x.setRow (slot + 1) mask (Row.ofFn fun l => (elemValue r.elems idx l).extractLsb' 32 32) else x
  match r.dest with
  | .none => x
  | .uniform n _ => { x with regs := x.regs.setUni n (((r.elems.head?).bind (·.val)).getD 0) }
  | .predicate n => { x with regs := x.regs.setPred n r.lanes ((((r.elems.head?).bind (·.val)).getD 0).truncate 32) }
  | .tensor n => { x with regs := { x.regs with
      t := x.regs.t.put 0 n (tensorLoaded (r.elems.foldr (fun e t => (t <<< 64) ||| (e.val.getD 0).zeroExtend 512) 0)) } }
  | .vector slot n _ =>
    (NSet.insertAll [] (r.elems.map (·.idx))).foldl
      (fun x idx => put x (slot + idx) n idx (maskOf fun l => r.elems.any fun e => e.lane == l && e.idx == idx)) x
  | .noFault slot n _ failed p =>
    let x := put x slot n 0 (mask ||| failed)
    { x with regs := x.regs.setPred p (mask ||| failed) mask }
  | .sample slot t f g =>
    let one (l : Nat) : Nat × FLane :=
      sampleValue (nearestEnv g) t ((elemValue r.elems 0 l).toNat % 2 ^ t.bits) ((elemValue r.elems 1 l).toNat % 2 ^ t.bits)
        (f.lane l).toNat {}
    let x := x.setRow slot mask (Row.ofFn fun l => BitVec.ofNat 32 (one l).1)
    let fl := (lanesOf mask).foldl (fun (a : Exc) l => a ||| (one l).2.fl) 0
    { x with regs := x.regs.mergeFlags r.rid fl }

/-- The type under which a destination extends an element. -/
def Dest.type : Dest → ElemType
  | .vector _ _ t | .uniform _ t | .noFault _ _ t _ _ => t
  | _ => .z64

/-- The bound of a core rises to the latest performed write of each byte of an element (R301). -/
def raiseToLatest (s : State) (core a n : Nat) : State :=
  raiseBound s (boundKey core .gen) ((List.range n).map fun i => .byte (a + i) (latestPos s (a + i) fun _ => true))

/-- An element's bytes are fixed: a weak read takes one of the writes that R299 allows; a strong one the latest, and raises the
bound to it; an atomic reads, computes and writes in one step (R308). -/
def performElem (s : State) (r : Inflight) (e : Elem) : State × Elem :=
  match r.op with
  | .weak _ =>
    let (s, bs) := readBytes s (fun w => !laterOwn r w) e.pa e.src
    (s, { e with val := some (extended r.dest.type bs) })
  | .strong _ _ =>
    (raiseToLatest s r.core e.pa r.size, { e with val := some (extended r.dest.type (s.bytes e.pa r.size)) })
  | .atomic op cas t sc vals =>
    let bs := s.bytes e.pa r.size
    let old := BitVec.ofNat 64 (leNat bs)
    let (v, new) := ((vals.find? fun x => x.1 == e.lane).map (·.2)).getD (0, 0)
    let low (x : Word64) : Nat := x.toNat % 2 ^ t.bits
    let out := if cas then (if low old = low v then some new else none) else some (atomValue op t old v)
    let s := match out with
      | none => raiseToLatest s r.core e.pa r.size
      | some x =>
        let s := match e.exec, s.warp? r.warp with
          | true, some w => clearExec s w.vf w.asid e.va
          | _, _ => s
        let s := { s with nextId := s.nextId + 1 }
        let s := perform s s.nextId (some r.core) r.warp r.lanes r.seq .gen sc e.pa r.size (cellsAt e.pa (leBytes r.size x.toNat))
        raiseToLatest s r.core e.pa r.size
    (s, { e with val := some (extended t bs) })

/-- The first element of a read that has not performed. -/
def Inflight.next (r : Inflight) : Option Elem := r.elems.find? (·.val.isNone)

/-- A read whose elements have all performed returns (R299, R301). A dormant warp's slots take the values in its record (R346); where
the record cannot be read, the read stays until the context fault is resolved. -/
def finishRead (s : State) (r : Inflight) : State :=
  match updateSlots s r.warp (slotsOf r.busy) (landRead · r) with
  | .ok s => { s with inflight := s.inflight.filter (·.rid != r.rid) }
  | .error s => { s with inflight := s.inflight.map fun x => if x.rid == r.rid then r else x }

/-- One move of a read in flight: a weak read returns whole; a strong read or an atomic performs one element, and returns with the
last. -/
def readReturn (rid : Nat) (s : State) : Option State :=
  match s.inflight.find? (·.rid == rid) with
  | none => none
  | some r =>
    match r.op, r.next with
    | _, none => if (s.warp? r.warp).any (·.stuck) then none else some (finishRead s r)
    | .weak _, _ =>
      let (s, es) := r.elems.foldl (fun (acc : State × List Elem) e =>
        let (s, e) := performElem acc.1 r e
        (s, acc.2 ++ [e])) (s, [])
      some (finishRead s { r with elems := es })
    | _, some e =>
      if !readEnabled s r e then none
      else
        let (s, e') := performElem s r e
        let r' := { r with elems := r.elems.map fun (x : Elem) => if x.lane == e.lane && x.idx == e.idx then e' else x }
        match r'.next with
        | none => some (finishRead s r')
        | some _ => some { s with inflight := s.inflight.map fun (x : Inflight) => if x.rid == rid then r' else x }

/-! ### Writes perform -/

/-- A store performs and is held no longer. -/
def performHeld (s : State) (h : Held) : State :=
  let s := { s with held := s.held.filter (·.wid != h.wid) }
  let s := perform s h.wid (some h.core) h.warp h.lanes h.seq h.chan (h.scope.getD .pod) h.base h.size h.cells
  { s with warps := s.warps.map fun (i, x) => (i, { x with regs := { x.regs with
      paths := x.regs.paths.map fun (j, q) => (j, { q with after := q.after.filter (· != h.wid) }) } }) }

/-- WRITE_PERFORM (R297, R298): a published or strong store reaches its point of coherence. -/
def writePerform (wid : Nat) (s : State) : Option State :=
  match s.held.find? (·.wid == wid) with
  | some h => if mayPerform s h && h.exec.isNone then some (performHeld s h) else none
  | none => none

/-- EXEC_PAGE_STORE (R111): X is cleared, the page's translations and Gazetteer entries go, and the store performs. -/
def pageStoreStep (wid : Nat) (s : State) : Option State :=
  match s.held.find? (·.wid == wid) with
  | some h =>
    (match h.exec with
      | some (vf, asid, va) => if mayPerform s h then some (performHeld (clearExec s vf asid va) h) else none
      | none => none)
  | none => none

/-! ### Walks and page requests -/

/-- The non-leaf entries that a walk has used are in the cache of the cluster's walker, of 1,024 entries; the oldest leave it (R273; DESIGN
CHOICE, notes/assumptions/59.md). -/
def cacheWalk (s : State) (cluster vf : Nat) (c : Combined) : State :=
  (c.marks false).foldl (fun s (u, _) =>
    if u.e.testBit 4 || s.walkCache.any (fun w => w.cluster == cluster && w.vf == vf && w.epa == u.epa) then s
    else
      let mine := s.walkCache.filter (·.cluster == cluster)
      let old := match mine with
        | v :: _ => if mine.length < 1024 then s.walkCache else s.walkCache.filter (· != v)
        | [] => s.walkCache
      { s with walkCache := old ++ [{ cluster := cluster, vf := vf, epa := u.epa, e := u.e ||| 0x100 }] }) s

/-- WALK_COMPLETE (R272, R273): the translation enters both TLBs, or the path learns of the failure. -/
def walkDone (k : Nat) (s : State) : Option State :=
  match s.walks.find? (·.k == k) with
  | none => none
  | some w =>
    let s := { s with walks := s.walks.filter (·.k != k) }
    let cluster := clusterOf w.core
    match combine s (some cluster) w.vf w.asid w.va w.kind false with
    | .ok c =>
      let write := w.kind == .write
      let s := cacheWalk (markUsed s c write) cluster w.vf c
      let e (h : TlbHome) := c.entry h w.vf w.asid w.va write
      let tlb := addTlb (addTlb s.tlb (e (.core w.core)) 64) (e (.cluster cluster)) 4096
      some { s with tlb := tlb }
    | .fail f =>
      some (s.modPath w.warp w.path fun q => { q with notes := q.notes ++ [{ va := w.va, kind := w.kind, fail := f }] })

/-- Whether a note asks for what a page request asks. -/
def WalkNote.asks (n : WalkNote) (r : PageRequest) : Bool :=
  match n.fail with
  | .absent st tb pg => st == r.stage2 && pg == r.page && (if tb then Access.read else n.kind) == r.kind
  | _ => false

/-- A path learns of the answer to a page request (R277): a retry forgets the failed walk, INVALID makes it final. -/
def Path.answered (q : Path) (vf : Nat) (r : PageRequest) (ok : Bool) : Path :=
  let learn (q : Path) : Path :=
    { q with notes := if ok then q.notes.filter (!·.asks r)
               else q.notes.map fun n => if n.asks r then { n with fail := .invalid } else n }
  match q.wait with
  | some (.requests v rids) =>
    if v = vf ∧ rids.contains r.rid then { learn q with wait := some (.requests v (rids.filter (· != r.rid))) } else q
  | some (.requestRoom v rids) =>
    if v = vf ∧ rids.contains r.rid then { learn q with wait := some (.requestRoom v (rids.filter (· != r.rid))) } else q
  | _ => q

/-- PRQRSP (R277): the entry is freed, and every waiting access learns of the answer. -/
def pageAnswer (vf rid : Nat) (ok : Bool) (s : State) : State :=
  match s.requests.find? fun r => r.vf == vf && r.rid == rid with
  | none => s
  | some r =>
    { s with requests := s.requests.filter fun x => !(x.vf == vf && x.rid == rid)
             warps := s.warps.map fun (i, x) => (i, { x with regs := { x.regs with
               paths := x.regs.paths.map fun (j, q) => (j, q.answered vf r ok) } }) }

/-- PROGRESSIVE_REPLAY (R279, R481): the last answer has come, and the instruction with the restart record runs again. -/
def replay (w p : Nat) (s : State) : Option State :=
  match s.cur, s.path? w p with
  | none, some q =>
    (match q.wait with
      | some (.requests _ []) =>
        if q.restarts && q.clause.isSome
            && (s.warp? w).any (fun x => x.trap.isNone && x.place.isSome && !x.arriving && !x.released) then
          some { s.modPath w p (fun q => { q with wait := none }) with cur := some { w := w, p := p } }
        else none
      | _ => none)
  | _, _ => none

/-! ### Near store -/

/-- NEARSTORE_GRANULE_STEP (R288). -/
def granuleEvent (w p granule : Nat) (s : State) : Option State :=
  match s.warp? w, s.path? w p with
  | some x, some q =>
    (match q.wait with
      | some (.granules op todo got) =>
        (match s.wg? x.wg with
          | none => none
          | some g =>
            if todo.any (fun e => e.off / 16 == granule) && op.ready (g.full.contains granule) && !(op.writes && g.tbGranule granule) then
              let (s, todo, got) := stepGranule s x.wg op granule todo got
              some (s.modPath w p fun q => { q with wait := some (.granules op todo got) })
            else none)
      | _ => none)
  | _, _ => none

/-- MEMORY_READ_RETURN (R299). -/
def execMemoryReadReturn (rid : Nat) : State → Host.Outcome State Fault Refusal :=
  runEventFlip (limited (fun s => (s.inflight.find? fun r => r.rid == rid && r.next.isSome).bind fun r => requester s r.core r.warp) (readReturn rid))
/-- WRITE_PERFORM (R297). -/
def execWritePerform (wid : Nat) : State → Host.Outcome State Fault Refusal :=
  runEvent (limited (fun s => (s.held.find? (·.wid == wid)).bind fun h => requester s h.core h.warp) (writePerform wid))
/-- EXEC_PAGE_STORE (R111). -/
def execExecPageStore (wid : Nat) : State → Host.Outcome State Fault Refusal := runEvent (pageStoreStep wid)
/-- WALK_COMPLETE (R273). -/
def execWalkComplete (k : Nat) : State → Host.Outcome State Fault Refusal :=
  runEvent (limited (fun s => (s.walks.find? (·.k == k)).map fun x => (clusterOf x.core, x.vf)) (walkDone k))
/-- PRQRSP_SUCCESS (R277): a RID with no outstanding entry is ignored. -/
def execPrqrspSuccess (vf rid : Nat) (s : State) : Host.Outcome State Fault Refusal := .next (pageAnswer vf rid true s)
/-- PRQRSP_INVALID (R277). -/
def execPrqrspInvalid (vf rid : Nat) (s : State) : Host.Outcome State Fault Refusal := .next (pageAnswer vf rid false s)
/-- PROGRESSIVE_REPLAY (R481). -/
def execProgressiveReplay (w p : Nat) : State → Host.Outcome State Fault Refusal := runEvent (replay w p)
/-- NEARSTORE_GRANULE_STEP (R288). -/
def execNearstoreGranuleStep (w p granule : Nat) : State → Host.Outcome State Fault Refusal := runEvent (granuleEvent w p granule)

end Sys2Proof.Machine
end

