-- ==== Sys2Proof/Machine/Context.lean ====
section
/-!
DEFINITION. The context and register-cache instructions (R349-R362, 11_context.md): remote register loads, pairing and exchange, and the
queries and controls of residency.
-/

namespace Sys2Proof.Machine

/-! ### Naming a warp (R351, R352) -/

/-- The warp of a workgroup-relative id in a workgroup; none once it has been released. -/
def warpIn (s : State) (wg id : Nat) : Option Nat :=
  ((s.wg? wg).bind fun g => g.warps[id]?).bind fun n => ((s.warp? n).filter fun x => !x.released).map fun _ => n

/-- The workgroup that a selector names: the issuer's, or the paired one. -/
def selectedWg (s : State) (x : Warp) (sel : Word64) : Option Nat :=
  if sel.getLsbD 6 then (s.wg? x.wg).bind (·.pair) else some x.wg

/-- Checks 2 and 3 of R352 on a selector. -/
def selected (s : State) (x : Warp) (sel : Word64) : Except (FaultCode × Word64) Nat :=
  match selectedWg s x sel with
  | none => .error (.nopair, 0)
  | some h =>
    match warpIn s h (sel.toNat % 64) with
    | some n => .ok n
    | none => .error (.peergone, sel &&& 0x7F)

/-- The workgroup of a warp while it is pre-empted and saved: what names the warp waits until it is restored (R430). -/
def savedWg (s : State) (n : Nat) : Option Nat :=
  match s.warp? n with
  | none => none
  | some x => if ((s.wg? x.wg).map (·.saved)).getD false then some x.wg else none

/-- Goes on with a warp that a selector names, once its workgroup is not saved. -/
def withPeer (s : State) (n : Nat) (f : Unit → Res) : Res :=
  match savedWg s n with
  | some h => .wait s (.restored h)
  | none => f ()

/-! ### Remote register loads (R352, R353) -/

/-- The row of a slot of a warp, from the register cache or the record; none while a context fault keeps it from being read. -/
def remoteRow (s : State) (n slot : Nat) : State × Option Row :=
  match s.warp? n with
  | none => (s, none)
  | some x =>
    match x.regs.v.find? slot with
    | some row => (s, some row)
    | none =>
      if x.fresh && x.stuck then (s, none)
      else match readSlot s x slot with
        | (s, .ok row) => (s, some row)
        | (s, .error va) => (contextFault s n va, none)

/-- Goes on with the warp that an RLD or RLDU names: one that has passed its checks is not released until the read has been served, so that a
read that has waited makes no check again unless its owner has been killed (R293, R352). -/
def withOwner (c : Ctx) (s : State) (f : Nat → Res) : Res :=
  let check (_ : Unit) : Res :=
    match selected s c.warp c.uB with
    | .error (code, info) => .trap code info
    | .ok n => withPeer s n fun _ => f n
  match c.path.wait with
  | some (.remote n _) => if (s.warp? n).isSome then f n else check ()
  | _ => check ()

/-- RLD (R352). -/
def rldBody (c : Ctx) (s : State) : Res :=
  if c.act = 0 then .done s
  else withOwner c s fun n =>
    let slot := c.uB.toNat / 2 ^ 16 % 2 ^ 16
    let cnt := if c.ty.bytes = 8 then 2 else 1
    let size := ((s.warp? n).map (·.regs.stackSize)).getD 0
    if size < slot + cnt then .trap .regbound (BitVec.ofNat 64 slot)
    else
      match (List.range cnt).find? fun i => (busyRegs s n).contains (.slot (slot + i)) with
      | some i => .wait s (.remote n (.slot (slot + i)))
      | none =>
        let (s, r0) := remoteRow s n slot
        let (s, r1) := if cnt = 2 then remoteRow s n (slot + 1) else (s, some zeroRow)
        match r0, r1 with
        | some r0, some r1 =>
          let src (l : Nat) : Nat := if c.q = 1 then l else (c.srcA l).toNat % 32
          .done (writeVec s c (c.f.km.getLsbD 3) c.f.d.toNat cnt c.act fun l => r1.lane (src l) ++ r0.lane (src l))
        | _, _ => .wait s (.remote n (.slot slot))

/-- A uniform of a warp, from its state or its record. -/
def remoteUniform (s : State) (n u : Nat) : State × Option Word64 :=
  match s.warp? n with
  | none => (s, none)
  | some x =>
    if !x.inRecord then (s, some (x.regs.uni u))
    else
      match recordRead s x (512 + 8 * u / 64 * 64) 1 with
      | (s, .ok bs) => (s, some (BitVec.ofNat 64 (numAt bs (8 * u % 64) 8)))
      | (s, .error va) => (contextFault s n va, none)

/-- RLDU (R352). -/
def rlduBody (c : Ctx) (s : State) : Res :=
  oncePerPath c s fun _ => withOwner c s fun n =>
    let u := c.uB.toNat / 2 ^ 16 % 2 ^ 16
    if 64 ≤ u then .trap .regbound (BitVec.ofNat 64 u)
    else if (busyRegs s n).contains (.uni u) then .wait s (.remote n (.uni u))
    else
      match remoteUniform s n u with
      | (s, some x) => .done (writeUD s c x)
      | (s, none) => .wait s (.remote n (.uni u))

/-! ### Pairing and exchange (R355-R357) -/

/-- The workgroup of the same grid with an id, while it runs. -/
def peerWg (s : State) (x : Warp) (id : Nat) : Option Nat :=
  (List.find? (fun (h : Nat × Workgroup) => h.2.grid == x.grid && h.2.wgid.toNat == id && !h.2.node && !h.2.done) s.wgs).map (·.1)

/-- Ends the pairing or the request of a workgroup (R355). -/
def unpair (s : State) (h : Nat) : State :=
  let s := match (s.wg? h).bind (·.pair) with
    | some p => s.modWg p fun g => if g.pair = some h then { g with pair := none } else g
    | none => s
  s.modWg h fun g => { g with pair := none, asks := none }

/-- XPAIR and its forms (R355). -/
def xpairBody (c : Ctx) (s : State) : Res :=
  oncePerPath c s fun _ =>
    let own := c.warp.wg
    if c.q = 2 then .done (writeUD (unpair s own) c 0)
    else
      match s.wg? own, peerWg s c.warp (c.uA.toNat % 2 ^ 32) with
      | some g, some h =>
        let gp := (s.wg? h).getD g
        if g.pair = some h then .done (writeUD s c 0)
        else if g.die != gp.die then .done (writeUD s c 3)
        else if g.cluster = gp.cluster then .done (writeUD s c 2)
        else if g.pair.isSome || (g.asks.isSome && g.asks != some h) || gp.pair.isSome || (gp.asks.isSome && gp.asks != some own) then
          .done (writeUD s c 4)
        else if gp.asks = some own then
          let s := s.modWg own fun g => { g with pair := some h, asks := none }
          .done (writeUD (s.modWg h fun g => { g with pair := some own, asks := none }) c 0)
        else
          let s := s.modWg own fun g => { g with asks := some h }
          if c.q = 1 then .done (writeUD s c 1) else .wait s (.pair h)
      | _, _ => .done (writeUD s c 5)

/-- Removes an exchange that waits. -/
def dropShuf (s : State) (k : Nat) : State := { s with eng := { s.eng with shufs := s.eng.shufs.filter (·.k != k) } }

/-- A warp of which every lane has exited. -/
def Warp.exited (x : Warp) : Bool := x.regs.paths.isEmpty && x.regs.stack.isEmpty

/-- The warp that an XSHUF names, after the checks of R356: it is gone once its last lane has exited. -/
def shufPeer (s : State) (x : Warp) (sel : Word64) : Except (FaultCode × Word64) Nat :=
  if !sel.getLsbD 6 then .error (.nopair, 0)
  else match selected s x sel with
    | .ok n => if ((s.warp? n).map (·.exited)).getD true then .error (.peergone, sel &&& 0x7F) else .ok n
    | e => e

/-- The slots that an exchange reads and writes of the warp that has waited. -/
def Shuf.slots (o : Shuf) : List Nat :=
  let n := if o.wide then 2 else 1
  (List.range n).flatMap fun i => (if o.krows.isSome then [] else [o.a + i]) ++ [o.d + i]

/-- The rows of both sides are exchanged in the common lanes (R356): every read comes before any write. Only A may name k-registers (R103). -/
def exchange (s : State) (c : Ctx) (o : Shuf) : Res :=
  let pieces := List.range (if o.wide then 2 else 1)
  let common := o.lanes &&& c.act
  let mine := pieces.map fun i => c.vrow (c.f.km.getLsbD 2) (c.f.fa.toNat + i)
  match updateSlots s o.w o.slots id with
  | .error s => .wait s (.remote o.w (.slot o.a))
  | .ok t =>
    let theirs := o.krows.getD (pieces.map fun i => ((remoteRow t o.w (o.a + i)).2).getD zeroRow)
    let put (x : Warp) (i : Nat) : Warp := x.setRow (o.d + i) common (mine.getD i zeroRow)
    match updateSlots s o.w o.slots (fun x => pieces.foldl put x) with
    | .error s => .wait s (.remote o.w (.slot o.a))
    | .ok u =>
      .done (dropShuf (pieces.foldl
        (fun s i => writeRow s c false (c.f.d.toNat + i) common fun l => (theirs.getD i zeroRow).lane l) u) o.k)

/-- The end of an XSHUF that has waited. -/
def shufResumed (c : Ctx) (s : State) (k : Nat) : Res :=
  match s.eng.shufs.find? (·.k == k) with
  | none => .done s
  | some o =>
    if o.bad then .trapIn (dropShuf s k) .xmatch 0
    else match shufPeer s c.warp c.uB with
      | .error (code, info) => .trapIn (dropShuf s k) code info
      | .ok n => if n = o.peer then .wait s (.shuf k) else .trapIn (dropShuf s k) .nopair 0

/-- XSHUF (R356). -/
def xshufBody (c : Ctx) (s : State) : Res :=
  if c.act = 0 then .done s
  else
    let wide := c.ty.bytes = 8
    match c.path.wait with
    | some (.shuf k) => shufResumed c s k
    | _ =>
      match shufPeer s c.warp c.uB with
      | .error (code, info) => .trap code info
      | .ok n => withPeer s n fun _ =>
        match s.eng.shufs.find? fun o => o.w == n && o.peer == c.w && !o.bad with
        | some o =>
          if o.wide != wide then
            .trapIn { s with eng := { s.eng with shufs := s.eng.shufs.map fun x => if x.k == o.k then { x with bad := true } else x } }
              .xmatch 0
          else exchange s c o
        | none =>
          let k := s.nextId
          let rows := (List.range (if wide then 2 else 1)).map fun i => c.vrow true (c.f.fa.toNat + i)
          let o : Shuf := { k := k, w := c.w, p := c.p, peer := n, wide := wide, lanes := c.act
                            a := c.slot c.f.fa.toNat, d := c.slot c.f.d.toNat
                            krows := if c.f.km.getLsbD 2 then some rows else none }
          .wait { s with nextId := k + 1, eng := { s.eng with shufs := s.eng.shufs ++ [o] } } (.shuf k)

/-! ### Queries, sleep, wake and hot set (R358-R361) -/

/-- The word of CTXQ.peer. A warp of which every lane has exited is gone (R358). -/
def peerWord (s : State) (x : Warp) (sel : Word64) : Word64 :=
  match selected s x sel with
  | .error _ => 2
  | .ok n =>
    match (s.warp? n).filter (!·.exited) with
    | none => 2
    | some y =>
      match y.place.filter fun _ => !y.arriving with
      | some pl => BitVec.ofNat 64 (pl.core * 2 ^ 16 + y.regs.dorm.toNat * 2 ^ 4 + pl.half * 4 + 1)
      | none => BitVec.ofNat 64 (y.regs.dorm.toNat * 2 ^ 4)

/-- CTXQ (R358). -/
def ctxqBody (c : Ctx) (s : State) : Res :=
  oncePerPath c s fun _ =>
    .done (writeUD s c (match c.q with
      | 0 => c.warp.record.zeroExtend 64
      | 1 => peerWord s c.warp c.uA
      | 2 => c.warp.regs.decl
      | _ => c.warp.regs.misscnt.zeroExtend 64))

/-- SLEEP (R359). -/
def sleepBody (c : Ctx) (s : State) : Res :=
  oncePerPath c s fun _ =>
    let awake (s : State) (die : Bool) : Res := .done (writeUD (refresh s c.warp.core (if die then .die else .clus)) c 0)
    match c.path.wait with
    | some (.sleep since t out) =>
      (match out with
        | some (0, die) => if (pendingReads s c.w c.path.lmask).isEmpty then awake s die else .wait s (.sleep since t out)
        | some (n, _) => .done (writeUD s c (BitVec.ofNat 64 n))
        | none => .wait s (.sleep since t none))
    | _ =>
      if c.warp.regs.wakep then
        afterReads c s fun _ =>
          awake (s.modWarp c.w fun x => { x with wakeDie := false, regs := { x.regs with wakep := false } }) c.warp.wakeDie
      else .wait s (.sleep s.clock (c.uA.toNat % 2 ^ 32) none)

/-- A path that sleeps and has not been woken. -/
def Path.asleep (q : Path) : Bool := match q.wait with | some (.sleep _ _ none) => true | _ => false

/-- Every sleeping path of a warp wakes; WAKEP is set when there is none, and several wakes leave one (R360). -/
def wakeWarp (die : Bool) (x : Warp) : Warp :=
  let wake (q : Path) : Path :=
    match q.wait with | some (.sleep since t none) => { q with wait := some (.sleep since t (some (0, die))) } | _ => q
  if x.regs.paths.any fun q => q.2.asleep then
    { x with regs := { x.regs with paths := x.regs.paths.map fun q => (q.1, wake q.2) } }
  else { x with wakeDie := die || (x.regs.wakep && x.wakeDie), regs := { x.regs with wakep := true } }

/-- WAKE (R360). A target that has gone while WAKE waited for its publication needs no wake. -/
def wakeBody (c : Ctx) (s : State) : Res :=
  oncePerPath c s fun _ =>
    let sel := c.uA
    match selected s c.warp sel with
    | .error (code, info) => if (c.path.wait.map (·.begun)).getD false then .done s else .trap code info
    | .ok n => withPeer s n fun _ =>
      let die := sel.getLsbD 6
      releaseThen c s (if die then .die else .clus) fun s =>
        match updateSaved s n (wakeWarp die) with
        | .ok s => .done s
        | .error s => .wait s (.remote n (.uni 0))

/-- HOTSET (R361). -/
def hotsetBody (c : Ctx) (s : State) : Res :=
  oncePerPath c s fun _ =>
    let h := min (max (c.uA.toNat % 2 ^ 32) 8) 2048
    let m := (h + 7) / 8 - 1
    .done (s.modWarp c.w fun x =>
      let x := { x with regs := { x.regs with decl := (x.regs.decl &&& ~~~((0xFF : Word64) <<< 48)) ||| (BitVec.ofNat 64 m <<< 48) } }
      x.makeRoom 0 (x.victims (pendingSlots s c.w)))

/-- SLEEP_TIMEOUT (R359). -/
def sleepTimeout (w p : Nat) (s : State) : Option State :=
  match s.path? w p with
  | some q =>
    (match q.wait with
      | some (.sleep since t none) =>
        if 0 < t && decide (since + t ≤ s.clock) then
          some (s.modPath w p fun q => { q with wait := some (.sleep since t (some (1, false))) })
        else none
      | _ => none)
  | none => none

/-- RLD (R352). -/
def execRld (x : RForm) : State → Host.Outcome State Fault Refusal := runIopFlip 0x230 (.r x) rldBody
/-- RLDU (R352). -/
def execRldu (x : RForm) : State → Host.Outcome State Fault Refusal := runIopFlip 0x231 (.r x) rlduBody
/-- XSHUF (R356). -/
def execXshuf (x : RForm) : State → Host.Outcome State Fault Refusal := runIopFlip 0x232 (.r x) xshufBody
/-- XPAIR (R355). -/
def execXpair (x : RForm) : State → Host.Outcome State Fault Refusal := runIop 0x233 (.r x) xpairBody
/-- CTXQ (R358). -/
def execCtxq (x : RForm) : State → Host.Outcome State Fault Refusal := runIop 0x234 (.r x) ctxqBody
/-- SLEEP (R359). -/
def execSleep (x : RForm) : State → Host.Outcome State Fault Refusal := runIop 0x235 (.r x) sleepBody
/-- WAKE (R360). -/
def execWake (x : RForm) : State → Host.Outcome State Fault Refusal := runIopFlip 0x236 (.r x) wakeBody
/-- HOTSET (R361). -/
def execHotset (x : RForm) : State → Host.Outcome State Fault Refusal := runIop 0x237 (.r x) hotsetBody
/-- SLEEP_TIMEOUT (R359). -/
def execSleepTimeout (w p : Nat) : State → Host.Outcome State Fault Refusal := runEvent (sleepTimeout w p)

end Sys2Proof.Machine
end

