-- ==== Sys2Proof/Machine/Barrier.lean ====
section
/-!
DEFINITION. Barriers (R310-R312) and transaction barriers (R313-R317), 09_ordering.md.
-/

namespace Sys2Proof.Machine

/-! ### The distribution of a grid over dies (R366) -/

/-- MODE of the HINT field. -/
def Packet.mode (p : Packet) : Nat := p.hint / 16 % 4

/-- Workgroups of a grid on the die of index i: the first w, the step from one to the next, and how many. -/
def Grid.onDie (g : Grid) (i : Nat) : Nat × Nat × Nat :=
  let n := g.dies.length
  let total := g.pk.grid
  if g.pk.mode = 0 then (i, n, (total + n - 1 - i) / n)
  else
    let lo := (i * total + n - 1) / n
    (lo, 1, ((i + 1) * total + n - 1) / n - lo)

/-- Whether a die has launched every workgroup of a grid that is assigned to it. -/
def Grid.launchedOn (g : Grid) (die : Nat) : Bool :=
  match g.dies.findIdx? (· == die) with
  | none => true
  | some i => decide ((g.onDie i).2.2 ≤ g.next.get 0 die)

/-! ### Barriers (R310-R312) -/

/-- The barrier that an instruction names, for its warp's placement core (R310). -/
def barrierKey (x : Warp) (sc : Scope) (n : Nat) : BarrierKey :=
  let core := x.regs.placeCore
  match sc with
  | .core => { scope := sc, n := n, owner := x.wg, part := core }
  | .quad => { scope := sc, n := n, owner := x.wg, part := quadOf core }
  | .clus => { scope := sc, n := n, owner := x.wg, part := 0 }
  | .die => { scope := sc, n := n, owner := x.grid, part := dieOf core }
  | .pkg | .pod => { scope := sc, n := n, owner := x.grid, part := 0 }

/-- A warp takes part in a barrier. -/
def participates (s : State) (key : BarrierKey) (x : Warp) : Bool :=
  x.kind == .ordinary && !x.released &&
  match key.scope with
  | .core => x.wg == key.owner && x.regs.placeCore == key.part
  | .quad => x.wg == key.owner && quadOf x.regs.placeCore == key.part
  | .clus => x.wg == key.owner
  | .die => x.grid == key.owner && x.node.isNone && dieOf x.regs.placeCore == key.part
  | .pkg | .pod => x.grid == key.owner && x.node.isNone && s.wgs.any (·.1 == x.wg)

/-- Every workgroup that a barrier waits for has been launched (R310). -/
def allLaunched (s : State) (key : BarrierKey) : Bool :=
  match key.scope with
  | .core | .quad | .clus => true
  | .die => ((s.work.grids.find? key.owner).map (·.launchedOn key.part)).getD true
  | .pkg | .pod => ((s.work.grids.find? key.owner).map fun g => g.dies.all g.launchedOn).getD true

/-- The lanes of a warp that have not exited. -/
def Regs.liveLanes (r : Regs) : BitVec 32 := r.stack.foldl (fun m q => m ||| q.lmask) (r.paths.foldl (fun m q => m ||| q.2.lmask) 0)

/-- The barrier of a key. -/
def State.barrier (s : State) (key : BarrierKey) : Barrier := (s.barriers.find? (·.key == key)).getD { key := key }

/-- Replaces a barrier. -/
def State.setBarrier (s : State) (b : Barrier) : State :=
  { s with barriers := if s.barriers.any (·.key == b.key) then s.barriers.map fun x => if x.key == b.key then b else x
                       else s.barriers ++ [b] }

/-- A lane arrives in the first phase, from the current one on, in which it has not arrived; answers how far ahead that is. -/
def arriveLane : List Word32 → Nat → List Word32 × Nat
  | [], l => ([1#32 <<< l], 0)
  | m :: rest, l => if m.getLsbD l then let (r, k) := arriveLane rest l; (m :: r, k + 1) else ((m ||| (1#32 <<< l)) :: rest, 0)

/-- The lanes of a path arrive; answers the latest phase in which one of them counts (R311). -/
def Barrier.arrive (b : Barrier) (w : Nat) (lanes : BitVec 32) : Barrier × Word32 :=
  let (phases, far) := (lanesOf lanes).foldl (fun (a : List Word32 × Nat) l =>
    let (xs, k) := arriveLane a.1 l
    (xs, max a.2 k)) (b.arrived.get 0 w :: b.later.get [] w, 0)
  ({ b with arrived := b.arrived.put 0 w (phases.headD 0), later := b.later.put [] w phases.tail }, b.phases + BitVec.ofNat 32 far)

/-- A phase number m lies before the count of completed phases (R311). -/
def phasePast (count m : Word32) : Bool := let d := (count - m).toNat; decide (1 ≤ d) && decide (d < 2 ^ 31)

/-- A warp has arrived in the current phase: each of its lanes that has not exited has; a warp whose last lane has exited counts once
it is released (R311, R472). -/
def Barrier.has (b : Barrier) (w : Nat) (x : Warp) : Bool :=
  let live := x.regs.liveLanes
  live != 0 && live &&& ~~~(b.arrived.get 0 w) == 0

/-- The phase of a barrier is complete. -/
def barrierReady (s : State) (b : Barrier) : Bool :=
  let mine := s.warps.filter fun x => participates s b.key x.2
  allLaunched s b.key && !mine.isEmpty && mine.all fun x => b.has x.1 x.2

/-- BARRIER_PHASE_COMPLETE (R311): the barrier starts its next phase with the arrivals that were held. -/
def phaseStep (key : BarrierKey) (s : State) : Option State :=
  match s.barriers.find? (·.key == key) with
  | none => none
  | some b =>
    if barrierReady s b then
      some (s.setBarrier { b with
        arrived := b.later.foldl (fun m x => m.put 0 x.1 (x.2.headD 0)) []
        later := b.later.foldl (fun m x => m.put [] x.1 x.2.tail) []
        phases := b.phases + 1 })
    else none

/-- A node warp takes no part in the wider barriers (R310). -/
def badScope (c : Ctx) : Bool := c.warp.node.isSome && decide (3 ≤ c.scope.code)

/-- BAR and BARA (R311). -/
def barBody (wait : Bool) (c : Ctx) (s : State) : Res :=
  oncePerPath c s fun _ =>
    let key := barrierKey c.warp c.scope (c.f.fc.toNat % 16)
    match c.path.wait with
    | some (.barrier key m) =>
      if phasePast (s.barrier key).phases m && (pendingReads s c.w c.path.lmask).isEmpty then .done (refresh s c.warp.core key.scope)
      else .wait s (.barrier key m)
    | _ =>
      if badScope c then .trap .barscope (BitVec.ofNat 64 c.scope.code)
      else releaseThen c s c.scope fun s =>
        let (b, m) := (s.barrier key).arrive c.w c.path.lmask
        let s := s.setBarrier b
        if wait then .wait s (.barrier key m) else .done (writeUD s c (m.zeroExtend 64))

/-- BARW (R311). -/
def barwBody (c : Ctx) (s : State) : Res :=
  oncePerPath c s fun _ =>
    if badScope c then .trap .barscope (BitVec.ofNat 64 c.scope.code)
    else
      let key := barrierKey c.warp c.scope (c.f.fc.toNat % 16)
      let m : Word32 := c.uA.truncate 32
      if phasePast (s.barrier key).phases m then afterReads c s fun _ => .done (refresh s c.warp.core c.scope)
      else .wait s (.barrierCount key m)

/-! ### Transaction barriers (R313-R317) -/

/-- The root's part of a live record. -/
def Workgroup.tbRoot? (g : Workgroup) (ofs : Nat) : Option TbRoot := g.tbs.find? (·.ofs == ofs)

/-- A little-endian number in a workgroup's near store. -/
def Workgroup.nearLe (g : Workgroup) (a n : Nat) : Nat := leNat (g.nearBytes a n)

/-- Writes a little-endian number in a workgroup's near store. -/
def Workgroup.setNearLe (g : Workgroup) (a n x : Nat) : Workgroup := g.setNear a (leBytes n x)

/-- TXP, PHASE, ARRP and ARRX of the record at an offset (R313). -/
def Workgroup.txp (g : Workgroup) (o : Nat) : Nat := g.nearLe o 8
def Workgroup.tbPhase (g : Workgroup) (o : Nat) : Nat := g.nearLe (o + 12) 4
def Workgroup.arrp (g : Workgroup) (o : Nat) : Nat := g.nearLe (o + 18) 2
def Workgroup.arrx (g : Workgroup) (o : Nat) : Nat := g.nearLe (o + 20) 2
/-- EPH, ECODE and EVA. -/
def Workgroup.eph (g : Workgroup) (o : Nat) : Bool := (g.nearLe (o + 22) 1).testBit 1
def Workgroup.ecode (g : Workgroup) (o : Nat) : Nat := g.nearLe (o + 23) 1
def Workgroup.eva (g : Workgroup) (o : Nat) : Nat := g.nearLe (o + 24) 8 % 2 ^ 57

/-- Changes the root's part of a record. -/
def Workgroup.modTb (g : Workgroup) (o : Nat) (f : TbRoot → TbRoot) : Workgroup :=
  { g with tbs := g.tbs.map fun t => if t.ofs = o then f t else t }

/-- Marks the current phase with an error, unless it holds one (R316). -/
def Workgroup.markTb (g : Workgroup) (o code va : Nat) : Workgroup :=
  g.modTb o fun t => { t with err := t.err.or (some (code, va)) }

/-- A phase with nothing pending and nothing expected completes (R316). -/
def Workgroup.settleTb (g : Workgroup) (o : Nat) : Workgroup :=
  if g.arrp o = 0 ∧ g.txp o = 0 then
    let err := ((g.tbRoot? o).bind (·.err))
    let g := g.setNearLe (o + 22) 1 (1 + 2 * bit err.isSome)
    let g := g.setNearLe (o + 23) 1 ((err.map (·.1)).getD 0 % 256)
    let g := g.setNearLe (o + 24) 8 ((err.map (·.2)).getD 0 % 2 ^ 57)
    let g := g.setNearLe (o + 12) 4 ((g.tbPhase o + 1) % 2 ^ 32)
    let g := g.setNearLe (o + 18) 2 (g.arrx o)
    g.modTb o fun t => { t with err := none, now := [], last := t.now, past := NSet.insertAll t.past t.now }
  else g

/-- One arrival (R316). -/
def Workgroup.arriveTb (g : Workgroup) (o : Nat) : Workgroup :=
  if g.arrp o = 0 then g.markTb o (faultNumber .overarr) 0 else (g.setNearLe (o + 18) 2 (g.arrp o - 1)).settleTb o

/-- Several arrivals. -/
def Workgroup.arriveMany (g : Workgroup) (o : Nat) : Nat → Workgroup
  | 0 => g
  | n + 1 => (g.arriveTb o).arriveMany o n

/-- A credit of bytes (R315). -/
def Workgroup.creditTb (g : Workgroup) (o bytes : Nat) : Workgroup :=
  let g := if g.txp o < bytes then (g.markTb o (faultNumber .overfill) 0).setNearLe o 8 0 else g.setNearLe o 8 (g.txp o - bytes)
  g.settleTb o

/-- The checks of R314 on an offset; `live` asks for INIT = 1. -/
def tbFault (g : Workgroup) (off : Word64) (live : Bool) : Option (FaultCode × Word64) :=
  if off.toNat % 32 != 0 then some (.align, off)
  else if g.nearSize < off.toNat + 32 then some (.nsbound, off)
  else if live && !g.liveTb off.toNat then some (.tbstate, 1)
  else none

/-- A transaction-barrier instruction on its workgroup, after the checks of R314. -/
def tbBody (live : Bool) (f : Ctx → State → Workgroup → Nat → Res) (c : Ctx) (s : State) : Res :=
  oncePerPath c s fun _ =>
    match s.wg? c.warp.wg with
    | none => .done s
    | some g =>
      match tbFault g c.uA live with
      | some (code, info) => .trap code info
      | none => f c s g c.uA.toNat

/-- Replaces the issuer's workgroup. -/
def setOwnWg (s : State) (c : Ctx) (g : Workgroup) : State := { s with wgs := s.wgs.insert c.warp.wg g }

/-- Waiters on a record that has been invalidated return with EXP (R314). -/
def expireTb (s : State) (wg ofs : Nat) : State :=
  let gone : Path → Path := Path.mapWaits fun w => match w with | .tb o m => if o = ofs then .tbGone else .tb o m | y => y
  { s with warps := s.warps.map fun x =>
      if x.2.wg = wg then (x.1, { x.2 with regs := { x.2.regs with paths := x.2.regs.paths.map fun q => (q.1, gone q.2)
                                                                   stack := x.2.regs.stack.map gone } }) else x }

/-- TBINIT and TBINIT.inv (R314). -/
def tbinitBody : Ctx → State → Res :=
  tbBody false fun c s g o =>
    let n := c.uB.toNat
    if c.q = 1 then
      .done (expireTb (setOwnWg s c { g.setNear o (List.replicate 32 0) with tbs := g.tbs.filter (·.ofs != o) }) c.warp.wg o)
    else if n = 0 ∨ 65535 < n then .trap .tbstate 2
    else if g.liveTb o ∧ (g.arrp o ≠ g.arrx o ∨ g.txp o ≠ 0) then .trap .tbstate 3
    else if !g.liveTb o && decide (64 ≤ g.tbs.length) then .trap .tbstate 6
    else
      let g := g.setNear o (List.replicate 32 0)
      let g := ((g.setNearLe (o + 18) 2 n).setNearLe (o + 20) 2 n).setNearLe (o + 22) 1 1
      .done (setOwnWg s c { g with tbs := g.tbs.filter (·.ofs != o) ++ [{ ofs := o }] })

/-- TBEXP and TBEXP.arr (R315). -/
def tbexpBody : Ctx → State → Res :=
  tbBody true fun c s g o =>
    let sum (g : Workgroup) := g.txp o + c.uB.toNat
    if 2 ^ 63 ≤ sum g then .trap .tbstate 4
    else if c.q = 0 then .done (setOwnWg s c (g.setNearLe o 8 (sum g)))
    else releaseThen c s .clus fun s =>
      let g := (s.wg? c.warp.wg).getD g
      .done (writeUD (setOwnWg s c ((g.setNearLe o 8 (sum g)).arriveTb o)) c (BitVec.ofNat 64 (g.tbPhase o)))

/-- TBARR and TBARR.n (R316). -/
def tbarrBody : Ctx → State → Res :=
  tbBody true fun c s g o =>
    releaseThen c s .clus fun s =>
      let g := (s.wg? c.warp.wg).getD g
      let n := if c.q = 1 then c.uB.toNat % 2 ^ 16 else 1
      .done (writeUD (setOwnWg s c (g.arriveMany o n)) c (BitVec.ofNat 64 (g.tbPhase o)))

/-- The acquire of a TBWAIT or TBQ that finds its phase complete: the refresh, and the bounds of CPY and MAT (R317). -/
def tbAcquire (s : State) (c : Ctx) (ops : List Nat) : State :=
  let core := c.warp.core
  let ts := ops.map BoundTerm.op
  raiseBound (raiseBound (refresh s core .clus) (boundKey core .cpy) ts) (boundKey core .mat) ts

/-- TBWAIT and TBQ (R317). -/
def tbTest (wait : Bool) : Ctx → State → Res := fun c s =>
  match c.path.wait with
  | some .tbGone => .done (writeUD s c 2)
  | _ =>
    tbBody true (fun c s g o =>
      let m : Word32 := c.uB.truncate 32
      let d := (BitVec.ofNat 32 (g.tbPhase o) - m).toNat
      let root := (g.tbRoot? o).getD { ofs := o }
      if d = 1 then
        let st := if g.eph o then 1 + g.ecode o * 2 ^ 5 + g.eva o / 64 * 2 ^ 13 else 0
        afterReads c s fun _ => .done (writeUD (tbAcquire s c root.last) c (BitVec.ofNat 64 st))
      else if 2 ≤ d ∧ d < 2 ^ 31 then afterReads c s fun _ => .done (writeUD (tbAcquire s c root.past) c 2)
      else if wait then .wait s (.tb o m)
      else .done (writeUD s c 4)) c s

/-- TB_CREDIT (R315, R316): a copy's bytes or a batch's arrival reach the root. A credit to a record that is no longer live is dropped;
a copy's is recorded for CPYW (R332). -/
def creditStep (k : Nat) (s : State) : Option State :=
  match s.eng.credits.find? (·.k == k) with
  | none => none
  | some x =>
    let s := { s with eng := { s.eng with credits := s.eng.credits.filter (·.k != k) } }
    match s.wg? x.wg with
    | none => some s
    | some g =>
      match g.tbRoot? x.ofs with
      | none =>
        if x.arrive then some s
        else some (s.modWarp x.warp fun w =>
          if w.copyFault = 0 then { w with copyFault := BitVec.ofNat 64 (1 + faultNumber .tbstate * 2 ^ 5) } else w)
      | some _ =>
        let g := g.modTb x.ofs fun t => { t with now := NSet.insertAll t.now x.ops }
        let g := match x.err with | some (code, va) => g.markTb x.ofs code va | none => g
        some (s.modWg x.wg fun _ => if x.arrive then g.arriveTb x.ofs else g.creditTb x.ofs x.bytes)

/-- BAR (R311). -/
def execBar (x : RForm) : State → Host.Outcome State Fault Refusal := runIop 0x1EA (.r x) (barBody true)
/-- BARA (R311). -/
def execBara (x : RForm) : State → Host.Outcome State Fault Refusal := runIop 0x1EB (.r x) (barBody false)
/-- BARW (R311). -/
def execBarw (x : RForm) : State → Host.Outcome State Fault Refusal := runIop 0x1EC (.r x) barwBody
/-- TBINIT (R314). -/
def execTbinit (x : RForm) : State → Host.Outcome State Fault Refusal := runIop 0x1ED (.r x) tbinitBody
/-- TBEXP (R315). -/
def execTbexp (x : RForm) : State → Host.Outcome State Fault Refusal := runIop 0x1EE (.r x) tbexpBody
/-- TBARR (R316). -/
def execTbarr (x : RForm) : State → Host.Outcome State Fault Refusal := runIop 0x1EF (.r x) tbarrBody
/-- TBWAIT (R317). -/
def execTbwait (x : RForm) : State → Host.Outcome State Fault Refusal := runIop 0x1F0 (.r x) (tbTest true)
/-- TBQ (R317). -/
def execTbq (x : RForm) : State → Host.Outcome State Fault Refusal := runIop 0x1F1 (.r x) (tbTest false)
/-- BARRIER_PHASE_COMPLETE (R311). -/
def execBarrierPhaseComplete (key : BarrierKey) : State → Host.Outcome State Fault Refusal := runEvent (phaseStep key)
/-- TB_CREDIT (R315). -/
def execTbCredit (k : Nat) : State → Host.Outcome State Fault Refusal := runEvent (creditStep k)

end Sys2Proof.Machine
end

