-- ==== Sys2Proof/Machine/Control.lean ====
section
/-!
DEFINITION. The control class (04_control.md): branches, calls and returns over paths and register windows, and the whole-path
instructions NOP, YIELD, WAITF and EXIT.
-/

namespace Sys2Proof.Machine

/-- Where a lane goes: the fields that R136 groups lanes by, whether the path parks there, and whether the lane transferred. -/
structure Goal where
  pc    : BitVec 57
  pcHi  : BitVec 7 := 0
  wbase : BitVec 16
  wtop  : BitVec 17
  iter  : BitVec 32
  depth : BitVec 16
  park  : Bool := false
deriving DecidableEq, Repr

/-- A group of lanes with one goal, and which of them transferred. -/
structure LaneGroup where
  goal  : Goal
  lanes : BitVec 32
  taken : BitVec 32
deriving DecidableEq, Repr

/-- Adds a lane to the groups, in order of each group's lowest lane (R136). -/
def addLane (gs : List LaneGroup) (l : Nat) (g : Goal) (taken : Bool) : List LaneGroup :=
  let b : BitVec 32 := 1#32 <<< l
  match gs with
  | [] => [{ goal := g, lanes := b, taken := if taken then b else 0 }]
  | x :: rest =>
    if x.goal = g then { x with lanes := x.lanes ||| b, taken := x.taken ||| (if taken then b else 0) } :: rest
    else x :: addLane rest l g taken

/-- The address after the guest instruction. -/
def Ctx.fallPc (c : Ctx) : BitVec 57 := addPc c.path.pc c.cur.len

/-- The goal of a lane that stays at the fall-through (R142). -/
def Ctx.stay (c : Ctx) : Goal :=
  { pc := c.fallPc, wbase := c.path.wbase, wtop := c.path.wtop, iter := c.path.iter, depth := c.path.depth }

/-- The goal of a lane that branches: a target at or below the guest instruction adds 1 to ITER (R140). -/
def Ctx.branch (c : Ctx) (pc : BitVec 57) (hi : BitVec 7 := 0) : Goal :=
  { c.stay with pc := pc, pcHi := hi
                iter := if pc.toNat ≤ c.path.pc.toNat && hi == 0 then c.path.iter + 1 else c.path.iter }

/-- The target of format B (R61). -/
def Ctx.target (c : Ctx) : BitVec 57 :=
  match c.f with | .b x => c.path.pc + 2 * x.ofs.signExtend 57 | _ => c.path.pc

/-- The bearing of a group (R442). -/
def groupBearing (fresh : Nat) (b : Word64) (g : LaneGroup) : Word64 :=
  if g.taken = 0 then b
  else if g.taken = g.lanes then (b.rotateLeft 1) ^^^ g.goal.pc.zeroExtend 64
  else Config.mixedBearing fresh

/-- The path of a group. -/
def groupPath (fresh clock : Nat) (q : Path) (g : LaneGroup) : Path :=
  { q with pc := g.goal.pc, pcHi := g.goal.pcHi, lmask := g.lanes, wbase := g.goal.wbase, wtop := g.goal.wtop
           iter := g.goal.iter, depth := g.goal.depth, park := g.goal.park, bearing := groupBearing fresh q.bearing g
           clause := none, wait := none, notes := [], rst := 0, age := none, yielded := false, passed := 0, urgent := false
           parkedAt := clock
           frames := (q.frames.map fun f => { f with lanes := f.lanes &&& g.lanes }).filter (·.lanes != 0) }

/-- Places a further group in the lowest free entry, or on the path stack (R136); its index, 16 and beyond for the stack. -/
def placePath (r : Regs) (q : Path) : Regs × Nat :=
  match freeEntry r with
  | some i => ({ r with paths := r.paths.insert i q }, i)
  | none => ({ r with stack := q :: r.stack }, 16 + r.stack.length)

/-- BRANCH and SPLIT records of the traced path (R446). -/
def traceSplit (s : State) (c : Ctx) (gs : List LaneGroup) (placed : List (Nat × BitVec 32)) : State :=
  if s.isTraced c.w c.warp c.path then
    let put (s : State) (type aux : Nat) (pay : List Nat) : State := traceRecord s c.warp.core (traceHead c.warp c.p c.path) type true aux pay
    let s := if s.traceBranches c.warp then
      (gs.filter (·.taken != 0)).foldl (fun s g => put s 2 0 [g.goal.pc.toNat, g.taken.toNat]) s else s
    placed.foldl (fun s g => put s 3 g.1 [g.2.toNat]) s
  else s

/-- Moves the lanes of the issuing path to their goals (R136): the group at the fall-through stays first, otherwise the group of
the lowest lane. Where a group of lanes that transfer has the fall-through's PC too, R136 does not say which of the two stays; the one with
the lowest lane does (DESIGN CHOICE, notes/assumptions/51.md). `goal l` gives a lane's goal and whether it transfers; `fix` is applied to each path that results. -/
def splitPath (c : Ctx) (s : State) (goal : Nat → Goal × Bool) (fix : Path → Path := id) : State :=
  let gs := (lanesOf c.path.lmask).foldl (fun gs l => addLane gs l (goal l).1 (goal l).2) []
  let first := match gs.find? (fun g => g.goal.pc == c.fallPc && g.goal.pcHi == 0) with
    | some g => some g
    | none => gs.head?
  match first with
  | none => s
  | some g0 =>
    let mk := fun g => fix (groupPath s.fresh s.clock c.path g)
    let (r, placed) := (gs.filter (· != g0)).foldl (fun (a : Regs × List (Nat × BitVec 32)) g =>
      let (r, i) := placePath a.1 (mk g)
      (r, a.2 ++ [(i, g.lanes)])) (let r := (s.warp? c.w).map (·.regs) |>.getD c.warp.regs; { r with paths := r.paths.insert c.p (mk g0) }, [])
    let s := traceSplit (s.modRegs c.w fun _ => r) c gs placed
    { s with fresh := s.fresh + 1 }

/-- Lanes of the transfer mask go to `goal`, the others stay; with no transferring lane nothing happens (R142). -/
def transfer (c : Ctx) (s : State) (mask : BitVec 32) (goal : Nat → Goal) (stay : Goal) : Res :=
  if mask = 0 then .done s
  else .moved (splitPath c s fun l => if mask.getLsbD l then (goal l, true) else (stay, false))

/-- BRA (R156). -/
def braBody (c : Ctx) (s : State) : Res := transfer c s c.act (fun _ => c.branch c.target) c.stay

/-- BRAU (R156): the whole path moves when any lane, or every lane, passes the guard. -/
def brauBody (c : Ctx) (s : State) : Res :=
  let go := if c.q = 0 then c.act != 0 else c.act == c.path.lmask
  if go then transfer c s c.path.lmask (fun _ => c.branch c.target) c.stay else .done s

/-- LOOP (R157): the lanes that fall through set ITER to 0 and park; when all fall through the whole path parks. -/
def loopBody (c : Ctx) (s : State) : Res :=
  .moved (splitPath c s fun l =>
    if c.act.getLsbD l then (c.branch c.target, true) else ({ c.stay with iter := 0, park := true }, false))

/-- JOIN (R158). -/
def joinBody (c : Ctx) (s : State) : Res :=
  transfer c s c.act (fun _ => { c.stay with pc := c.target, iter := 0, park := true }) c.stay

/-- The register-held target of a lane: source A, a pair or a uniform (R159). -/
def Ctx.regTarget (c : Ctx) (l : Nat) : BitVec 57 × BitVec 7 := ((c.srcA l).truncate 57, (c.srcA l).extractLsb' 57 7)

/-- BRX (R159). -/
def brxBody (c : Ctx) (s : State) : Res :=
  transfer c s c.act (fun l => c.branch (c.regTarget l).1 (c.regTarget l).2) c.stay

/-- Goes on once no write is outstanding to slots that an instruction uses beyond its operands (R39), and they are in the register cache
(R347). -/
def withSlots (c : Ctx) (s : State) (slots : List Nat) (f : Unit → Res) : Res :=
  match (slots.map Reg.slot).filter (busyRegs s c.w).contains with
  | r :: more => .wait s (.regs (r :: more))
  | [] =>
    match s.warp? c.w with
    | none => f ()
    | some x =>
      match absent x slots with
      | [] => f ()
      | n :: more =>
        if !(c.path.wait.map (·.begun)).getD false then
          let (s, w) := missWait s x c.w c.p (n :: more)
          .wait s w
        else if (n :: more).all x.refills then .wait s (.refill (n :: more))
        else .wait (s.setWarp c.w (x.countMiss.startRefill (n :: more) (pendingSlots s c.w))) (.refill (n :: more))

/-- The words of a link record (R149). -/
def linkWords (c : Ctx) (sl : Nat) : List Word32 :=
  let ret := c.fallPc
  [ret.truncate 32, (ret.extractLsb' 32 25).zeroExtend 32,
   BitVec.ofNat 32 ((c.path.wtop.toNat - c.path.wbase.toNat) * 2 ^ 8 + sl), c.path.iter]

/-- CALL and CALLX (R160): the checks for every transferring lane, the link records, then the move to the callee. -/
def callTo (c : Ctx) (s : State) (sl fr : Nat) (target : Nat → BitVec 57 × BitVec 7) : Res :=
  let base := c.path.wbase.toNat
  if c.act = 0 then .done s
  else if c.path.wtop.toNat - base < sl then .trap .regbound (BitVec.ofNat 64 sl)
  else if c.warp.regs.stackSize < base + sl + fr then .trap .winovf (BitVec.ofNat 64 (base + sl + fr))
  else
    let slots := (List.range 4).map fun i => base + sl - 4 + i
    withSlots c s slots fun _ =>
      let s := (slots.zip (linkWords c sl)).foldl
        (fun s nw => s.modWarp c.w fun x => x.setRow nw.1 c.act (Row.ofFn fun _ => nw.2)) s
      match transfer c s c.act
        (fun l => { pc := (target l).1, pcHi := (target l).2, wbase := BitVec.ofNat 16 (base + sl)
                    wtop := BitVec.ofNat 17 (base + sl + fr), iter := 0, depth := c.path.depth + 1 })
        c.stay with
      | .moved s => .moved (allocateFrame s c.w (base + sl) (base + sl + fr))
      | r => r

/-- CALL (R160): D is the slide, A the frame size with 0 for 256. -/
def callBody (c : Ctx) (s : State) : Res :=
  callTo c s c.f.d.toNat (if c.f.fa = 0 then 256 else c.f.fa.toNat) fun _ => (c.target, 0)

/-- CALLX (R155, R160): the frame size in eights stands in Q[7:3], 0 for 256. -/
def callxBody (c : Ctx) (s : State) : Res :=
  callTo c s c.f.d.toNat (if c.q / 4 = 0 then 256 else c.q / 4 * 8) fun l => c.regTarget l

/-- The words of the link record below a path's window, by lane (R149). -/
def Ctx.linkWord (c : Ctx) (i l : Nat) : Word32 := (c.warp.regs.row (c.path.wbase.toNat - i)).lane l

/-- RET (R161, R403): an interrupt frame is left by UIEND only. -/
def retBody (c : Ctx) (s : State) : Res :=
  let base := c.path.wbase.toNat
  if c.act = 0 then .done s
  else if c.path.depth = 0 then .trap .winovf 1
  else
    withSlots c s ((List.range 4).map fun i => base - 4 + i) fun _ =>
      if (lanesOf c.act).any fun l => (c.linkWord 2 l).toNat % 256 == 0 then .trap .uistate 1
      else
        let goal (l : Nat) : Goal :=
          let wb : BitVec 16 := c.path.wbase - ((c.linkWord 2 l).truncate 8).zeroExtend 16
          { pc := ((c.linkWord 3 l).truncate 25) ++ (c.linkWord 4 l), wbase := wb
            wtop := wb.zeroExtend 17 + ((c.linkWord 2 l).extractLsb' 8 9).zeroExtend 17
            iter := c.linkWord 1 l, depth := c.path.depth - 1 }
        match transfer c s c.act goal c.stay with
        | .moved s =>
          .moved ((NSet.insertAll [] ((lanesOf c.act).map fun l => (goal l).wbase.toNat * 2 ^ 17 + (goal l).wtop.toNat)).foldl
            (fun s k => refillWindow s c.w (k / 2 ^ 17) (k % 2 ^ 17)) s)
        | r => r

/-- EXIT (R162): the active lanes leave the warp with an EXIT record (R443); an entry left with no lanes becomes free, and the exit of a
path in emulation state ends the warp's emulation state. The block of R399 ends with the last lane of its frame (R403). -/
def exitBody (c : Ctx) (s : State) : Res :=
  if c.act = 0 then .done s
  else
    let left := c.path.lmask &&& ~~~c.act
    let s := traceRecord s c.warp.core (traceHead c.warp c.p c.path) 6 false 0 [c.path.bearing.toNat, c.act.toNat]
    let s := s.modWarp c.w fun x => { x with uiLanes := x.uiLanes &&& ~~~c.act }
    if left = 0 then
      let s := s.modRegs c.w fun r =>
        let r := { r with paths := r.paths.erase c.p }
        if c.path.emu then
          { r with paths := r.paths.map fun (i, q) => (i, { q with emu := false }), stack := r.stack.map fun q => { q with emu := false } }
        else r
      .moved (if c.warp.regs.paths.length = 1 && c.warp.regs.stack.isEmpty then publishOwn s c.w else s)
    else .done (s.modPath c.w c.p fun q => { q with lmask := left })

/-- YIELD (R163): the next clause has the age of this cycle and ranks below every pair runnable in it. -/
def yieldBody (c : Ctx) (s : State) : Res :=
  if c.act = 0 then .done s else .done (s.modPath c.w c.p fun q => { q with age := some s.clock, yielded := true })

/-- The flags that WAITF names. -/
def Ctx.flagMask (c : Ctx) : BitVec 12 :=
  (if c.q % 2 = 1 then (1#12 <<< c.f.fa.toNat) else 0) ||| (if c.q / 2 % 2 = 1 then (1#12 <<< c.f.fb.toNat) else 0)
    ||| (if c.q / 4 % 2 = 1 then (1#12 <<< c.f.fc.toNat) else 0)

/-- WAITF (R163): the path waits at it until every named flag is clear. Waiting there the path counts as standing at a clause boundary
(R398), with the WAITF as the instruction that it would continue at (R399). -/
def waitfBody (c : Ctx) (s : State) : Res :=
  if c.act = 0 || c.warp.regs.flagsClear c.flagMask then .done s else .wait s (.flags c.flagMask)

/-- NOP (R163). -/
def execNop (x : RForm) : State → Host.Outcome State Fault Refusal := runIop 0x001 (.r x) fun _ s => .done s
/-- BRA (R156). -/
def execBra (x : BForm) : State → Host.Outcome State Fault Refusal := runIop 0x002 (.b x) braBody
/-- BRX (R159). -/
def execBrx (x : BForm) : State → Host.Outcome State Fault Refusal := runIop 0x003 (.b x) brxBody
/-- CALL (R160). -/
def execCall (x : BForm) : State → Host.Outcome State Fault Refusal := runIop 0x004 (.b x) callBody
/-- CALLX (R160). -/
def execCallx (x : BForm) : State → Host.Outcome State Fault Refusal := runIop 0x005 (.b x) callxBody
/-- RET (R161). -/
def execRet (x : BForm) : State → Host.Outcome State Fault Refusal := runIop 0x006 (.b x) retBody
/-- EXIT (R162). -/
def execExit (x : RForm) : State → Host.Outcome State Fault Refusal := runIop 0x007 (.r x) exitBody
/-- YIELD (R163). -/
def execYield (x : RForm) : State → Host.Outcome State Fault Refusal := runIop 0x008 (.r x) yieldBody
/-- JOIN (R158). -/
def execJoin (x : BForm) : State → Host.Outcome State Fault Refusal := runIop 0x009 (.b x) joinBody
/-- LOOP (R157). -/
def execLoop (x : BForm) : State → Host.Outcome State Fault Refusal := runIop 0x00A (.b x) loopBody
/-- BRAU (R156). -/
def execBrau (x : BForm) : State → Host.Outcome State Fault Refusal := runIop 0x00B (.b x) brauBody
/-- WAITF (R163). -/
def execWaitf (x : RForm) : State → Host.Outcome State Fault Refusal := runIop 0x00C (.r x) waitfBody

end Sys2Proof.Machine
end

