-- ==== Sys2Proof/Machine/Format.lean ====
section
/-!
DEFINITION. Format blocks (R217, R218, 06_float.md) with the format-block caches of R253 (07_matrix.md), and the block scales and
transforms that quantising instructions, copies and the matrix engine share (R196, R197, R219, R221).
-/

namespace Sys2Proof.Machine

/-! ### Descriptors (R217) -/

/-- Fields of an operand descriptor. -/
def descFmt (d : List Byte) : ElemType := ElemType.ofCode (leNat (d.take 8) % 16)
def descBlk (d : List Byte) : Nat := if (leNat (d.take 8)).testBit 4 then 32 else 16
def descSfmt (d : List Byte) : Nat := leNat (d.take 8) / 32 % 4
def descScale (d : List Byte) : Nat := leNat ((d.drop 8).take 8)
def descBook (d : List Byte) : Nat := leNat ((d.drop 16).take 8)

/-- The first failing check of R218 among 1 to 3; `t` is the type that EFMT must be, when the instruction has one. -/
def descCheck (d : List Byte) (t : Option ElemType) : Option Nat :=
  if t.any fun t => descFmt d != t then some 1
  else if leNat (d.take 8) / 128 != 0 || leNat (d.drop 24) != 0 || descSfmt d == 3 || decide (2 ^ 57 ≤ descScale d)
      || decide (2 ^ 57 ≤ descBook d) then some 2
  else if (descFmt d == .cb4) != (descBook d != 0) || descBook d % 32 != 0 then some 3
  else none

/-- The BF16 pattern of a codebook entry (R196). -/
def bookWord (book : List Byte) (i : Nat) : Nat := leNat ((book.drop (2 * i)).take 2)

/-- The value of a codebook entry. -/
def bookValue (book : List Byte) (i : Nat) : FNum := readFloat .bf16 false (bookWord book i)

/-- Check 4 of R218. -/
def bookBad (book : List Byte) : Bool :=
  let es := (List.range 16).map (bookValue book)
  es.any (fun x => x.isNan || x.isInf) || es.all FNum.isZero

/-! ### The format-block cache (R253) -/

/-- The half on which a warp issues. -/
def Warp.half (x : Warp) : Nat := (x.place.map (·.half)).getD 0

/-- An entry is the one of a block for the issuing half. -/
def FormatEntry.for_ (e : FormatEntry) (x : Warp) (block : Nat) : Bool :=
  e.core == x.core && e.half == x.half && e.vf == x.vf && e.asid == x.asid && e.va == block

/-- The cached descriptor at an address, with its codebook. -/
def cachedDesc (s : State) (x : Warp) (va : Nat) : Option (List Byte × List Byte) :=
  (s.eng.blocks.find? (·.for_ x (va / 64 * 64))).bind fun e => if va % 64 = 0 then e.descA else e.descB

/-- Fills descriptors of a block into the half's cache, or marks its entry as used; the least recently used of eight entries leaves. -/
def cacheDesc (s : State) (x : Warp) (va : Nat) (d : List Byte × List Byte) (other : Option (List Byte × List Byte) := none) : State :=
  let block := va / 64 * 64
  let old : FormatEntry := (s.eng.blocks.find? (·.for_ x block)).getD
    { core := x.core, half := x.half, vf := x.vf, asid := x.asid, va := block }
  let new := if va % 64 = 0 then { old with descA := some d, descB := other.or old.descB }
    else { old with descA := other.or old.descA, descB := some d }
  let rest := s.eng.blocks.filter fun e => !e.for_ x block
  let mine := rest.filter fun e => e.core == x.core && e.half == x.half
  let rest := if mine.length < 8 then rest else match mine.head? with | some e => rest.erase e | none => rest
  { s with eng := { s.eng with blocks := rest ++ [new] } }

/-- A weak GEN read of bytes within one line by the issuing path, at issue. It raises no page request (R275). -/
def fetchBytes (c : Ctx) (s : State) (va n : Nat) (f : State → List Byte → Res) : Res :=
  if 2 ^ 57 ≤ va then .trap .pfault (BitVec.ofNat 64 va)
  else
    translateAll s c .read false [{ lane := c.lane0, va := va }] fun xs =>
      match xs.head? with
      | none => .done s
      | some x =>
        if poisoned s x.pa n then .trap .poison (BitVec.ofNat 64 va)
        else
          withLines c s .gen 0 [x.pa] fun s =>
            let (s, bs) := weakNow s c.warp.core .gen x.pa n
            f s bs

/-- Bytes within one line as a fill of the format-block cache reads them: none where they do not translate at once, or are poisoned. -/
def peekBytes (c : Ctx) (s : State) (va n : Nat) : State × Option (List Byte) :=
  if 2 ^ 57 ≤ va then (s, none)
  else match lookupVa s c.warp c.path va .read with
    | .ok pa _ =>
      if poisoned s pa n then (s, none)
      else let (s, bs) := weakNow s c.warp.core .gen pa n; (s, some bs)
    | _ => (s, none)

/-- An entry for the block of a descriptor: the descriptor with its codebook, and the block's other descriptor with the codebook that it names
(R253). The other one is left out where it or its codebook cannot be read now. -/
def fillBlock (c : Ctx) (s : State) (va : Nat) (d : List Byte × List Byte) : State :=
  match peekBytes c s (va ^^^ 32) 32 with
  | (s, none) => cacheDesc s c.warp va d
  | (s, some o) =>
    if descFmt o != .cb4 then cacheDesc s c.warp va d (some (o, []))
    else if descBook o % 32 != 0 then cacheDesc s c.warp va d
    else
      let (s, book) := peekBytes c s (descBook o) 32
      cacheDesc s c.warp va d (book.map fun b => (o, b))

/-- The descriptor at an address under the checks of R218, with its codebook, from the cache or from memory. -/
def loadDesc (c : Ctx) (s : State) (va : Nat) (t : Option ElemType) (f : State → List Byte × List Byte → Res) : Res :=
  let bad (n : Nat) : Res := .trap .fmtblk (BitVec.ofNat 64 n)
  match cachedDesc s c.warp va with
  | some d =>
    (match descCheck d.1 t with
      | some n => bad n
      | none => if descFmt d.1 == .cb4 && bookBad d.2 then bad 4 else f (cacheDesc s c.warp va d) d)
  | none =>
    fetchBytes c s va 32 fun s d =>
      match descCheck d t with
      | some n => bad n
      | none =>
        if descFmt d == .cb4 then
          fetchBytes c s (descBook d) 32 fun s book =>
            if bookBad book then bad 4 else f (fillBlock c s va (d, book)) (d, book)
        else f (fillBlock c s va (d, [])) (d, [])

/-! ### Block scales (R196, R221) -/

/-- A block scale: NaN, or a value. -/
inductive Scale where
  | nan
  | val (d : Dyad)
deriving DecidableEq, Repr

/-- The scale 1. -/
def Scale.one : Scale := .val ⟨false, 1, 0⟩

/-- The value of a scale byte in format 1, UE8M0, or 2, E4M3. -/
def scaleOf (sfmt b : Nat) : Scale :=
  if sfmt = 1 then (if b = 255 then .nan else .val ⟨false, 1, (b : Int) - 127⟩)
  else match readFloat .e4m3 false b with
    | .fin d => .val d
    | _ => .nan

/-- The codes of the positive scales of a format, in rising order. -/
def scaleCodes (sfmt : Nat) : List Nat := if sfmt = 1 then List.range 255 else (List.range 126).map (· + 1)

/-- a ≤ b for magnitudes. -/
def Dyad.le (a b : Dyad) : Bool := !(b.lt a)

/-- The largest magnitude of a format, or of a codebook (R221). -/
def quantMax (t : ElemType) (book : List Byte) : Dyad :=
  match t with
  | .cb4 => ((List.range 16).map (bookValue book)).foldl (fun m x => match x with | .fin d => if m.lt d.abs then d.abs else m | _ => m) ⟨false, 0, 0⟩
  | t => match readFloat t false (maxFinite t) with | .fin d => d | _ => ⟨false, 0, 0⟩

/-- The scale of a block from the values of its lanes in LaneMask(): its code, its value, and the flags (R221). -/
def blockScale (t : ElemType) (sfmt : Nat) (book : List Byte) (ys : List FNum) : Nat × Scale × Exc :=
  if ys.any FNum.isNan then (if sfmt = 1 then 0xFF else 0x7F, .nan, Exc.iv)
  else
    let amax : Option Dyad := ys.foldl (fun m y => match m, y with
      | some m, .fin d => some (if m.lt d.abs then d.abs else m)
      | _, _ => none) (some ⟨false, 0, 0⟩)
    let zero := match amax with | some d => d.m == 0 | none => false
    let one := if sfmt = 1 then 127 else 0x38
    if zero || sfmt == 0 then (one, .one, 0)
    else
      let fits (c : Nat) : Bool := match amax, scaleOf sfmt c with
        | some a, .val s => a.le (s.mul (quantMax t book))
        | _, _ => false
      match (scaleCodes sfmt).find? fits with
      | some c => (c, scaleOf sfmt c, 0)
      | none => let c := if sfmt = 1 then 254 else 0x7E; (c, scaleOf sfmt c, Exc.of)

/-- The NaN code of R221. -/
def nanCode : ElemType → Nat
  | .e4m3 => 0x7F | .e5m2 => 0x7E | _ => 0

/-- The codebook entry nearest to y / s; the least code on ties (R221). -/
def nearestCode (book : List Byte) (y s : Dyad) : Nat :=
  let dist (i : Nat) : Dyad := match bookValue book i with
    | .fin d => (y.add { (d.mul s) with neg := !(d.mul s).neg } false).abs
    | _ => y.abs
  (List.range 16).foldl (fun best i => if (dist i).lt (dist best) then i else best) 0

/-- The codebook entry of the greatest (`neg = false`) or least value, the least code on ties. -/
def extremeCode (book : List Byte) (neg : Bool) : Nat :=
  (List.range 16).foldl (fun best i =>
    let (x, y) := if neg then (bookValue book i, bookValue book best) else (bookValue book best, bookValue book i)
    if x.lt y then i else best) 0

/-- One element quantised with a scale (R221, R222): its code. -/
def quantElement (env : FEnv) (t : ElemType) (book : List Byte) (s : Scale) (y : FNum) (st : FLane) : Nat × FLane :=
  match s with
  | .nan => (nanCode t, st.raise Exc.iv)
  | .val d =>
    if d.m = 0 then (nanCode t, st.raise Exc.iv)
    else
      match t, y with
      | .cb4, .nan .. => (0, st.raise Exc.iv)
      | .cb4, .inf neg => (extremeCode book (neg != d.neg), st.raise (Exc.of ||| Exc.ix))
      | .cb4, .fin x => (nearestCode book x d, st)
      | t, .fin x => roundTo env t true true (quotient x d) st
      | t, .inf neg => writeFloat env t true true [] (some (.inf (neg != d.neg))) st
      | t, y =>
        let st := if t == .e2m1 then st.raise Exc.iv else st
        nanOr env t [y] st fun st => (nanCode t, st)

/-- The value of a code (R195, R196). -/
def decodeElement (t : ElemType) (book : List Byte) (x : Nat) : FNum :=
  if t == .cb4 then bookValue book (x % 16) else readFloat t false (x % 2 ^ t.bits)

/-! ### The Walsh-Hadamard transform (R219) -/

/-- The number of one bits is odd. -/
def oddBits (n : Nat) : Bool := (List.range 6).foldl (fun b i => b != n.testBit i) false

/-- Element i of the transform of a block with a shift; `none` where the sum is invalid. -/
def hadamard (down : Bool) (sh : Nat) (xs : List FNum) (i : Nat) : Option FNum :=
  let terms := (List.range xs.length).zip xs |>.map fun x => if oddBits (i &&& x.1) then x.2.negate else x.2
  match terms with
  | [] => some (.fin ⟨false, 0, 0⟩)
  | t :: rest => (rest.foldl (fun a b => a.bind fun x => x.add down b) (some t)).map fun y => y.scale (-sh)

/-- The transform of a block as data: an invalid sum is a NaN. -/
def hadamardAll (down : Bool) (sh : Nat) (xs : List FNum) : List FNum :=
  (List.range xs.length).map fun i => (hadamard down sh xs i).getD (.nan false false (2 ^ 22) 23)

end Sys2Proof.Machine
end

