-- ==== Sys2Proof/Machine/Engine.lean ====
section
/-!
DEFINITION. How the streamer and the tile fetch unit reach memory and the near store (R236, R250, R319-R321, R329-R332): the window,
translation without page requests, and the pieces that a line or a granule cuts an access into.
-/

namespace Sys2Proof.Machine

/-- NSBASE of an address space (R321). -/
def nsBase (s : State) (vf asid : Nat) : Nat := ((s.space? vf asid).map (·.nsbase.toNat)).getD 0

/-- The offset of a window address in the allocation (R321). -/
def windowOfs (s : State) (vf asid va : Nat) : Option Nat :=
  let b := nsBase s vf asid
  if b ≤ va ∧ va < b + 2 ^ 23 then some (va - b) else none

/-- A window range that runs out of bounds of a workgroup's allocation (R323, step 6). -/
def windowBad (s : State) (wg vf asid va n : Nat) : Bool :=
  match windowOfs s vf asid va with
  | some o => decide (((s.wg? wg).map (·.nearSize)).getD 0 < o + n)
  | none => false

/-- Whose engine access it is: the core that bounds its reads, the workgroup, the address space, and the path of R295. -/
structure Agent where
  core : Nat
  wg   : Nat
  warp : Nat
  vf   : Nat
  asid : Nat
  chan : Chan
  op   : Nat

/-- What an engine access answers: done, a fault with its address, or a page that is flipping (R291). -/
inductive EngineRes (α : Type) where
  | ok (s : State) (x : α)
  | fault (s : State) (code : FaultCode) (va : Nat)
  | flip (page : Nat)

/-- The translation of an engine access: V = 0 raises no page request (R332). A write to an executable page clears X first (R111). -/
def engineAddr (s : State) (a : Agent) (va : Nat) (write : Bool) : EngineRes Nat :=
  if 2 ^ 57 ≤ va then .fault s .pfault va
  else
    match combine s (some (clusterOf a.core)) a.vf a.asid va (if write then .write else .read) false with
    | .fail f => .fault s f.code va
    | .ok c =>
      if s.flips.contains (c.pa / 4096) then .flip (c.pa / 4096)
      else if hostPageLost s a.vf c.pa then .fault s .hostlost va
      else
        let s := markUsed s c write
        .ok (if write && c.x then clearExec s a.vf a.asid va else s) c.pa

/-- Reads bytes that lie in one line. -/
def engineReadPiece (s : State) (a : Agent) (va n : Nat) : EngineRes (List Byte) :=
  match windowOfs s a.vf a.asid va, s.wg? a.wg with
  | some o, some g => if g.nearSize < o + n then .fault s .nsbound va else .ok s (g.nearBytes o n)
  | some _, none => .fault s .nsbound va
  | none, _ =>
    match engineAddr s a va false with
    | .ok s pa =>
      if poisoned s pa n then .fault s .poison va
      else
        let (s, bs) := weakNow (llcRead s (dieOf a.core) (pa / 64)) a.core a.chan pa n
        .ok s bs
    | .fault s c v => .fault s c v
    | .flip p => .flip p

/-- Writes bytes that lie in one granule: in the window a copy leaves the granule full, and a live record's granule takes nothing (R313,
R329, R331); `true` says that the write was discarded so. -/
def engineWritePiece (s : State) (a : Agent) (va : Nat) (bs : List Byte) : EngineRes Bool :=
  match windowOfs s a.vf a.asid va, s.wg? a.wg with
  | some o, some g =>
    if g.nearSize < o + bs.length then .fault s .nsbound va
    else if g.tbGranule (o / 16) then .ok s true
    else .ok (s.modWg a.wg fun g => let g := g.setNear o bs; if a.chan = .cpy then g.setFullBit (o / 16) true else g) false
  | some _, none => .fault s .nsbound va
  | none, _ =>
    match engineAddr s a va true with
    | .ok s pa => .ok (opWrite s a.op a.warp a.chan pa bs) false
    | .fault s c v => .fault s c v
    | .flip p => .flip p

/-- Cuts a range at multiples of a power of two. -/
def cutRange (m : Nat) : Nat → Nat → Nat → List (Nat × Nat)
  | 0, _, _ => []
  | k + 1, a, n =>
    if n = 0 then []
    else
      let d := min n (m - a % m)
      (a, d) :: cutRange m k (a + d) (n - d)

/-- Reads a range, line by line. -/
def engineRead (s : State) (a : Agent) (va n : Nat) : EngineRes (List Byte) :=
  (cutRange 64 (n / 64 + 2) va n).foldl (fun (acc : EngineRes (List Byte)) p =>
    match acc with
    | .ok s bs =>
      (match engineReadPiece s a p.1 p.2 with
        | .ok s xs => .ok s (bs ++ xs)
        | .fault s c v => .fault s c v
        | .flip p => .flip p)
    | r => r) (.ok s [])

/-- Writes a range, granule by granule. -/
def engineWrite (s : State) (a : Agent) (va : Nat) (bs : List Byte) : EngineRes Bool :=
  (cutRange 16 (bs.length / 16 + 2) va bs.length).foldl (fun (acc : EngineRes Bool) p =>
    match acc with
    | .ok s d =>
      (match engineWritePiece s a p.1 ((bs.drop (p.1 - va)).take p.2) with
        | .ok s x => .ok s (d || x)
        | .fault s c v => .fault s c v
        | .flip p => .flip p)
    | r => r) (.ok s false)

/-- An instruction that acts once per path when any lane passes the guard (R229). -/
def oncePerAny (c : Ctx) (s : State) (f : Unit → Res) : Res := if c.act = 0 then .done s else f ()

/-- The 64-bit fault word of a copy or batch status: ERR, CODE and LINE (R249, R333). -/
def statusWord (code opr va : Nat) : Word64 := BitVec.ofNat 64 (1 + opr * 4 + code * 2 ^ 5 + va / 64 * 2 ^ 13)

/-- Attaches the IOP's completion flag, if it names one. -/
def attachFlag (s : State) (c : Ctx) : State :=
  match c.setFlag with
  | some f => s.modRegs c.w fun r => r.attachFlag f
  | none => s

end Sys2Proof.Machine
end

