-- ==== Sys2Proof/Machine/Copy.lean ====
section
/-!
DEFINITION. The asynchronous copies (R319-R335, 10_copy.md): issue checks, the streamer's steps, completion and credits, and CPYS, CPYC
and CPYW.
-/

namespace Sys2Proof.Machine

/-! ### What a copy moves -/

/-- The packed pitch of a box row of `n` bytes (R326). -/
def packedPitch (n : Nat) : Nat := (n + 15) / 16 * 16

/-- The element type of CPYQ's codes takes one byte or half a byte (R327). -/
def quantPitch (t : BitVec 512) (ty : ElemType) : Nat := packedPitch (elemBytes ty (tBoxc t))

/-- The bytes that a copy moves through its packed side. -/
def CopyKind.total (k : CopyKind) (n : Nat) : Nat :=
  match k with
  | .quantise t _ _ _ ty _ _ _ _ => tBoxr t * quantPitch t ty
  | _ => n

/-- The piece at an offset of a copy: its source (none for zero bytes), its destinations, and its length. -/
def CopyKind.piece (k : CopyKind) (off : Nat) : Option Nat × List Nat × Nat :=
  match k with
  | .linear src dst => (some (src + off), [dst + off], 512)
  | .gather srcs c dst => (some (srcs.getD (off / c) 0 + off % c), [dst + off], c - off % c)
  | .boxLoad t dst =>
    let row := elemBytes (tFmt t) (tBoxc t)
    let pitch := packedPitch row
    let (i, j) := (off / pitch, off % pitch)
    if j < row then (some (tAddr t i 0 + j), [dst + off], row - j) else (none, [dst + off], pitch - j)
  | .boxStore t src =>
    let row := elemBytes (tFmt t) (tBoxc t)
    let pitch := packedPitch row
    let (i, j) := (off / pitch, off % pitch)
    if j < row then (some (src + off), [tAddr t i 0 + j], row - j) else (none, [], pitch - j)
  | .multicast src dst stride views => (some (src + off), views.map fun v => dst + v * stride + off, 512)
  | .quantise .. => (none, [], 512)

/-- How a step of a copy has gone. -/
structure Moved where
  s    : State
  off  : Nat
  err  : Option (Nat × Nat) := none
  flip : Bool := false
  drop : Bool := false

/-- The bytes of a piece that a chunk takes when it has `room` for some of it: a granule of the window is never cut (R329). -/
def cutPiece (s : State) (a : Agent) (dsts : List Nat) (len room : Nat) : Nat :=
  match dsts with
  | d :: _ =>
    if len ≤ room || (windowOfs s a.vf a.asid d).isNone then min len room else min len ((d + room + 15) / 16 * 16 - d)
  | [] => min len room

/-- Moves one piece; `room` is what the chunk still allows. -/
def movePiece (a : Agent) (k : CopyKind) (total : Nat) (m : Moved) (room : Nat) : Moved :=
  if m.flip || m.err.isSome || decide (total ≤ m.off) then m
  else
    let (src, dsts, len) := k.piece m.off
    let n := min (cutPiece m.s a dsts len room) (total - m.off)
    let got : EngineRes (List Byte) := match src with
      | some va => if dsts.isEmpty then .ok m.s [] else engineRead m.s a va n
      | none => .ok m.s (List.replicate n 0)
    match got with
    | .flip _ => { m with flip := true }
    | .fault s c va => { m with s := s, err := some (faultNumber c, va) }
    | .ok s bs =>
      dsts.foldl (fun (m : Moved) d =>
        if m.flip || m.err.isSome then m
        else match engineWrite m.s a d bs with
          | .ok s x => { m with s := s, drop := m.drop || x }
          | .fault s c va => { m with s := s, err := some (faultNumber c, va) }
          | .flip _ => { m with flip := true }) { m with s := s, off := m.off + n }

/-- What a box store writes next begins inside a granule of the window (R329). -/
def midGranule (s : State) (a : Agent) (k : CopyKind) (off : Nat) : Bool :=
  let inside (d : Nat) : Bool := (windowOfs s a.vf a.asid d).isSome && d % 16 != 0
  match k, k.piece off with
  | .boxStore _ _, (_, [], len) => (k.piece (off + len)).2.1.any inside
  | .boxStore _ _, (_, ds, _) => ds.any inside
  | _, _ => false

/-- Moves the pieces of one chunk of 512 bytes, and those that complete its last granule. -/
def moveChunk (a : Agent) (k : CopyKind) (total : Nat) (goal : Nat) : Nat → Moved → Moved
  | 0, m => m
  | f + 1, m =>
    if (m.off < goal || midGranule m.s a k m.off) && !m.flip && m.err.isNone && decide (m.off < total) then
      moveChunk a k total goal f (movePiece a k total m (max 16 (goal - m.off)))
    else m

/-! ### CPYQ (R327) -/

/-- How the codes and scales of a segment of a row come about: rounding, the block's scale, and the state of stochastic rounding. -/
structure QuantRun where
  codes : List Nat := []
  scales : List (Nat × Nat) := []
  fl    : Exc := 0
  draw  : Word32
deriving DecidableEq, Repr

/-- Quantises one block of a row: the state of stochastic rounding advances once for every element. -/
def quantBlock (env : FEnv) (ty : ElemType) (sfmt : Nat) (book : List Byte) (plain : Bool) (b : Nat) (xs : List FNum) (r : QuantRun) :
    QuantRun :=
  let ys := if plain then xs else if xs.any FNum.isNan then xs.map fun _ => .nan false false (2 ^ 22) 23
    else hadamardAll env.down (if xs.length = 16 then 2 else 3) xs
  let (code, sc, fl) := blockScale ty sfmt book ys
  let r := { r with scales := r.scales ++ [(b, code)], fl := r.fl ||| fl }
  ys.foldl (fun r y =>
    let (q, st) := quantElement env ty book sc y { sr := r.draw }
    let st := if env.mode = 6 && st.sr == r.draw then { st with sr := xorshift st.sr } else st
    { r with codes := r.codes ++ [q], fl := r.fl ||| st.fl, draw := st.sr }) r

/-- The bytes of codes (R197). -/
def packCodes (ty : ElemType) (xs : List Nat) : List Byte :=
  leBytes (elemBytes ty xs.length) (((List.range xs.length).zip xs).foldl (fun n x => n + x.2 % 2 ^ ty.bits * 2 ^ (ty.bits * x.1)) 0)

/-- The place in the scale array of block b of a row, from the row's first column e0 of a chunk (R327). -/
def scaleIndex (t : BitVec 512) (nb i e0 b : Nat) : Nat := (tBrow t + i) * ((tCols t + nb - 1) / nb) + (tBcol t + e0) / nb + b

/-- What a chunk of CPYQ leaves: how it has gone, its flags, the state of stochastic rounding, and the scale bytes still to be written. -/
structure QuantMoved where
  m    : Moved
  fl   : Exc := 0
  draw : Word32
  late : List (Nat × Byte) := []

/-- One chunk of CPYQ: up to 128 elements of a row, with the pad at the row's end. A scale byte for the window is written with the others of
its granule, once the copy has no more for it (R329). -/
def quantChunk (a : Agent) (m : Moved) (t : BitVec 512) (dst : Nat) (desc book : List Byte) (ty : ElemType) (mode : Nat) (plain : Bool)
    (gmode : Word64) (draw : Word32) (late : List (Nat × Byte)) : QuantMoved :=
  let pitch := quantPitch t ty
  let nb := descBlk desc
  let i := m.off / pitch
  let e0 := m.off % pitch * 8 / ty.bits
  let cnt := min 128 (tBoxc t - e0)
  let src := tFmt t
  let env : FEnv := { envOf (if ty == .cb4 then 1 else mode) gmode with daz := false, ftz := false }
  match engineRead m.s a (tAddr t i e0) (elemBytes src cnt) with
  | .flip _ => { m := { m with flip := true }, draw := draw }
  | .fault s c va => { m := { m with s := s, err := some (faultNumber c, va) }, draw := draw }
  | .ok s bs =>
    let x (j : Nat) : FNum := readFloat src false (leNat ((bs.drop (src.bytes * j)).take src.bytes))
    let run := (List.range (cnt / nb)).foldl (fun r b =>
      quantBlock env ty (descSfmt desc) book plain b ((List.range nb).map fun j => x (nb * b + j)) r) { draw := draw }
    let codes := packCodes ty run.codes
    let last := decide (tBoxc t ≤ e0 + cnt)
    let out := if last then codes ++ List.replicate (pitch - m.off % pitch - codes.length) 0 else codes
    let put (m : Moved) (va : Nat) (bs : List Byte) : Moved :=
      if m.flip || m.err.isSome then m
      else match engineWrite m.s a va bs with
        | .ok s x => { m with s := s, drop := m.drop || x }
        | .fault s c va => { m with s := s, err := some (faultNumber c, va) }
        | .flip _ => { m with flip := true }
    let m' := put { m with s := s } (dst + m.off) out
    let base := descScale desc
    let scales := if descSfmt desc = 0 then [] else run.scales.map fun b => (base + scaleIndex t nb i e0 b.1, BitVec.ofNat 8 b.2)
    let next := base + (if last then scaleIndex t nb (i + 1) 0 0 else scaleIndex t nb i (e0 + cnt) 0)
    let stays (va : Nat) : Bool :=
      (windowOfs s a.vf a.asid va).isSome && va / 16 == next / 16 && decide (m.off + out.length < tBoxr t * pitch)
    let all := late ++ scales
    let now := all.filter fun x => !stays x.1
    let m' := now.foldl (fun m x => put m x.1 [x.2]) m'
    { m := if m'.flip || m'.err.isSome then m' else { m' with off := m.off + out.length }
      fl := run.fl, draw := run.draw, late := all.filter fun x => stays x.1 }

/-! ### The streamer's steps (R319, R329-R332, R335) -/

/-- A copy has no more to move. -/
def Copy.moved (x : Copy) : Bool := decide (x.kind.total x.n ≤ x.off)

/-- Replaces a copy. -/
def setCopy (s : State) (x : Copy) : State :=
  { s with eng := { s.eng with copies := s.eng.copies.map fun y => if y.id == x.id then x else y } }

/-- The workgroup that a cluster's streamer serves next: those with a copy to move are served in turn (R319). -/
def inTurn (s : State) (cluster : Nat) : Option Nat :=
  let hs := NSet.insertAll [] ((s.eng.copies.filter fun x => x.cluster == cluster && !x.moved).map (·.wg))
  match s.eng.turn.find? cluster with
  | some h => (hs.find? (h < ·)).or hs.head?
  | none => hs.head?

/-- The copy that a cluster's streamer starts next: the first of the workgroup whose turn it is, unless one of its copies is moving. -/
def nextStart (s : State) (cluster : Nat) : Option Copy :=
  (inTurn s cluster).bind fun h =>
    (s.eng.copies.find? fun x => x.cluster == cluster && x.wg == h && !x.moved).filter fun x => !x.started

/-- COPY_START (R335). -/
def copyStart (cluster : Nat) (s : State) : Option State := (nextStart s cluster).map fun x => setCopy s { x with started := true }

/-- The agent of a copy. -/
def Copy.agent (x : Copy) : Agent :=
  { core := x.core, wg := x.wg, warp := x.warp, vf := x.vf, asid := x.asid, chan := .cpy, op := x.id }

/-- COPY_CHUNK (R319): one chunk of the workgroup whose turn it is moves, or a fault ends the copy (R332): its credit then carries the fault,
which takes the place of an earlier discarded write's mark (R331). Not enabled while a page it needs is flipping. -/
def copyChunk (id : Nat) (s : State) : Option State :=
  match s.eng.copies.find? (·.id == id) with
  | none => none
  | some x =>
    if !x.started || x.moved || inTurn s x.cluster != some x.wg then none
    else
      let m0 : Moved := { s := s, off := x.off }
      let (q, kind) : QuantMoved × CopyKind := match x.kind with
        | .quantise t dst desc book ty mode plain g draw =>
          let q := quantChunk x.agent m0 t dst desc book ty mode plain g draw x.late
          (q, CopyKind.quantise t dst desc book ty mode plain g q.draw)
        | k => ({ m := moveChunk x.agent k (k.total x.n) (x.off + 512) 8192 m0, draw := 0 }, k)
      if q.m.flip then none
      else
        let err := q.m.err.or (if q.m.drop then some (faultNumber .tbstate, 5) else x.err)
        let x := { x with off := if q.m.err.isSome then x.kind.total x.n else q.m.off, kind := kind, wrote := true, exc := x.exc ||| q.fl
                          late := q.late, err := err }
        let s := setCopy q.m.s x
        some { s with eng := { s.eng with turn := s.eng.turn.insert x.cluster x.wg } }

/-- What a copy that completes changes in its warp: its flag clears, and the flags of CPYQ merge into GSTAT (R329, R332). -/
def Copy.complete (x : Copy) (failed : Bool) (w : Warp) : Warp :=
  let w := w.flagDone x.flag
  if x.exc = 0 || failed then w else { w with regs := w.regs.mergeFlags x.id x.exc }

/-- The credits of a copy that completes: one, or one for each view (R328, R329). -/
def copyCredits (s : State) (x : Copy) : State :=
  let views := match x.kind with | .multicast _ _ _ vs => vs | _ => [0]
  match x.tb with
  | none => s
  | some o => views.foldl (fun s v =>
      { s with nextId := s.nextId + 1
               eng := { s.eng with credits := s.eng.credits ++
                 [{ k := s.nextId, wg := x.wg, warp := x.warp, ofs := o + 32 * v, bytes := x.n, arrive := false, ops := [x.id], err := x.err }] } }) s

/-- COPY_COMPLETE (R329, R332): the warp's state changes, the credit leaves, and the first fault is kept for CPYW. It waits while a context
fault keeps the warp's state from being changed. -/
def copyComplete (id : Nat) (s : State) : Option State :=
  match s.eng.copies.find? (·.id == id) with
  | none => none
  | some x =>
    if !x.started || !x.moved || ((s.warp? x.warp).map (·.stuck)).getD false then none
    else
      let failed := x.err.filter fun e => e.1 != faultNumber .tbstate
      match (if x.flag.isNone && x.exc = 0 then .ok s else updateSaved s x.warp (x.complete failed.isSome)) with
      | .error s => some s
      | .ok s =>
        let s := { s with eng := { s.eng with copies := s.eng.copies.filter (·.id != id) } }
        let s := match failed with
          | some (code, va) => s.modWarp x.warp fun w => if w.copyFault = 0 then { w with copyFault := statusWord code 0 va } else w
          | none => s
        some (copyCredits s x)

/-! ### Issue (R320, R323) -/

/-- The first of a list of checks that fails. -/
def firstFault : List (Option (FaultCode × Word64)) → Option (FaultCode × Word64)
  | [] => none
  | some x :: _ => some x
  | none :: rest => firstFault rest

/-- The alignment check of R323 step 5, on values in order. -/
def aligned16 (xs : List Nat) : Option (FaultCode × Word64) := (xs.find? (· % 16 != 0)).map fun x => (.align, BitVec.ofNat 64 x)

/-- The address checks of R323 step 6 on ranges in order. -/
def addresses (s : State) (c : Ctx) (xs : List (Nat × Nat)) : Option (FaultCode × Word64) :=
  match xs.find? fun x => decide (2 ^ 57 ≤ x.1) with
  | some x => some (.pfault, BitVec.ofNat 64 x.1)
  | none => (xs.find? fun x => windowBad s c.warp.wg c.warp.vf c.warp.asid x.1 x.2).map fun x => (.nsbound, BitVec.ofNat 64 x.1)

/-- The barrier checks of R323 step 7. -/
def barrierChecks (s : State) (c : Ctx) (ofs : List Nat) : Option (FaultCode × Word64) :=
  match s.wg? c.warp.wg with
  | none => none
  | some g => firstFault (ofs.map fun o => tbFault g (BitVec.ofNat 64 o) true)

/-- Takes a queue entry for a copy, or waits for one (R319); a length of 0 completes at issue (R324). -/
def queueCopy (c : Ctx) (s : State) (kind : CopyKind) (n : Nat) (tb : Option Nat) : Res :=
  if n = 0 then .done s
  else
    let cluster := clusterOf c.warp.core
    let mine := s.eng.copies.filter (·.cluster == cluster)
    if 128 ≤ mine.length ∨ 32 ≤ (mine.filter (·.wg == c.warp.wg)).length then .wait s .copyRoom
    else match c.flagFull with
      | some f => .wait s (.flagRoom f)
      | none =>
        let x : Copy := { id := s.nextId, cluster := cluster, core := c.warp.core, warp := c.w, wg := c.warp.wg, vf := c.warp.vf
                          asid := c.warp.asid, kind := kind, n := n, tb := tb, flag := c.setFlag }
        .done (attachFlag { s with nextId := s.nextId + 1, eng := { s.eng with copies := s.eng.copies ++ [x] } } c)

/-- Q of format A. -/
def Ctx.qa6 (c : Ctx) : Nat := match c.f with | .a x => x.q.toNat | _ => 0

/-- The barrier that a copy names. -/
def Ctx.copyBarrier (c : Ctx) (nb : Bool) : Option Nat := if nb then none else some c.uC.toNat

/-- The checks fail, or the copy enters the queue. -/
def checked (fs : List (Option (FaultCode × Word64))) (f : Unit → Res) : Res :=
  match firstFault fs with
  | some (code, info) => .trap code info
  | none => f ()

/-- Check 1 of R323. -/
def rights (c : Ctx) : Option (FaultCode × Word64) := if c.warp.producer then none else some (.nocpyright, 0)

/-- CPY (R324). -/
def cpyBody (c : Ctx) (s : State) : Res :=
  oncePerPath c s fun _ =>
    let (d, a, n) := (c.uD.toNat, c.uA.toNat, c.uB.toNat % 2 ^ 32)
    let tb := c.copyBarrier (c.qa6 == 1)
    checked [rights c, aligned16 [a, d, n], addresses s c [(a, n), (d, n)], barrierChecks s c tb.toList] fun _ =>
      queueCopy c s (.linear a d) n tb

/-- CPYO (R325). -/
def cpyoBody (c : Ctx) (s : State) : Res :=
  let size := c.uB.toNat % 2 ^ 32
  let tb := c.copyBarrier (c.qa6 == 1)
  let bad := if size < 16 ∨ 4096 < size then some (FaultCode.align, BitVec.ofNat 64 size) else aligned16 [size]
  let lanes := lanesOf c.act
  let src (l : Nat) : Nat := (c.srcA l).toNat
  let srcs := lanes.map src
  let d := c.uD.toNat
  let n := size * lanes.length
  if lanes.isEmpty then checked [rights c, bad, barrierChecks s c tb.toList] fun _ => .done s
  else
    checked [rights c, aligned16 (srcs ++ [d]), bad, addresses s c (srcs.map (·, size) ++ [(d, n)]), barrierChecks s c tb.toList] fun _ =>
      queueCopy c s (.gather srcs size d) n tb

/-- The record of tA, with the check of R232 as TSHAPE. -/
def shapeFault (t : BitVec 512) : Option (FaultCode × Word64) := (tensorFault t).map fun k => (.tshape, BitVec.ofNat 64 k)

/-- The first and last byte of the box, as ranges for the window check. -/
def boxRanges (t : BitVec 512) : List (Nat × Nat) :=
  (List.range (tBoxr t)).map fun i => (tAddr t i 0, elemBytes (tFmt t) (tBoxc t))

/-- The scale bytes that CPYQ writes for each row of the box, as ranges (R327). -/
def scaleRanges (t : BitVec 512) (desc : List Byte) : List (Nat × Nat) :=
  let nb := descBlk desc
  if descSfmt desc = 0 then [] else (List.range (tBoxr t)).map fun i => (descScale desc + scaleIndex t nb i 0 0, tBoxc t / nb)

/-- CPYT (R326). -/
def cpytBody (c : Ctx) (s : State) : Res :=
  oncePerPath c s fun _ =>
    let t := c.warp.regs.tensor c.f.fa.toNat
    let d := c.uD.toNat
    let tb := c.copyBarrier (decide (2 ≤ c.qa6))
    let n := tBoxr t * packedPitch (elemBytes (tFmt t) (tBoxc t))
    checked [rights c, shapeFault t, aligned16 [d], addresses s c ((d, n) :: boxRanges t), barrierChecks s c tb.toList] fun _ =>
      queueCopy c s (if c.qa6 % 2 = 0 then .boxLoad t d else .boxStore t d) n tb

/-- CPYQ (R327). -/
def cpyqBody (c : Ctx) (s : State) : Res :=
  oncePerPath c s fun _ =>
    let t := c.warp.regs.tensor c.f.fa.toNat
    let d := c.uD.toNat
    let fb := c.uB.toNat
    let tb := c.copyBarrier (decide (2 ≤ c.qa6))
    let shape : FaultCode × Word64 := (.tshape, 7)
    checked [rights c, shapeFault t, if tFmt t == .f32 || tFmt t == .bf16 then none else some shape,
        if fb % 64 != 0 then some (.align, BitVec.ofNat 64 fb) else none] fun _ =>
      loadDesc c s fb (some c.ty) fun s desc =>
        let nb := descBlk desc.1
        let codes := tBoxr t * quantPitch t c.ty
        let scales := if descSfmt desc.1 = 0 then 0 else tBoxr t * (tBoxc t / nb)
        let m := c.fenv.mode
        let stochastic := m = 6 && c.ty != .cb4
        let draw := c.warp.regs.srst.lane c.lane0
        checked [if tBoxc t % nb != 0 || tBcol t % nb != 0 then some shape else none, aligned16 [d],
            addresses s c ((d, codes) :: boxRanges t ++ scaleRanges t desc.1), barrierChecks s c tb.toList] fun _ =>
          match queueCopy c s (.quantise t d desc.1 desc.2 c.ty c.roundM (c.qa6 % 2 == 1) c.warp.regs.gmode draw) (codes + scales) tb with
          | .done s => .done (if stochastic then s.modRegs c.w fun r => { r with srst := r.srst.set c.lane0 (xorshift draw) } else s)
          | r => r

/-- CPYMC (R328). -/
def cpymcBody (c : Ctx) (s : State) : Res :=
  oncePerPath c s fun _ =>
    let (d, a, n) := (c.uD.toNat, c.uA.toNat, c.uB.toNat % 2 ^ 32)
    let m := c.uB.toNat / 2 ^ 32 % 2 ^ 16
    let st := c.uC.toNat / 2 ^ 32
    let views := (List.range 16).filter m.testBit
    let o := c.uC.toNat % 2 ^ 32
    let outside (v : Nat) : Option (FaultCode × Word64) :=
      let va := d + v * st
      if (windowOfs s c.warp.vf c.warp.asid va).isNone then some (.nsbound, BitVec.ofNat 64 va) else none
    checked [rights c, aligned16 [a, d, n, st], if m = 0 then some (.align, 0) else none,
        if 1 < views.length ∧ st < n then some (.align, BitVec.ofNat 64 st) else none,
        addresses s c ((a, n) :: (d, 0) :: views.map fun v => (d + v * st, n)), firstFault (views.map outside),
        if c.qa6 = 1 then none else barrierChecks s c (views.map fun v => o + 32 * v)] fun _ =>
      queueCopy c s (.multicast a d st views) n (if c.qa6 = 1 then none else some o)

/-- Copies of the issuer's workgroup in its cluster's queue. -/
def Ctx.copies (c : Ctx) (s : State) : List Copy := s.eng.copies.filter fun x => x.wg == c.warp.wg

/-- CPYS (R333). -/
def cpysBody (c : Ctx) (s : State) : Res :=
  oncePerPath c s fun _ =>
    let used := (s.eng.copies.filter (·.cluster == clusterOf c.warp.core)).length
    .done (writeUD s c (BitVec.ofNat 64 (bit c.warp.producer * 2 ^ 16 + (128 - used) * 2 ^ 8 + (c.copies s).length)))

/-- CPYC (R333). -/
def cpycBody (c : Ctx) (s : State) : Res :=
  oncePerPath c s fun _ =>
    checked [rights c] fun _ =>
      let gone := s.eng.copies.filter fun x => x.warp == c.w && !x.wrote
      let s := { s with eng := { s.eng with copies := s.eng.copies.filter fun x => !(x.warp == c.w && !x.wrote) } }
      .done (writeUD (gone.foldl (fun s x => s.modWarp c.w (·.flagDone x.flag)) s) c (BitVec.ofNat 64 gone.length))

/-- CPYW (R333). -/
def cpywBody (c : Ctx) (s : State) : Res :=
  oncePerPath c s fun _ =>
    let finish (s : State) : Res :=
      .done ((writeUD s c c.warp.copyFault).modWarp c.w fun x => { x with copyFault := 0 })
    let live (ids : List Nat) : List Nat := ids.filter fun i => s.eng.copies.any (·.id == i)
    match c.path.wait with
    | some (.copies ids) => (match live ids with | [] => finish s | i :: more => .wait s (.copies (i :: more)))
    | _ =>
      checked [rights c] fun _ =>
        match (s.eng.copies.filter (·.warp == c.w)).map (·.id) with
        | [] => finish s
        | i :: more => .wait s (.copies (i :: more))

/-- CPY (R324). -/
def execCpy (x : AForm) : State → Host.Outcome State Fault Refusal := runIop 0x220 (.a x) cpyBody
/-- CPYO (R325). -/
def execCpyo (x : AForm) : State → Host.Outcome State Fault Refusal := runIop 0x221 (.a x) cpyoBody
/-- CPYT (R326). -/
def execCpyt (x : AForm) : State → Host.Outcome State Fault Refusal := runIop 0x222 (.a x) cpytBody
/-- CPYQ (R327). -/
def execCpyq (x : AForm) : State → Host.Outcome State Fault Refusal := runIop 0x223 (.a x) (afterOverflow cpyqBody)
/-- CPYMC (R328). -/
def execCpymc (x : AForm) : State → Host.Outcome State Fault Refusal := runIop 0x224 (.a x) cpymcBody
/-- CPYS (R333). -/
def execCpys (x : RForm) : State → Host.Outcome State Fault Refusal := runIop 0x225 (.r x) cpysBody
/-- CPYC (R333). -/
def execCpyc (x : RForm) : State → Host.Outcome State Fault Refusal := runIop 0x226 (.r x) cpycBody
/-- CPYW (R333). -/
def execCpyw (x : RForm) : State → Host.Outcome State Fault Refusal := runIop 0x227 (.r x) cpywBody
/-- COPY_START (R335). -/
def execCopyStart (cluster : Nat) : State → Host.Outcome State Fault Refusal := runEvent (copyStart cluster)
/-- COPY_CHUNK (R319). -/
def execCopyChunk (id : Nat) : State → Host.Outcome State Fault Refusal :=
  runEvent (limited (fun s => (s.eng.copies.find? (·.id == id)).map fun x => (x.cluster, x.vf)) (copyChunk id))
/-- COPY_COMPLETE (R329). -/
def execCopyComplete (id : Nat) : State → Host.Outcome State Fault Refusal := runEventFlip (copyComplete id)

end Sys2Proof.Machine
end

