-- ==== Sys2Proof/Machine/Interrupts.lean ====
section
/-!
DEFINITION. User-level interrupts (R389-R409, 13_events.md): ports, sends and their combination, delivery into an interrupt frame, the
return from it, and masking, waiting and polling.
-/

namespace Sys2Proof.Machine

/-! ### Ports and senders (R389-R391) -/

/-- The port of an address space. -/
def State.port? (s : State) (vf asid : Nat) : Option Port := s.ui.ports.find? (State.spaceKey vf asid)

/-- Changes the port of an address space. -/
def State.modPort (s : State) (vf asid : Nat) (f : Port → Port) : State :=
  { s with ui := { s.ui with ports := s.ui.ports.adjust (State.spaceKey vf asid) f } }

/-- Changes an entry of a vector table. -/
def State.modVec (s : State) (vf asid v : Nat) (f : Vec → Vec) : State :=
  s.modPort vf asid fun p => { p with vecs := p.vecs.put {} v (f (p.vecs.get {} v)) }

/-- An entry of the permission table names a sender and a vector (R391). -/
def Perm.allows (e : Perm) (src : Sender) (v : Nat) : Bool :=
  let cls := e.cls.toNat % 4
  e.cls.getLsbD 7 && e.vmask.getLsbD v && (match src with
    | .host pasid ld => cls == 1 && e.id.toNat == pasid.toNat + ld * 2 ^ 20
    | .peer asid pkg => cls == 2 && e.id.toNat == asid + pkg * 2 ^ 16
    | .kernel asid => cls == 3 && e.id.toNat == asid
    | .firmware => false)

/-- The TAG of a permitted send (R391, R399); none when it is denied. -/
def Port.tag (p : Port) (asid : Nat) (src : Sender) (v : Nat) : Option Nat :=
  let listed := (List.range 64).find? fun i => (p.perms.get {} i).allows src v
  match src with
  | .firmware => some 65
  | .kernel a => if a = asid then some 64 else listed
  | _ => listed

/-- The warp that a record address names. -/
def warpOfRecord (s : State) (vf asid : Nat) (rec : BitVec 57) : Option Nat :=
  (List.find? (fun (x : Nat × Warp) =>
    x.2.kind == .ordinary && x.2.record == rec && x.2.vf == vf && x.2.asid == asid && !x.2.released) s.warps).map (·.1)

/-! ### Combination (R397, R401) -/

/-- The payload after a send combines. -/
def combined (mode : Nat) (pending : Bool) (old x : Word64) : Word64 :=
  if !pending then x
  else if mode = 0 then old ||| x
  else if mode = 1 then BitVec.ofNat 64 (min (old.toNat + x.toNat) (2 ^ 64 - 1))
  else x

/-- A vector is deliverable to its warp (R398). -/
def Warp.deliverable (x : Warp) : Word64 := if x.uiLanes = 0 then x.regs.uipend &&& ~~~x.regs.uimask else 0

/-- A send combines into the state of a warp; one that makes its vector deliverable abandons an eviction, unless a context fault or a trap takes
the warp off its core (R401). -/
def combineInto (mode v : Nat) (pay : Word64) (x : Warp) : Warp :=
  let r := x.regs
  let x := { x with regs := { r with pay := r.pay.put 0 v (combined mode (r.uipend.getLsbD v) (r.pay.get 0 v) pay)
                                     uipend := r.uipend ||| (1#64 <<< v) } }
  if x.leaving && x.deliverable.getLsbD v && x.faultVa.isNone && x.trap.isNone then { x with leaving := false } else x

/-- A handler that a completion cannot reach: its context fault keeps its state from being changed, so that a send to it waits. -/
def handlerStuck (s : State) (vf asid : Nat) (e : Vec) : Bool :=
  match (warpOfRecord s vf asid e.hrec).bind s.warp? with
  | some x => x.stuck && x.regs.dorm != 12
  | none => false

/-- An accepted send: into the vector entry of a pre-empted handler, otherwise into the handler's state (R401). An error is the state after a
context fault of the handler, with nothing combined. -/
def acceptSend (s : State) (vf asid v tag : Nat) (pay : Word64) : Except State State :=
  let e := ((s.port? vf asid).map (·.vecs.get {} v)).getD {}
  match warpOfRecord s vf asid e.hrec with
  | none => .ok s
  | some n =>
    let s := s.modVec vf asid v fun e => { e with tag := tag }
    if ((s.warp? n).map (·.regs.dorm)).getD 0 = 12 then
      .ok (s.modVec vf asid v fun e => { e with hpay := combined e.mode e.held e.hpay pay, held := true })
    else updateSaved s n (combineInto e.mode v pay)

/-- The checks of R396 at a port, in order: the status, with the TAG of an accepted send. -/
def portStatus (s : State) (vf asid v : Nat) (src : Sender) : Nat × Nat :=
  match s.port? vf asid with
  | none => (2, 0)
  | some p =>
    match p.tag asid src v with
    | none => (1, 0)
    | some tag => if (p.vecs.get {} v).v then (0, tag) else (3, 0)

/-- Queues a send on its way to the engine. -/
def queueSend (s : State) (x : Send) : State :=
  { s with nextId := s.nextId + 1, ui := { s.ui with sends := s.ui.sends ++ [{ x with k := s.nextId }] } }

/-- An earlier send of the same path has not arrived. -/
def Send.behind (x y : Send) : Bool :=
  match x.warp, y.warp with
  | some a, some b => a.1 == b.1 && a.2.1 &&& b.2.1 != 0 && decide (y.k < x.k)
  | _, _ => false

/-- The number of a function among the register pages: PFs first. -/
def funcKey : Func → Nat
  | .pf n => n
  | .vf n => 16 + n

/-- Counts a refused host send or a malformed write in UIREFUSE (R464). -/
def countRefusal (s : State) (f : Func) : State :=
  let r := s.pkg.funcs.get {} (funcKey f)
  let r := { r with refuse := if r.refuse = 0xFFFFFFFF then r.refuse else r.refuse + 1 }
  { s with pkg := { s.pkg with funcs := s.pkg.funcs.insert (funcKey f) r } }

/-- Where a send goes: nowhere, to this package's port, or to a peer package. -/
inductive SendGoal where
  | unreachable
  | here
  | peer
deriving DecidableEq, Repr

/-- The package that a send names. -/
def Send.goal (s : State) (x : Send) : SendGoal :=
  match x.pkg with
  | none => .here
  | some pkg => if !s.reaches pkg then .unreachable else if pkg = s.pkg.number then .here else .peer

/-- The status of a send, with the TAG of one that this package accepts (R396). What a peer package answers is its own. -/
def Send.status (s : State) (x : Send) : Nat × Nat :=
  match x.goal s with
  | .unreachable => (4, 0)
  | .here => portStatus s x.vf x.asid x.v x.src
  | .peer => ((Config.peerStatus s.fresh).val, 0)

/-- The sender's uniform receives the status, where a warp has sent it. -/
def answerSend (s : State) (x : Send) (st : Nat) : Except State State :=
  match x.warp with
  | some (w, _, d) => updateSaved s w fun y => { y with regs := y.regs.setUni d (BitVec.ofNat 64 st) }
  | none => .ok s

/-- UI_SEND_ARRIVE (R396): the engine checks the send and gives its status; a refused host send is counted (R464), and a peer package is told.
The send waits while a context fault keeps its sender or its handler from being changed; where the change meets such a fault, the send has
not arrived. -/
def sendArrive (k : Nat) (s : State) : Option State :=
  match s.ui.sends.find? (·.k == k) with
  | none => none
  | some x =>
    let (st, tag) := x.status s
    let mine := st == 0 && x.goal s == .here
    let e := ((s.port? x.vf x.asid).map (·.vecs.get {} x.v)).getD {}
    let senderStuck := (x.warp.bind fun y => (s.warp? y.1).map (·.stuck)).getD false
    if s.ui.sends.any x.behind || senderStuck || (mine && handlerStuck s x.vf x.asid e) then none
    else
      match answerSend s x st with
      | .error s => some s
      | .ok s =>
        match (if mine then acceptSend s x.vf x.asid x.v tag x.pay else .ok s) with
        | .error s => some s
        | .ok s =>
          let s := { s with fresh := s.fresh + 1, ui := { s.ui with sends := s.ui.sends.filter (·.k != k) } }
          let s := match x.src with | .peer _ _ => s.emit (.value (BitVec.ofNat 64 st)) | _ => s
          some (match x.func with
            | some f => if st = 0 then s else countRefusal s f
            | none => s)

/-- UISEND (R396). -/
def uisendBody (c : Ctx) (s : State) : Res :=
  oncePerPath c s fun _ =>
    let a := c.uA
    let remote := a.getLsbD 41
    releaseThen c s (if remote then .pod else .pkg) fun s =>
      let t := a.toNat / 2 ^ 16 % 2 ^ 16
      .done (queueSend s { k := 0, vf := c.warp.vf, asid := if t = 0xFFFF then c.warp.asid else t, v := a.toNat % 64, pay := c.uB
                           src := .kernel c.warp.asid, pkg := if remote then some (a.toNat / 2 ^ 32 % 512) else none
                           warp := some (c.w, c.path.lmask, c.f.d.toNat) })

/-! ### Registration (R395) -/

/-- UIREG. -/
def uiregBody (c : Ctx) (s : State) : Res :=
  oncePerPath c s fun _ =>
    let a := c.uA.toNat
    let v := a % 64
    let st (n : Nat) (s : State) : Res := .done (writeUD s c (BitVec.ofNat 64 n))
    match s.port? c.warp.vf c.warp.asid with
    | none => st 3 s
    | some p =>
      let e := p.vecs.get {} v
      if a / 2 ^ 6 % 4 = 3 ∨ 2 ^ 57 ≤ c.uB.toNat then st 2 s
      else if e.v && e.hrec != c.warp.record then st 1 s
      else st 0 (s.modVec c.warp.vf c.warp.asid v fun e =>
        { e with hrec := c.warp.record, v := true, entry := c.uB.truncate 57, mode := a / 2 ^ 6 % 4, prio := a / 2 ^ 8 % 16
                 frame := a / 2 ^ 16 % 32 })

/-- PND of a vector clears. -/
def clearPending (v : Nat) (y : Warp) : Warp := { y with regs := { y.regs with uipend := y.regs.uipend &&& ~~~(1#64 <<< v) } }

/-- A warp on its core gives a vector up: V and PND clear. -/
def unregister (s : State) (w : Nat) (x : Warp) (v : Nat) : State := (s.modVec x.vf x.asid v fun _ => {}).modWarp w (clearPending v)

/-- A warp holds a vector. -/
def holdsVector (s : State) (x : Warp) (v : Nat) : Bool :=
  ((s.port? x.vf x.asid).map fun p => let e := p.vecs.get {} v; e.v && e.hrec == x.record).getD false

/-- UIUNREG. -/
def uiunregBody (c : Ctx) (s : State) : Res :=
  oncePerPath c s fun _ =>
    let v := c.uA.toNat % 64
    if holdsVector s c.warp v then .done (writeUD (unregister s c.w c.warp v) c 0) else .done (writeUD s c 1)

/-! ### Delivery (R398-R400) -/

/-- Waits in place in which a path is eligible (R398), WAITF among them. -/
def Wait.eligible : Wait → Bool
  | .flags _ | .barrier _ _ | .barrierCount _ _ | .tb _ _ | .batch _ | .copies _ | .nodeRoom _ _ _ | .grid _ | .callIdle | .callReply none
  | .callRead | .sleep _ _ none | .uiwait _ _ none => true
  | .granules op _ _ => match op with | .readFull | .readEmpty | .writeEmpty => true | _ => false
  | _ => false

/-- The place of a path in the choice of R398; none when it is not eligible. A path at a clause boundary waits for nothing, for its header's
flags, or for the fetch of its next line; one stopped at a page request is not eligible. -/
def Path.deliveryRank (q : Path) : Option Nat :=
  if q.restarts || q.stopped then none
  else
    match q.wait with
    | none | some (.walk _) | some .walkRoom | some (.flip _) => if q.clause.isNone then some 2 else none
    | some (.header _) => some 2
    | some (.uiwait _ _ none) => some 0
    | some w => if w.eligible then some 1 else none

/-- The path to which the engine delivers. -/
def chosenPath (r : Regs) : Option Nat :=
  let of (k : Nat) := (List.find? (fun (q : Nat × Path) => q.2.deliveryRank == some k) r.paths).map (·.1)
  (of 0).or ((of 1).or (of 2))

/-- The vector that the engine takes: the highest PRIO, then the lowest number. -/
def chosenVector (p : Port) (x : Warp) : Option Nat :=
  (List.range 64).foldl (fun best v =>
    if x.deliverable.getLsbD v && (p.vecs.get {} v).v then
      match best with
      | some b => if (p.vecs.get {} b).prio < (p.vecs.get {} v).prio then some v else best
      | none => some v
    else best) none

/-- The delivery that a warp on its core is due, as vector and path: the path neither starts a clause nor times out before it (R399, R406). -/
def pendingDelivery (s : State) (x : Warp) : Option (Nat × Nat) :=
  if x.place.isNone || x.arriving || x.trap.isSome || x.faultVa.isSome || x.kind != .ordinary then none
  else match (s.port? x.vf x.asid).bind (chosenVector · x), chosenPath x.regs with
    | some v, some p => some (v, p)
    | _, _ => none

/-- The words of an interrupt frame's slots from WTOP on (R399). -/
def frameWords (q : Path) (v tag : Nat) (pay : Word64) (rk : Bool) : List Word32 :=
  [q.pc.truncate 32, (q.pc.extractLsb' 32 25).zeroExtend 32,
   BitVec.ofNat 32 (v * 2 ^ 26 + bit rk * 2 ^ 23 + bit q.park * 2 ^ 22 + (q.wtop.toNat - q.wbase.toNat) * 2 ^ 8), q.iter,
   pay.truncate 32, pay.extractLsb' 32 32, BitVec.ofNat 32 v, BitVec.ofNat 32 tag]

/-- The wait that an interrupted path takes up again: that of an instruction which it waits in (R399). -/
def Path.interruptedWait (q : Path) : Option Wait := q.wait.filter (·.eligible)

/-- The path in its handler (R399); the lanes hold an interrupt frame, with the wait that follows its return. -/
def Path.handling (e : Vec) (fr : Nat) (q : Path) : Path :=
  let top := q.wtop.toNat
  { q with pc := e.entry, pcHi := 0, wbase := BitVec.ofNat 16 (top + 4), wtop := BitVec.ofNat 17 (top + 4 + fr), iter := 0
           depth := q.depth + 1, park := false, clause := none, wait := none, notes := [], age := none
           frames := { depth := (q.depth + 1).toNat, lanes := q.lmask, prio := e.prio, wait := q.interruptedWait } :: q.frames }

/-- The frame size of a vector entry in slots. -/
def Vec.frameSlots (e : Vec) : Nat := if e.frame = 0 then 256 else 8 * e.frame

/-- UI_DELIVERY (R398, R399): one path of the warp is redirected to the handler, once its earlier reads have returned, which the refresh
follows (R300). -/
def deliver (w : Nat) (s : State) : Option State :=
  match s.warp? w with
  | none => none
  | some x =>
    match pendingDelivery s x with
    | none => none
    | some (v, p) =>
      match s.path? w p with
      | none => none
      | some q =>
        let e := ((s.port? x.vf x.asid).map (·.vecs.get {} v)).getD {}
        let fr := e.frameSlots
        let top := q.wtop.toNat
        if !(pendingReads s w q.lmask).isEmpty then none
        else if x.regs.stackSize < top + 4 + fr then some (raiseFault s w p .winovf (BitVec.ofNat 64 (top + 4 + fr)))
        else
          match bringSlots s w ((List.range 8).map (top + ·)) with
          | (s, some va) => some (contextFault s w va)
          | (s, none) =>
            let words := frameWords q v e.tag (x.regs.pay.get 0 v) q.interruptedWait.isSome
            let put (x : Warp) (i : Nat) : Warp := x.setRow (top + i) q.lmask (Row.ofFn fun _ => words.getD i 0)
            let s := s.modWarp w fun x => { clearPending v ((List.range 8).foldl put x) with uiLanes := q.lmask, leaving := false }
            let s := s.modPath w p (Path.handling e fr)
            some (allocateFrame (refresh s x.core .pod) w (top + 4) (top + 4 + fr))

/-! ### Return and acknowledgement (R402-R404) -/

/-- The wait that a returning path takes up again, or its result. -/
def resumed : Wait → Wait
  | .sleep since t none => .sleep since t (some (2, false))
  | .uiwait since t none => .uiwait since t (some 0)
  | w => w

/-- A path that has returned from the interrupt frame of a depth: its lanes hold the frame no longer, and with RK = 1 it takes up the wait that
the frame kept (R402). -/
def Path.returned (depth : Nat) (rk : Bool) (q : Path) : Path :=
  { q with wait := if rk then ((q.frames.find? (·.depth == depth)).bind (·.wait)).map resumed else none
           frames := q.frames.filter (·.depth != depth) }

/-- The words of the interrupt frame's link record below a path's window (R399). -/
def Ctx.frameSlots (c : Ctx) : List Nat := (List.range 4).map fun i => c.path.wbase.toNat - 4 + i

/-- Where UIEND takes a lane (R402). -/
def Ctx.frameGoal (c : Ctx) (l : Nat) : Goal :=
  let frame := (c.linkWord 2 l).extractLsb' 8 9
  { pc := ((c.linkWord 3 l).truncate 25) ++ (c.linkWord 4 l), wbase := c.path.wbase - frame.zeroExtend 16 - 4
    wtop := (c.path.wbase - 4).zeroExtend 17, iter := c.linkWord 1 l, depth := c.path.depth - 1
    park := (c.linkWord 2 l).getLsbD 22 }

/-- UIEND (R402). -/
def uiendBody (c : Ctx) (s : State) : Res :=
  oncePerPath c s fun _ =>
    if c.path.depth = 0 then .trap .uistate 2
    else
      withSlots c s c.frameSlots fun _ =>
        let info := c.linkWord 2 c.lane0
        if info.toNat % 256 ≠ 0 then .trap .uistate 2
        else
          let rk (q : Path) : Bool := (c.linkWord 2 ((lowLane q.lmask).getD 0)).getLsbD 23
          let s := splitPath c s (fun l => (c.frameGoal l, false)) fun q => q.returned c.path.depth.toNat (rk q)
          let s := if info.getLsbD 25 then s else s.modWarp c.w fun x => { x with uiLanes := 0 }
          .moved ((NSet.insertAll [] ((lanesOf c.path.lmask).map fun l => (c.frameGoal l).wbase.toNat * 2 ^ 17 + (c.frameGoal l).wtop.toNat)).foldl
            (fun s k => refillWindow s c.w (k / 2 ^ 17) (k % 2 ^ 17)) s)

/-- UIACK (R404). -/
def uiackBody (c : Ctx) (s : State) : Res :=
  oncePerPath c s fun _ =>
    let n := c.path.wbase.toNat - 2
    if c.path.depth = 0 then .trap .uistate 3
    else
      withSlots c s [n] fun _ =>
        let row := c.warp.regs.row n
        let info := row.lane c.lane0
        if info.toNat % 256 ≠ 0 then .trap .uistate 3
        else if info.getLsbD 25 then .done s
        else .done (s.modWarp c.w fun x =>
          { x.setRow n c.path.lmask (Row.ofFn fun l => row.lane l ||| 0x2000000) with uiLanes := 0 })

/-! ### Masking, waiting and polling (R405-R407) -/

/-- UIMASK. -/
def uimaskBody (c : Ctx) (s : State) : Res :=
  oncePerPath c s fun _ =>
    let m := c.warp.regs.uimask
    let a := c.uA
    let new := match c.q with | 0 => a | 1 => m ||| a | _ => m &&& ~~~a
    .done (writeUD (s.modRegs c.w fun r => { r with uimask := new }) c m)

/-- UIWAIT. -/
def uiwaitBody (c : Ctx) (s : State) : Res :=
  oncePerPath c s fun _ =>
    match c.path.wait with
    | some (.uiwait _ _ (some n)) => .done (writeUD s c (BitVec.ofNat 64 n))
    | some (.uiwait since t none) => .wait s (.uiwait since t none)
    | _ => .wait s (.uiwait s.clock (c.uA.toNat % 2 ^ 32) none)

/-- UIWAIT_TIMEOUT (R406); a delivery that the path is due comes first. -/
def uiwaitTimeout (w p : Nat) (s : State) : Option State :=
  match s.path? w p with
  | some q =>
    (match q.wait with
      | some (.uiwait since t none) =>
        if 0 < t && decide (since + t ≤ s.clock) && ((s.warp? w).bind (pendingDelivery s)).map (·.2) != some p then some (s.modPath w p fun q => { q with wait := some (.uiwait since t (some 1)) })
        else none
      | _ => none)
  | none => none

/-- UIPOLL and UIPOLL.take. -/
def uipollBody (c : Ctx) (s : State) : Res :=
  oncePerPath c s fun _ =>
    let r := c.warp.regs
    if c.q = 0 then .done (writeUD s c (r.uipend &&& ~~~r.uimask))
    else
      let v := c.uA.toNat % 64
      if r.uipend.getLsbD v then
        afterReads c s fun _ =>
          let s := writePred s c c.f.fc.toNat 0xFFFFFFFF 0xFFFFFFFF
          .done (refresh ((writeUD s c (r.pay.get 0 v)).modWarp c.w (clearPending v)) c.warp.core .pod)
      else .done (writeUD (writePred s c c.f.fc.toNat 0xFFFFFFFF 0) c 0)

/-- UISEND (R396). -/
def execUisend (x : RForm) : State → Host.Outcome State Fault Refusal := runIop 0x260 (.r x) uisendBody
/-- UIREG (R395). -/
def execUireg (x : RForm) : State → Host.Outcome State Fault Refusal := runIop 0x261 (.r x) uiregBody
/-- UIUNREG (R395). -/
def execUiunreg (x : RForm) : State → Host.Outcome State Fault Refusal := runIop 0x262 (.r x) uiunregBody
/-- UIMASK (R405). -/
def execUimaskOp (x : RForm) : State → Host.Outcome State Fault Refusal := runIop 0x263 (.r x) uimaskBody
/-- UIWAIT (R406). -/
def execUiwait (x : RForm) : State → Host.Outcome State Fault Refusal := runIop 0x264 (.r x) uiwaitBody
/-- UIEND (R402). -/
def execUiend (x : RForm) : State → Host.Outcome State Fault Refusal := runIop 0x265 (.r x) uiendBody
/-- UIACK (R404). -/
def execUiack (x : RForm) : State → Host.Outcome State Fault Refusal := runIop 0x266 (.r x) uiackBody
/-- UIPOLL (R407). -/
def execUipoll (x : RForm) : State → Host.Outcome State Fault Refusal := runIop 0x267 (.r x) uipollBody
/-- UI_SEND_ARRIVE (R396). -/
def execUiSendArrive (k : Nat) : State → Host.Outcome State Fault Refusal := runEventFlip (sendArrive k)
/-- UI_DELIVERY (R398). -/
def execUiDelivery (w : Nat) : State → Host.Outcome State Fault Refusal := runEventFlip (deliver w)
/-- UIWAIT_TIMEOUT (R406). -/
def execUiwaitTimeout (w p : Nat) : State → Host.Outcome State Fault Refusal := runEvent (uiwaitTimeout w p)

end Sys2Proof.Machine
end

