-- ==== Sys2Proof/Machine/Matrix.lean ====
section
/-!
DEFINITION. The matrix instructions (R226-R257, 07_matrix.md): accumulators, the engine queue, tile fetch, the arithmetic of MMA, the
moves and conversions of accumulators, product tables, batches with their status and cartouches, and tensor shape records.
-/

namespace Sys2Proof.Machine

/-! ### Accumulators (R227, R228) -/

/-- The word of an accumulator at a row and a column. -/
def Regs.accWord (r : Regs) (j row col : Nat) : Word32 := (r.acc.get [] (64 * j + row)).getD col 0

/-- Replaces a row of an accumulator. -/
def Regs.setAccRow (r : Regs) (j row : Nat) (xs : List Word32) : Regs :=
  { r with acc := if xs.all (· == 0) then r.acc.erase (64 * j + row) else r.acc.insert (64 * j + row) xs }

/-- The pattern of an element: one word, or both words of the FP64 view. -/
def Regs.accVal (r : Regs) (wide : Bool) (j row col : Nat) : Nat :=
  (r.accWord j row col).toNat + (if wide then (r.accWord (j + 1) row col).toNat * 2 ^ 32 else 0)

/-- Replaces a row of patterns. -/
def Regs.setAccVals (r : Regs) (wide : Bool) (j row : Nat) (xs : List Nat) : Regs :=
  let r := r.setAccRow j row (xs.map fun x => BitVec.ofNat 32 x)
  if wide then r.setAccRow (j + 1) row (xs.map fun x => BitVec.ofNat 32 (x / 2 ^ 32)) else r

/-- The rows that lanes own (R227). -/
def rowsOf (m : BitVec 32) : List Nat := (lanesOf m).flatMap fun l => [2 * l, 2 * l + 1]

/-- The bound of R227 and R228 on an accumulator operand. -/
def accBound (c : Ctx) (wide : Bool) (j : Nat) : Option (FaultCode × Word64) :=
  let last := if wide then j + 1 else j
  if c.warp.regs.nacc ≤ last then some (.accbound, BitVec.ofNat 64 last) else none

/-! ### The engine queue (R226, R247) -/

/-- The open batch of a warp: a later operation of the batch classes joins it. -/
def Warp.openBatch (x : Warp) : Batch :=
  match x.batches.getLast? with
  | some b => if b.closed then { b := x.regs.blast + 1 } else b
  | none => { b := x.regs.blast + 1 }

/-- Replaces the open batch. -/
def Warp.setOpen (x : Warp) (b : Batch) : Warp := { x with batches := x.batches.filter (·.closed) ++ [b] }

/-- An operation enters the engine queue, or waits for an entry or for its flag. -/
def queueOp (c : Ctx) (s : State) (kind : EngineKind) (batch : Bool) (need : List (Nat × Nat)) : Res :=
  let core := c.warp.core
  if 32 ≤ (s.eng.queue.filter (·.core == core)).length then .wait s .engineRoom
  else match c.flagFull with
    | some f => .wait s (.flagRoom f)
    | none =>
      let o : EngineOp := { id := s.nextId, core := core, warp := c.w, lanes := c.act, kind := kind, flag := c.setFlag, batch := batch, need := need
                            after := c.path.after, issued := s.clock, ready := s.clock }
      let s := attachFlag { s with nextId := s.nextId + 1, eng := { s.eng with queue := s.eng.queue ++ [o] } } c
      .done (if batch then s.modWarp c.w fun x =>
        let b := x.openBatch
        x.setOpen { b with ops := b.ops ++ [o.id], nops := b.nops + 1
                           times := { b.times with tin0 := if need.isEmpty then b.times.tin0 else b.times.tin0.or (some s.clock) } }
        else s)

/-- The lines that byte ranges lie in, each with the operand code of the first range that needs it. -/
def fetchLines (xs : List (Nat × Nat × Nat)) : List (Nat × Nat) :=
  (xs.flatMap fun x => (List.range ((x.1 + x.2.1 - 1) / 64 - x.1 / 64 + 1)).map fun i => ((x.1 / 64 + i) * 64, x.2.2)).foldl
    (fun ys y => if ys.any (·.1 == y.1) then ys else ys ++ [y]) []

/-- The byte ranges of rows of a box. -/
def boxRows (t : BitVec 512) (rows : List Nat) (opr : Nat) : List (Nat × Nat × Nat) :=
  rows.map fun i => (tAddr t i 0, elemBytes (tFmt t) (tBoxc t), opr)

/-! ### MMA (R237, R241, R242) -/

/-- The scale index of element (i, k) of the A box, and of element (k, j) of the B box (R237). -/
def scaleIndexA (t : BitVec 512) (nb i k : Nat) : Nat := (tBrow t + i) * ((tCols t + nb - 1) / nb) + (tBcol t + k) / nb
def scaleIndexB (t : BitVec 512) (nb j k : Nat) : Nat := (tBcol t + j) * ((tRows t + nb - 1) / nb) + (tBrow t + k) / nb

/-- The scale bytes that an operand reads; `idx` gives the index for a row or column and a place along K. -/
def scaleBytes (d : List Byte) (kk : Nat) (idx : Nat → Nat → Nat) : List (Nat × Nat × Nat) :=
  if descSfmt d = 0 then []
  else (List.range 64).map fun i => (descScale d + idx i 0, idx i (kk - 1) - idx i 0 + 1, 2)

/-- A byte that has been fetched. -/
def EngineOp.byte (o : EngineOp) (va : Nat) : Byte := ((o.lines.find? (va / 64)).getD []).getD (va % 64) 0

/-- The pattern of element (i, k) of a box that has been fetched; a 4-bit element lies in its nibble (R197, R230). -/
def EngineOp.element (o : EngineOp) (t : BitVec 512) (i k : Nat) : Nat :=
  let a := tAddr t i k
  if fourBit (tFmt t) then (o.byte a).toNat / (if (tBcol t + k) % 2 = 0 then 1 else 16) % 16
  else leNat ((List.range (tFmt t).bytes).map fun i => o.byte (a + i))

/-- The value of a scale as a datum. -/
def Scale.num : Scale → FNum
  | .nan => .nan false false (2 ^ 22) 23
  | .val d => .fin d

/-- The scale of an operand at an index. -/
def EngineOp.scale (o : EngineOp) (d : List Byte) (idx : Nat) : FNum :=
  if descSfmt d = 0 then Scale.one.num else (scaleOf (descSfmt d) (o.byte (descScale d + idx)).toNat).num

/-- The product of two data, either of which may be invalid. -/
def mulOption (a b : Option FNum) : Option FNum := a.bind fun x => b.bind fun y => FNum.mul x y

/-- The rounding of MMA: to nearest even, whatever GMODE holds. -/
def mmaEnv : FEnv := { mode := 1, daz := false, ftz := false, satn := false, nanp := false }

/-- The exact sum of a group; `none` where it is not a number or invalid. -/
def groupSum : List (Option FNum) → Option FNum
  | [] => some (.fin ⟨false, 0, 0⟩)
  | t :: rest => (rest.foldl (addOption false) t).filter fun x => !x.isNan

/-- One step of MMA: the group's sum is rounded and added to the accumulator's element. -/
def mmaStep (fp : ElemType) (terms : List (Option FNum)) (acc : Nat) (st : FLane) : Nat × FLane :=
  let (t, st) : FNum × FLane := match groupSum terms with
    | some (.fin d) => let (x, st) := roundTo mmaEnv fp false true d.toApprox st; (readFloat fp false x, st)
    | some x => (x, st)
    | none => (readFloat fp false (canonicalNan fp), st.raise Exc.iv)
  addValue mmaEnv fp t (readFloat fp false acc) st

/-- One element of the result of MMA: `a`, `b` and the scales by their place along K. -/
def mmaElement (fp : ElemType) (g n : Nat) (term : Nat → Option FNum) (acc : Nat) (st : FLane) : Nat × FLane :=
  (List.range (n / g)).foldl (fun r i => mmaStep fp ((List.range g).map fun k => term (i * g + k)) r.1 r.2) (acc, st)

/-- The rows of an accumulator recomputed: `f` gives an element from its row, column and old pattern, in order along each row. -/
def mapRows (r : Regs) (wide : Bool) (dst src : Nat) (m : BitVec 32) (f : Nat → Nat → Nat → FLane → Nat × FLane) : Regs × Exc :=
  (rowsOf m).foldl (fun (acc : Regs × Exc) row =>
    let lane := row / 2
    let (xs, st) := (List.range 64).foldl (fun (a : List Nat × FLane) col =>
      let (x, st) := f row col (r.accVal wide src row col) a.2
      (a.1 ++ [x], st)) ([], { sr := acc.1.srst.lane lane })
    ({ (acc.1.setAccVals wide dst row xs) with srst := acc.1.srst.set lane st.sr }, acc.2 ||| st.fl)) (r, 0)

/-- The type in which MMA and the moves accumulate (R228, R242). -/
def accType (t : ElemType) : ElemType := if t == .f64 then .f64 else .f32

/-- MMA on the accumulators of its warp (R242). -/
def mmaRegs (o : EngineOp) (acc : Nat) (a b : BitVec 512) (fb : List Byte) (t : ElemType) (zero : Bool) (prods : List Nat) (r : Regs) :
    Regs × Exc :=
  let fp := accType t
  let (da, db) := (fb.take 32, fb.drop 32)
  let n := tBoxc a
  let term (i j k : Nat) : Option FNum :=
    let p : Option FNum :=
      if t == .cb4 then some (readFloat .f32 false (prods.getD (16 * o.element a i k + o.element b k j) 0))
      else FNum.mul (readFloat (tFmt a) false (o.element a i k)) (readFloat (tFmt b) false (o.element b k j))
    mulOption (mulOption p (some (o.scale da (scaleIndexA a (descBlk da) i k)))) (some (o.scale db (scaleIndexB b (descBlk db) j k)))
  mapRows r (t == .f64) acc acc o.lanes fun i j old st =>
    mmaElement fp (if t == .f64 then 4 else 16) n (term i j) (if zero then 0 else old) st

/-! ### Moves and conversions (R244-R246) -/

/-- MLDA's element: BF16 and FP16 widen exactly to FP32; GMODE.NANP of the issue says what a NaN becomes (R204). -/
def widen (g : Word64) (t : ElemType) (x : Nat) (st : FLane) : Nat × FLane :=
  if t == .f64 || t == .f32 then (x, st) else convert { mmaEnv with nanp := g.getLsbD 9 } .f32 (readFloat t false x) st

/-- MSTA's element: FP32 and FP64 are stored as they are. -/
def narrow (env : FEnv) (t : ElemType) (x : Nat) (st : FLane) : Nat × FLane :=
  if t == .f64 || t == .f32 then (x, st) else convert env t (readFloat .f32 false x) st

/-- MCVT's element: scaled, rounded to the type, and widened; an exact FP32 result is not rounded, and an E4M3 NaN becomes the canonical one
(R246). -/
def roundAcc (env : FEnv) (t : ElemType) (n : Int) (x : Nat) (st : FLane) : Nat × FLane :=
  let y := (readFloat .f32 false x).scale n
  let (e, st') := convert { env with mode := 1 } .f32 y { st with fl := 0 }
  if t == .f32 && st'.fl == 0 then (e, st)
  else
    let (z, st) := convert env t y st
    ((convert { env with mode := 1, nanp := env.nanp && t != .e4m3 } .f32 (readFloat t false z) {}).1, st)

/-- DAZ and FTZ do not act on the class (R242, R246). -/
def matrixEnv (m : Nat) (g : Word64) : FEnv := { envOf m g with daz := false, ftz := false }

/-- The bytes of a row that MSTA stores, with the state of the row's lane. -/
def rowBytes (r : Regs) (a : Nat) (ty : ElemType) (env : FEnv) (row : Nat) (st : FLane) : List Byte × FLane :=
  (List.range 64).foldl (fun (x : List Byte × FLane) col =>
    let (v, st) := narrow env ty (r.accVal (ty == .f64) a row col) x.2
    (x.1 ++ leBytes ty.bytes v, st)) ([], st)

/-! ### Product tables (R238, R239) -/

/-- The 256 products of two codebooks as FP32 patterns; `none` unless all are exact. -/
def products (a b : List Byte) : Option (List Nat) :=
  ((List.range 256).foldl (fun (acc : Option (List Nat)) i =>
    acc.bind fun xs =>
      match bookValue a (i / 16), bookValue b (i % 16) with
      | .fin x, .fin y =>
        let (p, st) := roundTo mmaEnv .f32 false true (x.mul y).toApprox {}
        if st.fl = 0 then some (p :: xs) else none
      | _, _ => none) (some [])).map List.reverse

/-- A table with matching tags. -/
def ProductTable.is (t : ProductTable) (core vf asid cbA cbB : Nat) : Bool :=
  t.core == core && t.vf == vf && t.asid == asid && t.cbA == cbA && t.cbB == cbB

/-- A table of a core has been used: it is the most recently used. -/
def touchTable (s : State) (t : ProductTable) : State := { s with eng := { s.eng with tables := s.eng.tables.erase t ++ [t] } }

/-- A new table takes a place in its core's store of four, or that of the least recently used table (R238, R239). -/
def newTable (s : State) (t : ProductTable) : State :=
  let mine := s.eng.tables.filter (·.core == t.core)
  let rest := if mine.length < 4 then s.eng.tables else match mine.head? with | some e => s.eng.tables.erase e | none => s.eng.tables
  { s with eng := { s.eng with tables := rest ++ [t] } }

/-- A table that MPTB has built replaces any with the same tags (R254). -/
def replaceTable (s : State) (t : ProductTable) : State :=
  newTable { s with eng := { s.eng with tables := s.eng.tables.filter fun x => !x.is t.core t.vf t.asid t.cbA t.cbB } } t

/-- The table of a CB4 MMA under GMODE.PTBP (R239); of several with matching tags, the most recently used. -/
def withTable (c : Ctx) (s : State) (a b : List Byte × List Byte) (f : State → List Nat → Res) : Res :=
  let (core, vf, asid) := (c.warp.core, c.warp.vf, c.warp.asid)
  let (cbA, cbB) := (descBook a.1, descBook b.1)
  let mine := s.eng.tables.reverse.filter (·.is core vf asid cbA cbB)
  let build (s : State) (x y : List Byte) : Res :=
    match products x y with
    | none => .trap .fmtblk 6
    | some ps => f (newTable s { core := core, vf := vf, asid := asid, cbA := cbA, cbB := cbB, prods := ps, mptb := false }) ps
  match c.warp.regs.gmode.toNat / 2 ^ 10 % 4 with
  | 2 => fetchBytes c s cbA 32 fun s x => fetchBytes c s cbB 32 fun s y => build s x y
  | 1 => (match mine.find? (·.mptb) with | some t => f (touchTable s t) t.prods | none => .trap .fmtblk 7)
  | _ => (match mine.head? with | some t => f (touchTable s t) t.prods | none => build s a.2 b.2)

/-! ### Issue -/

/-- Check 5 of R241. -/
def pairLegal (t u : ElemType) (scaled : Bool) : Bool :=
  let small := t == .e4m3 || t == .e5m2
  (t == u || (small && (u == .e4m3 || u == .e5m2))) && (!scaled || small || t == .e2m1 || t == .cb4)

/-- Check 6 of R241. -/
def mmaShape (a b : BitVec 512) : Bool :=
  tBoxr a == 64 && tBoxc b == 64 && tBoxc a == tBoxr b && tBoxc a % 32 == 0 && decide (32 ≤ tBoxc a) && decide (tBoxc a ≤ 4096)

/-- An asynchronous matrix instruction: with no active lane it enters the queue and has no effect (R229). -/
def engineBody (kind : EngineKind) (batch : Bool) (f : Unit → Res) (c : Ctx) (s : State) : Res :=
  if c.act = 0 then queueOp c s kind batch [] else f ()

/-- MMA (R241). -/
def mmaBody (c : Ctx) (s : State) : Res :=
  let t := c.ty
  let d := c.f.d.toNat
  let (a, b) := (c.warp.regs.tensor c.f.fa.toNat, c.warp.regs.tensor c.f.fb.toNat)
  let va := c.uC.toNat
  let bad (n : Nat) : Res := .trap .fmtblk (BitVec.ofNat 64 n)
  engineBody (.mma d a b [] t (c.qa6 == 1) []) true (fun _ =>
    checked [accBound c (t == .f64) d, shapeFault a, shapeFault b,
        if va % 64 = 0 then none else some (.align, BitVec.ofNat 64 va)] fun _ =>
      loadDesc c s va (some t) fun s da => loadDesc c s (va + 32) (some (tFmt b)) fun s db =>
        if tFmt a != t then bad 1
        else if !pairLegal t (tFmt b) (descSfmt da.1 != 0 || descSfmt db.1 != 0) then bad 5
        else if !mmaShape a b then .trap .tshape 7
        else
          let n := tBoxc a
          let need := fetchLines (boxRows a (List.range 64) 0 ++ boxRows b (List.range n) 1
            ++ scaleBytes da.1 n (scaleIndexA a (descBlk da.1)) ++ scaleBytes db.1 n (scaleIndexB b (descBlk db.1)))
          let go (s : State) (ps : List Nat) : Res := queueOp c s (.mma d a b (da.1 ++ db.1) t (c.qa6 == 1) ps) true need
          if t == .cb4 then withTable c s da db go else go s []) c s

/-- MZERO (R244). -/
def mzeroBody (c : Ctx) (s : State) : Res :=
  let d := c.f.d.toNat
  engineBody (.mzero d) false (fun _ => checked [accBound c false d] fun _ => queueOp c s (.mzero d) false []) c s

/-- The shape check of MLDA and MSTA (R245). -/
def boxFault (t : BitVec 512) (ty : ElemType) : Option (FaultCode × Word64) :=
  if tBoxr t == 64 && tBoxc t == 64 && tFmt t == ty then none else some (.tshape, 7)

/-- MLDA (R245). -/
def mldaBody (c : Ctx) (s : State) : Res :=
  let d := c.f.d.toNat
  let t := c.warp.regs.tensor c.f.fa.toNat
  let kind := EngineKind.mlda d t c.ty c.warp.regs.gmode
  engineBody kind true (fun _ =>
    checked [shapeFault t, accBound c (c.ty == .f64) d, boxFault t c.ty] fun _ =>
      queueOp c s kind true (fetchLines (boxRows t (rowsOf c.act) 0))) c s

/-- MSTA (R245). -/
def mstaBody (c : Ctx) (s : State) : Res :=
  let a := c.f.fa.toNat
  let t := c.warp.regs.tensor c.f.d.toNat
  let kind := EngineKind.msta a t c.ty c.roundM c.warp.regs.gmode
  engineBody kind true (fun _ => checked [shapeFault t, accBound c (c.ty == .f64) a, boxFault t c.ty] fun _ => queueOp c s kind true []) c s

/-- MROW (R244). -/
def mrowBody (c : Ctx) (s : State) : Res :=
  let a := c.f.fa.toNat
  let kind := EngineKind.mrow a c.f.fc.toNat (c.slot c.f.d.toNat)
  engineBody kind false (fun _ => checked [accBound c false a] fun _ => queueOp c s kind false []) c s

/-- MSETR (R244): the vectors are read at issue. -/
def msetrBody (c : Ctx) (s : State) : Res :=
  let d := c.f.d.toNat
  let kind := EngineKind.msetr d c.f.fc.toNat ((List.range 8).map fun i => c.vrow (c.f.km.getLsbD 2) (c.f.fa.toNat + i))
  engineBody kind false (fun _ => checked [accBound c false d] fun _ => queueOp c s kind false []) c s

/-- MCVT (R246). -/
def mcvtBody (c : Ctx) (s : State) : Res :=
  let (d, a) := (c.f.d.toNat, c.f.fa.toNat)
  let kind := EngineKind.mcvt d a c.ty c.f.fc.toInt c.roundM c.warp.regs.gmode
  engineBody kind false (fun _ => checked [accBound c false d, accBound c false a] fun _ => queueOp c s kind false []) c s

/-- A descriptor without its codebook, from the cache or from memory, under checks 1 to 3 of R218; a miss fills the entry (R253). -/
def loadDescOnly (c : Ctx) (s : State) (va : Nat) (t : ElemType) (f : State → List Byte → Res) : Res :=
  let bad (n : Nat) : Res := .trap .fmtblk (BitVec.ofNat 64 n)
  match cachedDesc s c.warp va with
  | some d => (match descCheck d.1 (some t) with | some n => bad n | none => f (cacheDesc s c.warp va d) d.1)
  | none =>
    fetchBytes c s va 32 fun s d =>
      match descCheck d (some t) with
      | some n => bad n
      | none =>
        match peekBytes c s (descBook d) 32 with
        | (s, some book) => f (fillBlock c s va (d, book)) d
        | (s, none) => f s d

/-- MPTB (R254): the descriptors are read at issue, the codebooks by the engine, each as a load of 32 bytes (R238). -/
def mptbBody (c : Ctx) (s : State) : Res :=
  oncePerAny c s fun _ =>
    let va := c.uC.toNat
    if va % 64 ≠ 0 then .trap .align (BitVec.ofNat 64 va)
    else loadDescOnly c s va .cb4 fun s a => loadDescOnly c s (va + 32) .cb4 fun s b =>
      let (x, y) := (descBook a, descBook b)
      queueOp c s (.mptb x y) true ((x, 2) :: if x = y then [] else [(y, 2)])

/-- MFMT (R253): the entry is read afresh. -/
def mfmtBody (c : Ctx) (s : State) : Res :=
  oncePerAny c s fun _ =>
    let va := c.uC.toNat
    let drop (s : State) (f : FormatEntry → Bool) : State := { s with eng := { s.eng with blocks := s.eng.blocks.filter fun e => !f e } }
    if c.qa6 = 2 then .done (drop s fun e => e.core == c.warp.core && e.half == c.warp.half)
    else if c.qa6 = 1 then .done (drop s (·.for_ c.warp va))
    else if va % 64 ≠ 0 then .trap .align (BitVec.ofNat 64 va)
    else
      let read (s : State) (a : Nat) (f : State → List Byte × List Byte → Res) : Res :=
        fetchBytes c s a 32 fun s d =>
          match descCheck d none with
          | some n => .trap .fmtblk (BitVec.ofNat 64 n)
          | none =>
            if descFmt d == .cb4 then fetchBytes c s (descBook d) 32 fun s k => if bookBad k then .trap .fmtblk 4 else f s (d, k)
            else f s (d, [])
      read s va fun s a => read s (va + 32) fun s b =>
        .done (cacheDesc (cacheDesc (drop s (·.for_ c.warp va)) c.warp va a) c.warp (va + 32) b)

/-! ### Batches (R247-R252, R476) -/

/-- A closed batch that MWAIT waits for: an operation has not completed, or a cartouche store has not performed. -/
def Batch.pending (s : State) (b : Batch) : Bool :=
  b.closed && (!b.ops.isEmpty || b.wids.any fun w => s.held.any (·.wid == w))

/-- Batches that need no further record are forgotten. -/
def pruneBatches (s : State) (w : Nat) : State :=
  s.modWarp w fun x => { x with batches := x.batches.filter fun b => !b.closed || b.pending s }

/-- The agent of an engine operation. -/
def EngineOp.agent (o : EngineOp) (x : Warp) : Agent :=
  { core := o.core, wg := x.wg, warp := o.warp, vf := x.vf, asid := x.asid, chan := .mat, op := o.id }

/-- The record of R252. -/
def cartouche (s : State) (x : Warp) (b : Batch) (err : Bool) : List Byte :=
  let t := b.times
  let free := (Config.noFetchTime s.fresh).toNat
  let none_ := b.nops == 0
  let time (y : Nat) : Nat := if none_ then t.tclose else y
  let tc1 := time t.tc1
  words64 [t.tclose, time (t.tin0.getD free), time (if t.tin0.isSome then t.tin1 else free), time (t.tc0.getD t.tc1), tc1, (t.tout.getD tc1)]
    ++ leBytes 4 (if none_ then 0 else t.wait) ++ leBytes 2 b.b.toNat ++ leBytes 2 b.nops ++ leBytes 2 x.regs.warpId
    ++ leBytes 1 b.pidx ++ leBytes 1 (bit err) ++ leBytes 2 b.core ++ leBytes 2 0

/-- The stores of a batch's cartouche issue, published at `.pod`; the fault that they meet, and their numbers (R252). -/
def storeCartouche (s : State) (w : Nat) (x : Warp) (b : Batch) (err : Option (Nat × Nat × Nat)) :
    State × Option (Nat × Nat × Nat) × List Nat :=
  match b.cart with
  | none => (s, err, [])
  | some va =>
    let agent : Agent := { core := b.core, wg := x.wg, warp := w, vf := x.vf, asid := x.asid, chan := .gen, op := 0 }
    match engineAddr s agent va true with
    | .ok s pa =>
      let bs := cartouche s x b err.isSome
      let h : Held := { wid := s.nextId, core := b.core, warp := w, wg := x.wg, lanes := 0, seq := s.seq, scope := some .pod, va := va
                        base := pa, size := 64, cells := cellsAt pa bs }
      ({ s with nextId := s.nextId + 1, fresh := s.fresh + 1, held := s.held ++ [h] }, err, [s.nextId])
    | .fault s code va => (s, err.or (some (faultNumber code, 4, va)), [])
    | .flip p => ({ s with flipHit := s.flipHit.or (some p) }, err, [])

/-- A closed batch with no operation left completes: its barrier offset is checked, its cartouche is stored, its status is kept and its
arrival leaves. -/
def completeBatch (s : State) (w : Nat) (x : Warp) (b : Batch) : State :=
  let tbad : Option (Nat × Nat × Nat) := b.tb.bind fun o =>
    ((s.wg? x.wg).bind fun g => tbFault g (BitVec.ofNat 64 o) true).map fun f => (faultNumber f.1, 5, nsBase s x.vf x.asid + o)
  let (s, err, wids) := storeCartouche s w x b (b.err.or tbad)
  let st := match err with | some (code, opr, va) => statusWord code opr va | none => 0
  let s := s.modWarp w fun y => { y with
    regs := { y.regs with bring := y.regs.bring.put 0 (b.b.toNat % 16) st }
    batches := y.batches.map fun z => if z.b == b.b && z.closed then { z with ops := [], wids := wids, err := err } else z }
  let s := match b.tb, tbad with
    | some o, none =>
      { s with nextId := s.nextId + 1
               eng := { s.eng with credits := s.eng.credits ++
                 [{ k := s.nextId, wg := x.wg, warp := w, ofs := o, bytes := 0, arrive := true, ops := b.made
                    err := err.map fun e => (e.1, e.2.2) }] } }
    | _, _ => s
  pruneBatches s w

/-- MFENCE (R247, R248, R251, R252). -/
def mfenceBody (c : Ctx) (s : State) : Res :=
  oncePerAny c s fun _ =>
    let cart := decide (2 ≤ c.q)
    if cart ∧ c.uC.toNat % 64 ≠ 0 then .trap .align c.uC
    else if 16 ≤ (c.warp.batches.filter fun b => b.closed && !b.ops.isEmpty).length then .wait s .batchRoom
    else
      let o := c.warp.openBatch
      let b : Batch := { o with closed := true, tb := if c.q % 2 = 1 then some c.uA.toNat else none, cart := if cart then some c.uC.toNat else none
                                pidx := c.p, core := c.warp.core, times := { o.times with tclose := s.clock } }
      let s := s.modWarp c.w fun x => { x.setOpen b with regs := { x.regs with blast := b.b } }
      let s := writeUD s c (b.b.zeroExtend 64)
      .done (match b.ops, s.warp? c.w with
        | [], some x => completeBatch s c.w x b
        | _, _ => s)

/-- MWAIT and MWAIT.all (R249). -/
def mwaitBody (c : Ctx) (s : State) : Res :=
  oncePerAny c s fun _ =>
    let r := c.warp.regs
    let pending := (c.warp.batches.filter (·.pending s)).map (·.b.toNat)
    if c.q = 1 then
      match pending with
      | n :: more => .wait s (.batch (n :: more))
      | [] =>
        let last := (List.range 16).map fun i => r.bring.get 0 ((r.blast.toNat + i + 1) % 16)
        .done (writeUD (pruneBatches s c.w) c ((last.find? fun x => x.getLsbD 0).getD 0))
    else
      let n : BitVec 16 := c.uA.truncate 16
      if 15 < (r.blast - n).toNat then .done (writeUD s c 2)
      else if pending.contains n.toNat then .wait s (.batch [n.toNat])
      else .done (writeUD s c (r.bring.get 0 (n.toNat % 16)))

/-! ### The engine's steps -/

/-- Replaces an operation of the queue. -/
def setOp (s : State) (o : EngineOp) : State :=
  { s with eng := { s.eng with queue := s.eng.queue.map fun x => if x.id == o.id then o else x } }

/-- Changes the batch that an operation belongs to. -/
def modBatch (s : State) (o : EngineOp) (f : Batch → Batch) : State :=
  s.modWarp o.warp fun x => { x with batches := x.batches.map fun b => if b.ops.contains o.id then f b else b }

/-- The slice whose line the tile fetch unit of a die pins, and whether it stands in a remote-line way (R235); lines of a peer package stand
in none. -/
def pinSlice (die line : Nat) : Option (Nat × Bool) :=
  if dramLine line then some (64 * homeDie line + stopIndex line, false)
  else if hostLine line then some (64 * die + stopIndex line, true)
  else none

/-- A slice has a way left for a pin: at most 4 of its 16 are pinned (R235). -/
def pinRoom (s : State) (die line : Nat) : Bool :=
  match pinSlice die line with
  | none => true
  | some (slice, remote) =>
    (s.llc.any fun l => l.slice == slice && l.line == line && l.remote == remote && !l.pins.isEmpty)
      || decide ((s.llc.filter fun l => l.slice == slice && !l.pins.isEmpty).length < 8192)

/-- Operations pin a line that has been fetched for them. -/
def pinLine (s : State) (die line : Nat) (ids : List Nat) : State :=
  match pinSlice die line with
  | none => s
  | some (slice, remote) =>
    { s with llc := s.llc.map fun l => if l.slice == slice && l.line == line && l.remote == remote then { l with pins := NSet.insertAll l.pins ids }
                                       else l }

/-- An operation has consumed its lines (R235). -/
def unpin (s : State) (id : Nat) : State := { s with llc := s.llc.map fun l => { l with pins := l.pins.filter (· != id) } }

/-- The bytes of a line that has arrived for an operation. -/
def EngineOp.take (o : EngineOp) (clock va : Nat) (bs : List Byte) : EngineOp :=
  let old := (o.lines.find? (va / 64)).getD (List.replicate 64 0)
  let need := o.need.filter (·.1 != va)
  { o with need := need, ready := clock, lines := o.lines.insert (va / 64) (old.take (va % 64) ++ bs ++ old.drop (va % 64 + bs.length)) }

/-- An operation no longer waits for a line. -/
def arrive (s : State) (va : Nat) (bs : List Byte) (o : EngineOp) : State :=
  modBatch (setOp s (o.take s.clock va bs)) o fun b => { b with times := { b.times with tin1 := s.clock } }

/-- A read of a line that serves several cores: it may return what each of them may read (R234, R299). -/
def sharedRead (s : State) (cores : List Nat) (pa n : Nat) : State × List Byte :=
  readBytes s (fun _ => true) pa ((List.range n).map fun i => .since (cores.foldl (fun p k => max p (lowerBound s k .mat (pa + i))) 0))

/-- The operations of a quad that wait for the same line as one of them, the operation itself first (R234). -/
def quadOps (s : State) (o : EngineOp) (x : Warp) (line : Nat) : List EngineOp :=
  let same (p : EngineOp) : Bool :=
    p.id != o.id && quadOf p.core == quadOf o.core && p.need.any (·.1 == line)
      && (match p.kind with | .mptb _ _ => false | _ => true)
      && ((s.warp? p.warp).map fun y => y.vf == x.vf && y.asid == x.asid).getD false
  o :: s.eng.queue.filter same

/-- TILE_FETCH_ARRIVE (R234, R250): a line arrives for each operation of the quad that waits for it, or its fault discards the operation. A
codebook of MPTB is a load on the GEN path (R238). A fetch waits while its line finds no way to be pinned in; the operation at the head of its
queue consumes such a line at once (R235). -/
def fetchStep (id line : Nat) (s : State) : Option State :=
  match s.eng.queue.find? (·.id == id) with
  | none => none
  | some o =>
    match o.need.find? (·.1 == line), s.warp? o.warp with
    | some n, some x =>
      let discard (s : State) (code : FaultCode) (va : Nat) : State :=
        setOp s { o with need := [], ready := s.clock, err := some (faultNumber code, n.2, va) }
      let table := match o.kind with | .mptb _ _ => true | _ => false
      let agent := { o.agent x with chan := if table then .gen else .mat }
      (match (if table then none else windowOfs s x.vf x.asid line) with
        | some _ =>
          (match engineReadPiece s agent line 64 with
            | .ok s bs => some (arrive s line bs o)
            | .fault s code va => some (discard s code va)
            | .flip _ => none)
        | none =>
          match engineAddr s agent line false with
          | .flip _ => none
          | .fault s code va => some (discard s code va)
          | .ok s pa =>
            let die := dieOf o.core
            if poisoned s pa (if table then 32 else 64) then some (discard s .poison line)
            else if table then
              let (s, bs) := weakNow (llcRead s die (pa / 64)) o.core .gen pa 32
              some (arrive s line bs o)
            else
              let s := llcRead s die (pa / 64)
              let room := pinRoom s die (pa / 64)
              let head := (s.eng.queue.find? (·.core == o.core)).map (·.id) == some id
              if !room && !head then none
              else
                let ops := quadOps s o x line
                let (s, bs) := sharedRead s (ops.map (·.core)) pa 64
                let s := if room then pinLine s die (pa / 64) (ops.map (·.id)) else s
                some (ops.foldl (fun s p => arrive s line bs p) s))
    | _, _ => none

/-- Changes the state of a warp on its core, accumulators among it (R344). -/
def updateAcc (s : State) (w : Nat) (f : Warp → Warp) : State := s.modWarp w fun x => { f x with accDirty := true }

/-- Merges the flags of an operation into GSTAT. -/
def Warp.merge (x : Warp) (r : Regs) (id : Nat) (fl : Exc) : Warp := { x with regs := r.mergeFlags id fl }

/-- Translates the pieces that MSTA writes before it writes any; the first that faults. -/
def mstaCheck (s : State) (a : Agent) (pieces : List (Nat × Nat)) : EngineRes Unit :=
  pieces.foldl (fun (acc : EngineRes Unit) p =>
    match acc with
    | .ok s _ =>
      (match windowOfs s a.vf a.asid p.1 with
        | some _ => if windowBad s a.wg a.vf a.asid p.1 p.2 then .fault s .nsbound p.1 else .ok s ()
        | none =>
          match engineAddr s a p.1 true with
          | .ok s _ => .ok s ()
          | .fault s c v => .fault s c v
          | .flip p => .flip p)
    | r => r) (.ok s ())

/-- MSTA's stores (R245). -/
def mstaStep (s : State) (o : EngineOp) (x : Warp) (acc : Nat) (t : BitVec 512) (ty : ElemType) (m : Nat) (g : Word64) : EngineRes Unit :=
  let rows := rowsOf o.lanes
  let n := elemBytes ty 64
  match mstaCheck s (o.agent x) (rows.flatMap fun i => cutRange 64 (n / 64 + 2) (tAddr t i 0) n) with
  | .ok s _ =>
    rows.foldl (fun (a : EngineRes Unit) row =>
      match a with
      | .ok s _ =>
        (match s.warp? o.warp with
          | none => .ok s ()
          | some x =>
            let (bs, st) := rowBytes x.regs acc ty (matrixEnv m g) row { sr := x.regs.srst.lane (row / 2) }
            let s := s.modWarp o.warp fun y => y.merge { y.regs with srst := y.regs.srst.set (row / 2) st.sr } o.id st.fl
            match engineWrite s (o.agent x) (tAddr t row 0) bs with
            | .ok s _ => .ok s ()
            | .fault s c v => .fault s c v
            | .flip p => .flip p)
      | r => r) (.ok s ())
  | r => r

/-- The effect of an operation whose lines have arrived; `none` while a page is flipping. -/
def performOp (s : State) (o : EngineOp) (x : Warp) : Option (State × Option (Nat × Nat × Nat)) :=
  let regs (f : Regs → Regs × Exc) : Option (State × Option (Nat × Nat × Nat)) :=
    some (updateAcc s o.warp (fun y => let (r, fl) := f y.regs; y.merge r o.id fl), none)
  match o.kind with
  | .mma acc a b fb t zero prods => regs (mmaRegs o acc a b fb t zero prods)
  | .mzero acc => regs fun r => ((rowsOf o.lanes).foldl (fun r row => r.setAccRow acc row []) r, 0)
  | .mlda acc t ty g => regs fun r => mapRows r (ty == .f64) acc acc o.lanes fun i j _ st => widen g ty (o.element t i j) st
  | .mcvt dst src ty n m g => regs fun r => mapRows r false dst src o.lanes fun _ _ old st => roundAcc (matrixEnv m g) ty n old st
  | .msetr acc q rows =>
    regs fun r => ((lanesOf o.lanes).foldl (fun r l =>
      let row := 2 * l + q / 8
      r.setAccRow acc row ((List.range 64).map fun c =>
        if c / 8 = q % 8 then (rows.getD (c % 8) zeroRow).lane l else r.accWord acc row c)) r, 0)
  | .mrow acc q slot =>
    some (s.modWarp o.warp fun y => (List.range 8).foldl (fun y i => y.setRow (slot + i) o.lanes
      (Row.ofFn fun l => y.regs.accWord acc (2 * l + q / 8) (8 * (q % 8) + i))) y, none)
  | .msta acc t ty m g =>
    (match mstaStep s o x acc t ty m g with
      | .ok s _ => some (s, none)
      | .fault s code va => some (s, some (faultNumber code, 3, va))
      | .flip _ => none)
  | .mptb cbA cbB =>
    let book (va : Nat) : List Byte := (List.range 32).map fun i => o.byte (va + i)
    (match (if bookBad (book cbA) || bookBad (book cbB) then none else products (book cbA) (book cbB)) with
      | some ps => some (replaceTable s { core := o.core, vf := x.vf, asid := x.asid, cbA := cbA, cbB := cbB, prods := ps, mptb := true }, none)
      | none => some (s, some (faultNumber .fmtblk, 2, cbA)))

/-- The times of a batch once one of its operations has been computed between two cycles (R243, R252): the engine stood idle for its operands
from when it became free, or the operation issued, until they had arrived. -/
def BatchTimes.computed (t : BatchTimes) (o : EngineOp) (free now : Nat) (stored : Bool) : BatchTimes :=
  { t with tc0 := t.tc0.or (some (max free (max o.issued o.ready))), tc1 := now, wait := t.wait + (o.ready - max free o.issued)
           tout := if stored then some now else t.tout }

/-- An operation of a batch has completed: its error and times are kept, and the batch loses it and may complete (R247-R252). -/
def leaveBatch (s : State) (o : EngineOp) (free : Nat) (err : Option (Nat × Nat × Nat)) : State :=
  let stored := match o.kind with | .msta .. => true | _ => false
  let s := modBatch s o fun b => { b with err := b.err.or err, made := if stored then b.made ++ [o.id] else b.made
                                          times := b.times.computed o free s.clock stored }
  match (s.warp? o.warp).bind fun (x : Warp) => (x.batches.find? fun (b : Batch) => b.ops.contains o.id).map fun b => (x, b) with
  | none => s
  | some (x, b) =>
    let b' := { b with ops := b.ops.filter (· != o.id) }
    let s := s.modWarp o.warp fun x => { x with batches := x.batches.map fun (z : Batch) => if z.ops.contains o.id then b' else z }
    if b'.closed && b'.ops.isEmpty then completeBatch s o.warp x b' else s

/-- The operation at the head of a core's queue may be carried out: its operands have arrived, the writes that its own follow have performed
(R302), and its warp is on its core, as every warp with a queued operation is (R255). -/
def opReady (s : State) (o : EngineOp) : Bool :=
  o.need.isEmpty && (o.after.all fun w => s.held.all fun h => h.wid != w) && ((s.warp? o.warp).map fun x => !x.away).getD true

/-- ENGINE_OP_COMPLETE (R226, R242-R252): the head of a core's queue has its effect, its flag clears, and its batch may complete. -/
def engineStep (core : Nat) (s : State) : Option State :=
  match s.eng.queue.find? (·.core == core) with
  | none => none
  | some o =>
    if !opReady s o then none
    else
      let free := s.eng.free.get 0 core
      let s := unpin { s with eng := { s.eng with queue := s.eng.queue.filter (·.id != o.id), free := s.eng.free.put 0 core s.clock } } o.id
      match s.warp? o.warp with
      | none => some s
      | some x =>
        (match o.err, o.lanes.toNat with
          | some e, _ => some (s, some e)
          | none, 0 => some (s, none)
          | none, _ => performOp s o x).map fun (r : State × Option (Nat × Nat × Nat)) =>
          let s := r.1.modWarp o.warp (·.flagDone o.flag)
          if o.batch then leaveBatch s o free r.2 else s

/-! ### Tensor shape records (R233) -/

/-- The effective address of TLD and TST, which must be 64-byte aligned. -/
def tensorElem (c : Ctx) : List Access1 := [{ lane := c.lane0, va := (c.ea c.lane0).toNat }]

/-- TLD (R233). -/
def tldBody (c : Ctx) (s : State) : Res :=
  oncePerAny c s fun _ =>
    let es := tensorElem c
    match eaFault es 64 with
    | some (code, info) => .trap code info
    | none =>
      translateAll s c .read false es fun xs =>
        match poisonedElem s 64 xs with
        | some e => .trap .poison (BitVec.ofNat 64 e.va)
        | none =>
          withLines c s .gen 0 (xs.map (·.pa)) fun s =>
            let words := xs.flatMap fun x => (List.range 8).map fun i => (i, { x with pa := x.pa + 8 * i, va := x.va + 8 * i })
            .done (issueRead s c (.weak .gen) 8 c.path.lmask words (.tensor c.f.d.toNat) [.tensor c.f.d.toNat])

/-- A record that has not been loaded (R232): the one fault of TST and TMOD, which take an invalid record as it is (R232, R233). -/
def notLoaded (t : BitVec 512) : Option (FaultCode × Word64) := if tStatus t = 0 then some (.tshape, 0) else none

/-- TST (R233). -/
def tstBody (c : Ctx) (s : State) : Res :=
  oncePerAny c s fun _ =>
    let es := tensorElem c
    let t := c.warp.regs.tensor c.f.d.toNat
    checked [notLoaded t, eaFault es 64] fun _ =>
      translateAll s c .write false es fun xs =>
        issueStores c s false (xs.map fun x =>
          { lanes := c.path.lmask, va := x.va, pa := x.pa, exec := x.execPage c, bytes := leBytes 64 t.toNat }) .done

/-- TMOD (R233): a record that is not valid is copied. -/
def tmodValue (add : Bool) (t : BitVec 512) (x : Word64) : BitVec 512 :=
  if tStatus t ≠ 0x80 then t
  else
    let (lo, hi) : Word32 × Word32 := (x.extractLsb' 0 32, x.extractLsb' 32 32)
    let (r, k) : Int × Int := if add then (tBrow t + lo.toInt, tBcol t + hi.toInt) else (lo.toNat, hi.toNat)
    let inRange (v : Int) : Bool := decide (0 ≤ v) && decide (v < 2 ^ 32)
    let u := tput (tput t 192 32 (r % 2 ^ 32).toNat) 224 32 (k % 2 ^ 32).toNat
    tputStatus u (if inRange r && inRange k && tensorInside u then 0x80 else 0x86)

/-- TMOD (R233). -/
def tmodBody (c : Ctx) (s : State) : Res :=
  oncePerAny c s fun _ =>
    checked [notLoaded (c.warp.regs.tensor c.f.fa.toNat)] fun _ =>
      .done (s.modRegs c.w fun r => { r with t := r.t.put 0 c.f.d.toNat (tmodValue (c.q == 0) (r.tensor c.f.fa.toNat) c.uB) })

/-- MMA (R241, R242). -/
def execMma (x : AForm) : State → Host.Outcome State Fault Refusal := runIop 0x140 (.a x) (afterOverflow mmaBody)
/-- MFENCE (R247). -/
def execMfence (x : RForm) : State → Host.Outcome State Fault Refusal := runIopFlip 0x141 (.r x) mfenceBody
/-- MWAIT (R249). -/
def execMwait (x : RForm) : State → Host.Outcome State Fault Refusal := runIop 0x142 (.r x) mwaitBody
/-- MZERO (R244). -/
def execMzero (x : RForm) : State → Host.Outcome State Fault Refusal := runIop 0x143 (.r x) mzeroBody
/-- MLDA (R245). -/
def execMlda (x : AForm) : State → Host.Outcome State Fault Refusal := runIop 0x144 (.a x) mldaBody
/-- MSTA (R245). -/
def execMsta (x : AForm) : State → Host.Outcome State Fault Refusal := runIop 0x145 (.a x) mstaBody
/-- MROW (R244). -/
def execMrow (x : RForm) : State → Host.Outcome State Fault Refusal := runIop 0x146 (.r x) mrowBody
/-- MSETR (R244). -/
def execMsetr (x : RForm) : State → Host.Outcome State Fault Refusal := runIop 0x147 (.r x) msetrBody
/-- MCVT (R246). -/
def execMcvt (x : RForm) : State → Host.Outcome State Fault Refusal := runIop 0x148 (.r x) mcvtBody
/-- MPTB (R254). -/
def execMptb (x : AForm) : State → Host.Outcome State Fault Refusal := runIop 0x149 (.a x) (afterOverflow mptbBody)
/-- MFMT (R253). -/
def execMfmt (x : AForm) : State → Host.Outcome State Fault Refusal := runIop 0x14A (.a x) (afterOverflow mfmtBody)
/-- TLD (R233). -/
def execTld (x : MForm) : State → Host.Outcome State Fault Refusal := runIop 0x14B (.m x) (afterOverflow tldBody)
/-- TST (R233). -/
def execTst (x : MForm) : State → Host.Outcome State Fault Refusal := runIop 0x14C (.m x) (afterOverflow tstBody)
/-- TMOD (R233). -/
def execTmod (x : RForm) : State → Host.Outcome State Fault Refusal := runIop 0x14D (.r x) tmodBody
/-- TILE_FETCH_ARRIVE (R234). -/
def execTileFetchArrive (op line : Nat) : State → Host.Outcome State Fault Refusal :=
  runEvent (limited (fun s => (s.eng.queue.find? (·.id == op)).bind fun x => requester s x.core x.warp) (fetchStep op line))
/-- ENGINE_OP_COMPLETE (R226). -/
def execEngineOpComplete (core : Nat) : State → Host.Outcome State Fault Refusal := runEventFlip (engineStep core)

end Sys2Proof.Machine
end

