-- ==== Sys2Proof/Machine/Work.lean ====
section
/-!
DEFINITION. Launch packets, queues, distribution and placement, grids and their completion, device-side launch, and scale-out launch
datagrams (R363-R376, 12_work.md); release and killing of warps and workgroups (R162, R293, R371, R372, R427).
-/

namespace Sys2Proof.Machine

/-! ### Launch packets (R363, R364) -/

/-- The fields of the 64 bytes of a packet. -/
def parsePacket (bs : List Byte) : Packet :=
  let n (o k : Nat) := numAt bs o k
  { entry := BitVec.ofNat 64 (n 0 8), grid := n 8 4, wgw := n 12 1, frame := n 13 1, prod := n 14 1, flags := n 15 1, hot := n 16 2
    stk := n 18 2, accs := n 20 1, prio := n 21 1, near := n 22 2, hint := n 24 8, tail := leNat (bs.drop 32) }

/-- The vector stack S and the entry frame of a packet. -/
def Packet.stack (p : Packet) : Nat := 8 * (p.stk % 2 ^ 13 + 1)
def Packet.frameSlots (p : Packet) : Nat := if p.frame = 0 then 256 else p.frame

/-- DECL of a warp (R340). -/
def declWord (stk accs prio hot : Nat) : Word64 :=
  BitVec.ofNat 64 (stk % 2 ^ 13 + prio % 16 * 2 ^ 40 + accs % 16 * 2 ^ 44 + hot % 256 * 2 ^ 48)

/-- The bytes of a record, rounded up to 4 KiB (R336, R367). -/
def recordSpan (accs stack : Nat) : Nat := (4096 + 16384 * accs + 128 * stack + 4095) / 4096 * 4096

/-- The workgroup part of a die's arena (R367). -/
def Queue.wpart (q : Queue) : Nat := (4 - q.nodeq) * q.arenasz / 16384 * 4096

/-- Check 1 of R364. -/
def Packet.reservedOk (p : Packet) : Bool :=
  decide (p.entry.toNat < 2 ^ 57) && decide (p.flags < 2) && decide (p.stk < 2 ^ 13) && decide (p.prio < 16) && decide (p.hint < 2 ^ 6)
    && decide (p.mode < 2) && p.tail == 0

/-- The dies of E in order (R366). -/
def allowedDies (s : State) (q : Queue) (p : Packet) : List Nat :=
  let mask := if p.hint % 16 = 0 then 15 else p.hint % 16
  (List.range 4).filter fun d => q.davail.getLsbD d && s.pkg.dieOk.getLsbD d && mask.testBit d

/-- The near store of a cluster: a way of each slice of its row for each MiB (R28). -/
def nearStoreSize (s : State) (cluster : Nat) : Nat :=
  ((List.range 8).map fun i => s.nearWays.get 0 (cluster * 8 + i)).foldl min 8 * 2 ^ 20

/-- The first check of R364 that fails. -/
def packetCheck (s : State) (q : Queue) (p : Packet) : Option Nat :=
  let e := allowedDies s q p
  if !p.reservedOk then some 1
  else if p.grid = 0 ∨ p.wgw = 0 ∨ 64 < p.wgw ∨ (p.wgw ≤ p.prod ∧ p.prod ≠ 255) then some 2
  else if p.stk < p.hot ∨ p.stack < p.frameSlots ∨ 8 < p.accs ∨ 2048 < p.near then some 3
  else if e.isEmpty then some 4
  else if e.any (fun d => (List.range 8).all fun c => decide (nearStoreSize s (8 * d + c) < p.near * 4096)) then some 5
  else if q.wpart < p.wgw * recordSpan p.accs p.stack then some 6
  else none

/-! ### Virtual memory of a queue (R365) -/

/-- Reads bytes at a queue's address as the dispatcher does, a line at a time. -/
def queueRead (s : State) (q : Queue) (va n : Nat) : State × Except (FaultCode × Nat) (List Byte) :=
  (cutRange 64 (n / 64 + 2) va n).foldl (fun (acc : State × Except (FaultCode × Nat) (List Byte)) p =>
    match acc.2 with
    | .error _ => acc
    | .ok bs =>
      if 2 ^ 57 ≤ p.1 then (acc.1, .error (.pfault, p.1))
      else match xlateNow acc.1 q.vf q.asid p.1 .read with
        | (s, .ok pa) => if hostPageLost s q.vf pa then (s, .error (.hostlost, p.1)) else (s, .ok (bs ++ s.bytes pa p.2))
        | (s, .fail f) => (s, .error (f.code, p.1))) (s, .ok [])

/-- Writes bytes at a queue's address; nothing is written where it faults. -/
def queueWrite (s : State) (q : Queue) (va : Nat) (bs : List Byte) : State × Bool :=
  (cutRange 64 (bs.length / 64 + 2) va bs.length).foldl (fun (acc : State × Bool) p =>
    if !acc.2 || decide (2 ^ 57 ≤ p.1) then (acc.1, false)
    else match xlateNow acc.1 q.vf q.asid p.1 .write with
      | (s, .ok pa) => if hostPageLost s q.vf pa then (s, false) else (agentWrite s pa ((bs.drop (p.1 - va)).take p.2), true)
      | (s, .fail _) => (s, false)) (s, true)

/-- A queue. -/
def State.queue? (s : State) (qid : Nat) : Option Queue := s.work.queues.find? qid

/-- Changes a queue. -/
def State.modQueue (s : State) (qid : Nat) (f : Queue → Queue) : State :=
  { s with work := { s.work with queues := s.work.queues.adjust qid f } }

/-- A grid. -/
def State.grid? (s : State) (g : Nat) : Option Grid := s.work.grids.find? g

/-- Changes a grid. -/
def State.modGrid (s : State) (g : Nat) (f : Grid → Grid) : State :=
  { s with work := { s.work with grids := s.work.grids.adjust g f } }

/-! ### Completion records (R370, R374) -/

/-- The record of R370 behind FIN and its status. -/
def completionBytes (status info : Nat) (lcnt : List Nat) (killed relaunch tstart tend nkilled : Nat) : List Byte :=
  [1, BitVec.ofNat 8 status, 0, 0] ++ leBytes 4 info ++ lcnt.flatMap (leBytes 4) ++ leBytes 4 killed ++ leBytes 4 relaunch
    ++ words64 [tstart, tend] ++ leBytes 4 nkilled ++ List.replicate 12 0

/-- Writes a completion record: every other byte, then FIN. -/
def writeCompletion (s : State) (q : Queue) (va : Nat) (bs : List Byte) : State :=
  match queueWrite s q (va + 1) (bs.drop 1) with
  | (s, true) => (queueWrite s q va (bs.take 1)).1
  | (s, false) => s

/-- Workgroups of a grid launched on each die. -/
def Grid.lcnts (g : Grid) : List Nat := (List.range 4).map fun d => g.lcnt.get 0 d

/-- The status of a grid that completes (R370, R372). -/
def Grid.status (g : Grid) : Nat :=
  if g.reject.isSome then 2
  else if g.cut then (if g.lcnts.sum = 0 then 4 else 1)
  else if 0 < g.killed + g.nkilled then 3 else 0

/-- A grid's completion reaches its record or its launch slot, and its landing slot is free (R370, R373, R376). -/
def completeGrid (s : State) (gid : Nat) (g : Grid) : State :=
  let q := (s.queue? g.qid).getD {}
  let tstart := g.tstart.getD s.clock
  let s := match g.record with
    | some va => writeCompletion s q va
        (completionBytes g.status (g.reject.getD 0) g.lcnts g.killed g.relaunch tstart s.clock g.nkilled)
    | none => s
  let s := match g.slot with
    | some (w, k) =>
      let fill (l : LaunchSlot) : LaunchSlot :=
        if l.grid = some gid then { l with done := some (BitVec.ofNat 64 (g.lcnts.sum * 2 ^ 32 + g.status)) } else l
      s.modWarp w fun x => { x with launches := x.launches.adjust k fill }
    | none => s
  let s := match g.landing with
    | some k => s.modQueue g.qid fun q => { q with busy := NSet.erase q.busy k }
    | none => s
  { s with work := { s.work with grids := s.work.grids.erase gid }
           barriers := s.barriers.filter fun b => !(b.key.scope.code ≥ 3 && b.key.owner == gid) }

/-- A grid of a packet, or its rejection at once. -/
def startGrid (s : State) (qid : Nat) (addr : Nat) (pk : Option Packet) (record : Option Nat) (slot : Option (Nat × Nat))
    (landing : Option Nat) : State :=
  let q := (s.queue? qid).getD {}
  let id := s.nextId
  let base : Grid := { qid := qid, vf := q.vf, asid := q.asid, addr := addr, pk := pk.getD {}, record := record, slot := slot, landing := landing }
  let verdict := match pk with | none => some 7 | some p => packetCheck s q p
  let g := { base with reject := verdict, cut := verdict.isNone && !q.live, dies := match pk with | some p => allowedDies s q p | none => [] }
  let s := { s with nextId := id + 1, work := { s.work with grids := s.work.grids.insert id g } }
  let s := match slot with
    | some (w, k) => s.modWarp w fun x => { x with launches := x.launches.adjust k fun l => { l with grid := some id } }
    | none => s
  if verdict.isSome then completeGrid s id g else s

/-! ### Dispatch (R365, R376, R465) -/

/-- A dispatch report (R365). -/
def dispatchReport (va head qid asid code : Nat) : List Byte :=
  words64 [va, head, 0] ++ leBytes 4 qid ++ leBytes 2 asid ++ [6, BitVec.ofNat 8 code]

/-- DISPATCH_PACKET: the next entry of the ring, or the next landed packet whose turn it is. -/
def dispatch (qid : Nat) (s : State) : Option State :=
  match s.queue? qid with
  | none => none
  | some q =>
    if !q.live || q.stuck then none
    else match q.landed with
      | (k, t) :: rest =>
        if q.head = t then some (landed q k rest)
        else some (entry q)
      | [] => if q.head = q.tail then none else some (entry q)
where
  landed (q : Queue) (k : Nat) (rest : List (Nat × Word32)) : State :=
    let base := q.land_.toNat + 2048 * k
    let s := s.modQueue qid fun q => { q with landed := rest }
    match queueRead s q base 64 with
    | (s, .ok bs) => startGrid s qid base (some (parsePacket bs)) (some (base + 64)) none (some k)
    | (s, .error _) => startGrid s qid base none (some (base + 64)) none (some k)
  entry (q : Queue) : State :=
    let va := q.ring.toNat + 16 * (q.head.toNat % 2 ^ q.rlog)
    match queueRead s q va 16 with
    | (s, .error (code, bad)) =>
      addReport (s.modQueue qid fun q => { q with stuck := true }) q.vf .trap
        [dispatchReport bad q.head.toNat qid q.asid (faultNumber code)] none
    | (s, .ok bs) =>
      let s := s.modQueue qid fun q => { q with head := q.head + 1 }
      let (pva, cva) := (numAt bs 0 8, numAt bs 8 8)
      match queueRead s q pva 64 with
      | (s, .ok bs) => startGrid s qid pva (some (parsePacket bs)) (some cva) none none
      | (s, .error _) => startGrid s qid pva none (some cva) none none

/-- A kick (R465): TAIL moves on, and a stopped dispatch tries again. -/
def kickQueue (s : State) (qid : Nat) (tail : Word32) : State :=
  s.modQueue qid fun q =>
    if q.live && decide ((tail - q.tail).toNat < 2 ^ 31) && decide ((tail - q.head).toNat ≤ 2 ^ q.rlog) then
      { q with tail := tail, stuck := false }
    else q

/-! ### Placement (R367, R368) -/

/-- The work cores of a cluster in order (R33). -/
def workCores (s : State) (cluster : Nat) : List Nat :=
  ((List.range 16).map (cluster * 16 + ·)).filter fun c => s.sys.fwcore.find? (dieOf c) != some c

/-- The near store of a cluster that no workgroup and no node buffer holds. -/
def nearFree (s : State) (cluster : Nat) : Nat :=
  let wgs := (s.wgs.filter fun g => g.2.cluster == cluster && !g.2.saved).foldl (fun n g => n + g.2.nearSize) 0
  let nodes := (s.work.nodes.filter fun q => q.2.cluster == cluster && !q.2.chip.isEmpty).foldl
    (fun n q => n + (q.2.desc.depth * q.2.desc.recsz + 4095) / 4096 * 4096) 0
  nearStoreSize s cluster - (wgs + nodes)

/-- The lowest free handle of a die (R419). -/
def freeHandle (s : State) (die : Nat) : Nat :=
  ((List.range 65536).find? fun n => (s.wgs.find? (die * 65536 + n)).isNone).map (die * 65536 + ·) |>.getD 0

/-- SRSTATE at launch (R201). -/
def launchSrstate : Row := Row.ofFn fun l => 0x9E3779B9 + BitVec.ofNat 32 l

/-- A warp as it is launched (R367, R368). -/
def launchedWarp (wg grid : Nat) (g : Grid) (record : Nat) (decl ident : Word64) (lmask : BitVec 32) (frame : Nat)
    (entry : Word64) (s0 s1 s2 : Word64) (clock : Nat) : Warp :=
  let regs : Regs := { decl := decl, ident := ident, dorm := 1, srst := launchSrstate
                       paths := [(0, { pc := entry.truncate 57, pcHi := entry.extractLsb' 57 7, lmask := lmask
                                       wtop := BitVec.ofNat 17 frame })] }
  { regs := ((regs.setUni 0 s0).setUni 1 s1).setUni 2 s2, wg := wg, record := BitVec.ofNat 57 record, asid := g.asid, vf := g.vf, qid := g.qid
    grid := grid, waitingSince := some clock, node := none }

/-- A new warp's record is zeroed and takes its state; a fault is a context fault (R153). -/
def layRecord (s : State) (w : Nat) : State :=
  match s.warp? w with
  | none => s
  | some x =>
    match zeroRecord s x with
    | (s, some va) => faultDormant s w x va x.dirty true
    | (s, none) => writeBack s w

/-- The ranges of two workgroups' records meet. -/
def recordsMeet (s : State) (qid : Nat) (lo n : Nat) : Bool :=
  s.warps.any fun x => x.2.kind == .ordinary && x.2.qid == qid && decide (x.2.record.toNat < lo + n)
    && decide (lo < x.2.record.toNat + recordSpan x.2.regs.nacc x.2.regs.stackSize)

/-- The w that a die launches next from a grid, with its ordinal: a relaunch first. -/
def nextWorkgroup (g : Grid) (die : Nat) : Option (Nat × Nat × Bool) :=
  match g.dies.findIdx? (· == die) with
  | none => none
  | some i =>
    let (lo, step, n) := g.onDie i
    match g.again.find? (·.1 == die) with
    | some (_, w) => some (w, (w - lo) / step, true)
    | none =>
      let o := g.next.get 0 die
      if o < n then some (lo + step * o, o, false) else none

/-- WORKGROUP_PLACE (R365, R367): the next workgroup of a grid on a die. -/
def placeWorkgroup (gid die : Nat) (s : State) : Option State :=
  match s.grid? gid with
  | none => none
  | some g =>
    let q := (s.queue? g.qid).getD {}
    let earlier := s.work.grids.any fun h => decide (h.1 < gid) && h.2.qid == g.qid && !h.2.cut && !h.2.launchedOn die
    if g.cut || g.reject.isSome || earlier then none
    else match nextWorkgroup g die with
      | none => none
      | some (w, o, again) =>
        let pk := g.pk
        let rs := recordSpan pk.accs pk.stack
        let k := o % (q.wpart / (pk.wgw * rs))
        let base := q.arena.toNat + die * q.arenasz + k * pk.wgw * rs
        if recordsMeet s g.qid base (pk.wgw * rs) then none
        else
          let last := s.work.lastCluster.get 7 die
          match ((List.range 8).map fun i => 8 * die + (last + 1 + i) % 8).find? fun c => pk.near * 4096 ≤ nearFree s c with
          | none => none
          | some cluster =>
            let h := freeHandle s die
            let cores := workCores s cluster
            let decl := declWord pk.stk pk.accs (min pk.prio q.priocap) pk.hot
            let ids := (List.range pk.wgw).map (s.nextId + ·)
            let mk (j : Nat) : Warp :=
              let core := cores.getD ((j + w) % cores.length) 0
              let ident := BitVec.ofNat 64 (w * 2 ^ 32 + core * 2 ^ 7 + bit (decide (j = pk.prod)) * 2 ^ 6 + j)
              launchedWarp h gid g (base + j * rs) decl ident 0xFFFFFFFF pk.frameSlots pk.entry (BitVec.ofNat 64 g.addr) (BitVec.ofNat 64 w)
                (BitVec.ofNat 64 j) s.clock
            let wg : Workgroup :=
              { handle := h, wgid := BitVec.ofNat 32 w, grid := gid, die := die, cluster := cluster, ctxSlot := k, vf := g.vf, asid := g.asid
                warps := ids, nearSize := pk.near * 4096, placed := s.clock, idem := pk.flags % 2 == 1
                producer := if pk.prod = 255 then none else some pk.prod }
            let s := { s with nextId := s.nextId + pk.wgw, wgs := s.wgs.insert h wg
                              work := { s.work with lastCluster := s.work.lastCluster.insert die (cluster % 8) } }
            let s := (List.range pk.wgw).foldl (fun s j => s.setWarp (ids.getD j 0) (mk j)) s
            let s := ids.foldl layRecord s
            some (s.modGrid gid fun g =>
              let g := { g with tstart := if g.dies.head? = some die then g.tstart.or (some s.clock) else g.tstart }
              if again then { g with again := g.again.erase (die, w), relaunch := g.relaunch + 1 }
              else { g with next := g.next.insert die (o + 1), lcnt := g.lcnt.insert die (g.lcnt.get 0 die + 1) })

/-! ### Release of warps and workgroups (R162, R370) -/

/-- A workgroup that has completed or been killed is forgotten, with what other workgroups ask of it (R355). -/
def dropWorkgroup (s : State) (h : Nat) : State :=
  let s := unpair s h
  let lin := (s.wg? h).bind (·.lineage)
  let unask (g : Workgroup) : Workgroup := if g.asks = some h then { g with asks := none } else g
  { s with wgs := (s.wgs.erase h).map fun g => (g.1, unask g.2), barriers := s.barriers.filter fun b => !(b.key.scope.code < 3 && b.key.owner == h)
           eng := { s.eng with credits := s.eng.credits.filter (·.wg != h) }
           sys := { s.sys with lineages := match lin with | some l => s.sys.lineages.erase l | none => s.sys.lineages
                               maps := s.sys.maps.filter (·.wg != h) } }

/-- What a warp's end takes away: its exchanges, its vectors and its launch slots. -/
def endWarp (s : State) (w : Nat) : State :=
  match s.warp? w with
  | none => s
  | some x =>
    let s := (List.range 64).foldl (fun s v =>
      if holdsVector s x v then s.modVec x.vf x.asid v fun _ => {} else s) s
    let mine (o : Shuf) : Bool := o.w == w
    { s with warps := s.warps.erase w, eng := { s.eng with shufs := s.eng.shufs.filter fun o => !mine o } }

/-- A remote register load that has passed its checks waits for a register of a warp, which it keeps from being released (R352). -/
def remotelyRead (s : State) (w : Nat) : Bool :=
  s.warps.any fun x => x.2.regs.paths.any fun q => match q.2.wait with | some (.remote n _) => n == w | _ => false

/-- The conditions of R162 step 1, R256 and R334. -/
def mayRelease (s : State) (w : Nat) (x : Warp) : Bool :=
  x.kind == .ordinary && x.exited && x.regs.fcnt.isEmpty && x.trap.isNone && !remotelyRead s w
    && !s.held.any (·.warp == w) && !s.eng.queue.any (·.warp == w) && !s.eng.copies.any (·.warp == w)
    && !x.batches.any (fun b => b.closed && !b.ops.isEmpty)
    && s.cur.all (·.w != w)

/-- WARP_RELEASE (R162): the warp is released, and its workgroup completes with its last warp. -/
def releaseWarp (w : Nat) (s : State) : Option State :=
  match s.warp? w with
  | none => none
  | some x =>
    if !mayRelease s w x then none
    else
      let s := endWarp s w
      some (match s.wg? x.wg with
        | some g => if g.warps.all fun n => (s.warp? n).isNone then dropWorkgroup s x.wg else s
        | none => s)

/-! ### Killing (R293, R371, R427) -/

/-- Whether a warp belongs to a workgroup, as one of its warps or as the trap lane of one. -/
def belongs (s : State) (h : Nat) (x : Warp) : Bool :=
  match x.kind with
  | .ordinary => x.wg == h
  | .trapLane t => ((s.warp? t).map (·.wg == h)).getD false
  | .firmware _ => false

/-- Ends the waits for a save of a workgroup with a status. -/
def endSaves (s : State) (h st : Nat) : State :=
  let fix (q : Path) : Path :=
    match q.wait with
    | some (.saving g none) => if g = h then { q with wait := some (.saving g (some st)) } else q
    | _ => q
  let warp (x : Warp) : Warp := { x with regs := { x.regs with paths := x.regs.paths.map fun q => (q.1, fix q.2) } }
  { s with warps := s.warps.map fun x => (x.1, warp x.2) }

/-- An installation ends with the warp that made it. -/
def dropInstalls (s : State) (mine : Nat → Bool) : State :=
  let ns := (s.warps.filter fun x => mine x.1).flatMap fun x => x.2.regs.paths.filterMap fun q =>
    match q.2.wait with | some (.installing n) => some n | _ => none
  { s with personalities := ns.foldl (fun m n => m.adjust n fun p => { p with installing := false }) s.personalities }

/-- A workgroup is killed at one instant: what has performed stays, everything else of its warps is discarded. `again` says whether the
launch may relaunch it. -/
def killWorkgroup (s : State) (h : Nat) (again : Bool) : State :=
  match s.wg? h with
  | none => s
  | some g =>
    let ws := (s.warps.filter fun x => belongs s h x.2).map (·.1)
    let mine (n : Nat) : Bool := ws.contains n
    let gone := s.eng.queue.filter fun o => mine o.warp
    let s := { s with
      held := s.held.filter fun x => !mine x.warp
      inflight := s.inflight.filter fun x => !mine x.warp
      walks := s.walks.filter fun x => !mine x.warp
      eng := { s.eng with copies := s.eng.copies.filter (·.wg != h), queue := s.eng.queue.filter fun x => !mine x.warp }
      ui := { s.ui with sends := s.ui.sends.map fun x => { x with warp := x.warp.filter fun y => !mine y.1 }
                        calls := s.ui.calls.filter fun x => !mine x.w }
      cur := s.cur.filter fun k => !mine k.w
      dbg := { s.dbg with traced := s.dbg.traced.filter fun t => !mine t.2.1 } }
    let s := gone.foldl (fun s o => unpin s o.id) (tidyBuffer s)
    let s := endSaves (ws.foldl endWarp (dropInstalls s mine)) h 1
    let s := dropWorkgroup s h
    s.modGrid g.grid fun r =>
      if g.node then { r with nkilled := r.nkilled + 1 }
      else if again && g.idem && !r.cut then { r with again := r.again ++ [(g.die, g.wgid.toNat)] }
      else { r with killed := r.killed + 1 }

/-! ### Grids complete; queues are destroyed (R370, R372) -/

/-- No workgroup of a grid is left, none is to come, and no node queue holds a record of it. -/
def gridFinished (s : State) (gid : Nat) (g : Grid) : Bool :=
  (g.cut || (g.dies.all g.launchedOn && g.again.isEmpty)) && !s.wgs.any (fun x => x.2.grid == gid)
    && !s.work.nodes.any fun q => q.2.grid == gid && !(q.2.chip.isEmpty && q.2.share.isEmpty)

/-- GRID_COMPLETE (R370). -/
def gridDone (gid : Nat) (s : State) : Option State :=
  match s.grid? gid with
  | none => none
  | some g => if gridFinished s gid g then some (completeGrid s gid g) else none

/-- Destroys a queue (R372). A workgroup that was killed and still to be relaunched stays killed (R371). -/
def destroyQueue (s : State) (qid : Nat) : State :=
  match s.queue? qid with
  | none => s
  | some q =>
    let notRun (s : State) (cva : Nat) : State :=
      writeCompletion s q cva (completionBytes 4 0 [0, 0, 0, 0] 0 0 s.clock s.clock 0)
    let s := (List.range (q.tail - q.head).toNat).foldl (fun s i =>
      match queueRead s q (q.ring.toNat + 16 * ((q.head.toNat + i) % 2 ^ q.rlog)) 16 with
      | (s, .ok bs) => notRun s (numAt bs 8 8)
      | (s, .error _) => s) s
    let s := q.landed.foldl (fun s k => notRun s (q.land_.toNat + 2048 * k.1 + 64)) s
    let s := s.modQueue qid fun q => { q with live := false, head := q.tail, landed := [], stuck := false }
    let cut (g : Grid) : Grid := if g.qid = qid then { g with cut := true, again := [], killed := g.killed + g.again.length } else g
    { s with work := { s.work with
        grids := s.work.grids.map fun g => (g.1, cut g.2)
        nodes := s.work.nodes.filter fun n => ((s.grid? n.2.grid).map (·.qid != qid)).getD true } }

/-! ### NLAUNCH and NLWAIT (R373, R374) -/

/-- The lowest free launch slot of a warp. -/
def freeLaunch (x : Warp) : Option Nat :=
  (List.range 16).find? fun k => let l := x.launches.get {} k; l.grid.isNone && l.done.isNone

/-- The publication that NPUSH, NLAUNCH or SYSCALL makes, and waits for in a long wait (R387); NPUSH keeps the descriptor it has read. -/
def postThen (c : Ctx) (s : State) (sc : Scope) (node : Option NodeDesc) (f : State → Res) : Res :=
  match c.path.wait with
  | some (.posting wids _) => if allDone s wids [] then f s else .wait s (.posting wids node)
  | _ =>
    let s := boundary s c.warp.core sc
    match publishedWids s c.warp.core with
    | [] => f s
    | w :: more => .wait s (.posting (w :: more) node)

/-- NLAUNCH. -/
def nlaunchBody (c : Ctx) (s : State) : Res :=
  oncePerPath c s fun _ =>
    let va := c.uA.toNat
    if va % 64 ≠ 0 then .trap .align c.uA
    else if 2 ^ 57 ≤ va then .trap .pfault c.uA
    else translateAll s c .read false [{ lane := c.lane0, va := va }] fun xs =>
      match freeLaunch c.warp with
      | none => .wait s .launchSlot
      | some k =>
        postThen c s .pkg none fun s =>
          let pk := (xs.head?).map fun x => parsePacket (s.bytes x.pa 64)
          let l := c.warp.launches.get {} k
          let s := s.modWarp c.w fun x => { x with launches := x.launches.insert k { l with done := none, grid := some 0 } }
          .done (writeUD (startGrid s c.warp.qid va pk none (some (c.w, k)) none) c (BitVec.ofNat 64 (l.gen.toNat * 16 + k)))

/-- NLWAIT. While the grid runs, LTOT of the `.try` form is what has been launched so far (DEDUCED, notes/assumptions/61.md). -/
def nlwaitBody (c : Ctx) (s : State) : Res :=
  oncePerPath c s fun _ =>
    let k := c.uA.toNat % 16
    let l := c.warp.launches.get {} k
    if l.gen.toNat ≠ c.uA.toNat / 16 % 2 ^ 12 ∨ (l.grid.isNone ∧ l.done.isNone) then .done (writeUD s c 5)
    else match l.done with
      | some st =>
        .done (writeUD (s.modWarp c.w fun x => { x with launches := x.launches.insert k { gen := l.gen + 1 } }) c st)
      | none =>
        let launched := ((l.grid.bind s.grid?).map (·.lcnts.sum)).getD 0
        if c.q = 1 then .done (writeUD s c (BitVec.ofNat 64 (launched * 2 ^ 32 + 0x100))) else .wait s (.grid k)

/-! ### Scale-out launch datagrams (R375, R376) -/

/-- The entry of a tenant from its 64 bytes; LASTSEQ is kept. -/
def parseTenant (bs : List Byte) (last : Word32) : Tenant :=
  { src := BitVec.ofNat 128 (numAt bs 0 16), qid := numAt bs 16 2, flags := BitVec.ofNat 8 (numAt bs 18 1), priocap := BitVec.ofNat 8 (numAt bs 19 1)
    maxgrid := BitVec.ofNat 32 (numAt bs 20 4), entlo := BitVec.ofNat 64 (numAt bs 24 8), enthi := BitVec.ofNat 64 (numAt bs 32 8)
    lastseq := last, maxnear := numAt bs 44 2 }

/-- The checks of R376 on a datagram. -/
def datagramOk (s : State) (src : BitVec 128) (bs : List Byte) (t : Tenant) : Bool :=
  let pk := parsePacket ((bs.drop 16).take 64)
  let seq : Word32 := BitVec.ofNat 32 (numAt bs 4 4)
  let q := (s.queue? t.qid).getD {}
  decide (80 ≤ bs.length) && decide (bs.length ≤ 1104) && bs.length % 16 == 0 && numAt bs 2 2 == 0 && numAt bs 8 8 == 0
    && t.flags.getLsbD 0 && src == t.src
    && decide (1 ≤ (seq - t.lastseq).toNat) && decide ((seq - t.lastseq).toNat < 2 ^ 31)
    && q.live && q.land_ != 0
    && pk.reservedOk
    && decide (t.entlo.toNat ≤ pk.entry.toNat) && decide (pk.entry.toNat < t.enthi.toNat) && decide (pk.grid ≤ t.maxgrid.toNat)
    && decide (pk.prio ≤ t.priocap.toNat % 16) && decide (pk.near ≤ t.maxnear)
    && !q.busy.contains (seq.toNat % 64)

/-- LAUNCH_DATAGRAM: an accepted datagram is copied into its landing slot and entered behind the host's entries; another is counted. -/
def landDatagram (src : BitVec 128) (bs : List Byte) (s : State) : State :=
  let n := numAt bs 0 2
  let t := s.work.tenants.get {} n
  let d := s.work.drops.get 0 n
  let drop : State := { s with work := { s.work with drops := s.work.drops.put 0 n (if d = 0xFFFFFFFF then d else d + 1) } }
  if !(decide (n < 256) && datagramOk s src bs t) then (if n < 256 then drop else s)
  else
    let seq : Word32 := BitVec.ofNat 32 (numAt bs 4 4)
    let k := seq.toNat % 64
    let q := (s.queue? t.qid).getD {}
    let base := q.land_.toNat + 2048 * k
    let put (s : State) (o : Nat) (xs : List Byte) : State := (queueWrite s q (base + o) xs).1
    let s := put (put (put s 0 ((bs.drop 16).take 64)) 64 (List.replicate 64 0)) 128 (bs.drop 80)
    let s := { s with work := { s.work with tenants := s.work.tenants.insert n { t with lastseq := seq } } }
    s.modQueue t.qid fun q => { q with landed := q.landed ++ [(k, q.tail)], busy := NSet.insert q.busy k }

/-- NLAUNCH (R373). -/
def execNlaunch (x : RForm) : State → Host.Outcome State Fault Refusal := runIop 0x254 (.r x) nlaunchBody
/-- NLWAIT (R374). -/
def execNlwait (x : RForm) : State → Host.Outcome State Fault Refusal := runIop 0x255 (.r x) nlwaitBody
/-- DISPATCH_PACKET (R365). -/
def execDispatchPacket (qid : Nat) : State → Host.Outcome State Fault Refusal := runEventFlip (dispatch qid)
/-- WORKGROUP_PLACE (R367). -/
def execWorkgroupPlace (grid die : Nat) : State → Host.Outcome State Fault Refusal := runEventFlip (placeWorkgroup grid die)
/-- GRID_COMPLETE (R370). -/
def execGridComplete (grid : Nat) : State → Host.Outcome State Fault Refusal := runEventFlip (gridDone grid)
/-- WARP_RELEASE (R162). -/
def execWarpRelease (w : Nat) : State → Host.Outcome State Fault Refusal := runEvent (releaseWarp w)
/-- LAUNCH_DATAGRAM (R376). -/
def execLaunchDatagram (src : BitVec 128) (payload : List (BitVec 8)) : State → Host.Outcome State Fault Refusal :=
  runEventFlip fun s => some (landDatagram src payload s)

end Sys2Proof.Machine
end

