-- ==== Sys2Proof/Machine/Nodes.lean ====
section
/-!
DEFINITION. Node queues and node warps (R380-R385, R485, 12_work.md): pushes, the overflow share, formation by count, timer and flush, and
the node part of an arena.
-/

namespace Sys2Proof.Machine

/-! ### Node descriptors (R380) -/

/-- The fields of a descriptor's 64 bytes. -/
def parseNode (addr : Nat) (bs : List Byte) : NodeDesc :=
  let n (o k : Nat) := numAt bs o k
  { addr := addr, entry := BitVec.ofNat 64 (n 0 8), frame := n 8 1, recsz := n 10 2, tmr := n 12 2 + 1, depth := n 14 2, ovf := n 16 8
    ovsz := n 24 8 }

/-- The entry frame in slots; 0 means 256. -/
def NodeDesc.slots (d : NodeDesc) : Nat := if d.frame = 0 then 256 else d.frame

/-- The first check of R380 that fails. -/
def nodeBad (s : State) (x : Warp) (d : NodeDesc) (bs : List Byte) (push form : Bool) : Option Nat :=
  let reserved := d.entry.toNat / 2 ^ 57 + numAt bs 9 1 + d.ovf / 2 ^ 57 + leNat (bs.drop 32)
  if reserved ≠ 0 then some 1
  else if d.recsz % 16 ≠ 0 ∨ d.recsz < 16 ∨ 256 < d.recsz then some 2
  else if d.tmr < 64 then some 3
  else if d.depth % 32 ≠ 0 ∨ d.depth < 32 ∨ 4096 < d.depth then some 4
  else if d.frame ≠ 0 ∧ d.frame < d.recsz / 4 then some 5
  else if d.ovf % 4096 ≠ 0 then some 6
  else if push && decide (x.regs.stackSize < d.slots) then some 7
  else if (push || form) && ((s.queue? x.qid).map (·.nodeq == 0)).getD true then some 8
  else none

/-- Reads the descriptor that a uniform names, as a weak GEN load, and checks it. -/
def withNode (c : Ctx) (s : State) (va : Word64) (push form : Bool) (f : State → NodeDesc → Res) : Res :=
  let es : List Access1 := [{ lane := c.lane0, va := va.toNat }]
  match eaFault es 64 with
  | some (code, info) => .trap code info
  | none =>
    translateAll s c .read false es fun xs =>
      match poisonedElem s 64 xs, xs.head? with
      | some _, _ => .trap .poison va
      | none, none => .done s
      | none, some x => withL1 c s false (l1Lines false [x.pa]) fun s =>
        let (s, bs) := weakNow s c.warp.core .gen x.pa 64
        let d := parseNode va.toNat bs
        match nodeBad s c.warp d bs push form with
        | some k => .trap .nodebad (BitVec.ofNat 64 k)
        | none => f s d

/-! ### Node queues (R381) -/

/-- The queue of a node and a grid in a cluster. -/
def findNode (s : State) (cluster grid addr : Nat) : Option (Nat × NodeQueue) :=
  List.find? (fun (q : Nat × NodeQueue) => q.2.cluster == cluster && q.2.grid == grid && q.2.desc.addr == addr) s.work.nodes

/-- Replaces a node queue; a queue with nothing in it is forgotten. -/
def State.setNode (s : State) (k : Nat) (q : NodeQueue) : State :=
  { s with work := { s.work with nodes :=
      if q.chip.isEmpty && q.share.isEmpty && q.forms.isEmpty then s.work.nodes.erase k else s.work.nodes.insert k q } }

/-- The bytes of the on-chip buffer, in 4 KiB units. -/
def NodeDesc.buffer (d : NodeDesc) : Nat := (d.depth * d.recsz + 4095) / 4096 * 4096

/-- The records that a cluster's share holds. -/
def NodeDesc.capacity (d : NodeDesc) : Nat := d.ovsz / 32 / d.recsz

/-- Where the i-th record that a queue writes to its share lies (R485). -/
def NodeQueue.shareAt (q : NodeQueue) (i : Nat) : Nat :=
  q.desc.ovf + q.cluster * (q.desc.ovsz / 32) + q.desc.recsz * (i % q.desc.capacity)

/-- The queue holds its buffer, or can take it now. -/
def NodeQueue.hasBuffer (s : State) (q : NodeQueue) : Bool :=
  !q.chip.isEmpty || (q.share.isEmpty && decide (q.desc.buffer ≤ nearFree s q.cluster))

/-- Entries of the buffer open to a push. -/
def NodeQueue.openChip (s : State) (q : NodeQueue) : Nat :=
  if q.hasBuffer s && q.share.isEmpty then q.desc.depth - q.chip.length else 0

/-- Every record queued, the oldest first. -/
def NodeQueue.all (q : NodeQueue) : List NodeRec := q.chip ++ q.share

/-- The bytes of a record: on chip, or read from the share. -/
def nodeBytes (s : State) (g : Grid) (q : NodeQueue) (onChip : Bool) (r : NodeRec) : State × Option (List Byte) :=
  if onChip then (s, some r.bytes)
  else match queueRead s { vf := g.vf, asid := g.asid } (q.shareAt r.idx) q.desc.recsz with
    | (s, .ok bs) => (s, some bs)
    | (s, .error _) => (s, none)

/-- The oldest records of the share move into the buffer, while there is room and each can be read (R381, R485). -/
def moveShare (s : State) (g : Grid) : Nat → NodeQueue → State × NodeQueue
  | 0, q => (s, q)
  | n + 1, q =>
    match q.share with
    | r :: rest =>
      if q.chip.length < q.desc.depth then
        match nodeBytes s g q false r with
        | (s, some bs) => moveShare s g n { q with chip := q.chip ++ [{ r with bytes := bs }], share := rest }
        | (s, none) => (s, q)
      else (s, q)
    | [] => (s, q)

/-- Takes the `n` oldest records of a queue; none where one of them cannot be read. -/
def takeRecords (s : State) (g : Grid) (k : Nat) (q : NodeQueue) (n : Nat) : State × Option (List NodeRec) :=
  let (s, got) := ((List.range n).zip q.all).foldl (fun (acc : State × Option (List NodeRec)) r =>
    match acc.2 with
    | none => acc
    | some xs =>
      match nodeBytes acc.1 g q (decide (r.1 < q.chip.length)) r.2 with
      | (s, some bs) => (s, some (xs ++ [{ r.2 with bytes := bs }]))
      | (s, none) => (s, none)) (s, some [])
  match got with
  | none => (s, none)
  | some xs =>
    let rest := { q with chip := q.chip.drop n, share := q.share.drop (n - q.chip.length) }
    let (s, rest) := if q.chip.isEmpty then (s, rest) else moveShare s g rest.desc.depth rest
    (s.setNode k { rest with count := if rest.all.isEmpty then 0 else rest.count }, some xs)

/-! ### Formation (R383, R384) -/

/-- The lowest run of the node part of a die's arena that a record of `rn` bytes can take. -/
def nodeRun (s : State) (qid : Nat) (q : Queue) (die rn : Nat) : Option Nat :=
  let lo := q.arena.toNat + die * q.arenasz + q.wpart
  let size := q.arenasz - q.wpart
  ((List.range (size / 4096)).map fun i => lo + 4096 * i).find? fun a =>
    decide (a + rn ≤ lo + size) && !recordsMeet s qid a rn

/-- The vector slots of a node warp: word i of the record of rank k in lane k of v i. -/
def nodeRows (recsz : Nat) (rs : List NodeRec) : SMap Row :=
  (List.range (recsz / 4)).map fun i => (i, Row.ofFn fun l => ((rs[l]?).map fun r => BitVec.ofNat 32 (numAt r.bytes (4 * i) 4)).getD 0)

/-- A node warp forms from the `n` oldest records of a queue; none where no run of the node part is free, or a record of the share cannot
be read. -/
def formNode (s : State) (k n bits : Nat) : Option State :=
  match s.work.nodes.find? k with
  | none => none
  | some nq =>
    match s.grid? nq.grid with
    | none => none
    | some g =>
      let q := (s.queue? g.qid).getD {}
      let die := nq.cluster / 8
      match nodeRun s g.qid q die (recordSpan 0 g.pk.stack) with
      | none => none
      | some record =>
        match takeRecords s g k nq n with
        | (_, none) => none
        | (s, some rs) =>
          let w := (rs.head?.map (·.w)).getD 0
          let h := freeHandle s die
          let cores := workCores s nq.cluster
          let ident := BitVec.ofNat 64 (w * 2 ^ 32 + cores.getD (w % cores.length) 0 * 2 ^ 7)
          let x := launchedWarp h nq.grid g record (declWord g.pk.stk 0 (min g.pk.prio q.priocap) g.pk.hot) ident
            (BitVec.ofNat 32 (2 ^ rs.length - 1)) nq.desc.slots nq.desc.entry (BitVec.ofNat 64 nq.desc.addr) (BitVec.ofNat 64 w) 0 s.clock
          let rows := nodeRows nq.desc.recsz rs
          let x := { x with node := some (BitVec.ofNat 64 (rs.length + bits)), dirty := rows.map (·.1), regs := { x.regs with v := rows } }
          let wg : Workgroup := { handle := h, wgid := BitVec.ofNat 32 w, grid := nq.grid, die := die, cluster := nq.cluster, vf := g.vf
                                  asid := g.asid, warps := [s.nextId], placed := s.clock, node := true, desc := nq.desc.addr }
          let id := s.nextId
          some (layRecord ({ s with nextId := id + 1, wgs := s.wgs.insert h wg }.setWarp id x) id)

/-- The formations that wait in a queue take place in order, as far as they can. -/
def runForms (k : Nat) : Nat → State → State
  | 0, s => s
  | fuel + 1, s =>
    match s.work.nodes.find? k with
    | none => s
    | some q =>
      match q.forms with
      | [] => s
      | (n, bits) :: rest =>
        match formNode (s.setNode k { q with forms := rest }) k n bits with
        | some s => runForms k fuel s
        | none => s

/-- A formation takes place now, or waits first in its queue (R384). -/
def formOrWait (s : State) (k n bits : Nat) : State :=
  runForms k 1 { s with work := { s.work with nodes := s.work.nodes.adjust k fun q => { q with forms := q.forms ++ [(n, bits)] } } }

/-- NODE_WARP_FORM_COUNT (R383). -/
def formCount (k : Nat) (s : State) : Option State :=
  match s.work.nodes.find? k with
  | none => none
  | some q => if q.forms.isEmpty && decide (32 ≤ q.all.length) then some (formOrWait s k 32 0) else none

/-- NODE_TIMER (R383): the timer counts from the entry of the oldest record. -/
def formTimer (k : Nat) (s : State) : Option State :=
  match s.work.nodes.find? k with
  | none => none
  | some q =>
    match q.forms, q.all with
    | [], r :: more =>
      if r.at_ + q.desc.tmr ≤ s.clock then some (formOrWait s k (min 32 (more.length + 1)) 0x40) else none
    | _, _ => none

/-- NODE_PART_RETRY (R384). -/
def formRetry (k : Nat) (s : State) : Option State :=
  match s.work.nodes.find? k with
  | none => none
  | some q =>
    match q.forms with
    | [] => none
    | (n, bits) :: rest => formNode (s.setNode k { q with forms := rest }) k n bits

/-! ### NPUSH, NFLUSH, NQRY and NRECV -/

/-- The record of a lane: word i of the span in bytes 4 i. -/
def laneRecord (c : Ctx) (d : NodeDesc) (l : Nat) : List Byte :=
  (List.range (d.recsz / 4)).flatMap fun i => leBytes 4 ((c.warp.regs.row (c.slot (c.f.fa.toNat + i))).lane l).toNat

/-- The records of a push enter the queue together: into the buffer as far as it is open, the others into the share. -/
def pushRecords (c : Ctx) (s : State) (k : Nat) (q : NodeQueue) : Res :=
  let recs : List NodeRec := (lanesOf c.act).map fun l => { bytes := laneRecord c q.desc l, at_ := s.clock, w := c.warp.regs.wgid }
  let chip := recs.take (q.openChip s)
  let share := (recs.drop (q.openChip s)).zipIdx.map fun x => { x.1 with idx := q.count + x.2 }
  let pieces := share.flatMap fun r =>
    let a := q.shareAt r.idx
    (cutRange 4096 2 a q.desc.recsz).map fun p => (p.1, (r.bytes.drop (p.1 - a)).take p.2)
  translateAll s c .write false (pieces.map fun p => { lane := c.lane0, va := p.1 }) fun xs =>
    let s := (xs.zip pieces).foldl (fun s x => agentWrite s x.1.pa x.2.2) s
    let q := { q with chip := q.chip ++ chip, share := q.share ++ share.map (fun r => { r with bytes := [] }), count := q.count + share.length }
    let s := s.setNode k q
    .done (if c.q = 1 then writeUD s c 0 else s)

/-- A push that has read its descriptor keeps it in whatever wait stops it then (R380). -/
def keepNode (d : NodeDesc) (r : Res) : Res :=
  match r with
  | .wait s w => if w.begun then r else .wait s (.posting [] (some d))
  | r => r

/-- A push whose descriptor has been read and whose registers are ready publishes (R382), unless it has, and its records enter the queue once
there is room. A queue that has been destroyed takes no record (R372). -/
def pushNode (c : Ctx) (s : State) (d : NodeDesc) : Res :=
  let try_ := c.q == 1
  let fin (s : State) (x : Word64) : Res := .done (if try_ then writeUD s c x else s)
  let enter (s : State) : Res :=
    let (k, q) := (findNode s (clusterOf c.warp.core) c.warp.grid d.addr).getD
      (s.nextId, { cluster := clusterOf c.warp.core, grid := c.warp.grid, desc := d })
    let s := if k = s.nextId then { s with nextId := k + 1 } else s
    let n := popcount c.act
    if ((s.grid? c.warp.grid).map (·.cut)).getD true then fin s 0
    else if !q.hasBuffer s && d.capacity == 0 then (if try_ then fin s 1 else .trap .qfull 0)
    else if n ≤ q.openChip s + (q.desc.capacity - q.share.length) then pushRecords c s k q
    else if try_ then fin s 1
    else .wait { s with work := { s.work with nodes := s.work.nodes.insert k q } } (.nodeRoom k n d)
  keepNode d (match c.path.wait with
    | some (.nodeRoom _ _ _) => enter s
    | _ => postThen c s .clus (some d) enter)

/-- NPUSH (R382): the descriptor is read at issue, once the record's slots are ready. -/
def npushBody (c : Ctx) (s : State) : Res :=
  let push (s : State) (d : NodeDesc) : Res :=
    let span := (List.range (d.recsz / 4)).map (c.f.fa.toNat + ·)
    match span.find? fun n => decide (c.path.wtop.toNat ≤ c.slot n) with
    | some n => .trap .regbound (BitVec.ofNat 64 n)
    | none => withSlots c s (span.map c.slot) fun _ => pushNode c s d
  if c.act = 0 then .done (if c.q = 1 then writeUD s c 0 else s)
  else match c.path.wait with
    | some (.posting _ (some d)) | some (.nodeRoom _ _ d) => push s d
    | _ => withNode c s c.uB true true push

/-- NFLUSH (R383): every record queued when it arrives, 32 to a warp. -/
def nflushBody (c : Ctx) (s : State) : Res :=
  oncePerPath c s fun _ =>
    withNode c s c.uA false true fun s d =>
      match findNode s (clusterOf c.warp.core) c.warp.grid d.addr with
      | none => .done s
      | some (k, q) =>
        let n := q.all.length - (q.forms.map (·.1)).sum
        let forms := List.replicate (n / 32) (32, 0x80) ++ (if n % 32 = 0 then [] else [(n % 32, 0x80)])
        let q := { q with forms := q.forms ++ forms }
        .done (runForms k q.forms.length (s.setNode k q))

/-- NQRY (R385). -/
def nqryBody (c : Ctx) (s : State) : Res :=
  oncePerPath c s fun _ =>
    withNode c s c.uA false false fun s d =>
      let (a, b) := ((findNode s (clusterOf c.warp.core) c.warp.grid d.addr).map fun q => (q.2.chip.length, q.2.share.length)).getD (0, 0)
      .done (writeUD s c (BitVec.ofNat 64 (a % 2 ^ 16 + b % 2 ^ 16 * 2 ^ 16)))

/-- NRECV (R385). -/
def nrecvBody (c : Ctx) (s : State) : Res := oncePerPath c s fun _ => .done (writeUD s c (c.warp.node.getD 0))

/-- NPUSH (R382). -/
def execNpush (x : RForm) : State → Host.Outcome State Fault Refusal := runIop 0x250 (.r x) (afterOverflow npushBody)
/-- NFLUSH (R383). -/
def execNflush (x : RForm) : State → Host.Outcome State Fault Refusal := runIopFlip 0x251 (.r x) (afterOverflow nflushBody)
/-- NQRY (R385). -/
def execNqry (x : RForm) : State → Host.Outcome State Fault Refusal := runIop 0x252 (.r x) (afterOverflow nqryBody)
/-- NRECV (R385). -/
def execNrecv (x : RForm) : State → Host.Outcome State Fault Refusal := runIop 0x253 (.r x) nrecvBody
/-- NODE_WARP_FORM_COUNT (R383). -/
def execNodeWarpFormCount (q : Nat) : State → Host.Outcome State Fault Refusal := runEventFlip (formCount q)
/-- NODE_TIMER (R383). -/
def execNodeTimer (q : Nat) : State → Host.Outcome State Fault Refusal := runEventFlip (formTimer q)
/-- NODE_PART_RETRY (R384). -/
def execNodePartRetry (q : Nat) : State → Host.Outcome State Fault Refusal := runEventFlip (formRetry q)

end Sys2Proof.Machine
end

