-- ==== Sys2Proof/Machine/HostCall.lean ====
section
/-!
DEFINITION. Host calls (R377-R379, R485, 12_work.md): the call slot of a warp, SYSCALL, SYSRD, SYSCAN, and the doorbell of the host.
-/

namespace Sys2Proof.Machine

/-! ### The call slot (R377) -/

/-- The address of the slot with an index on a die. -/
def Queue.callSlot (q : Queue) (die i : Nat) : Nat := q.call.toNat + die * q.arenasz / 32 + 128 * i

/-- The address of a warp's call slot. -/
def callSlotOf (s : State) (x : Warp) : Nat :=
  let q := (s.queue? x.qid).getD {}
  let o := x.record.toNat - q.arena.toNat
  let die := o / q.arenasz
  q.callSlot die ((o - die * q.arenasz) / 4096)

/-- A part of a slot: its offset, its length and its physical address. -/
abbrev SlotPart := Nat × Nat × Nat

/-- The bytes of a slot. -/
def slotBytes (s : State) (ps : List SlotPart) : List Byte := ps.flatMap fun p => s.bytes p.2.2 p.2.1

/-- A strong store of a path into its slot. -/
def slotWrite (s : State) (c : Ctx) (ps : List SlotPart) (o : Nat) (bs : List Byte) : State :=
  ps.foldl (fun s p =>
    let lo := max o p.1
    let hi := min (o + bs.length) (p.1 + p.2.1)
    if lo < hi then
      let pa := p.2.2 + (lo - p.1)
      let part := (bs.drop (lo - o)).take (hi - lo)
      let s := { s with nextId := s.nextId + 1, seq := s.seq + 1 }
      perform s (s.nextId - 1) (some c.warp.core) c.w c.path.lmask s.seq .gen .pod pa part.length (cellsAt pa part)
    else s) s

/-- Translates the slot of the issuing warp; a failure traps the path (R387). -/
def withCallSlot (c : Ctx) (s : State) (f : List SlotPart → Res) : Res :=
  let va := callSlotOf s c.warp
  let cut := cutRange 64 4 va 128
  translateAll s c .write false (cut.map fun p => { lane := c.lane0, va := p.1 }) fun xs =>
    f ((cut.zip xs).map fun x => (x.1.1 - va, x.1.2, x.2.pa))

/-- STATE of a slot: its low bits and SEQ. -/
def slotState (bs : List Byte) : Nat := numAt bs 0 4 % 4
def slotSeq (bs : List Byte) : Word32 := BitVec.ofNat 32 (numAt bs 4 4)

/-- Writes STATE; SEQ is kept. -/
def setSlotState (s : State) (c : Ctx) (ps : List SlotPart) (seq : Word32) (st : Nat) : State :=
  slotWrite s c ps 0 (leBytes 4 st ++ leBytes 4 seq.toNat)

/-- Forgets the calls of a warp. -/
def dropCalls (s : State) (w : Nat) : State := { s with ui := { s.ui with calls := s.ui.calls.filter (·.w != w) } }

/-! ### SYSCALL, SYSRD and SYSCAN (R378, R379) -/

/-- The vector of a plain SYSCALL in `NbCall`: none. -/
def plainCall : Nat := 64

/-- SYSCALL posts its request: the arguments, then STATE = 1 with SEQ incremented. -/
def postCall (c : Ctx) (s : State) (ps : List SlotPart) (nb : Bool) : State × Word32 :=
  let a := c.uA
  let vec := if nb then a.toNat / 2 ^ 32 % 64 else 0
  let seq := slotSeq (slotBytes s ps) + 1
  let args := (List.range 4).map fun i => (c.uni (c.f.fb.toNat + i)).toNat
  let s := slotWrite s c ps 8 (words64 (a.toNat % 2 ^ 32 :: args))
  let s := slotWrite s c ps 56 (words64 [c.warp.regs.ident.toNat, vec])
  let s := setSlotState s c ps seq 1
  let call : NbCall := { w := c.w, seq := seq, vec := if nb then vec else plainCall }
  ({ dropCalls s c.w with ui := { s.ui with calls := s.ui.calls.filter (·.w != c.w) ++ [call] } }, seq)

/-- SYSCALL and SYSCALL.NB (R378): the slot must be idle when the request is posted, after the publication. -/
def syscallBody (c : Ctx) (s : State) : Res :=
  oncePerPath c s fun _ =>
    match c.path.wait with
    | some (.callReply none) => .wait s (.callReply none)
    | some (.callReply (some (failed, reply))) =>
      withCallSlot c s fun ps =>
        let s := setSlotState s c ps (slotSeq (slotBytes s ps)) 0
        if failed then .trapIn s .hostlost (c.uA &&& 0xFFFFFFFF)
        else .done (writeUD (refresh s c.warp.core .pod) c reply)
    | _ =>
      withCallSlot c s fun ps =>
        let post (s : State) : Res :=
          let (s, seq) := postCall c s ps (c.q == 1)
          if c.q = 1 then .done (writeUD s c (seq.zeroExtend 64)) else .wait s (.callReply none)
        let idle (s : State) : Bool := slotState (slotBytes s ps) == 0
        if !idle s then .wait s .callIdle else postThen c s .pod none post

/-- SYSRD (R379). -/
def sysrdBody (c : Ctx) (s : State) : Res :=
  oncePerPath c s fun _ =>
    withCallSlot c s fun ps =>
      let bs := slotBytes s ps
      let st := slotState bs
      if st < 2 then .wait s .callRead
      else
        let s := dropCalls (setSlotState s c ps (slotSeq bs) 0) c.w
        .done (writeUD (refresh s c.warp.core .pod) c (if st = 2 then BitVec.ofNat 64 (numAt bs 48 8) else 0))

/-- SYSCAN (R379). -/
def syscanBody (c : Ctx) (s : State) : Res :=
  oncePerPath c s fun _ =>
    withCallSlot c s fun ps =>
      let bs := slotBytes s ps
      match slotState bs with
      | 0 => .done (writeUD s c 0)
      | 1 => .done (writeUD (dropCalls (setSlotState s c ps (slotSeq bs) 4) c.w) c 1)
      | _ => .done (writeUD s c 2)

/-- The STATE of a warp's call slot, read outside its path. -/
def callState (s : State) (x : Warp) : State × Option (Nat × Word32 × Word64) :=
  match queueRead s { vf := x.vf, asid := x.asid } (callSlotOf s x) 128 with
  | (s, .ok bs) => (s, some (slotState bs, slotSeq bs, BitVec.ofNat 64 (numAt bs 48 8)))
  | (s, .error _) => (s, none)

/-! ### The doorbell (R378, R464) -/

/-- A wait for a reply ends with the doorbell's reading. -/
def replied (failed : Bool) (reply : Word64) : Wait → Wait
  | .callReply none => .callReply (some (failed, reply))
  | w => w

/-- The device reads the slot of a warp whose call is posted: a plain call ends its wait; a call of SYSCALL.NB sends its interrupt. -/
def readReply (s : State) (w : Nat) : State :=
  match s.warp? w, s.ui.calls.find? (·.w == w) with
  | some x, some call =>
    (match callState s x with
      | (s, some (st, seq, reply)) =>
        if st < 2 ∨ seq ≠ call.seq then s
        else
          let s := dropCalls s w
          if call.vec = plainCall then
            let learn := Path.mapWaits (replied (st == 3) reply)
            s.modRegs w fun r => { r with paths := r.paths.map fun q => (q.1, learn q.2), stack := r.stack.map learn }
          else queueSend s { k := 0, vf := x.vf, asid := x.asid, v := call.vec, pay := seq.zeroExtend 64, src := .firmware }
      | (s, none) => s)
  | _, _ => s

/-- The warp whose record begins at a slot's place in an arena. -/
def warpOfSlot (s : State) (qid : Nat) (q : Queue) (die i : Nat) : Option Nat :=
  (List.find? (fun (x : Nat × Warp) => x.2.kind == .ordinary && x.2.qid == qid
    && x.2.record.toNat == q.arena.toNat + die * q.arenasz + 4096 * i) s.warps).map (·.1)

/-- CALL_DOORBELL: a doorbell for a queue of another function is ignored (R464). -/
def doorbell (f : Func) (value : Word64) (s : State) : State :=
  let qid := value.toNat / 2 ^ 32 % 2 ^ 16
  match s.queue? qid with
  | none => s
  | some q =>
    if !s.pkg.ready || f != .vf q.vf then s
    else match warpOfSlot s qid q (value.toNat / 2 ^ 30 % 4) (value.toNat % 2 ^ 30) with
      | some w => readReply s w
      | none => s

/-- SYSCALL (R378). -/
def execSyscall (x : RForm) : State → Host.Outcome State Fault Refusal := runIop 0x256 (.r x) syscallBody
/-- SYSRD (R379). -/
def execSysrd (x : RForm) : State → Host.Outcome State Fault Refusal := runIop 0x257 (.r x) sysrdBody
/-- SYSCAN (R379). -/
def execSyscan (x : RForm) : State → Host.Outcome State Fault Refusal := runIop 0x258 (.r x) syscanBody
/-- CALL_DOORBELL (R378). -/
def execCallDoorbell (f : Func) (value : Word64) : State → Host.Outcome State Fault Refusal := runEventFlip fun s => some (doorbell f value s)

end Sys2Proof.Machine
end

