-- ==== Sys2Proof/Machine/Debug.lean ====
section
/-!
DEFINITION. Debug, trace and profiling (R441-R455, 15_debug.md): breakpoints and stops, stamps, bearings, progress counters, trace rings,
comparators, and Isobar. Trace records are written by the operations of `Machine/Ops.lean`.
-/

namespace Sys2Proof.Machine

/-! ### The firmware core's mailbox (R428, R448) -/

/-- Posts 16 bytes to the mailbox of a die's firmware core, a ring of 256 entries; none when it is full. -/
def postMail (s : State) (die : Nat) (w0 w1 : Word64) : Option State :=
  let box := s.sys.mail.get [] die
  if box.length < 256 then some { s with sys := { s.sys with mail := s.sys.mail.insert die (box ++ [(w0, w1)]) } } else none

/-! ### Stops (R448) -/

/-- A path stops: its bits, the STOP record and the entry to firmware. -/
def stopPath (s : State) (w p aux : Nat) : State :=
  match s.warp? w, s.path? w p with
  | some x, some q =>
    let s := traceRecord s x.core (traceHead x p q) 8 false aux [x.regs.prog.toNat]
    let s := (s.modPath w p fun q => { q with stopped := true, halted := true, byMatch := decide (256 ≤ aux), clause := none })
    (postMail s (dieOf x.core) (BitVec.ofNat 64 x.wg) (BitVec.ofNat 64 (x.regs.warpId + p % 16 * 2 ^ 8 + 8 * 2 ^ 16))).getD s
  | _, _ => s

/-- BKPT and BKPT.stop: the stop leaves the PC at the next guest instruction. -/
def bkptBody (c : Ctx) (s : State) : Res :=
  oncePerPath c s fun _ =>
    let n := c.f.fc.toNat
    if c.q = 0 then .trap .breakpoint (BitVec.ofNat 64 n)
    else .moved (stopPath (s.modPath c.w c.p fun q => { q with pc := c.fallPc, notes := [], wait := none }) c.w c.p n)

/-! ### Comparators (R447, R449, R452) -/

/-- ACT of an identity word. -/
def Comparator.act (k : Comparator) : Nat := k.id.toNat / 2 ^ 4 % 8

/-- A comparator's identity fields match a warp. -/
def Comparator.names (k : Comparator) (x : Warp) : Bool :=
  let id := k.id.toNat
  x.kind == .ordinary && (!id.testBit 9 || id / 2 ^ 32 == x.regs.wgid) && (!id.testBit 8 || id / 2 ^ 26 % 64 == x.regs.warpId)
    && (!id.testBit 7 || id / 2 ^ 10 % 2 ^ 16 == x.qid)

/-- A comparator breaks a warp at a PC. -/
def Comparator.breaks (k : Comparator) (x : Warp) (pc : BitVec 57) : Bool :=
  (k.act == 3 || k.act == 4) && k.pc.getLsbD 63 && k.pc.toNat % 2 ^ 57 == pc.toNat && k.names x

/-- Comparator k of a core. -/
def State.comparator (s : State) (core k : Nat) : Comparator := s.dbg.comps.get {} (4 * core + k)

/-- The comparator that breaks the issuing path: it stands at a guest boundary, and the instruction at its PC has had no effect. -/
def breakingComparator (s : State) : Option Nat :=
  match s.cur with
  | none => none
  | some k =>
    match s.warp? k.w, s.path? k.w k.p with
    | some x, some q =>
      if k.done ≠ 0 ∨ k.rest ≠ [] ∨ (q.wait.map (·.begun)).getD false ∨ q.restarts then none
      else (List.range 4).find? fun i => (s.comparator x.core i).breaks x q.pc
    | _, _ => none

/-- COMPARATOR_MATCH (R449): the path faults with BREAK, or stops with its PC at the matching instruction. -/
def comparatorMatch (w p k : Nat) (s : State) : Option State :=
  match s.cur, breakingComparator s, s.path? w p with
  | some c, some i, some q =>
    if c.w ≠ w ∨ c.p ≠ p ∨ i ≠ k ∨ q.skip then none
    else
      let core := ((s.warp? w).map (·.core)).getD 0
      if (s.comparator core k).act = 3 then
        some (raiseFault (s.modPath w p fun q => { q with wait := none, notes := [] }) w p .breakpoint (BitVec.ofNat 64 (256 + k)))
      else
        let s := { s.modPath w p (fun q => { q with wait := none, notes := [] }) with cur := none }
        some (clauseBoundary (stopPath s w p (256 + k)) w)
  | _, _, _ => none

/-- A traced path that has gone: its lane has exited, its warp has left the core, or no comparator selects it any longer. -/
def traceStale (s : State) (core : Nat) : Bool :=
  match s.dbg.traced.find? core with
  | none => true
  | some (w, lane, _) =>
    match s.warp? w with
    | none => true
    | some x =>
      x.place.map (·.core) != some core || !x.regs.liveLanes.getLsbD lane
        || !(List.range 4).any fun k => let m := s.comparator core k; (m.act == 1 || m.act == 2) && m.names x

/-- The choice of the traced lane at a clause start (R447): the first resident warp of the core that matches, in warp-slot order, when the
path that starts is its lowest. -/
def chooseTraced (s : State) (core w p : Nat) : State :=
  if !traceStale s core then s
  else
    let act (x : Warp) : Option Nat := ((List.range 4).map fun k => s.comparator core k).findSome? fun m =>
      if (m.act == 1 || m.act == 2) && m.names x then some m.act else none
    let here := s.warps.filterMap fun x => match x.2.place with
      | some pl => if pl.core = core then (act x.2).map fun a => (pl.half * 256 + pl.slot, x.1, a) else none
      | none => none
    let first := here.foldl (fun (b : Option (Nat × Nat × Nat)) x => match b with
      | some y => if x.1 < y.1 then some x else b
      | none => some x) none
    let clear := { s with dbg := { s.dbg with traced := s.dbg.traced.erase core } }
    match first with
    | none => clear
    | some (_, n, a) =>
      match (s.warp? n).bind (·.regs.paths.head?) with
      | none => clear
      | some (i, q) =>
        if n = w ∧ i = p then
          { s with dbg := { s.dbg with traced := s.dbg.traced.insert core (n, (lowLane q.lmask).getD 0, a == 2) } }
        else clear

/-- A clause starts (R446): the half's last path, and the CLAUSE record of the traced path, with the clause's IOPs when its header says
them, and the header word. -/
def traceClause (s : State) (w p : Nat) (iops : Option Nat) (word : Nat) : State :=
  match s.warp? w, s.path? w p with
  | some x, some q =>
    let s := chooseTraced s x.core w p
    let s := match s.dbg.rings.find? x.core, x.place with
      | some r, some pl =>
        let r := { r with last := r.last.insert pl.half (traceHead x p q) }
        { s with dbg := { s.dbg with rings := s.dbg.rings.insert x.core r } }
      | _, _ => s
    if s.isTraced w x q then
      let iops := iops.getD (Config.clauseIops s.fresh).toNat
      traceRecord { s with fresh := s.fresh + 1 } x.core (traceHead x p q) 1 true iops [word]
    else s
  | _, _ => s

/-! ### STAMP, BEARQ, PROGQ (R451) -/

/-- STAMP. -/
def stampBody (c : Ctx) (s : State) : Res :=
  oncePerPath c s fun _ =>
    .done (writeUD (traceRecord s c.warp.core (traceHead c.warp c.p c.path) 7 false 0 [c.uA.toNat]) c (BitVec.ofNat 64 s.clock))

/-- BEARQ. -/
def bearqBody (c : Ctx) (s : State) : Res :=
  oncePerPath c s fun _ =>
    let s := writeUD s c c.path.bearing
    .done (if c.q = 1 then s.modPath c.w c.p fun q => { q with bearing := 0 } else s)

/-- PROG of a warp, from its state or its record; none while a context fault keeps it from being read. -/
def remoteProg (s : State) (n : Nat) (x : Warp) : State × Option Word64 :=
  if !x.inRecord then (s, some x.regs.prog)
  else
    match recordRead s x (x.regs.vofs - 448 + 256) 1 with
    | (s, .ok bs) => (s, some (BitVec.ofNat 64 (numAt bs 0 8)))
    | (s, .error va) => (contextFault s n va, none)

/-- PROGQ and PROGQ.peer. A warp of which every lane has exited is gone, as in R358. -/
def progqBody (c : Ctx) (s : State) : Res :=
  oncePerPath c s fun _ =>
    if c.q = 0 then .done (writeUD s c c.warp.regs.prog)
    else
      match (selected s c.warp c.uA).toOption with
      | none => .done (writeUD s c (BitVec.allOnes 64))
      | some n =>
        match (s.warp? n).filter (!·.exited) with
        | none => .done (writeUD s c (BitVec.allOnes 64))
        | some y =>
          match remoteProg s n y with
          | (s, some v) => .done (writeUD s c v)
          | (s, none) => .wait s (.remote n (.uni 0))

/-! ### TRCON, TRCOFF and TRCSEL (R452) -/

/-- TRCON: the status, and the state with the ring enabled. -/
def enableRing (s : State) (base : Nat) (conf : Word64) : State × Nat :=
  let b := conf.toNat
  let core := b % 2 ^ 9
  let log := b / 2 ^ 16 % 2 ^ 5
  let known := core + log * 2 ^ 16 + bit (b.testBit 24) * 2 ^ 24 + b / 2 ^ 28 % 16 * 2 ^ 28
  if known ≠ b ∨ log < 12 ∨ 30 < log ∨ base % 2 ^ log ≠ 0 ∨ 2 ^ 52 ≤ base then (s, 1)
  else if (s.dbg.rings.find? core).isSome then (s, 2)
  else
    let r : TraceRing := { base := base, log := log, wrap := b.testBit 24, sper := b / 2 ^ 28 % 16, sampled := s.clock }
    ({ s with dbg := { s.dbg with rings := s.dbg.rings.insert core r } }, 0)

/-- TRCON. -/
def trconBody (c : Ctx) (s : State) : Res :=
  oncePerPath c s fun _ => let (s, st) := enableRing s c.uA.toNat c.uB; .done (writeUD s c (BitVec.ofNat 64 st))

/-- TRCOFF: the ring of a core is disabled; the offset of the next record, and the records dropped. -/
def disableRing (s : State) (core : Nat) : State × Word64 :=
  match s.dbg.rings.find? core with
  | none => (s, 0)
  | some r =>
    ({ s with dbg := { s.dbg with rings := s.dbg.rings.erase core } },
      BitVec.ofNat 64 (r.dropped % 2 ^ 32 * 2 ^ 32 + if r.wrap then r.off % 2 ^ r.log else r.off))

/-- TRCOFF. -/
def trcoffBody (c : Ctx) (s : State) : Res :=
  oncePerPath c s fun _ => let (s, x) := disableRing s (c.uA.toNat % 512); .done (writeUD s c x)

/-- TRCSEL: the other bits of a PC word must be zero; the RSVD field of an identity word ignores what is written (R9). -/
def selectComparator (s : State) (pcWord : Bool) (target value : Word64) : State × Nat :=
  let k := 4 * (target.toNat / 2 ^ 16 % 512) + target.toNat % 4
  let old := s.dbg.comps.get {} k
  let v := value.toNat
  let bad := if pcWord then v / 2 ^ 57 % 2 ^ 6 ≠ 0 else 4 < v / 2 ^ 4 % 8
  if bad then (s, 1)
  else
    let new := if pcWord then { old with pc := value } else { old with id := BitVec.ofNat 64 (v / 16 * 16) }
    ({ s with dbg := { s.dbg with comps := s.dbg.comps.put {} k new } }, 0)

/-- TRCSEL. -/
def trcselBody (c : Ctx) (s : State) : Res :=
  oncePerPath c s fun _ => let (s, st) := selectComparator s (c.q == 1) c.uA c.uB; .done (writeUD s c (BitVec.ofNat 64 st))

/-- TRACE_SAMPLE (R446): one record for each half that has started a clause since the last sample. -/
def traceSample (core : Nat) (s : State) : Option State :=
  match s.dbg.rings.find? core with
  | none => none
  | some r =>
    if r.sper = 0 ∨ s.clock < r.sampled + 2 ^ (r.sper + 8) then none
    else
      let r' := { r with last := [], sampled := s.clock }
      let s := { s with dbg := { s.dbg with rings := s.dbg.rings.insert core r' } }
      some (r.last.foldl (fun s h => traceRecord s core h.2 9 false h.1 []) s)

/-! ### Isobar (R454, R455) -/

/-- A path that Isobar counts as waiting. -/
def Path.isoWaits (ctxf : Bool) (q : Path) : Bool :=
  q.inLongWait ctxf || q.halted || (match q.wait with | some .emulation => true | _ => false)

/-- A warp is waiting (R342). -/
def Warp.isoWaiting (x : Warp) : Bool :=
  x.faultVa.isSome || (x.trap.map (·.held)).getD false
    || x.regs.paths.all fun q => q.2.park || q.2.isoWaits x.regs.ctxf

/-- Where the edges of a wait lead: warps, and whether an agent outside the graph. -/
structure IsoWait where
  kind  : Nat
  edges : List Nat
  outside : Bool
  obj   : Nat := 0

/-- The other warps of a warp's workgroup. -/
def wgSiblings (s : State) (w : Nat) (x : Warp) : List Nat := (((s.wg? x.wg).map (·.warps)).getD []).filter fun n => n != w && (s.warp? n).isSome

/-- Copies of a workgroup are outstanding. -/
def copiesOf (s : State) (wg : Nat) : Bool := s.eng.copies.any (·.wg == wg)

/-- Batches of a workgroup are outstanding. -/
def batchesOf (s : State) (wg : Nat) : Bool := s.warps.any fun x => x.2.wg == wg && x.2.batches.any fun b => !b.ops.isEmpty

/-- Participants of a barrier that have not arrived in its current phase. -/
def notArrived (s : State) (key : BarrierKey) : List Nat :=
  (s.warps.filter fun x => participates s key x.2 && !(s.barrier key).has x.1 x.2).map (·.1)

/-- A port lets a host or peer sender reach an unmasked vector of a warp. -/
def hostCanSend (s : State) (x : Warp) : Bool :=
  match s.port? x.vf x.asid with
  | none => false
  | some p => (List.range 64).any fun v =>
      !x.regs.uimask.getLsbD v && holdsVector s x v
        && p.perms.any fun e => e.2.cls.getLsbD 7 && e.2.vmask.getLsbD v && (e.2.cls.toNat % 4 == 1 || e.2.cls.toNat % 4 == 2)

/-- The row of R454 for a wait of a warp's path. A node queue whose formation waits for node-part units waits on the engine (R384). -/
def isoWait (s : State) (w : Nat) (x : Warp) (q : Path) : IsoWait :=
  let others := wgSiblings s w x
  let space := (s.warps.filter fun y => y.1 != w && y.2.kind == .ordinary && y.2.vf == x.vf && y.2.asid == x.asid).map (·.1)
  let idle (timed : Bool) : IsoWait := if timed then { kind := 9, edges := [], outside := true } else { kind := 6, edges := space, outside := hostCanSend s x }
  if q.halted || q.stopped then { kind := 8, edges := [], outside := true }
  else match q.wait with
    | some (.barrier key _) | some (.barrierCount key _) =>
      { kind := 1, edges := notArrived s key, outside := !allLaunched s key, obj := key.n + key.scope.code * 16 }
    | some (.tb ofs _) =>
      let same (n : Nat) : Bool := ((s.warp? n).map fun y => y.regs.paths.any fun p => match p.2.wait with | some (.tb o _) => o == ofs | _ => false).getD false
      { kind := 2, edges := others.filter fun n => !same n, outside := copiesOf s x.wg || batchesOf s x.wg, obj := ofs }
    | some (.granules _ todo _) => { kind := 3, edges := others, outside := copiesOf s x.wg, obj := ((todo.head?).map (·.off)).getD 0 }
    | some (.nodeRoom k _ _) =>
      match s.work.nodes.find? k with
      | none => { kind := 4, edges := [], outside := true }
      | some nq =>
        let ns := (s.wgs.filter fun g => g.2.node && g.2.grid == nq.grid && g.2.cluster == nq.cluster && g.2.desc == nq.desc.addr).flatMap (·.2.warps)
        { kind := 4, edges := ns, outside := ns.isEmpty || !nq.forms.isEmpty, obj := nq.desc.addr }
    | some (.pair h) => { kind := 5, edges := ((s.wg? h).map (·.warps)).getD [], outside := (s.wg? h).isNone, obj := ((s.wg? h).map (·.wgid.toNat)).getD 0 }
    | some (.shuf k) =>
      let n := ((s.eng.shufs.find? (·.k == k)).map (·.peer)).filter fun n => (s.warp? n).isSome
      { kind := 5, edges := n.toList, outside := n.isNone, obj := ((n.bind s.warp?).map (64 + ·.regs.warpId)).getD 0 }
    | some (.uiwait _ t none) => idle (0 < t)
    | some (.sleep _ t none) => idle (0 < t)
    | some .emulation => { kind := 7, edges := [w], outside := false }
    | _ => { kind := 9, edges := [], outside := true }

/-- The waiting paths of a warp with their PIDX, the path stack's from 16 on. -/
def isoPaths (x : Warp) : List (Nat × Path) :=
  (x.regs.paths.filter fun q => q.2.isoWaits x.regs.ctxf)
    ++ ((List.range x.regs.stack.length).filterMap fun j => (x.regs.stack[x.regs.stack.length - 1 - j]?).map fun q => (16 + j, q)).filter fun q => q.2.isoWaits x.regs.ctxf

/-- Removes from a set the warps with an edge that leaves it, or with none, as often as there are warps. -/
def shrink (edges : List (Nat × List Nat × Bool)) : Nat → List Nat → List Nat
  | 0, k => k
  | n + 1, k =>
    shrink edges n (k.filter fun w => match edges.find? (·.1 == w) with
      | some (_, es, out) => !out && !es.isEmpty && es.all k.contains
      | none => false)

/-- The warps joined with one by edges in either direction, within a set. -/
def joinedWith (edges : List (Nat × List Nat × Bool)) (k : List Nat) : Nat → List Nat → List Nat
  | 0, got => got
  | n + 1, got =>
    let link (a b : Nat) : Bool := ((edges.find? (·.1 == a)).map (·.2.1.contains b)).getD false
    joinedWith edges k n (k.filter fun w => got.contains w || got.any fun g => link g w || link w g)

/-- The parts of a set that edges join. -/
def knotParts (edges : List (Nat × List Nat × Bool)) (k : List Nat) : List (List Nat) :=
  k.foldl (fun parts w => if parts.any (·.contains w) then parts else parts ++ [joinedWith edges k k.length [w]]) []

/-- The slots of a report on the warps of a knot that belong to one VF (R455). -/
def knotReport (s : State) (knot : List Nat) (vf : Nat) : List (List Byte) :=
  let mine := knot.filterMap fun w => (s.warp? w).bind fun x => if x.vf = vf then some (w, x) else none
  let entries := mine.flatMap fun (w, x) => (isoPaths x).map fun (i, q) =>
    let k := isoWait s w x q
    leBytes 4 x.regs.wgid ++ [BitVec.ofNat 8 x.regs.warpId, BitVec.ofNat 8 i, BitVec.ofNat 8 x.regs.dorm.toNat, BitVec.ofNat 8 k.kind]
      ++ words64 [q.pc.toNat] ++ leBytes 4 q.lmask.toNat ++ words64 [k.obj] ++ [0, 0, 4, 0]
  let asid := ((mine.head?).map (·.2.asid)).getD 0
  (words64 [s.clock] ++ leBytes 2 entries.length ++ leBytes 2 asid ++ leBytes 1 vf ++ List.replicate 17 0 ++ [2, 0]) :: entries

/-- ISOBAR_SAMPLE (R454): a die's firmware samples its warps, and reports each knot when it first appears. -/
def isobarSample (die : Nat) (s : State) : Option State :=
  if (s.sys.fwcore.find? die).isNone || decide (s.clock < s.dbg.sampledAt.get 0 die + s.dbg.interval) then none
  else
    let mine := s.warps.filter fun x => x.2.kind == .ordinary && !x.2.released && dieOf x.2.core == die
    let now := (mine.filter fun x => x.2.isoWaiting).map fun x => (x.1, x.2.regs.prog)
    let stuck := now.filter fun x => (s.dbg.seen.get [] die).contains x
    let edges := stuck.filterMap fun n => (s.warp? n.1).map fun x =>
      let ws := (isoPaths x).map fun q => isoWait s n.1 x q.2
      (n.1, ws.flatMap (·.edges), ws.any (·.outside))
    let parts := knotParts edges (shrink edges edges.length (edges.map (·.1)))
    let new := parts.filter fun k => !s.dbg.knots.contains k
    let s := new.foldl (fun s k =>
      (NSet.insertAll [] (k.filterMap fun w => (s.warp? w).map (·.vf))).foldl (fun s vf => addReport s vf .trap (knotReport s k vf) none) s) s
    let elsewhere := s.dbg.knots.filter fun k => k.any fun w => ((s.warp? w).map fun x => dieOf x.core != die).getD false
    some { s with dbg := { s.dbg with seen := s.dbg.seen.insert die now, sampledAt := s.dbg.sampledAt.insert die s.clock
                                      knots := elsewhere ++ parts } }

/-- BKPT (R451). -/
def execBkpt (x : RForm) : State → Host.Outcome State Fault Refusal := runIop 0x290 (.r x) bkptBody
/-- STAMP (R451). -/
def execStamp (x : RForm) : State → Host.Outcome State Fault Refusal := runIop 0x291 (.r x) stampBody
/-- BEARQ (R451). -/
def execBearq (x : RForm) : State → Host.Outcome State Fault Refusal := runIop 0x292 (.r x) bearqBody
/-- PROGQ (R451). -/
def execProgq (x : RForm) : State → Host.Outcome State Fault Refusal := runIopFlip 0x293 (.r x) progqBody
/-- TRCON (R452). -/
def execTrcon (x : RForm) : State → Host.Outcome State Fault Refusal := runIop 0x294 (.r x) trconBody
/-- TRCOFF (R452). -/
def execTrcoff (x : RForm) : State → Host.Outcome State Fault Refusal := runIop 0x295 (.r x) trcoffBody
/-- TRCSEL (R452). -/
def execTrcsel (x : RForm) : State → Host.Outcome State Fault Refusal := runIop 0x296 (.r x) trcselBody
/-- COMPARATOR_MATCH (R449). -/
def execComparatorMatch (w p k : Nat) : State → Host.Outcome State Fault Refusal := runEvent (comparatorMatch w p k)
/-- TRACE_SAMPLE (R446). -/
def execTraceSample (core : Nat) : State → Host.Outcome State Fault Refusal := runEvent (traceSample core)
/-- ISOBAR_SAMPLE (R454). -/
def execIsobarSample (die : Nat) : State → Host.Outcome State Fault Refusal := runEvent (isobarSample die)

end Sys2Proof.Machine
end

