-- ==== Sys2Proof/Machine/Crypto.lean ====
section
/-!
DEFINITION. The published functions that the manual names: SHAKE256 (R461-R463) and AES-256-GCM (R432).
-/

namespace Sys2Proof.Machine

/-! ### SHAKE256 -/

/-- The rotation of each lane of Keccak-f[1600], lane (x, y) at x + 5 y. -/
def keccakRot : List Nat :=
  [0, 1, 62, 28, 27, 36, 44, 6, 55, 20, 3, 10, 43, 25, 39, 41, 45, 15, 21, 8, 18, 2, 61, 56, 14]

/-- The round constants of Keccak-f[1600]. -/
def keccakRounds : List Word64 :=
  [0x0000000000000001, 0x0000000000008082, 0x800000000000808A, 0x8000000080008000, 0x000000000000808B, 0x0000000080000001,
   0x8000000080008081, 0x8000000000008009, 0x000000000000008A, 0x0000000000000088, 0x0000000080008009, 0x000000008000000A]
  ++ [0x000000008000808B, 0x800000000000008B, 0x8000000000008089, 0x8000000000008003, 0x8000000000008002, 0x8000000000000080,
      0x000000000000800A, 0x800000008000000A, 0x8000000080008081, 0x8000000000008080, 0x0000000080000001, 0x8000000080008008]

/-- One round of Keccak-f[1600]. -/
def keccakRound (rc : Word64) (a : List Word64) : List Word64 :=
  let at_ (xs : List Word64) (x y : Nat) : Word64 := xs.getD (x % 5 + 5 * (y % 5)) 0
  let col := (List.range 5).map fun x => (List.range 5).foldl (fun c y => c ^^^ at_ a x y) 0
  let d := (List.range 5).map fun x => col.getD ((x + 4) % 5) 0 ^^^ (col.getD ((x + 1) % 5) 0).rotateLeft 1
  let t := (List.range 25).map fun i => (a.getD i 0 ^^^ d.getD (i % 5) 0).rotateLeft (keccakRot.getD i 0)
  let b := (List.range 25).map fun i => at_ t (i % 5 + 3 * (i / 5)) (i % 5)
  (List.range 25).map fun i =>
    let x := i % 5
    let y := i / 5
    let v := at_ b x y ^^^ (~~~(at_ b (x + 1) y) &&& at_ b (x + 2) y)
    if i = 0 then v ^^^ rc else v

/-- Keccak-f[1600]. -/
def keccak (a : List Word64) : List Word64 := keccakRounds.foldl (fun a rc => keccakRound rc a) a

/-- Absorbs blocks of 136 bytes. -/
def absorb : Nat → List Byte → List Word64 → List Word64
  | 0, _, a => a
  | n + 1, bs, a =>
    let block := (List.range 25).map fun i => if i < 17 then BitVec.ofNat 64 (leNat ((bs.drop (8 * i)).take 8)) else 0
    absorb n (bs.drop 136) (keccak ((a.zip block).map fun x => x.1 ^^^ x.2))

/-- The first `n` bytes of SHAKE256 of a list of bytes, `n` up to 136. -/
def shake256 (bs : List Byte) (n : Nat) : List Byte :=
  let pad := 136 - bs.length % 136
  let bs := bs ++ (if pad = 1 then [0x9F] else 0x1F :: List.replicate (pad - 2) 0 ++ [0x80])
  ((absorb (bs.length / 136) bs (List.replicate 25 0)).flatMap fun w => leBytes 8 w.toNat).take n

/-! ### AES-256 -/

/-- Multiplication by x in the field of AES. -/
def xtime (b : Byte) : Byte := (b <<< 1) ^^^ (if b.getLsbD 7 then 0x1B else 0)

/-- Multiplication in the field of AES. -/
def gmul (a b : Byte) : Byte :=
  ((List.range 8).foldl (fun (acc : Byte × Byte) i => (if b.getLsbD i then acc.1 ^^^ acc.2 else acc.1, xtime acc.2)) (0, a)).1

/-- The inverse in the field of AES, b to the power 254; 0 for 0. -/
def ginv (b : Byte) : Byte :=
  ((List.range 7).foldl (fun (acc : Byte × Byte) _ => let p := gmul acc.2 acc.2; (gmul acc.1 p, p)) (1, b)).1

/-- SubBytes of a byte. -/
def subByte (b : Byte) : Byte :=
  let i := ginv b
  i ^^^ i.rotateLeft 1 ^^^ i.rotateLeft 2 ^^^ i.rotateLeft 3 ^^^ i.rotateLeft 4 ^^^ 0x63

/-- The S-box as a table. -/
def sbox : List Byte := (List.range 256).map fun n => subByte (BitVec.ofNat 8 n)

/-- The words of the key schedule after the first eight, four bytes each, the last word first. -/
def expandKey (box : List Byte) : Nat → List (List Byte) → List (List Byte)
  | 0, ws => ws
  | n + 1, ws =>
    let i := ws.length
    let sub (w : List Byte) := w.map fun b => box.getD b.toNat 0
    let last := ws.headD []
    let rcon : Byte := (List.range (i / 8 - 1)).foldl (fun r _ => xtime r) 1
    let t := if i % 8 = 0 then (sub (last.drop 1 ++ last.take 1)).zipWith (· ^^^ ·) [rcon, 0, 0, 0]
      else if i % 8 = 4 then sub last else last
    expandKey box n ((t.zipWith (· ^^^ ·) (ws.getD 7 [])) :: ws)

/-- The fifteen round keys of a 32-byte key. -/
def roundKeys (box key : List Byte) : List (List Byte) :=
  let first := ((List.range 8).map fun i => (key.drop (4 * i)).take 4).reverse
  let ws := (expandKey box 52 first).reverse
  (List.range 15).map fun r => ((ws.drop (4 * r)).take 4).flatten

/-- ShiftRows after SubBytes. -/
def shiftRows (box : List Byte) (s : List Byte) : List Byte :=
  (List.range 16).map fun i => box.getD (s.getD ((i + 4 * (i % 4)) % 16) 0).toNat 0

/-- MixColumns. -/
def mixColumns (s : List Byte) : List Byte :=
  (List.range 16).map fun i =>
    let c (k : Nat) := s.getD (i / 4 * 4 + (i + k) % 4) 0
    gmul 2 (c 0) ^^^ gmul 3 (c 1) ^^^ c 2 ^^^ c 3

/-- AES-256 of a block under round keys. -/
def aesBlock (box : List Byte) (keys : List (List Byte)) (b : List Byte) : List Byte :=
  let add (s k : List Byte) := s.zipWith (· ^^^ ·) k
  let s := (List.range 13).foldl (fun s r => add (mixColumns (shiftRows box s)) (keys.getD (r + 1) [])) (add b (keys.getD 0 []))
  add (shiftRows box s) (keys.getD 14 [])

/-! ### Galois/counter mode -/

/-- A block's big-endian number. -/
def beNat (bs : List Byte) : Nat := bs.foldl (fun n b => n * 256 + b.toNat) 0

/-- The `n` big-endian bytes of a number. -/
def beBytes (n x : Nat) : List Byte := (leBytes n x).reverse

/-- Multiplication in the field of GHASH; bit 0 of the polynomial is the most significant bit of the block. -/
def ghashMul (x y : BitVec 128) : BitVec 128 :=
  ((List.range 128).foldl (fun (acc : BitVec 128 × BitVec 128) i =>
    (if x.getMsbD i then acc.1 ^^^ acc.2 else acc.1,
     (acc.2 >>> 1) ^^^ (if acc.2.getLsbD 0 then (0xE1 : BitVec 128) <<< 120 else 0))) (0, y)).1

/-- GHASH over bytes padded to whole blocks. -/
def ghash (h : BitVec 128) : Nat → List Byte → BitVec 128 → BitVec 128
  | 0, _, y => y
  | n + 1, bs, y =>
    if bs.isEmpty then y
    else
      let block := bs.take 16 ++ List.replicate (16 - min 16 bs.length) 0
      ghash h n (bs.drop 16) (ghashMul (y ^^^ BitVec.ofNat 128 (beNat block)) h)

/-- Counter mode from a 12-byte IV, the first counter being `ctr`. -/
def ctrMode (box : List Byte) (keys : List (List Byte)) (iv : List Byte) : Nat → Nat → List Byte → List Byte
  | 0, _, _ => []
  | n + 1, ctr, bs =>
    if bs.isEmpty then []
    else (bs.take 16).zipWith (· ^^^ ·) (aesBlock box keys (iv ++ beBytes 4 ctr)) ++ ctrMode box keys iv n (ctr + 1) (bs.drop 16)

/-- AES-256-GCM: the bytes enciphered, or deciphered, and the tag over the additional data and the ciphertext. -/
def gcm (key : BitVec 256) (iv aad bs : List Byte) (enc : Bool) : List Byte × List Byte :=
  let box := sbox
  let keys := roundKeys box (leBytes 32 key.toNat)
  let h := BitVec.ofNat 128 (beNat (aesBlock box keys (List.replicate 16 0)))
  let out := ctrMode box keys iv (bs.length / 16 + 1) 2 bs
  let cipher := if enc then out else bs
  let padded (xs : List Byte) := xs ++ List.replicate ((16 - xs.length % 16) % 16) 0
  let all := padded aad ++ padded cipher ++ beBytes 8 (8 * aad.length) ++ beBytes 8 (8 * cipher.length)
  let y := ghash h (all.length / 16) all 0
  (out, (beBytes 16 y.toNat).zipWith (· ^^^ ·) (aesBlock box keys (iv ++ [0, 0, 0, 1])))

end Sys2Proof.Machine
end

