-- ==== Sys2Proof/Machine/Personality.lean ====
section
/-!
DEFINITION. Personalities (R92-R134, 03_personalities.md): reading, checking and installing an image, its lifetime, the Gazetteer's
invalidation and fills, and the traps of emulation words.
-/

namespace Sys2Proof.Machine

/-! ### Images (R93-R106) -/

/-- The first check of R105 that an image fails: check, table, entry and slot. -/
structure ImageBad where
  check : Nat
  table : Nat
  index : Nat := 0
  slot  : Nat := 0
deriving DecidableEq, Repr

/-- The header of an image (R93). -/
structure ImageHead where
  npat   : Nat
  flags  : Nat
  nplane : Nat
  ntmpl  : Nat
  rsvd   : Nat
  pat    : Nat
  pln    : Nat
  tmp    : Nat
  rep    : Nat

/-- The fields of a header's 64 bytes. -/
def parseImage (bs : List Byte) : ImageHead :=
  let n (o k : Nat) := numAt bs o k
  { npat := n 32 1, flags := n 33 1, nplane := n 34 2, ntmpl := n 36 2, rsvd := n 38 2 + n 56 8, pat := n 40 4, pln := n 44 4
    tmp := n 48 4, rep := n 52 4 }

/-- Numbers of `k` bytes from a list of bytes. -/
def wordsOf (k : Nat) : Nat → List Byte → List Nat
  | 0, _ => []
  | n + 1, bs => leNat (bs.take k) :: wordsOf k n (bs.drop k)

/-- Cuts a list into lists of `k`. -/
def groupsOf (k : Nat) : Nat → List Nat → List (List Nat)
  | 0, _ => []
  | n + 1, xs => xs.take k :: groupsOf k n (xs.drop k)

/-- The tables that an image's bytes give. -/
def tablesOf (h : ImageHead) (head pats planes tmpls : List Byte) : Tables :=
  { lrs := wordsOf 8 4 head, hdrs := h.flags % 2 == 1, ialign := h.flags / 2 % 4, pats := wordsOf 4 h.npat pats
    planes := groupsOf 4 h.nplane (wordsOf 8 (4 * h.nplane) planes), tmpls := groupsOf 17 h.ntmpl (wordsOf 8 (17 * h.ntmpl) tmpls) }

/-- Check 1 on the header's fields. -/
def headBad (h : ImageHead) : Bool :=
  h.rsvd != 0 || decide (8 ≤ h.flags) || h.flags / 2 % 4 == 3 || h.npat == 0 || decide (64 < h.npat) || h.nplane == 0
    || decide (512 < h.nplane) || decide (1024 < h.ntmpl) || h.pat % 8 != 0 || h.pln % 8 != 0 || h.tmp % 8 != 0

/-- The bits of `v` lie within `m`. -/
def within (v m : Nat) : Bool := v &&& m == v

/-- Check 2 on a length entry. -/
def lengthBad (t : Tables) (e : Nat) : Bool :=
  if bitAt e 31 then
    !within (bitsAt e 32 16) (bitsAt e 48 16) || bitAt e 30 || bitsAt e 0 28 != 0 || 2 * (bitsAt e 28 2 + 1) % 2 ^ (t.ialign + 1) != 0
  else e != 0

/-- Check 3 on a pattern (R96, R97). -/
def patternBad (p : Nat) : Bool :=
  let arg := bitsAt p 8 8
  decide (63 < bitsAt p 26 6 + bitsAt p 20 6) || bitsAt p 0 8 != 0
    || (match bitsAt p 16 3 with
        | 0 => arg != 0
        | 1 | 4 => decide (64 ≤ arg)
        | 2 => false
        | 3 => decide (6 < arg / 16) || arg / 2 % 8 != 0 || bitAt p 19 || (arg % 2 == 1 && arg / 16 != 3)
        | _ => true)

/-- The classes that valid length entries name. -/
def classesOf (t : Tables) : List Nat := (t.lrs.filter (bitAt · 31)).map fun e => bitsAt e 28 2

/-- Check 4 on a plane (R98). A plane that names no class has no length, so that its MASK must be zero (DESIGN CHOICE,
notes/assumptions/46.md). -/
def planeBad (t : Tables) (p : List Nat) : Bool :=
  let m := p.getD 0 0
  let r := p.getD 2 0
  let a := p.getD 3 0
  let lcm := (List.range 4).filter fun c => bitAt a (60 + c)
  let largest := lcm.foldl (fun n c => max n (16 * (c + 1))) 0
  !within (p.getD 1 0) m || bitsAt a 0 60 != 0 || lcm.any (fun c => !(classesOf t).contains c) || m / 2 ^ largest != 0
    || (match bitsAt r 62 2 with
        | 1 => decide (t.tmpls.length ≤ bitsAt r 48 10) || bitsAt r 58 4 != 0 || bitsAt r 0 48 != 0
        | 2 => bitsAt r 48 10 != 0 || (List.range 8).any fun i => decide (t.pats.length ≤ bitsAt r (6 * i) 6)
        | _ => bitsAt r 0 62 != 0)

/-- The k-registers that an operand of `o` names from `n`. -/
def kSpan (o : Opd) (n : Nat) : List Nat := match o with | .v c _ => (List.range c).map (n + ·) | _ => []

/-- A hole of a slot breaks check 5. -/
def holeBad (t : Tables) (fm : Format) (img : Nat) (km : BitVec 4) (h : Nat) : Bool :=
  let code := bitsAt h 12 4
  if code = 0 then h != 0
  else match holeTarget fm code with
    | none => true
    | some (lo, n, _) =>
      bitsAt h 0 6 != 0 || decide (t.pats.length ≤ bitsAt h 6 6) || bitsAt img lo n != 0 || (decide (code ≤ 4) && km.getLsbD (4 - code))

/-- Whether an earlier slot of an expansion may have an opcode (R103). -/
def earlyOpcode (opc : Nat) : Bool := (0x040 ≤ opc && opc ≤ 0x067) || (0x0C0 ≤ opc && opc ≤ 0x0DD)

/-- A slot of a template under R103 and check 5: none when it breaks a rule, otherwise the k-registers written so far. -/
def slotWrites (t : Tables) (tm : List Nat) (i : Nat) (last : Bool) (written : List Nat) : Option (List Nat) :=
  let img := tm.getD (1 + i) 0
  let km : BitVec 4 := fieldAt (tm.getD 0 0) (24 + 4 * i) 4
  match formatOf (bitsAt img 54 10), readIop img km with
  | some fm, some (opc, f) =>
    (match shape opc f with
      | none => none
      | some sh =>
        let holes := (List.range 4).map fun j => bitsAt (tm.getD (9 + i) 0) (16 * j) 16
        let reads := (if km.getLsbD 2 then kSpan sh.a f.fa.toNat else []) ++ (if km.getLsbD 1 then kSpan sh.b f.fb.toNat else [])
          ++ (if km.getLsbD 0 then kSpan sh.c f.fc.toNat else []) ++ (if km.getLsbD 3 && sh.dr then kSpan sh.d f.d.toNat else [])
        if !legal opc f || f.e != last || holes.any (holeBad t fm img km) || reads.any (fun k => !written.contains k)
            || (if last then km.getLsbD 3 else f.u || !earlyOpcode opc || !km.getLsbD 3) then none
        else some (if km.getLsbD 3 then written ++ kSpan sh.d f.d.toNat else written))
  | _, _ => none

/-- The first slot of a template that breaks check 5. -/
def templateSlots (t : Tables) (tm : List Nat) (n : Nat) : Nat → Nat → List Nat → Option Nat
  | 0, _, _ => none
  | fuel + 1, i, written =>
    match slotWrites t tm i (i + 1 == n) written with
    | none => some i
    | some written => templateSlots t tm n fuel (i + 1) written

/-- Check 5 on a template: the failing slot. A pattern that a header template names must exist. In an ordinary template, a reserved bit or an
HPAT field of the control word that is not zero breaks check 5 in slot 0, as does a header template's pattern (DESIGN CHOICE,
notes/assumptions/45.md). -/
def templateBad (t : Tables) (tm : List Nat) : Option Nat :=
  let c := tm.getD 0 0
  if bitAt c 60 then (if (List.range 4).any fun j => decide (t.pats.length ≤ bitsAt c (6 * j) 6) then some 0 else none)
  else if bitsAt c 56 4 != 0 || bitsAt c 0 24 != 0 then some 0
  else let n := bitsAt c 61 3 + 1; templateSlots t tm n n 0 []

/-- Check 6 on a header template (R104). -/
def headerTemplateBad (t : Tables) (tm : List Nat) : Bool :=
  let c := tm.getD 0 0
  bitAt c 60 && (!t.hdrs || bitsAt c 61 3 != 0 || bitsAt c 56 4 != 0 || tm.getD 1 0 != 0 || tm.getD 9 0 != 0)

/-- The first entry of a table that a test names. -/
def firstBad {α : Type} (xs : List α) (f : α → Bool) : Option Nat := xs.findIdx? f

/-- Checks 2 to 6 of R105 in order. -/
def tablesBad (t : Tables) : Option ImageBad :=
  let at_ (check table : Nat) (i : Option Nat) : Option ImageBad := i.map fun i => { check := check, table := table, index := i }
  (at_ 2 1 (firstBad t.lrs (lengthBad t))).or <|
  (if (classesOf t).isEmpty then some { check := 2, table := 1 } else none).or <|
  (at_ 3 2 (firstBad t.pats patternBad)).or <|
  (at_ 4 3 (firstBad t.planes (planeBad t))).or <|
  ((firstBad t.tmpls fun tm => (templateBad t tm).isSome).map fun i =>
    ({ check := 5, table := 4, index := i, slot := (templateBad t (t.tmpls.getD i [])).getD 0 } : ImageBad)).or <|
  at_ 6 4 (firstBad t.tmpls (headerTemplateBad t))

/-- The validation report (R106). -/
def imageReport (status : Nat) (b : Option ImageBad) (fva : Nat) : List Byte :=
  let b := b.getD { check := 0, table := 0 }
  [BitVec.ofNat 8 status, BitVec.ofNat 8 b.check, BitVec.ofNat 8 b.table, BitVec.ofNat 8 b.slot] ++ leBytes 2 b.index ++ [0, 0]
    ++ words64 [fva] ++ List.replicate 48 0

/-! ### Installation and its inverse (R128, R129, R132) -/

/-- Reads several ranges; the address of the first that faults otherwise. -/
def readRanges (s : State) (q : Queue) : List (Nat × Nat) → State × Except Nat (List (List Byte))
  | [] => (s, .ok [])
  | (a, n) :: rest =>
    match queueRead s q a n with
    | (s, .error (_, va)) => (s, .error va)
    | (s, .ok bs) =>
      match readRanges s q rest with
      | (s, .ok more) => (s, .ok (bs :: more))
      | (s, .error va) => (s, .error va)

/-- Changes a personality number. -/
def State.modPersonality (s : State) (n : Nat) (f : Personality → Personality) : State :=
  { s with personalities := s.personalities.insert n (f (s.personalities.get {} n)) }

/-- An installation ends with a status and its report. An image whose report cannot be written is INVALID, which is found last (DESIGN CHOICE,
notes/assumptions/44.md). -/
def endInstall (s : State) (q : Queue) (n rep status : Nat) (b : Option ImageBad) (fva : Nat) (image : Option (Tables × List Byte)) :
    State × Nat :=
  let (s, wrote) := queueWrite s q rep (imageReport status b fva)
  let status := if wrote || status != 0 then status else 3
  let s := s.modPersonality n fun p =>
    match (if status = 0 then image else none) with
    | some (t, bs) => { p with resident := true, tables := some t, gen := p.gen + 1, installing := false, digest := shake256 bs 64 }
    | none => { p with installing := false }
  (s, status)

/-- The installation of the image at an address as number n (R128). No report is written and the status is 4 where the header cannot be read,
since REPOFS is then unknown (DESIGN CHOICE, notes/assumptions/43.md); a table that cannot be read gives status 4 with CHECK 0 (DESIGN CHOICE,
notes/assumptions/44.md). -/
def install (s : State) (q : Queue) (n va : Nat) : State × Nat :=
  let fail (s : State) (st : Nat) : State × Nat := (s.modPersonality n fun p => { p with installing := false }, st)
  match queueRead s q va 64 with
  | (s, .error _) => fail s 4
  | (s, .ok head) =>
    let h := parseImage head
    if headBad h then endInstall s q n (va + h.rep) 3 (some { check := 1, table := 0 }) 0 none
    else
      match readRanges s q [(va + h.pat, 4 * h.npat), (va + h.pln, 32 * h.nplane), (va + h.tmp, 136 * h.ntmpl)] with
      | (s, .error bad) => endInstall s q n (va + h.rep) 4 none bad none
      | (s, .ok parts) =>
        let t := tablesOf h head (parts.getD 0 []) (parts.getD 1 []) (parts.getD 2 [])
        match tablesBad t with
        | some b => endInstall s q n (va + h.rep) 3 (some b) 0 none
        | none => endInstall s q n (va + h.rep) 0 none 0 (some (t, head ++ parts.flatten))

/-- PINSTALL (R128): it claims the number, and completes when it next issues. -/
def pinstallBody (c : Ctx) (s : State) : Res :=
  oncePerPath c s fun _ =>
    let n := c.f.fc.toNat
    let va := c.uA
    let p := s.personalities.get {} n
    match c.path.wait with
    | some (.installing _) =>
      let (s, st) := install s { vf := c.warp.vf, asid := c.warp.asid } n va.toNat
      .done (writeUD s c (BitVec.ofNat 64 st))
    | _ =>
      if va.toNat % 64 ≠ 0 then .trap .align va
      else if p.resident || p.installing then .done (writeUD s c 1)
      else .wait (s.modPersonality n fun p => { p with installing := true }) (.installing n)

/-- Drops Gazetteer entries, and the fills in flight, that satisfy a test (R114). -/
def dropGazetteer (s : State) (f : (pid asid line : Nat) → Bool) : State :=
  { s with gaz := s.gaz.filter fun e => !f e.pid e.asid e.line, fills := s.fills.filter fun e => !f e.pid e.asid e.line }

/-- PEVICT (R129). -/
def pevictBody (c : Ctx) (s : State) : Res :=
  oncePerPath c s fun _ =>
    let n := c.f.fc.toNat
    let p := s.personalities.get {} n
    if p.installing then .done (writeUD s c 5)
    else if !p.resident then .done (writeUD s c 2)
    else
      let s := s.modPersonality n fun p => { p with resident := false, tables := none, digest := [] }
      .done (writeUD (dropGazetteer s fun pid _ _ => pid == n) c 0)

/-- PBIND (R130). -/
def pbindBody (c : Ctx) (s : State) : Res :=
  oncePerPath c s fun _ =>
    if c.uA.toNat % 4096 ≠ 0 then .trap .align c.uA
    else .done { s with spaces := s.spaces.adjust (State.spaceKey c.warp.vf c.warp.asid) fun a =>
      { a with bind := a.bind.put 0 c.f.fc.toNat c.uA } }

/-- GEN, NTMPL, NPLM1, NPATM1, LCMASK, IALIGN and HDRS of a resident number (R132). Number 0 has no image: it shows one length class of 64 bits
and IALIGN = 8 bytes (R92), HDRS 1, and no templates, one plane and one pattern (DESIGN CHOICE, notes/assumptions/47.md). The template and plane
counts of J32 and J16 are free values, and their pattern counts are those of R122 and R125. -/
def personalityWord (n : Nat) (p : Personality) : Nat :=
  let word (ntmpl nplm npatm lcm ial hdrs : Nat) : Nat :=
    p.gen.toNat * 2 ^ 36 + ntmpl % 2 ^ 11 * 2 ^ 25 + nplm % 2 ^ 10 * 2 ^ 15 + npatm % 64 * 2 ^ 9 + lcm * 32 + ial * 8 + hdrs * 4 + 1
  match n, p.tables with
  | 0, _ => word 0 0 0 8 2 1
  | 1, _ => word (Config.templateCount 1).toNat (Config.planeCount 1).toNat 51 2 1 1
  | 2, _ => word (Config.templateCount 2).toNat (Config.planeCount 2).toNat 10 1 0 0
  | _, some t => word t.tmpls.length (t.planes.length - 1) (t.pats.length - 1)
      ((List.range 4).foldl (fun m c => if (classesOf t).contains c then m + 2 ^ c else m) 0) t.ialign (bit t.hdrs)
  | _, none => 0

/-- The binding of an address space for a personality number (R117). -/
def binding (s : State) (vf asid n : Nat) : Word64 := ((s.space? vf asid).map fun a => a.bind.get 0 n).getD 0

/-- PQUERY (R132). -/
def pqueryBody (c : Ctx) (s : State) : Res :=
  oncePerPath c s fun _ =>
    let n := c.f.fc.toNat
    let p := s.personalities.get {} n
    let bnd := 2 * bit (binding s c.warp.vf c.warp.asid n != 0)
    .done (writeUD s c (BitVec.ofNat 64 (bnd + if p.resident then personalityWord n p else 0)))

/-- GZINV (R133). -/
def gzinvBody (c : Ctx) (s : State) : Res :=
  oncePerPath c s fun _ =>
    let a := c.uA.toNat
    .done (dropGazetteer s fun pid asid line =>
      match c.q with
      | 0 => true
      | 1 => asid == a % 2 ^ 16
      | 2 => asid == a % 2 ^ 16 && line / 64 == c.uB.toNat / 4096
      | _ => pid == a % 16)

/-! ### Emulation (R118, R131) -/

/-- EMRET: the warp's emulation state ends, and the emulated instruction counts as completed (R120, R131, R450). -/
def emretBody (c : Ctx) (s : State) : Res :=
  oncePerPath c s fun _ =>
    if !c.path.emu then .trap .emul 2
    else
      let r := c.warp.regs
      let back := r.empc + BitVec.ofNat 64 (r.eminfo.toNat / 16 % 2 ^ 12 / 8)
      let goal := if c.q = 1 then c.uA else back
      let s := s.modRegs c.w fun r =>
        { r with prog := r.prog + 1, paths := r.paths.map fun q => (q.1, { q.2 with emu := false })
                 stack := r.stack.map fun q => { q with emu := false } }
      .moved (s.modPath c.w c.p fun q =>
        { q with pc := goal.truncate 57, pcHi := goal.extractLsb' 57 7, clause := none, wait := none, notes := [] })

/-- The trap of an emulation word (R118): no effect before the handler starts but what it says. -/
def emulationStep (e : EmuWord) (k : Cur) (x : Warp) (q : Path) (s : State) : State :=
  let b := binding s x.vf x.asid e.pid.toNat
  let stop (s : State) (w : Wait) : State := { s.modPath k.w k.p (fun q => { q with wait := some w }) with cur := none }
  let fault (info : Word64) : State := raiseFault (s.modPath k.w k.p fun q => { q with wait := none }) k.w k.p .emul info
  match ((List.range 8).map fun i => Reg.uni (56 + i)).filter (busyRegs s k.w).contains with
  | r :: more => stop s (.regs (r :: more))
  | [] =>
    if b = 0 then fault 0
    else if q.emu then fault 1
    else if x.regs.paths.any (fun p => p.1 != k.p && p.2.emu) || x.regs.stack.any (·.emu) then stop s .emulation
    else
      let s := s.modRegs k.w fun r =>
        let r := (List.range 8).foldl (fun r i => r.setUni (56 + i) (e.ef.getD i 0)) r
        { r with empc := q.pc.zeroExtend 64, emword := e.word
                 eminfo := BitVec.ofNat 32 (e.eclass.toNat + 16 * e.bits + 2 ^ 16 * e.pid.toNat) }
      let to_ := b + BitVec.ofNat 64 (64 * e.eclass.toNat)
      let s := s.modPath k.w k.p fun q =>
        { q with emu := true, pc := to_.truncate 57, pcHi := to_.extractLsb' 57 7, clause := none, wait := none, notes := [] }
      clauseBoundary { s with cur := none } k.w

/-- A path reaches an emulation word. -/
def emulate (e : EmuWord) (s : State) : Host.Outcome State Fault Refusal :=
  match s.cur with
  | none => .fault .noIssue
  | some k =>
    match s.warp? k.w, s.path? k.w k.p with
    | some x, some q => .next (emulationStep e k x q s)
    | _, _ => .fault .noIssue

/-! ### Gazetteer fills (R47, R113) -/

/-- The reserved address-space id of privileged code (R413). -/
def physAsid : Nat := 0xFFFF

/-- The physical address of a guest line, when it can be fetched. -/
def linePa (s : State) (vf asid line : Nat) : State × Option Nat :=
  if asid = physAsid then (s, some (64 * line))
  else match xlateNow s vf asid (64 * line) .fetch with
    | (s, .ok pa) => (s, some pa)
    | (s, .fail _) => (s, none)

/-- Adds an entry to a Gazetteer, which holds 8,192 lines in its 512 KiB; the oldest leaves it (R27; DESIGN CHOICE,
notes/assumptions/62.md). -/
def addGaz (gaz : List GazEntry) (e : GazEntry) : List GazEntry :=
  let gaz := if (gaz.filter (·.cluster == e.cluster)).length < 8192 then gaz
    else match gaz.findIdx? (·.cluster == e.cluster) with
      | some i => gaz.eraseIdx i
      | none => gaz
  gaz ++ [e]

/-- GAZETTEER_FILL: the line, and the line after it within the page, are decoded. -/
def fillDone (k : Nat) (s : State) : Option State :=
  match s.fills.find? (·.k == k) with
  | none => none
  | some f =>
    let s := { s with fills := s.fills.filter (·.k != k) }
    match linePa s f.vf f.asid f.line with
    | (s, none) => some s
    | (s, some pa) =>
      let next := if f.line % 64 = 63 then List.replicate 64 0 else s.bytes (pa + 64) 64
      let e : GazEntry := { cluster := f.cluster, pid := f.pid, vf := f.vf, asid := f.asid, line := f.line, bytes := s.bytes pa 64 ++ next }
      some { s with gaz := addGaz (s.gaz.filter (fun g => !(g.cluster == f.cluster && g.pid == f.pid && g.vf == f.vf && g.asid == f.asid && g.line == f.line))) e }

/-- PINSTALL (R128). -/
def execPinstall (x : RForm) : State → Host.Outcome State Fault Refusal := runIopFlip 0x240 (.r x) pinstallBody
/-- PBIND (R130). -/
def execPbind (x : RForm) : State → Host.Outcome State Fault Refusal := runIop 0x241 (.r x) pbindBody
/-- EMRET (R131). -/
def execEmret (x : RForm) : State → Host.Outcome State Fault Refusal := runIop 0x242 (.r x) emretBody
/-- PQUERY (R132). -/
def execPquery (x : RForm) : State → Host.Outcome State Fault Refusal := runIop 0x243 (.r x) pqueryBody
/-- PEVICT (R129). -/
def execPevict (x : RForm) : State → Host.Outcome State Fault Refusal := runIop 0x244 (.r x) pevictBody
/-- GZINV (R133). -/
def execGzinv (x : RForm) : State → Host.Outcome State Fault Refusal := runIop 0x245 (.r x) gzinvBody
/-- EMULATION_TRAP (R118). -/
def execEmulationTrap (e : EmuWord) : State → Host.Outcome State Fault Refusal := emulate e
/-- GAZETTEER_FILL (R47). -/
def execGazetteerFill (k : Nat) : State → Host.Outcome State Fault Refusal := runEventFlip (fillDone k)

end Sys2Proof.Machine
end

