-- ==== Sys2Proof/Machine/System.lean ====
section
/-!
DEFINITION. The system class (R410-R429, 14_system.md) but for pre-emption and scans: special registers, software traps, leaving
privileged mode, physical access, translation control, lane access, halts, the firmware mailbox, kills and key slots.
-/

namespace Sys2Proof.Machine

/-! ### Trap entry and TRAPNEST (R411-R414) -/

/-- The number of the warp whose trap a privileged lane serves. -/
def Ctx.trapped (c : Ctx) : Option Nat := match c.warp.kind with | .trapLane t => some t | _ => none

/-- Another warp of the half is in privileged mode (R412). -/
def halfPrivileged (s : State) (x : Warp) : Bool :=
  s.warps.any fun y => (match y.2.kind with | .trapLane _ => true | _ => false)
    && (y.2.place.map fun p => (p.core, p.half)) == (x.place.map fun p => (p.core, p.half))

/-- TRAP_ENTRY (R411 step 4): after the clauses in progress of the warp have ended. -/
def trapEntry (w : Nat) (s : State) : Option State :=
  match s.warp? w with
  | none => none
  | some x =>
    match x.trap with
    | none => none
    | some t =>
      if t.held || t.lane.isSome || x.place.isNone || halfPrivileged s x
          || x.regs.paths.any (·.2.running x.regs.ctxf) || (s.cur.map (·.w)) == some w then none
      else some (enterTrap { s with nextId := s.nextId + 1 } w s.nextId (s.sys.tvec.get 0 (dieOf x.core)))

/-- TRAPNEST (R414): the mode ends, and the die's firmware core is told the inner code. -/
def trapNest (w : Nat) (code : FaultCode) (s : State) : Option State :=
  match s.warp? w with
  | none => none
  | some x =>
    match x.trap.bind (·.lane), x.trap.bind (·.inner) with
    | some lane, some inner =>
      if inner ≠ code then none else
      let s := nestTrap s lane w
      some ((postMail s (dieOf x.core) (BitVec.ofNat 64 (faultNumber .trapnest)) (BitVec.ofNat 64 (faultNumber code))).getD s)
    | _, _ => none

/-! ### Special registers (R63, R200, R201, R415, R418) -/

/-- The value of a trap selector (R415). -/
def trapSelector (t : Trap) (x : Warp) (sel : Nat) : Word64 :=
  BitVec.ofNat 64 <| match sel with
    | 0x8000 => t.code % 256 + bit t.nest * 256
    | 0x8001 => t.info.toNat
    | 0x8002 => t.pc.toNat
    | 0x8003 => t.lmask.toNat * 2 ^ 32 + t.path % 16
    | 0x8004 => x.record.toNat
    | 0x8005 => x.regs.ident.toNat
    | 0x8006 => x.vf % 256 * 2 ^ 16 + x.asid % 2 ^ 16
    | _ => x.wg

/-- The value of a selector that is not of lane scope. -/
def selectorValue (s : State) (c : Ctx) (sel : Nat) : Word64 :=
  let r := c.warp.regs
  let q := c.path
  match sel with
  | 0x0001 => r.gmode
  | 0x0002 => r.gstat
  | 0x0010 => q.wbase.zeroExtend 64
  | 0x0011 => q.wtop.zeroExtend 64
  | 0x0012 => q.iter.zeroExtend 64
  | 0x0013 => BitVec.ofNat 64 c.p
  | 0x0015 => BitVec.ofNat 64 r.warpId
  | 0x0016 => BitVec.ofNat 64 r.wgid
  | 0x0020 => BitVec.ofNat 64 s.clock
  | 0x0030 => r.uimask
  | 0x0031 => r.uipend
  | 0x0038 => r.empc
  | 0x0039 => r.emword
  | 0x003A => r.eminfo.zeroExtend 64
  | 0x0041 => ((s.space? c.warp.vf c.warp.asid).map fun a => a.nsbase.zeroExtend 64).getD 0
  | 0x8010 => BitVec.ofNat 64 (s.sys.tvec.get 0 (dieOf c.warp.core))
  | 0x8011 => BitVec.ofNat 64 ((s.sys.fwcore.find? (dieOf c.warp.core)).getD 0)
  | 0x8020 => BitVec.ofNat 64 s.sys.grace
  | 0x8021 => s.sys.fostat.zeroExtend 64
  | sel =>
    match (c.trapped.bind s.warp?).bind fun x => x.trap.map fun t => trapSelector t x sel with
    | some v => v
    | none => Config.noTrap s.fresh

/-- Operations of a warp that have not completed: its samples, engine operations and copies (R200). -/
def openOps (s : State) (w : Nat) : List Nat :=
  (s.inflight.filter (·.warp == w)).map (·.rid) ++ (s.eng.queue.filter (·.warp == w)).map (·.id)
    ++ (s.eng.copies.filter (·.warp == w)).map (·.id)

/-- Operations whose flags a waiting MTSR has replaced. -/
def replacedOps (r : Regs) : List Nat :=
  r.paths.flatMap fun q => match q.2.wait with | some (.gstatWrite ids) => ids | _ => []

/-- MFSR of GSTAT: every IOP of the warp that issued before it has completed (R200). -/
def readGstat (c : Ctx) (s : State) : Res :=
  let still := openOps s c.w
  match c.path.wait with
  | some (.gstatRead ids counted got) =>
    if ids.any still.contains then .wait s (.gstatRead ids counted got) else .done (writeUD s c got)
  | _ =>
    match still with
    | [] => .done (writeUD s c c.warp.regs.gstat)
    | ids => .wait s (.gstatRead ids (ids.filter fun i => !(replacedOps c.warp.regs).contains i) c.warp.regs.gstat)

/-- MTSR of GSTAT: the flags of earlier IOPs are replaced, those of later ones merge after it (R200). -/
def writeGstat (c : Ctx) (s : State) : Res :=
  let still := openOps s c.w
  match c.path.wait with
  | some (.gstatWrite ids) => if ids.any still.contains then .wait s (.gstatWrite ids) else .done s
  | _ =>
    let s := s.modRegs c.w fun r => { r with gstat := gstatStored c.uA }
    match still with
    | [] => .done s
    | ids => .wait s (.gstatWrite ids)

/-- The selector of format S. -/
def Ctx.sel (c : Ctx) : Nat := match c.f with | .s x => x.sel.toNat | _ => 0

/-- A privileged selector outside privileged mode (R415). -/
def selFault (c : Ctx) : Bool := decide (0x8000 ≤ c.sel) && !c.warp.privileged

/-- MFSR (R418). -/
def mfsrBody (c : Ctx) (s : State) : Res :=
  if selFault c then .trap .illpriv (BitVec.ofNat 64 c.sel)
  else if c.sel = 0x0014 then .done (writeRow s c (c.f.km.getLsbD 3) c.f.d.toNat c.act fun l => BitVec.ofNat 32 l)
  else if c.sel = 0x0003 then .done (writeRow s c (c.f.km.getLsbD 3) c.f.d.toNat c.act fun l => c.warp.regs.srst.lane l)
  else oncePerPath c s fun _ =>
    if c.sel = 0x0002 then readGstat c s
    else .done { writeUD s c (selectorValue s c c.sel) with fresh := s.fresh + 1 }

/-- MTSR (R418). -/
def mtsrBody (c : Ctx) (s : State) : Res :=
  let a := c.uA
  if selFault c then .trap .illpriv (BitVec.ofNat 64 c.sel)
  else if c.sel = 0x0003 then
    .done (s.modRegs c.w fun r =>
      { r with srst := Row.merge c.act (Row.ofFn fun l => (c.srcA l).truncate 32) r.srst })
  else oncePerPath c s fun _ =>
    match c.sel with
    | 0x0001 => .done (s.modRegs c.w fun r => { r with gmode := gmodeStored a })
    | 0x0002 => writeGstat c s
    | 0x8010 =>
      (match c.warp.kind with
        | .firmware die => .done { s with sys := { s.sys with tvec := s.sys.tvec.put 0 die (a.toNat / 4096 * 4096) } }
        | _ => .done s)
    | 0x8020 => .done { s with sys := { s.sys with grace := min a.toNat 60000 } }
    | _ => .done s

/-! ### Software traps and leaving privileged mode (R419, R420) -/

/-- TRAP. -/
def trapBody (c : Ctx) (s : State) : Res := oncePerPath c s fun _ => .trap .trapi (c.f.fc.zeroExtend 64)

/-- The length of the guest instruction at an address of an address space, when it can be fetched. -/
def lengthAt (s : State) (vf asid a : Nat) : Option Nat :=
  let word (pa pid : Nat) : Option Nat :=
    guestLength ((s.personalities.get {} pid).tables) pid (leNat (s.bytes pa 8))
  if asid = physAsid then word a 0
  else match combine s none vf asid a .fetch false false with
    | .ok c => word c.pa (c.l1.e / 2 ^ 60)
    | .fail _ => none

/-- The address after the guest instruction at which a warp trapped (R420). -/
def skipPc (s : State) (x : Warp) (t : Trap) : BitVec 57 :=
  addPc t.pc ((t.len.or (lengthAt s x.vf x.asid t.pc.toNat)).getD (Config.skipLength s.fresh))

/-- TRET.hold: the lane's mode ends, and the warp is held. -/
def holdTrap (s : State) (w lane : Nat) : State :=
  let s := s.modWarp w fun x => { x with leaving := true, trap := x.trap.map fun t => { t with lane := none, held := true } }
  { s with warps := s.warps.erase lane }

/-- TRET (R420): resume, skip, or hold for the supervisor; the held warp becomes dormant with EVICTION_COMMIT. On a firmware core it has no
effect. -/
def tretBody (c : Ctx) (s : State) : Res :=
  oncePerPath c s fun _ =>
    match c.trapped with
    | none => .done s
    | some w =>
      match (s.warp? w).bind (·.trap), s.warp? w with
      | some t, some x =>
        let s := { s with cur := none }
        (match c.q with
          | 0 => .moved (leaveTrap s w c.w none)
          | 1 => .moved (leaveTrap { s with fresh := s.fresh + 1 } w c.w (some (skipPc s x t)))
          | _ => .moved (holdTrap s w c.w))
      | _, _ => .done s

/-! ### Physical access (R421) -/

/-- The physical address of PLD and PST, with the key of its byte in memory. -/
def Ctx.physical (c : Ctx) (s : State) : Nat × Nat :=
  let a := (c.ea c.lane0).toNat
  (a, memoryKey s c.warp.vf a)

/-- PLD and PST after their checks and the publication that opens a strong access (R301). -/
def physicalBody (f : Ctx → State → Nat → Nat → Res) (c : Ctx) (s : State) : Res :=
  oncePerPath c s fun _ =>
    let (a, key) := c.physical s
    let go (s : State) : Res := f c s a key
    if a % c.esize ≠ 0 then .trap .align (BitVec.ofNat 64 a)
    else if 2 ^ 52 ≤ a || !regionOk s a then .trap .prot (BitVec.ofNat 64 a)
    else match c.path.wait with
      | some (.writes wids rids) => if allDone s wids rids then go s else .wait s (.writes wids rids)
      | _ =>
        let s := publishLines s c.warp.core .pod [key / 64]
        match publishedOn s c.warp.core [key / 64] with
        | [] => go s
        | w :: more => .wait s (.writes (w :: more) [])

/-- PLD. -/
def pldBody : Ctx → State → Res :=
  physicalBody fun c s a key =>
    if poisoned s key c.esize then .trap .poison (BitVec.ofNat 64 a)
    else .done (writeUD s c (extended c.ty (s.bytes key c.esize)))

/-- PST. -/
def pstBody : Ctx → State → Res :=
  physicalBody fun c s _ key =>
    let s := { s with nextId := s.nextId + 1, seq := s.seq + 1 }
    .done (perform s (s.nextId - 1) (some c.warp.core) c.w c.path.lmask s.seq .gen .pod key c.esize (cellsAt key (leBytes c.esize c.uD.toNat)))

/-! ### Translation control and inspection (R422, R423) -/

/-- A format-block entry holds a block or a codebook in a page (R253). -/
def FormatEntry.inPage (b : FormatEntry) (page : Nat → Nat → Bool) : Bool :=
  let book (d : Option (List Byte × List Byte)) : Bool := match d with | some (d, _ :: _) => page (descBook d) 32 | _ => false
  page b.va 64 || book b.descA || book b.descB

/-- Drops the translations that satisfy a test of VF, ASID, and page, with the walkers' entries of the VF (R422). The page test takes the first
address and the size of what is dropped. A page may be global, so that the Gazetteer and format-block entries of every address space go with it
(R114). -/
def invalidate (s : State) (vf : Nat → Bool) (asid : Nat → Bool) (page : Nat → Nat → Bool) : State :=
  let s := dropTranslations s (fun e => vf e.vf && (e.glob || asid e.asid) && page e.vbase e.size) (fun v _ line => vf v && page (64 * line) 64)
  { s with walkCache := s.walkCache.filter fun w => !vf w.vf
           cleared := s.cleared.filter fun x => !(vf x.1 && asid x.2.1 && page (4096 * x.2.2) 4096)
           eng := { s.eng with blocks := s.eng.blocks.filter fun b => !(vf b.vf && b.inPage page) } }

/-- The VFs, address spaces and pages that a form of TLBINV names. -/
def tlbinvForm (form : Nat) (a b : Word64) : (Nat → Bool) × (Nat → Bool) × (Nat → Nat → Bool) :=
  let every (_ : Nat) : Bool := true
  let vf16 (v : Nat) : Bool := v == a.toNat / 2 ^ 16 % 2 ^ 8
  let as (v : Nat) : Bool := v == a.toNat % 2 ^ 16
  let lo := b.toNat / 4096 * 4096
  match form with
  | 0 => (every, every, fun _ _ => true)
  | 1 => (fun v => v == a.toNat % 2 ^ 8, every, fun _ _ => true)
  | 2 => (vf16, as, fun _ _ => true)
  | _ => (vf16, as, fun base n => decide (base < lo + 4096) && decide (lo < base + n))

/-- A warp's access to an address went through a translation that an invalidation may cover. -/
def covered (s : State) (vf : Nat → Bool) (page : Nat → Nat → Bool) (w va n : Nat) : Bool :=
  ((s.warp? w).map fun x => vf x.vf).getD false && page va n

/-- TLBINV: it waits for the accesses that have translated before it (R274). A held store among them is published at `.pod`, since it performs
only then (DEDUCED, notes/assumptions/56.md). -/
def tlbinvBody (c : Ctx) (s : State) : Res :=
  oncePerPath c s fun _ =>
    match c.path.wait with
    | some (.writes wids rids) => if allDone s wids rids then .done s else .wait s (.writes wids rids)
    | _ =>
      let (vf, asid, page) := tlbinvForm c.q c.uA c.uB
      let s := invalidate s vf asid page
      let mine (h : Held) : Bool := covered s vf page h.warp h.va h.size
      let cores := NSet.insertAll [] ((s.held.filter mine).map (·.core))
      let s := cores.foldl (fun s core => publishIf s core .pod 0 mine) s
      match (s.held.filter mine).map (·.wid), (s.inflight.filter fun r => r.elems.any fun e => covered s vf page r.warp e.va r.size).map (·.rid) with
      | [], [] => .done s
      | wids, rids => .wait s (.writes wids rids)

/-- Where a walk fails: level and stage. -/
structure WalkStop where
  lvl    : Nat
  stage2 : Bool
  prot   : Bool

/-- The stage-2 walk of ATQ from level `n - 1` down, with the level of the leaf. -/
def probe2 (s : State) (cluster vf ia : Nat) : Nat → Nat → Except WalkStop (Leaf2 × Nat)
  | 0, _ => .error { lvl := 0, stage2 := true, prot := true }
  | n + 1, tbl =>
    let e := entryAt s (some cluster) vf (memoryKey s vf (tbl + 8 * (ia / (4096 * 512 ^ n) % 512)))
    if !regionOk s tbl then .error { lvl := n, stage2 := true, prot := true }
    else if !e.testBit 0 then .error { lvl := n, stage2 := true, prot := false }
    else if entryBad true n e then .error { lvl := n, stage2 := true, prot := true }
    else if e.testBit 4 then .ok ({ e := e, size := leafSize e n, out := entryAddr e + ia % leafSize e n, used := [] }, n)
    else probe2 s cluster vf ia n (entryAddr e)

/-- Stage 2 of an intermediate address, with the level of its leaf. -/
def probeStage2 (s : State) (cluster vf ia : Nat) : Except WalkStop (Leaf2 × Nat) :=
  let v := s.vfs.get {} vf
  if v.s2en then probe2 s cluster vf ia 5 v.s2root.toNat else .ok ({ e := 0x3F1, size := 2 ^ 52, out := ia, used := [] }, 0)

/-- The stage-1 walk of ATQ from level `n - 1` down, with the level of the leaf; `late` is the first entry whose A or D the access would set in
a table that stage 2 does not let it write (R268). -/
def probe1 (s : State) (cluster vf va : Nat) (write : Bool) : Nat → Nat → Option WalkStop → Except WalkStop (Leaf1 × Nat × Option WalkStop)
  | 0, _, _ => .error { lvl := 0, stage2 := false, prot := true }
  | n + 1, tbl, late =>
    match probeStage2 s cluster vf tbl with
    | .error x => .error x
    | .ok (t, lvl2) =>
      if !t.e.testBit 5 || !regionOk s t.out then .error { lvl := lvl2, stage2 := true, prot := true }
      else
        let epa := memoryKey s vf (t.out + 8 * (va / (4096 * 512 ^ n) % 512))
        let e := entryAt s (some cluster) vf epa
        let late := if ({ epa := epa, e := e } : Used).stale write && !t.e.testBit 6 then late.or (some { lvl := lvl2, stage2 := true, prot := true })
          else late
        if !e.testBit 0 then .error { lvl := n, stage2 := false, prot := false }
        else if entryBad false n e then .error { lvl := n, stage2 := false, prot := true }
        else if e.testBit 4 then
          .ok ({ e := e, size := leafSize e n, out := entryAddr e + va % leafSize e n, epa := epa, used := [] }, n, late)
        else probe1 s cluster vf va write n (entryAddr e) late

/-- The address that ATQ gives, or where and how the access would fail, in the order of `combine` (R272, R289). -/
def probe (s : State) (cluster vf asid va : Nat) (kind : Access) : Except WalkStop Nat :=
  match (if va < 2 ^ 57 then s.space? vf asid else none) with
  | none => .error { lvl := 4, stage2 := false, prot := false }
  | some sp => do
    let (l1, n1, late) ← probe1 s cluster vf va (kind == .write) 5 sp.root.toNat none
    let (l2, n2) ← probeStage2 s cluster vf l1.out
    let s2 := (s.vfs.get {} vf).s2en
    let bits : List Nat := match kind with | .read => [5] | .write => [5, 6] | .fetch => [7]
    let miss (e : Nat) : Bool := bits.any fun i => !e.testBit i
    if l1.e.testBit 58 then .error { lvl := n1, stage2 := false, prot := true }
    else if !regionOk s l2.out then .error { lvl := if s2 then n2 else n1, stage2 := s2, prot := true }
    else if kind == .fetch && !l1.e.testBit 7 && s.cleared.contains (vf, asid, va / 4096) then .error { lvl := n1, stage2 := false, prot := false }
    else if miss l1.e then .error { lvl := n1, stage2 := false, prot := true }
    else if miss l2.e then .error { lvl := n2, stage2 := true, prot := true }
    else if kind == .fetch && !l1.e.testBit 59 then .error { lvl := n1, stage2 := false, prot := false }
    else match late with
      | some x => .error x
      | none => .ok l2.out

/-- The result word of ATQ. -/
def atqWord : Except WalkStop Nat → Word64
  | .ok pa => BitVec.ofNat 64 (pa % 2 ^ 52)
  | .error x => BitVec.ofNat 64 (2 ^ 63 + x.lvl % 8 * 2 ^ 60 + bit x.stage2 * 2 ^ 59 + faultNumber (if x.prot then .prot else .pfault))

/-- ATQ. -/
def atqBody (c : Ctx) (s : State) : Res :=
  oncePerPath c s fun _ =>
    let b := c.uB.toNat
    let kind : Access := match c.q with | 0 => .read | 1 => .write | _ => .fetch
    .done (writeUD s c (atqWord (probe s (clusterOf c.warp.core) (b / 2 ^ 16 % 2 ^ 8) (b % 2 ^ 16) c.uA.toNat kind)))

/-! ### Lanes, halts, mailbox and kills (R425-R428) -/

/-- LANESEL. A refill that faults is a context fault of the trapped warp, and ends privileged mode as R414 says (DESIGN CHOICE,
notes/assumptions/63.md). -/
def laneselBody (c : Ctx) (s : State) : Res :=
  oncePerPath c s fun _ =>
    let l := c.uA.toNat % 32
    let slot := c.uB.toNat % 2 ^ 16
    let zero (s : State) : Res := .done (if c.q = 0 then writeUD s c 0 else s)
    match c.trapped with
    | none => .done (writeUD s c 0)
    | some w =>
      match s.warp? w with
      | none => .done (writeUD s c 0)
      | some x =>
        if x.regs.stackSize ≤ slot then zero s
        else if (busyRegs s w).contains (.slot slot) then .wait s (.remote w (.slot slot))
        else match bringSlots s w [slot] with
          | (s, some va) => .trapIn (contextFault s w va) .ctxfault (BitVec.ofNat 64 va)
          | (s, none) =>
            if c.q = 0 then .done (writeUD s c ((((s.warp? w).map fun (y : Warp) => (y.regs.row slot).lane l).getD 0).zeroExtend 64))
            else .done (s.modWarp w fun x => x.setRow slot (1#32 <<< l) (Row.ofFn fun _ => c.uD.truncate 32))

/-- The paths that HALT and RESUME name. -/
def namedPaths (b : Word64) (i : Nat) : Bool := b.toNat / 2 ^ 32 == 0 || b.getLsbD (32 + i)

/-- Changes the paths that HALT and RESUME name; those on the path stack where every path is named. -/
def mapNamed (b : Word64) (f : Path → Path) (r : Regs) : Regs :=
  { r with paths := r.paths.map fun q => if namedPaths b q.1 then (q.1, f q.2) else q
           stack := if b.toNat / 2 ^ 32 = 0 then r.stack.map f else r.stack }

/-- HALT: it waits until every named path has ended its clause. -/
def haltBody (c : Ctx) (s : State) : Res :=
  oncePerPath c s fun _ =>
    let b := c.uB
    match warpIn s c.uA.toNat (b.toNat % 64) with
    | none => .done (writeUD s c 1)
    | some w =>
      let s := s.modRegs w (mapNamed b fun q => { q with halted := true })
      let running := ((s.warp? w).map fun x => x.regs.paths.any fun q => namedPaths b q.1 && q.2.running x.regs.ctxf).getD false
      if running && w ≠ c.w then .wait s (.halting c.uA.toNat w (b.extractLsb' 32 32)) else .done (writeUD s c 0)

/-- RESUME of a path: the halt and the stop end; after a comparator's stop, its next match is passed (R448, R449). -/
def Path.goOn (q : Path) : Path := { q with halted := false, stopped := false, skip := q.skip || q.byMatch, byMatch := false }

/-- RESUME. -/
def resumeBody (c : Ctx) (s : State) : Res :=
  oncePerPath c s fun _ =>
    let b := c.uB
    match warpIn s c.uA.toNat (b.toNat % 64) with
    | none => .done (writeUD s c 1)
    | some w =>
      match updateSaved s w fun x => { x with regs := mapNamed b Path.goOn x.regs } with
      | .ok s => .done (writeUD s c 0)
      | .error s => .wait s (.remote w (.uni 0))

/-- IPIFW. -/
def ipifwBody (c : Ctx) (s : State) : Res :=
  oncePerPath c s fun _ =>
    match postMail s (dieOf c.warp.core) c.uA c.uB with
    | some s => .done (writeUD s c 0)
    | none => .done (writeUD s c 1)

/-- WGKILL. The lane that kills its own target's workgroup goes with it. -/
def wgkillBody (c : Ctx) (s : State) : Res :=
  oncePerPath c s fun _ =>
    let h := c.uA.toNat
    if (s.wg? h).isSome then
      let t := killWorkgroup s h (c.q == 0)
      if (t.warp? c.w).isSome then .done (writeUD t c 0) else .moved t
    else .done (writeUD s c 1)

/-- QKILL. -/
def qkillBody (c : Ctx) (s : State) : Res :=
  oncePerPath c s fun _ =>
    let qid := c.uA.toNat % 2 ^ 16
    if ((s.queue? qid).map (·.live)).getD false then .done (writeUD (destroyQueue s qid) c 0) else .done (writeUD s c 1)

/-! ### Key slots (R429) -/

/-- The slot that a VF is bound to; 0 for none. -/
def State.keyBinding (s : State) (vf : Nat) : Nat :=
  ((List.find? (fun (k : Nat × KeySlot) => k.2.vf == some vf) s.sys.keys).map (·.1)).getD 0

/-- A VF's TDISP interface is locked or running (R435). -/
def State.vfLocked (s : State) (vf : Nat) : Bool :=
  match (s.pkg.funcs.get {} (funcKey (.vf vf))).tdisp with | .locked | .run => true | _ => false

/-- Clears a key slot: key, CTR, binding, and every freshness entry of the slot. -/
def clearSlot (s : State) (k : Nat) : State :=
  { s with sys := { s.sys with keys := s.sys.keys.erase k, lineages := s.sys.lineages.filter fun l => l.2.slot != k } }

/-- KEYSLOT: the result, and the state. -/
def keyslot (s : State) (form k vf : Nat) : State × Word64 :=
  let slot := s.sys.keys.get {} k
  let put (x : KeySlot) : State := { s with sys := { s.sys with keys := s.sys.keys.insert k x } }
  let locked := match slot.vf with | some v => s.vfLocked v | none => false
  if k = 0 then (s, 3)
  else match form with
    | 0 => if slot.vf.isSome then (s, 1) else ({ put { slot with key := some (Config.randomKey s.fresh), ctr := 0 } with fresh := s.fresh + 1 }, 0)
    | 1 => if locked then (s, 2) else (clearSlot s k, 0)
    | 2 => (s, slot.ctr)
    | _ =>
      if s.vfLocked vf then (s, 2)
      else if slot.vf.isSome && slot.vf != some vf then (s, 1)
      else
        let old := s.sys.keys.map fun x => if x.2.vf = some vf ∧ x.1 ≠ k then (x.1, { x.2 with vf := none }) else x
        ({ s with sys := { s.sys with keys := SMap.insert old k { slot with vf := some vf } } }, 0)

/-- KEYSLOT. -/
def keyslotBody (c : Ctx) (s : State) : Res :=
  oncePerPath c s fun _ =>
    let (s, x) := keyslot s c.q (c.uA.toNat % 2 ^ 12) (c.uB.toNat % 2 ^ 8)
    .done (writeUD s c x)

/-! ### Meanings -/

/-- MFSR (R418). -/
def execMfsr (x : SForm) : State → Host.Outcome State Fault Refusal := runIop 0x270 (.s x) mfsrBody
/-- MTSR (R418). -/
def execMtsr (x : SForm) : State → Host.Outcome State Fault Refusal := runIop 0x271 (.s x) mtsrBody
/-- TRAP (R419). -/
def execTrap (x : RForm) : State → Host.Outcome State Fault Refusal := runIop 0x272 (.r x) trapBody
/-- TRET (R420). -/
def execTret (x : RForm) : State → Host.Outcome State Fault Refusal := runIop 0x273 (.r x) tretBody
/-- PLD (R421). -/
def execPld (x : MForm) : State → Host.Outcome State Fault Refusal := runIop 0x274 (.m x) pldBody
/-- PST (R421). -/
def execPst (x : MForm) : State → Host.Outcome State Fault Refusal := runIop 0x275 (.m x) pstBody
/-- TLBINV (R422). -/
def execTlbinv (x : RForm) : State → Host.Outcome State Fault Refusal := runIop 0x276 (.r x) tlbinvBody
/-- ATQ (R423). -/
def execAtq (x : RForm) : State → Host.Outcome State Fault Refusal := runIop 0x277 (.r x) atqBody
/-- KEYSLOT (R429). -/
def execKeyslot (x : RForm) : State → Host.Outcome State Fault Refusal := runIop 0x27A (.r x) keyslotBody
/-- HALT (R426). -/
def execHalt (x : RForm) : State → Host.Outcome State Fault Refusal := runIop 0x27C (.r x) haltBody
/-- RESUME (R426). -/
def execResume (x : RForm) : State → Host.Outcome State Fault Refusal := runIopFlip 0x27D (.r x) resumeBody
/-- LANESEL (R425). -/
def execLanesel (x : RForm) : State → Host.Outcome State Fault Refusal := runIopFlip 0x27E (.r x) laneselBody
/-- IPIFW (R428). -/
def execIpifw (x : RForm) : State → Host.Outcome State Fault Refusal := runIop 0x27F (.r x) ipifwBody
/-- WGKILL (R427). -/
def execWgkill (x : RForm) : State → Host.Outcome State Fault Refusal := runIop 0x280 (.r x) wgkillBody
/-- QKILL (R427). -/
def execQkill (x : RForm) : State → Host.Outcome State Fault Refusal := runIopFlip 0x281 (.r x) qkillBody
/-- TRAP_ENTRY (R411). -/
def execTrapEntry (w : Nat) : State → Host.Outcome State Fault Refusal := runEvent (trapEntry w)
/-- TRAPNEST (R414). -/
def execTrapnest (w : Nat) (code : FaultCode) (_info : Word64) : State → Host.Outcome State Fault Refusal := runEvent (trapNest w code)

end Sys2Proof.Machine
end

