-- ==== Sys2Proof/Machine/Guest.lean ====
section
/-!
DEFINITION. The rows of J32 and J16 (R77-R82, R122-R126): each runs the IOPs that its word expands to. A two-slot row writes k0 in its
first slot, which cannot fail, and runs the other. Clause headers (R67, R69, R70) and emulation words (R118) stand here as well.
-/

namespace Sys2Proof.Machine

/-! ### The words of the Gazetteer (R47, R113) -/

/-- The address space that a warp fetches under: 0xFFFF in privileged mode (R413). -/
def Warp.fetchAsid (x : Warp) : Nat := if x.privileged then physAsid else x.asid

/-- The personality of the page of an address, as the TLB holds it; privileged mode runs J64 (R46, R413). -/
def pageId (s : State) (x : Warp) (a : Nat) : Option Nat :=
  if x.privileged then some 0
  else (s.tlb.find? fun e => e.serves (.core x.core) x.vf x.asid a .fetch false || e.serves (.cluster (clusterOf x.core)) x.vf x.asid a .fetch false).map
    (·.pid)

/-- The Gazetteer entry of an address for a warp: its three tags match (R113). -/
def gazetteer (s : State) (x : Warp) (pid a : Nat) : Option GazEntry :=
  s.gaz.find? fun e => e.cluster == clusterOf x.core && e.pid == pid && e.vf == x.vf && e.asid == x.fetchAsid && e.line == a / 64

/-- The eight bytes of an entry from an address on. -/
def GazEntry.word (e : GazEntry) (a : Nat) : Nat := leNat ((e.bytes.drop (a % 64)).take 8)

/-- The guest word of an entry at an address. -/
def GazEntry.guest (s : State) (e : GazEntry) (a : Nat) : Except DecErr Guest :=
  decodeGuest ((s.personalities.find? e.pid).bind (·.tables)) e.pid (e.word a)

/-- The guest instructions that follow an address in the Gazetteer, up to a count: a clause that has won issue runs on them, whatever becomes of
the page (R111, R121). -/
def decodeAhead (s : State) (x : Warp) : Nat → Nat → SMap (Guest × Nat)
  | 0, _ => []
  | n + 1, a =>
    match (pageId s x a).bind fun pid => gazetteer s x pid a with
    | none => []
    | some e =>
      match e.guest s a with
      | .ok (.header _ _) | .error _ => []
      | .ok g => (a, g, e.word a) :: decodeAhead s x n (a + g.bytes)

/-! ### Clause headers (R67-R70) -/

/-- The class of a path: its warp's launch priority, or its innermost interrupt's while it runs a handler (R143). -/
def pathClass (x : Warp) (q : Path) : Nat :=
  let mine := q.frames.filter fun f => f.lanes &&& q.lmask != 0
  match mine.find? fun f => mine.all fun g => decide (g.depth ≤ f.depth) with
  | some f => f.prio
  | none => x.regs.prio

/-- A path that has been passed over 64 times is urgent (R144). -/
def Path.isUrgent (q : Path) : Bool := q.urgent || decide (64 ≤ q.passed)

/-- The keys under which a path starts a clause (R143). -/
def startKey (s : State) (x : Warp) (q : Path) : StartKey :=
  { urgent := q.isUrgent, age := q.age.getD s.clock, prio := pathClass x q, late := q.yielded }

/-- A clause starts with the words decoded for it and its keys. -/
def beginClause (s : State) (x : Warp) (q : Path) (from_ : Nat) (c : Clause) : Clause :=
  { c with code := decodeAhead s x c.left from_, key := startKey s x q }

/-- A clause that a header opens: guest instructions of its span, set-flags, relaxed region. -/
def headerClause (h : Header) : Clause :=
  { left := h.len, iops := 24, implicit := false, sf1 := h.sf1, sf2 := h.sf2, rlx := h.rlx }

/-- An implicit clause (R39). -/
def implicitClause : Clause := { left := 8, iops := 24, implicit := true, sf1 := none, sf2 := none, rlx := false }

/-- A header that privileged mode does not allow: one that waits or names a set-flag (R413). -/
def headerBad (h : Header) (x : Warp) : Bool := x.privileged && (h.waits != 0 || h.sf1.isSome || h.sf2.isSome)

/-- A path consumes the clause header at its PC: it waits for the flags, or its clause opens after the header, with its CLAUSE record. A
header met inside an implicit clause ends that clause. -/
def applyHeader (s : State) (w p : Nat) (h : Header) (bytes word : Nat) : State :=
  match s.warp? w, s.path? w p with
  | some x, some q =>
    if q.clause.isSome then clauseBoundary (endClause s w p) w
    else if headerBad h x then raiseFault s w p .illop (q.pc.zeroExtend 64)
    else if !x.regs.flagsClear h.waits then
      { s.modPath w p (fun q => { q with wait := some (.header h.waits) }) with cur := none }
    else
      let s := traceClause s w p (if bytes = 8 then some h.len else none) word
      let pc := addPc q.pc bytes
      let c := beginClause s x q pc.toNat (headerClause h)
      { s.modPath w p (fun q => { q with pc := pc, clause := some c, wait := none, yielded := h.yld, urgent := false, passed := 0 }) with
        cur := some { w := w, p := p } }
  | _, _ => s

/-- A path reaches a clause header. -/
def header (h : Header) (bytes word : Nat) (s : State) : Host.Outcome State Fault Refusal :=
  match s.cur with
  | none => .fault .noIssue
  | some k => if (s.path? k.w k.p).isSome then .next (applyHeader s k.w k.p h bytes word) else .fault .noIssue

/-! ### Expansions -/

/-- The second slot of a row whose first slot writes k0 (R124). -/
def withK0 (x : Word32) (f : State → Host.Outcome State Fault Refusal) (s : State) : Host.Outcome State Fault Refusal :=
  f { s with cur := s.cur.map fun c => { c with k := [(0, Row.ofFn fun _ => x)], done := 1 } }

/-- A word whose fields make it illegal faults with ILLOP (R112, R124, R126). -/
def whenLegal (ok : Prop) [Decidable ok] (f : State → Host.Outcome State Fault Refusal) (s : State) : Host.Outcome State Fault Refusal :=
  if ok then f s
  else match s.cur with
    | none => .fault .noIssue
    | some k =>
      match s.path? k.w k.p with
      | some q => .next (raiseFault s k.w k.p .illop (q.pc.zeroExtend 64))
      | none => .fault .noIssue

/-! ### Meanings -/

/-- J32_HEADER (R80). -/
def execJ32Header (glen : BitVec 5) (waits : BitVec 12) (sf1 sf2 : BitVec 4) (rlx : Bool) : State → Host.Outcome State Fault Refusal :=
  whenLegal (j32HeaderOk glen.toNat sf1.toNat sf2.toNat = true) 
    (header (j32HeaderOf glen waits sf1 sf2 rlx) 4
      (0xFC000000 + glen.toNat * 2 ^ 21 + waits.toNat * 2 ^ 9 + sf1.toNat * 2 ^ 5 + sf2.toNat * 2 + bit rlx))
/-- J32_EMU (R124): class c, every emulation field the payload. -/
def execJ32Emu (c : BitVec 4) (pay : BitVec 22) : State → Host.Outcome State Fault Refusal :=
  emulate { eclass := c, ef := List.replicate 8 (pay.zeroExtend 64)
            word := BitVec.ofNat 64 (0x3E * 2 ^ 26 + c.toNat * 2 ^ 22 + pay.toNat), bits := 32, pid := 1 }
/-- J16_EMU (R126): class 0, every emulation field the payload. -/
def execJ16Emu (pay : BitVec 8) : State → Host.Outcome State Fault Refusal :=
  emulate { eclass := 0, ef := List.replicate 8 (pay.zeroExtend 64), word := BitVec.ofNat 64 (0xF500 + pay.toNat), bits := 16, pid := 2 }
/-- J32_IADDI (R124). -/
def execJ32Iaddi (g : BitVec 4) (d a : BitVec 6) (imm : BitVec 10) : State → Host.Outcome State Fault Refusal :=
  withK0 (imm.signExtend 32) (execIadd (j32ImmOp g d a .s32))
/-- J32_ANDI (R124). -/
def execJ32Andi (g : BitVec 4) (d a : BitVec 6) (imm : BitVec 10) : State → Host.Outcome State Fault Refusal :=
  withK0 (imm.zeroExtend 32) (execAnd (j32ImmOp g d a .z32))
/-- J32_ORI (R124). -/
def execJ32Ori (g : BitVec 4) (d a : BitVec 6) (imm : BitVec 10) : State → Host.Outcome State Fault Refusal :=
  withK0 (imm.zeroExtend 32) (execOr (j32ImmOp g d a .z32))
/-- J32_XORI (R124). -/
def execJ32Xori (g : BitVec 4) (d a : BitVec 6) (imm : BitVec 10) : State → Host.Outcome State Fault Refusal :=
  withK0 (imm.zeroExtend 32) (execXor (j32ImmOp g d a .z32))
/-- J32_SHL_I (R124). -/
def execJ32ShlI (g : BitVec 4) (d a n : BitVec 6) : State → Host.Outcome State Fault Refusal :=
  execShl (j32ShiftOp g d a n)
/-- J32_SHR_I (R124). -/
def execJ32ShrI (g : BitVec 4) (d a n : BitVec 6) : State → Host.Outcome State Fault Refusal :=
  execShr (j32ShiftOp g d a n)
/-- J32_SAR_I (R124). -/
def execJ32SarI (g : BitVec 4) (d a n : BitVec 6) : State → Host.Outcome State Fault Refusal :=
  execSar (j32ShiftOp g d a n)
/-- J32_ROT_I (R124). -/
def execJ32RotI (g : BitVec 4) (d a n : BitVec 6) : State → Host.Outcome State Fault Refusal :=
  execRot (j32ShiftOp g d a n)
/-- J32_ICMPI (R124). -/
def execJ32Icmpi (g : BitVec 4) (cc p : BitVec 3) (a : BitVec 6) (imm : BitVec 10) : State → Host.Outcome State Fault Refusal :=
  whenLegal (cc.toNat ≤ 5) (withK0 (imm.signExtend 32) (execIcmp { g := j32Guard g, d := j32Pred p, a := a.zeroExtend 8, q := cc, t := .s32, km := 2 }))
/-- J32_MOVI (R124). -/
def execJ32Movi (g : BitVec 4) (d : BitVec 6) (imm : BitVec 16) : State → Host.Outcome State Fault Refusal :=
  execMovi (j32MoviOp g d imm 0)
/-- J32_MOVHI (R124). -/
def execJ32Movhi (g : BitVec 4) (d : BitVec 6) (imm : BitVec 16) : State → Host.Outcome State Fault Refusal :=
  execMovi (j32MoviOp g d imm 1)
/-- J32_FFMA (R124). -/
def execJ32Ffma (g : BitVec 4) (d a b : BitVec 6) (m : BitVec 3) : State → Host.Outcome State Fault Refusal :=
  execFfma (j32FfmaOp g d a b m .f32)
/-- J32_FFMA64 (R124). -/
def execJ32Ffma64 (g : BitVec 4) (d a b : BitVec 6) (m : BitVec 3) : State → Host.Outcome State Fault Refusal :=
  execFfma (j32FfmaOp g d a b m .f64)
/-- J32_LD (R124). -/
def execJ32Ld (g : BitVec 4) (d : BitVec 6) (base : BitVec 5) (size : BitVec 2) (ofs : BitVec 9) : State → Host.Outcome State Fault Refusal :=
  execLd (j32Mem g d base size ofs)
/-- J32_ST (R124). -/
def execJ32St (g : BitVec 4) (d : BitVec 6) (base : BitVec 5) (size : BitVec 2) (ofs : BitVec 9) : State → Host.Outcome State Fault Refusal :=
  execSt (j32Mem g d base size ofs)
/-- J32_LDX (R124). -/
def execJ32Ldx (g : BitVec 4) (d : BitVec 6) (base : BitVec 5) (idx : BitVec 6) (size : BitVec 2) (ofs : BitVec 3) : State → Host.Outcome State Fault Refusal :=
  execLd (j32MemX g d base idx size ofs)
/-- J32_STX (R124). -/
def execJ32Stx (g : BitVec 4) (d : BitVec 6) (base : BitVec 5) (idx : BitVec 6) (size : BitVec 2) (ofs : BitVec 3) : State → Host.Outcome State Fault Refusal :=
  execSt (j32MemX g d base idx size ofs)
/-- J32_LDU (R124). -/
def execJ32Ldu (g : BitVec 4) (d : BitVec 6) (base : BitVec 5) (size : BitVec 2) (ofs : BitVec 9) : State → Host.Outcome State Fault Refusal :=
  whenLegal (d.toNat < 32) (execLdu (j32Mem g d base size ofs))
/-- J32_STU (R124). -/
def execJ32Stu (g : BitVec 4) (d : BitVec 6) (base : BitVec 5) (size : BitVec 2) (ofs : BitVec 9) : State → Host.Outcome State Fault Refusal :=
  whenLegal (d.toNat < 32) (execStu (j32Mem g d base size ofs))
/-- J32_NLD (R124). -/
def execJ32Nld (g : BitVec 4) (d : BitVec 6) (base : BitVec 5) (size : BitVec 2) (ofs : BitVec 9) : State → Host.Outcome State Fault Refusal :=
  execNld (j32Mem g d base size ofs)
/-- J32_NST (R124). -/
def execJ32Nst (g : BitVec 4) (d : BitVec 6) (base : BitVec 5) (size : BitVec 2) (ofs : BitVec 9) : State → Host.Outcome State Fault Refusal :=
  execNst (j32Mem g d base size ofs)
/-- J32_BRA (R124). -/
def execJ32Bra (g : BitVec 4) (ofs : BitVec 22) : State → Host.Outcome State Fault Refusal :=
  execBra (j32BraOp g ofs)
/-- J32_CALL (R124). -/
def execJ32Call (g : BitVec 4) (slide frame : BitVec 4) (ofs : BitVec 14) : State → Host.Outcome State Fault Refusal :=
  execCall (j32CallOp g slide frame ofs)
/-- J32_NOP (R124). -/
def execJ32Nop (g : BitVec 4) : State → Host.Outcome State Fault Refusal :=
  execNop { g := j32Guard g }
/-- J32_RET (R124). -/
def execJ32Ret (g : BitVec 4) : State → Host.Outcome State Fault Refusal :=
  execRet { g := j32Guard g }
/-- J32_EXIT (R124). -/
def execJ32Exit (g : BitVec 4) : State → Host.Outcome State Fault Refusal :=
  execExit { g := j32Guard g }
/-- J32_YIELD (R124). -/
def execJ32Yield (g : BitVec 4) : State → Host.Outcome State Fault Refusal :=
  execYield { g := j32Guard g }
/-- J32_BRX (R124). -/
def execJ32Brx (g : BitVec 4) (a : BitVec 6) : State → Host.Outcome State Fault Refusal :=
  execBrx { g := j32Guard g, a := a.zeroExtend 8 }
/-- J32_LOOP (R124). -/
def execJ32Loop (g : BitVec 4) (ofs : BitVec 22) : State → Host.Outcome State Fault Refusal :=
  execLoop (j32BraOp g ofs)
/-- J32_ATOM (R124). -/
def execJ32Atom (g : BitVec 4) (d : BitVec 6) (base : BitVec 5) (size : BitVec 2) (ofs : BitVec 9) : State → Host.Outcome State Fault Refusal :=
  whenLegal (size.toNat ≤ 1) (execAtom { j32Mem g d base size ofs with sc := 5 })
/-- J16_FADD (R126). -/
def execJ16Fadd (d a b : BitVec 4) : State → Host.Outcome State Fault Refusal :=
  execFadd (j16Op d a b .f32)
/-- J16_FMUL (R126). -/
def execJ16Fmul (d a b : BitVec 4) : State → Host.Outcome State Fault Refusal :=
  execFmul (j16Op d a b .f32)
/-- J16_FFMA (R126). -/
def execJ16Ffma (d a b : BitVec 4) : State → Host.Outcome State Fault Refusal :=
  execFfma { j16Op d a b .f32 with c := d.zeroExtend 8 }
/-- J16_IADD (R126). -/
def execJ16Iadd (d a b : BitVec 4) : State → Host.Outcome State Fault Refusal :=
  execIadd (j16Op d a b .s32)
/-- J16_ISUB (R126). -/
def execJ16Isub (d a b : BitVec 4) : State → Host.Outcome State Fault Refusal :=
  execIsub (j16Op d a b .s32)
/-- J16_MOV (R126). -/
def execJ16Mov (d a : BitVec 4) : State → Host.Outcome State Fault Refusal :=
  execMov (j16Op d a 0 .z32)
/-- J16_AND (R126). -/
def execJ16And (d a : BitVec 4) : State → Host.Outcome State Fault Refusal :=
  execAnd (j16Op d d a .z32)
/-- J16_OR (R126). -/
def execJ16Or (d a : BitVec 4) : State → Host.Outcome State Fault Refusal :=
  execOr (j16Op d d a .z32)
/-- J16_XOR (R126). -/
def execJ16Xor (d a : BitVec 4) : State → Host.Outcome State Fault Refusal :=
  execXor (j16Op d d a .z32)
/-- J16_SHL (R126). -/
def execJ16Shl (d a : BitVec 4) : State → Host.Outcome State Fault Refusal :=
  execShl (j16Op d d a .z32)
/-- J16_SHR (R126). -/
def execJ16Shr (d a : BitVec 4) : State → Host.Outcome State Fault Refusal :=
  execShr (j16Op d d a .z32)
/-- J16_SAR (R126). -/
def execJ16Sar (d a : BitVec 4) : State → Host.Outcome State Fault Refusal :=
  execSar (j16Op d d a .z32)
/-- J16_IMUL (R126). -/
def execJ16Imul (d a : BitVec 4) : State → Host.Outcome State Fault Refusal :=
  execImul (j16Op d d a .s32)
/-- J16_FSUB (R126). -/
def execJ16Fsub (d a : BitVec 4) : State → Host.Outcome State Fault Refusal :=
  execFsub (j16Op d d a .f32)
/-- J16_FMIN (R126). -/
def execJ16Fmin (d a : BitVec 4) : State → Host.Outcome State Fault Refusal :=
  execFmin (j16Op d d a .f32)
/-- J16_FMAX (R126). -/
def execJ16Fmax (d a : BitVec 4) : State → Host.Outcome State Fault Refusal :=
  execFmax (j16Op d d a .f32)
/-- J16_INEG (R126). -/
def execJ16Ineg (d a : BitVec 4) : State → Host.Outcome State Fault Refusal :=
  execIneg (j16Op d a 0 .s32)
/-- J16_CVT_F32_S32 (R126). -/
def execJ16CvtF32S32 (d a : BitVec 4) : State → Host.Outcome State Fault Refusal :=
  execCvt { j16Op d a 0 .f32 with c := 10 }
/-- J16_CVT_S32_F32 (R126). -/
def execJ16CvtS32F32 (d a : BitVec 4) : State → Host.Outcome State Fault Refusal :=
  execCvt { j16Op d a 0 .s32 with c := 1, m := 2 }
/-- J16_MOVI (R126). -/
def execJ16Movi (d : BitVec 4) (imm : BitVec 8) : State → Host.Outcome State Fault Refusal :=
  execMovi { d := d.zeroExtend 8, imm := imm.signExtend 24, t := .s32 }
/-- J16_LD (R126). -/
def execJ16Ld (d base ofs : BitVec 4) : State → Host.Outcome State Fault Refusal :=
  execLd (j16Mem d base ofs)
/-- J16_ST (R126). -/
def execJ16St (d base ofs : BitVec 4) : State → Host.Outcome State Fault Refusal :=
  execSt (j16Mem d base ofs)
/-- J16_LDX (R126). -/
def execJ16Ldx (d base idx : BitVec 4) : State → Host.Outcome State Fault Refusal :=
  execLd (j16MemX d base idx)
/-- J16_STX (R126). -/
def execJ16Stx (d base idx : BitVec 4) : State → Host.Outcome State Fault Refusal :=
  execSt (j16MemX d base idx)
/-- J16_BRA (R126). -/
def execJ16Bra (ofs : BitVec 12) : State → Host.Outcome State Fault Refusal :=
  execBra { ofs := ofs.signExtend 24 }
/-- J16_BRP (R126). -/
def execJ16Brp (inv : Bool) (ofs : BitVec 11) : State → Host.Outcome State Fault Refusal :=
  execBra { g := { inv := inv, pred := 0 }, ofs := ofs.signExtend 24 }
/-- J16_ICMP (R126). -/
def execJ16Icmp (a b cc : BitVec 4) : State → Host.Outcome State Fault Refusal :=
  whenLegal (cc.toNat ≤ 5 ∨ (8 ≤ cc.toNat ∧ cc.toNat ≤ 13)) (execIcmp (j16IcmpOp a b cc))
/-- J16_NOP (R126). -/
def execJ16Nop : State → Host.Outcome State Fault Refusal :=
  execNop {}
/-- J16_RET (R126). -/
def execJ16Ret : State → Host.Outcome State Fault Refusal :=
  execRet {}
/-- J16_EXIT (R126). -/
def execJ16Exit : State → Host.Outcome State Fault Refusal :=
  execExit {}
/-- J16_BAR (R126). -/
def execJ16Bar (scope : BitVec 3) : State → Host.Outcome State Fault Refusal :=
  execBar { q := scope, ci := true }
/-- J16_YIELD (R126). -/
def execJ16Yield : State → Host.Outcome State Fault Refusal :=
  execYield {}

end Sys2Proof.Machine
end

