-- ==== Sys2Proof/Machine/LaneExchange.lean ====
section
/-!
DEFINITION. The lane-exchange instructions, and PERM (R186-R193, 05_integer.md).
-/

namespace Sys2Proof.Machine

/-- LXCH (R188): a source lane outside the path leaves the lane its own value. -/
def lxchBody (c : Ctx) (s : State) : Res :=
  lanewise c s fun l =>
    let n : Word32 := (c.srcB (c.q == 1) l).truncate 32
    let src : Int := if c.q = 0 then n.toNat else if c.q = 1 then l + n.toInt else (l ^^^ n.toNat : Nat)
    if 0 ≤ src && src < 32 && c.path.lmask.getLsbD src.toNat then c.srcA src.toNat else c.srcA l

/-- PERM (R189). -/
def permBody (c : Ctx) (s : State) : Res :=
  lanewise c s fun l =>
    let x : Word64 := ((c.srcB false l).truncate 32 : Word32) ++ ((c.srcA l).truncate 32 : Word32)
    let sel := c.oldD l
    let out (i : Nat) : Word64 :=
      let k := (sel.extractLsb' (4 * i) 3).toNat
      let b := x.extractLsb' (8 * k) 8
      ((if sel.getLsbD (4 * i + 3) then (if b.msb then 0xFF else 0) else b).zeroExtend 64) <<< (8 * i)
    out 0 ||| out 1 ||| out 2 ||| out 3

/-- BCAST (R190). -/
def bcastBody (c : Ctx) (s : State) : Res :=
  let src := (c.srcB false c.lane0).toNat % 32
  let x := c.res (c.num (if c.path.lmask.getLsbD src then c.srcA src else 0))
  if c.q = 0 then lanewise c s fun _ => x
  else if c.act = 0 then .done s else .done (writeUD s c x)

/-- The operations of WRED: add, min, max, and, or, xor (R191). -/
def reduceOp (op : Nat) (x y : Int) : Int :=
  let bits (f : Word64 → Word64 → Word64) : Int := (f (BitVec.ofInt 64 x) (BitVec.ofInt 64 y)).toInt
  match op with
  | 0 => x + y
  | 1 => min x y
  | 2 => max x y
  | 3 => bits (· &&& ·)
  | 4 => bits (· ||| ·)
  | _ => bits (· ^^^ ·)

/-- WRED (R191). -/
def wredBody (c : Ctx) (s : State) : Res :=
  match (lanesOf c.act).map fun l => c.num (c.srcA l) with
  | [] => .done s
  | x :: rest => .done (writeUD s c (c.res (rest.foldl (reduceOp c.q) x)))

/-- WSCAN (R192). -/
def wscanBody (c : Ctx) (s : State) : Res :=
  let op := if c.q % 4 = 3 then 4 else c.q % 4
  let ident : Int := if op = 1 then c.hi else if op = 2 then c.lo else 0
  lanewise c s fun l =>
    let src := (lanesOf c.act).filter fun m => if c.q < 4 then m ≤ l else m < l
    c.res ((src.map fun m => c.num (c.srcA m)).foldl (reduceOp op) ident)

/-- MATCH (R193). -/
def matchBody (c : Ctx) (s : State) : Res :=
  lanewise c s fun l =>
    (maskOf fun m => c.act.getLsbD m && c.num (c.srcA m) == c.num (c.srcA l)).zeroExtend 64

/-- LXCH (R188). -/
def execLxch (x : RForm) : State → Host.Outcome State Fault Refusal := runIop 0x062 (.r x) lxchBody
/-- PERM (R189). -/
def execPerm (x : RForm) : State → Host.Outcome State Fault Refusal := runIop 0x063 (.r x) permBody
/-- BCAST (R190). -/
def execBcast (x : RForm) : State → Host.Outcome State Fault Refusal := runIop 0x064 (.r x) bcastBody
/-- WRED (R191). -/
def execWred (x : RForm) : State → Host.Outcome State Fault Refusal := runIop 0x065 (.r x) wredBody
/-- WSCAN (R192). -/
def execWscan (x : RForm) : State → Host.Outcome State Fault Refusal := runIop 0x066 (.r x) wscanBody
/-- MATCHLANES (R193). -/
def execMatchLanes (x : RForm) : State → Host.Outcome State Fault Refusal := runIop 0x067 (.r x) matchBody

end Sys2Proof.Machine
end

