-- ==== Sys2Proof/Machine/Scan.lean ====
section
/-!
DEFINITION. The executable-page scanner (R107-R110, R424, 03_personalities.md): the check of a page, start maps, reports, and SCANRQ.
-/

namespace Sys2Proof.Machine

/-! ### What a guest word counts for -/

/-- The slots of a row of J32 or J16, or of an IOP. -/
def rowSlots : Instr → Nat
  | .j32Iaddi .. | .j32Andi .. | .j32Ori .. | .j32Xori .. | .j32Icmpi .. => 2
  | _ => 1

/-- The IOPs of a guest word; an emulation word counts as one (R104). -/
def guestIops : Guest → Nat
  | .row i _ => rowSlots i
  | .slots is _ => is.length
  | .emu _ => 1
  | .header _ _ => 0

/-- Opcode and fields of the last slot of a guest word. -/
def guestLast : Guest → Option (Nat × Form)
  | .row i _ => (i.expansion.getD i).parts
  | .slots is _ => is.getLast?
  | _ => none

/-- SFS of a guest word: 0 when its last slot is not of format A. -/
def guestSfs (g : Guest) : Nat := match (guestLast g) with | some (_, .a x) => x.sfs.toNat | _ => 0

/-- A guest word ends its clause (R68, R115). -/
def guestEnds (g : Guest) : Bool :=
  match g with
  | .emu _ | .row (.j32Emu _ _) _ | .row (.j16Emu _) _ => true
  | g => ((guestLast g).map fun p => isClauseEnd p.1).getD false

/-! ### The algorithm of R108 -/

/-- The header span that the scan is in: the header's offset, its guest instructions left, the IOPs so far, and which set-flags it has. -/
structure Span where
  off  : Nat
  left : Nat
  iops : Nat := 0
  sf1  : Bool
  sf2  : Bool

/-- What a scan finds: the instruction starts of a page that passes, or reason, offset, slot and length of the failing word. -/
inductive Verdict where
  | pass (starts : NSet)
  | fail (reason off slot len : Nat)

/-- A word that is decided as a clause header, though its fields may break R68 or R80. A header template whose pattern gives a value too
large for its header field counts as one, so that it is reported HEADER: R108 does not say so (DESIGN CHOICE, notes/assumptions/42.md). -/
def headerLike (t : Option Tables) (pid w8 : Nat) : Bool :=
  if pid = 0 then w8 / 2 ^ 54 % 2 ^ 10 == 0x3FF
  else if pid = 1 then w8 / 2 ^ 26 % 2 ^ 6 == 0x3F
  else if pid = 2 then false
  else match t with
    | none => false
    | some t =>
      match (lengthClass t.lrs (w8 % 2 ^ 16)).bind fun c =>
          (matchPlane t.planes (w8 % 2 ^ (16 * (c + 1))) c).map fun p => (p, w8 % 2 ^ (16 * (c + 1))) with
      | none => false
      | some (p, w) =>
        let res := p.getD 2 0
        let tm := t.tmpls.getD (bitsAt res 48 10) []
        let c := tm.getD 0 0
        bitsAt res 62 2 == 1 && bitAt c 60 && [18, 12, 6, 0].all fun i => (t.value (bitsAt c i 6) w).isSome

/-- The reason code of a word that does not decode, and its slot (R109). -/
def errReason : DecErr → Nat × Nat
  | .noLength => (1, 0)
  | .noPlane => (3, 0)
  | .illegal => (4, 0)
  | .range n => (5, n)
  | .iopRule n => (6, n)

/-- A word breaks a rule of R68 or R80 within a span. -/
def Span.broken (sp : Span) (g : Guest) : Bool :=
  ((guestEnds g) && sp.left != 1) || decide (24 < sp.iops + (guestIops g)) || ((guestSfs g) == 1 && !sp.sf1) || ((guestSfs g) == 2 && !sp.sf2) || (guestSfs g) == 3

/-- The scan of a page from an offset. -/
def scanFrom (t : Option Tables) (pid : Nat) (page : List Byte) : Nat → Nat → Option Span → NSet → Verdict
  | 0, _, _, starts => .pass starts
  | fuel + 1, off, span, starts =>
    if 4096 ≤ off then
      match span with
      | some sp => .fail 7 sp.off 0 (((guestLength t pid (leNat ((page.drop sp.off).take 8)))).getD 2)
      | none => .pass starts
    else
      let w8 := leNat ((page.drop off).take 8)
      match guestLength t pid w8 with
      | none => .fail 1 off 0 2
      | some len =>
        let next (sp : Option Span) : Verdict := scanFrom t pid page fuel (off + len) sp (starts ++ [off])
        let bad (sp : Span) : Verdict := .fail 7 sp.off 0 ((guestLength t pid (leNat ((page.drop sp.off).take 8))).getD 2)
        if 4096 < off + len then .fail 2 off 0 len
        else match decodeGuest t pid w8 with
          | .error e => if headerLike t pid w8 then .fail 7 off 0 len else .fail (errReason e).1 off (errReason e).2 len
          | .ok (.header h _) =>
            match span with
            | some sp => bad sp
            | none => next (some { off := off, left := h.len, sf1 := h.sf1.isSome, sf2 := h.sf2.isSome })
          | .ok g =>
            match span with
            | none => if (guestSfs g) = 0 then next none else .fail 6 off ((guestIops g) - 1) len
            | some sp =>
              if sp.broken g then bad sp
              else next (if sp.left = 1 then none else some { sp with left := sp.left - 1, iops := sp.iops + (guestIops g) })

/-- The scan of a page with a personality number. -/
def scanPage (s : State) (pid : Nat) (page : List Byte) : Verdict :=
  let p := s.personalities.get {} pid
  if !p.resident then .fail 8 0 0 0 else scanFrom p.tables pid page 2049 0 none []

/-- The report of R109. -/
def scanReport (va pid reason off slot word : Nat) : List Byte :=
  words64 [va] ++ leBytes 1 pid ++ leBytes 1 reason ++ leBytes 2 off ++ leBytes 1 slot ++ [0, 0, 0] ++ words64 [word, 0]

/-- A personality keeps start maps: it has more than one valid length entry (R110). -/
def keepsStarts (s : State) (pid : Nat) : Bool :=
  decide (2 ≤ pid) && (((s.personalities.get {} pid).tables).map fun t => decide (1 < (t.lrs.filter (bitAt · 31)).length)).getD false

/-- SCAN_COMPLETE (R107, R108): the head of a die's queue. -/
def scanDone (die : Nat) (s : State) : Option State :=
  match s.sys.scans.find? (·.die == die) with
  | none => none
  | some r =>
    let va := r.va / 4096 * 4096
    let drop (m : List StartMap) : List StartMap := m.filter fun x => !(x.vf == r.vf && x.asid == r.asid && x.page == va)
    let s := { s with sys := { s.sys with scans := s.sys.scans.erase r, starts := drop s.sys.starts } }
    let post (s : State) (pid reason off slot word : Nat) : State := addReport s r.vf .scan [scanReport va pid reason off slot word] none
    let lost : State := post { s with fresh := s.fresh + 1 } 0 (Config.scanReason s.fresh).toNat 0 0 0
    match walk1 s none r.vf r.asid va with
    | .fail _ => some lost
    | .ok l =>
      match walk2 s none r.vf l.out with
      | .fail _ => some lost
      | .ok l2 =>
        let pid := l.e / 2 ^ 60
        let pa := memoryKey s r.vf l2.out
        let page := s.bytes pa 4096
        if s.flips.contains (pa / 4096) then none
        else some (match scanPage s pid page with
          | .pass starts =>
            let s := if l.e.testBit 59 then s else agentWriteLe s l.epa 8 (l.e + 2 ^ 59)
            let m : StartMap := { vf := r.vf, asid := r.asid, page := va, pid := pid, offs := starts }
            let s := if keepsStarts s pid then { s with sys := { s.sys with starts := s.sys.starts ++ [m] } } else s
            post s pid 0 0 0 0
          | .fail reason off slot len =>
            let s := if l.e.testBit 7 then agentWriteLe s l.epa 8 (l.e - 2 ^ 7) else s
            post s pid reason off slot (leNat ((page.drop off).take len)))

/-- SCANRQ (R424). -/
def scanrqBody (c : Ctx) (s : State) : Res :=
  oncePerPath c s fun _ =>
    let die := dieOf c.warp.core
    let b := c.uB.toNat
    if (s.sys.scans.filter (·.die == die)).length < 64 then
      let r : ScanReq := { die := die, vf := b / 2 ^ 16 % 2 ^ 8, asid := b % 2 ^ 16, va := c.uA.toNat }
      .done (writeUD { s with sys := { s.sys with scans := s.sys.scans ++ [r] } } c 0)
    else .done (writeUD s c 1)

/-- SCANRQ (R424). -/
def execScanrq (x : RForm) : State → Host.Outcome State Fault Refusal := runIop 0x27B (.r x) scanrqBody
/-- SCAN_COMPLETE (R108). -/
def execScanComplete (die : Nat) : State → Host.Outcome State Fault Refusal := runEvent (scanDone die)

end Sys2Proof.Machine
end

