-- ==== Sys2Proof/Machine/Supervisor.lean ====
section
/-!
DEFINITION. What the supervisor sees and answers (R420, R464, R467, R468): the posting of reports, consumer counts, and TRAPRSP.
-/

namespace Sys2Proof.Machine

/-! ### Posting (R468) -/

/-- A slot with its PHASE bit: byte 30 of a trap-ring slot, byte 15 of a scan report. -/
def phased (ring : RingKind) (i : Word32) (log : Nat) (bs : List Byte) : List Byte :=
  let at_ := match ring with | .scan => 15 | _ => 30
  let phase := (i.toNat / 2 ^ log + 1) % 2
  bs.set at_ (BitVec.ofNat 8 ((bs.getD at_ 0).toNat % 128 + 128 * phase))

/-- Notes the ring slot of a warp's report (R420, R348). -/
def noteSlot (slot : Nat) (x : Warp) : Warp :=
  if x.faultVa.isSome && x.faultSlot.isNone then { x with faultSlot := some slot }
  else { x with trap := x.trap.map fun t => { t with report := some slot } }

/-- RING_REPORT_POST: the first report that waits for a ring, when it has room; the last of its slots is written first, so that a header
follows its entries. -/
def postReport (vf : Nat) (ring : RingKind) (s : State) : Option State :=
  match s.reports.find? (fun r => r.vf == vf && r.ring == ring), s.ring? vf ring with
  | some r, some g =>
    let n := r.slots.length
    if 2 ^ g.log < (g.p - g.c).toNat + n then none
    else
      let slot (i : Nat) : Nat := (g.p.toNat + i) % 2 ^ g.log
      let s := (List.range n).reverse.foldl (fun s i =>
        agentWrite s (hostAddr s vf (g.base + 32 * slot i)) (phased ring (g.p + BitVec.ofNat 32 i) g.log (r.slots.getD i []))) s
      let s := { s with reports := s.reports.erase r, rings := s.rings.insert (ringKey vf ring) { g with p := g.p + BitVec.ofNat 32 n } }
      let s := match r.warp with | some w => s.modWarp w (noteSlot (slot 0)) | none => s
      some (s.emit (.msix (.vf vf) g.vec))
  | _, _ => none

/-- The register page of a function. -/
def State.func (s : State) (f : Func) : FuncRegs := s.pkg.funcs.get {} (funcKey f)

/-- Changes the register page of a function. -/
def State.modFunc (s : State) (f : Func) (g : FuncRegs → FuncRegs) : State :=
  { s with pkg := { s.pkg with funcs := s.pkg.funcs.insert (funcKey f) (g (s.func f)) } }

/-- TRAPCI and SCANCI: the register holds what was last written, and it is the consumer count of the ring of a VF (R464, R468). -/
def setConsumed (f : Func) (ring : RingKind) (ci : Word32) (s : State) : State :=
  if !s.pkg.ready then s
  else
    let s := s.modFunc f fun g =>
      match ring with
      | .scan => { g with scanCi := ci }
      | _ => { g with trapCi := ci }
    match f with
    | .pf _ => s
    | .vf vf => { s with rings := s.rings.adjust (ringKey vf ring) fun g => { g with c := ci } }

/-! ### TRAPRSP (R420) -/

/-- The warp whose report stands in a slot of a VF's trap ring. -/
def reportedWarp (s : State) (vf slot : Nat) : Option Nat :=
  (List.find? (fun (x : Nat × Warp) => x.2.kind == .ordinary && x.2.vf == vf
    && ((x.2.faultVa.isSome && x.2.faultSlot == some slot) || (x.2.trap.bind (·.report)) == some slot)) s.warps).map (·.1)

/-- A held warp is resumed, at TPC or after it (R420). Where its record cannot be read, it is context-faulted, and the reply waits for the
retry. -/
def resumeHeld (s : State) (w resp : Nat) : State :=
  match s.warp? w with
  | none => s
  | some x =>
    match x.trap with
    | none => s
    | some t =>
      let pc := skipPc s x t
      let go (q : Path) : Path := if resp = 1 then { q with pc := pc, wait := none, notes := [], rst := 0 } else q
      let resumed := updateSaved { s with fresh := s.fresh + 1 } w fun x =>
        { x with trap := none, waitingSince := none, regs := { x.regs with paths := x.regs.paths.adjust t.path go } }
      match resumed with
      | .ok s => s
      | .error s => s.modWarp w fun x => { x with trap := x.trap.map fun t => { t with reply := some resp } }

/-- CTXFAULT_RETRY (R153): the context-faulted access is made again, and a reply to a trap that has waited for it takes effect (R420). -/
def retryReplied (w : Nat) (s : State) : Option State :=
  (retryStep w s).map fun s =>
    match (s.warp? w).bind fun x => if x.faultVa.isNone then x.trap.bind (·.reply) else none with
    | some resp => resumeHeld s w resp
    | none => s

/-- A reply to the report in a slot: retry, skip or kill. A reply to a pre-empted workgroup's report is kept until restore. -/
def traprsp (vf slot resp : Nat) (s : State) : State :=
  if !s.pkg.ready then s
  else match reportedWarp s vf slot with
    | none => s
    | some w =>
      match s.warp? w with
      | none => s
      | some x =>
        if x.regs.dorm = 12 then s.modWarp w fun x => { x with trap := x.trap.map fun t => { t with reply := some resp } }
        else if resp = 2 then killWorkgroup s x.wg true
        else if x.faultVa.isSome && x.faultSlot == some slot then (retryReplied w s).getD s
        else resumeHeld s w resp

/-! ### Replies of services (R469) -/

/-- The logical device of a function. -/
def State.deviceOf (s : State) : Func → Nat
  | .pf n => n
  | .vf n => (s.vfs.get {} n).dev

/-- The key in memory of a slot of a function's request ring, or reply ring. -/
def serviceSlot (s : State) (f : Func) (reply : Bool) (i : Nat) : Nat :=
  hostKey (s.deviceOf f) ((s.func f).svcBase.toNat + (if reply then 4096 else 0) + 64 * (i % 64))

/-- The key of a request in the log that is shipped to die 1 (R440). -/
def logKey (r : SvcReq) : Nat := funcKey r.caller * 2 ^ 64 + r.seq.toNat

/-- The bytes of a reply, DONE not yet written. -/
def replyBytes (r : SvcReq) (svc status : Nat) (res : List Word64) : List Byte :=
  words64 [r.seq.toNat] ++ leBytes 2 svc ++ [BitVec.ofNat 8 status, 0, 0, 0, 0, 0]
    ++ words64 ((List.range 6).map fun i => (res.getD i 0).toNat)

/-- Writes a reply, DONE last, and signals vector 0 of the function. -/
def sendReply (s : State) (f : Func) (index : Nat) (bs : List Byte) : State :=
  let a := serviceSlot s f true index
  let s := agentWrite (agentWrite s a bs) (a + 11) [1]
  (s.modFunc f fun g => { g with replied := g.replied + 1 }).emit (.msix f 0)

/-- A request is answered; one that changed firmware state stands in the log with its reply (R440). -/
def answer (s : State) (r : SvcReq) (svc status : Nat) (res : List Word64) : State :=
  let bs := replyBytes r svc status res
  let s := if status = 0 then { s with sys := { s.sys with log := s.sys.log.insert (logKey r) bs } } else s
  sendReply s r.caller r.index bs

/-- CTXFAULT_RETRY (R153). -/
def execCtxfaultRetry (w : Nat) : State → Host.Outcome State Fault Refusal := runEventFlip (retryReplied w)
/-- RING_REPORT_POST (R468). -/
def execRingReportPost (vf : Nat) (ring : RingKind) : State → Host.Outcome State Fault Refusal := runEvent (postReport vf ring)
/-- TRAPCI (R464, R468). -/
def execTrapci (f : Func) (ci : BitVec 32) (s : State) : Host.Outcome State Fault Refusal := .next (setConsumed f .trap ci s)
/-- SCANCI (R464, R468). -/
def execScanci (f : Func) (ci : BitVec 32) (s : State) : Host.Outcome State Fault Refusal := .next (setConsumed f .scan ci s)
/-- TRAPRSP with RESP 0 (R420). -/
def execTraprspRetry (vf slot : Nat) : State → Host.Outcome State Fault Refusal :=
  runEventFlip fun s => some (traprsp vf slot 0 s)
/-- TRAPRSP with RESP 1 (R420). -/
def execTraprspSkip (vf slot : Nat) : State → Host.Outcome State Fault Refusal :=
  runEventFlip fun s => some (traprsp vf slot 1 s)
/-- TRAPRSP with RESP 2 (R420). -/
def execTraprspKill (vf slot : Nat) : State → Host.Outcome State Fault Refusal :=
  runEventFlip fun s => some (traprsp vf slot 2 s)

end Sys2Proof.Machine
end

