-- ==== Sys2Proof/Machine/Preempt.lean ====
section
/-!
DEFINITION. Pre-emption (R430-R434, R483, 14_system.md): why a warp is dormant, CTXSV and the save that follows its drains, images and
their sealing, the freshness table, and CTXRS.
-/

namespace Sys2Proof.Machine

/-! ### Eviction of one warp (R341, R344) -/

/-- The dormancy reason of a wait; 2 where the table of R341 has none of its own. -/
def Wait.dorm : Wait → BitVec 4
  | .barrier _ _ | .barrierCount _ _ | .tb _ _ => 3
  | .granules _ _ _ => 4
  | .callIdle | .callReply _ | .callRead => 5
  | .uiwait _ _ _ => 6
  | .sleep _ _ _ => 7
  | .requests _ _ | .requestRoom _ _ => 8
  | .header _ | .flags _ => 10
  | .pair _ | .shuf _ => 11
  | _ => 2

/-- A warp is waiting (R342). -/
def Warp.waiting (x : Warp) : Bool := x.regs.paths.all fun q => q.2.park || q.2.inLongWait x.regs.ctxf

/-- The reason that a warp takes when it is evicted (R341): of a waiting warp that of its lowest-indexed waiting path; any other is evicted to
make room. -/
def dormReason (x : Warp) : BitVec 4 :=
  if (x.trap.map (·.held)).getD false then 9
  else if !x.waiting then 2
  else match List.find? (fun (q : Nat × Path) => q.2.longWait x.regs.ctxf) x.regs.paths with
    | some (_, q) => (q.wait.map Wait.dorm).getD 2
    | none => 2

/-- The commit of an eviction (R344): the whole state goes to the record, clauses end, and a held warp's report is made (R420). -/
def commitEviction (s : State) (w : Nat) : State :=
  match s.warp? w with
  | none => s
  | some x =>
    let stopClause (q : Path) : Path := { q with clause := none }
    let s := s.modRegs w fun r => { r with paths := r.paths.map fun q => (q.1, stopClause q.2) }
    let s := commitRecord s w (dormReason x)
    let s := s.modWarp w fun x => { x with waitingSince := none }
    match x.trap with
    | some t =>
      if t.held && t.report.isNone then
        addReport s x.vf .trap [trapReport t.info t.pc.toNat x.regs.ident.toNat x.wg x.asid t.nest t.code] (some w)
      else s
    | none => s

/-- What an eviction waits for (R344 step 2, R154, R255): no clause in progress, no operation of Foehn, no engine operation, and every IOP
that the warp has issued completed. Copies, page requests and asynchronous memory accesses are not waited for. A trapped warp is not evicted
unless it is held for the supervisor (R412, R420). -/
def evictable (s : State) (w : Nat) (x : Warp) : Bool :=
  x.place.isSome && (x.trap.map (·.held)).getD true && !x.regs.paths.any (·.2.running x.regs.ctxf) && (s.cur.map (·.w)) != some w
    && x.foehn.isEmpty
    && !s.eng.queue.any (·.warp == w) && !s.ui.sends.any (fun y => (y.warp.map (·.1)) == some w)

/-! ### Images (R431) -/

/-- The 64 bytes of a launch packet (R363). -/
def packetBytes (p : Packet) : List Byte :=
  words64 [p.entry.toNat] ++ leBytes 4 p.grid ++ [BitVec.ofNat 8 p.wgw, BitVec.ofNat 8 p.frame, BitVec.ofNat 8 p.prod, BitVec.ofNat 8 p.flags]
    ++ leBytes 2 p.hot ++ leBytes 2 p.stk ++ [BitVec.ofNat 8 p.accs, BitVec.ofNat 8 p.prio] ++ leBytes 2 p.near ++ leBytes 8 p.hint
    ++ leBytes 32 p.tail

/-- The work cores of a cluster and the ordinal of a core among them. -/
def coreOrdinal (s : State) (core : Nat) : Nat := ((workCores s (clusterOf core)).findIdx? (· == core)).getD 0

/-- INST of a barrier: the ordinal of the core, the quad of the cluster, or 0. -/
def barrierInst (s : State) (key : BarrierKey) : Nat :=
  match key.scope with
  | .core => coreOrdinal s key.part
  | .quad => key.part % 4
  | _ => 0

/-- The warps of a workgroup that have arrived in a barrier's current phase, as a mask. -/
def arrivedMask (s : State) (g : Workgroup) (b : Barrier) : Nat :=
  g.warps.foldl (fun m n => match s.warp? n with
    | some x => if b.has n x then m ||| 2 ^ x.regs.warpId else m
    | none => m) 0

/-- The barriers of a workgroup that an image holds, in increasing order of scope, instance and number. -/
def imageBarriers (s : State) (g : Workgroup) : List Barrier :=
  let mine := s.barriers.filter fun b => decide (b.key.scope.code < 3) && b.key.owner == g.handle
    && (b.phases != 0 || arrivedMask s g b != 0)
  let rank (b : Barrier) : Nat := (b.key.scope.code * 16 + barrierInst s b.key) * 16 + b.key.n
  mine.mergeSort fun a b => rank a ≤ rank b

/-- A barrier record of an image. -/
def barrierBytes (s : State) (g : Workgroup) (b : Barrier) : List Byte :=
  leBytes 4 b.phases.toNat ++ [BitVec.ofNat 8 b.key.n, BitVec.ofNat 8 b.key.scope.code, BitVec.ofNat 8 (barrierInst s b.key), 0]
    ++ leBytes 8 (arrivedMask s g b)

/-- The header of an image. -/
def imageHeader (kslot : Nat) (ctr : Word64) (g : Workgroup) (rsz bodyLen lineage : Nat) : List Byte :=
  [1, 0, BitVec.ofNat 8 (bit (kslot != 0)), BitVec.ofNat 8 g.warps.length] ++ leBytes 4 kslot ++ leBytes 8 ctr.toNat ++ leBytes 4 g.wgid.toNat
    ++ leBytes 4 g.nearSize ++ leBytes 8 rsz ++ leBytes 8 bodyLen ++ leBytes 4 (g.vf * 2 ^ 16 + g.asid) ++ leBytes 4 lineage
    ++ List.replicate 16 0

/-- The body of an image before its records: packet, record addresses, NBAR, pairing, prior DORM. -/
def bodyHead (s : State) (g : Workgroup) (nbar : Nat) : List Byte :=
  let pk := ((s.grid? g.grid).map (·.pk)).getD {}
  let recAt (j : Nat) : Nat := ((g.warps[j]?).bind s.warp?).elim 0 (·.record.toNat)
  let peer := (g.pair.or g.asks).bind s.wg?
  let pair := (peer.map (·.wgid.toNat)).getD 0 + bit g.pair.isSome * 2 ^ 32 + bit (g.pair.isNone && g.asks.isSome) * 2 ^ 33
  let dorms := (List.range 64).foldl (fun n j => n + ((g.warps[j]?).elim 0 fun w => (g.priorDorm.get 0 w).toNat) * 2 ^ (4 * j)) 0
  packetBytes pk ++ words64 ((List.range 64).map recAt) ++ words64 [nbar] ++ leBytes 8 pair ++ leBytes 8 0 ++ leBytes 32 dorms
    ++ List.replicate 392 0

/-- The 12 bytes of the IV (R432). -/
def imageIv (kslot : Nat) (ctr : Word64) : List Byte := leBytes 4 kslot ++ leBytes 8 ctr.toNat

/-- A physical address that holds an image: aligned, and in a region that R260 does not reserve. -/
def imageAddrBad (s : State) (pa : Nat) : Option Nat :=
  if pa % 4096 ≠ 0 then some 3 else if 2 ^ 52 ≤ pa || !regionOk s pa then some 6 else none

/-- Reads the records of warps in order, each `rsz` bytes on the CTX path. -/
def readRecords (s : State) : List Nat → State × Except (Nat × Nat) (List Byte)
  | [] => (s, .ok [])
  | w :: rest =>
    match s.warp? w with
    | none => readRecords s rest
    | some x =>
      match recordRead s x 0 (x.regs.recordSize / 64) with
      | (s, .error va) => (s, .error (w, va))
      | (s, .ok bs) =>
        match readRecords s rest with
        | (s, .ok more) => (s, .ok (bs ++ more))
        | r => r

/-! ### CTXSV (R430) -/

/-- Step 3 of R430: every clause of the workgroup has ended, its trapped warps have left privileged mode, and its copies, engine queues,
credits and Foehn have finished. -/
def drained (s : State) (h : Nat) (g : Workgroup) : Bool :=
  g.warps.all (fun w => match s.warp? w with
    | none => true
    | some x => (x.place.isNone || evictable s w x) && (x.trap.map (·.held)).getD true && x.faultVa.isNone && !x.arriving
        && !s.inflight.any (·.warp == w))
    && !s.eng.copies.any (·.wg == h) && !s.eng.credits.any (·.wg == h)

/-- The checks of R430 step 1; the status that ends CTXSV. -/
def saveCheck (s : State) (h pa slot : Nat) : Option Nat :=
  match imageAddrBad s pa, s.wg? h with
  | some st, _ => some st
  | none, none => some 1
  | none, some g =>
    if g.saved then some 1
    else if slot ≠ s.keyBinding g.vf then some 4
    else if slot ≠ 0 && g.lineage.isNone && decide (65536 ≤ s.sys.lineages.length) then some 2
    else none

/-- A workgroup is marked pre-empting (R430 step 2). -/
def beginSave (s : State) (h : Nat) (r : SaveReq) : State :=
  { s.modWg h (fun g => { g with preempting := true }) with sys := { s.sys with saves := s.sys.saves.insert h r } }

/-- CTXSV. -/
def ctxsvBody (c : Ctx) (s : State) : Res :=
  oncePerPath c s fun _ =>
    let h := c.uA.toNat
    match c.path.wait with
    | some (.saving _ (some st)) => .done (writeUD s c (BitVec.ofNat 64 st))
    | some (.saving h none) => .wait s (.saving h none)
    | _ =>
      if (s.sys.saves.find? h).isSome then .wait s (.saving h none)
      else match saveCheck s h c.uB.toNat c.uC.toNat with
        | some st => .done (writeUD s c (BitVec.ofNat 64 st))
        | none =>
          .wait (beginSave s h { image := some (memoryKey s c.warp.vf c.uB.toNat), slot := c.uC.toNat }) (.saving h none)

/-- The counter that a save under a slot takes (R430 step 6). -/
def nextCounter (s : State) (slot : Nat) : Word64 := if slot = 0 then 0 else (s.sys.keys.get {} slot).ctr + 1

/-- The slot's counter and the workgroup's lineage, given at its first protected save, take the counter of a save (R430 step 6, R433). -/
def sealCounter (s : State) (h slot : Nat) : State × Nat :=
  if slot = 0 then (s, 0)
  else
    let ctr := nextCounter s slot
    let old := (s.wg? h).bind (·.lineage)
    let lin := old.getD s.sys.nextLineage
    let s := { s with sys := { s.sys with
      keys := s.sys.keys.adjust slot fun k => { k with ctr := ctr }
      nextLineage := if old.isSome then s.sys.nextLineage else s.sys.nextLineage + 1
      lineages := s.sys.lineages.insert lin { slot := slot, latest := ctr } } }
    (s.modWg h fun g => { g with lineage := some lin }, lin)

/-- The image of a saved workgroup: header, body sealed under the slot's key, tag. -/
def imageBytes (s : State) (g : Workgroup) (slot : Nat) (ctr : Word64) (lin : Nat) (records : List Byte) : List Byte :=
  let bars := imageBarriers s g
  let rsz := records.length / g.warps.length
  let body := bodyHead s g bars.length ++ records ++ g.nearBytes 0 g.nearSize ++ bars.flatMap (barrierBytes s g)
  let head := imageHeader slot ctr g rsz body.length lin
  if slot = 0 then head ++ body
  else
    let (ct, tag) := gcm (((s.sys.keys.get {} slot).key).getD 0) (imageIv slot ctr) head body true
    head ++ ct ++ tag

/-- An address in the memory of a host that has restarted (R437). -/
def revokedKey (s : State) (key : Nat) : Bool := key / 2 ^ 48 % 16 == 2 && s.revoked.contains (key / 2 ^ 52)

/-- Where an image goes: to its address, or to firmware, which holds it for a restarted host (R437). -/
def storeImage (s : State) (h : Nat) (g : Workgroup) (r : SaveReq) (bs : List Byte) : State :=
  match r.image with
  | some key => agentWrite s key bs
  | none =>
    { s with sys := { s.sys with images := s.sys.images ++ [{ ld := (s.vfs.get {} g.vf).dev, wg := h, slot := r.slot, bytes := bs }] } }

/-- A save has ended with a status: CTXSV's paths go on, and the service that asked for it is answered (R469). -/
def finishSave (s : State) (h st : Nat) (r : SaveReq) : State :=
  let s := endSaves { s with sys := { s.sys with saves := s.sys.saves.erase h } } h st
  match r.svc with
  | some q => answer s q 0x0D 0 [BitVec.ofNat 64 st]
  | none => s

/-- Changes the saved state of each of a list of warps; an error is the state after a context fault, in which later ones are unchanged. -/
def updateEach (s : State) (ws : List Nat) (f : Warp → Warp) : Except State State :=
  ws.foldl (fun a w => match a with | .ok s => updateSaved s w f | .error s => .error s) (.ok s)

/-- The image of a workgroup that step 6 of R430 has sealed is stored, what it replaces is freed, and CTXSV's status is 0 (R430 steps 7 and 8,
R483). -/
def keepImage (s : State) (h : Nat) (g : Workgroup) (r : SaveReq) (ctr : Word64) (bs : List Byte) : State :=
  let s := storeImage s h g r bs
  let s := if r.slot = 0 then s else g.warps.foldl (fun s w => match s.warp? w with | some x => (zeroRecord s x).1 | none => s) s
  let key := r.image.getD (2 ^ 52 + h)
  let map : BitMap := { pa := key, kslot := r.slot, ctr := ctr, wg := h, full := g.full }
  let mine (b : Barrier) : Bool := decide (b.key.scope.code < 3) && b.key.owner == h
  let s := s.modWg h fun g => { g with saved := true, near := [], full := [], kept := s.barriers.filter mine }
  let s := { s with barriers := s.barriers.filter fun b => !mine b, sys := { s.sys with maps := s.sys.maps.filter (·.pa != key) ++ [map] } }
  finishSave s h 0 r

/-- Steps 6 to 8 of R430, once every record is complete and marked pre-empted. A context fault leaves the save waiting for its retry; an image
that cannot be written leaves the workgroup pre-empted and unsaved. -/
def sealImage (s : State) (h : Nat) (g : Workgroup) (r : SaveReq) : State :=
  let ctr := nextCounter s r.slot
  match if r.slot = 0 then .ok s else updateEach s g.warps fun x => { x with regs := { x.regs with savectr := ctr } } with
  | .error s => s
  | .ok s =>
    match readRecords s g.warps with
    | (s, .error (w, va)) => contextFault s w va
    | (s, .ok records) =>
      let (s, lin) := sealCounter s h r.slot
      if (r.image.map (revokedKey s)).getD false then finishSave s h 6 r
      else keepImage s h g r ctr (imageBytes s g r.slot ctr lin records)

/-- The reasons of a workgroup's warps before it is marked pre-empted (R430 step 5). -/
def priorReasons (s : State) (g : Workgroup) : SMap (BitVec 4) :=
  g.warps.foldl (fun m w => match s.warp? w with
    | some x => m.put 0 w (if x.regs.dorm = 12 then g.priorDorm.get 0 w else x.regs.dorm)
    | none => m) []

/-- CTXSV_SAVE (R430): after the drains the warps are evicted, marked pre-empted, and the image is written. A context fault on the way leaves
the save waiting for its retry. -/
def saveStep (h : Nat) (s : State) : Option State :=
  match s.wg? h, s.sys.saves.find? h with
  | none, some r => some (finishSave s h 1 r)
  | some g, some r =>
    if !drained s h g then none
    else
      let s := g.warps.foldl (fun s w => if ((s.warp? w).bind (·.place)).isSome then commitEviction s w else s) s
      if g.warps.any fun w => ((s.warp? w).bind (·.faultVa)).isSome then some s
      else
        let g := { g with priorDorm := priorReasons s g }
        match updateEach (s.modWg h fun _ => g) g.warps fun x => { x with regs := { x.regs with dorm := 12 } } with
        | .error s => some s
        | .ok s => some (sealImage s h g r)
  | _, _ => none

/-! ### CTXRS (R434, R483) -/

/-- The fields of an image's header (R431). -/
structure ImageFields where
  nwarp : Nat
  prot  : Bool
  kslot : Nat
  ctr   : Nat
  near  : Nat
  rsz   : Nat
  body  : Nat
  asid  : Nat
  vf    : Nat
  lin   : Nat

/-- The header of an image, when VER, the RSVD fields and BODYLEN pass. -/
def parseImageHeader (bs : List Byte) : Option ImageFields :=
  let n (o k : Nat) := numAt bs o k
  let x : ImageFields := { nwarp := n 3 1, prot := n 2 1 % 2 == 1, kslot := n 4 4, ctr := n 8 8, near := n 20 4, rsz := n 24 8, body := n 32 8
                           asid := n 40 2, vf := n 42 1, lin := n 44 4 }
  let least := 1024 + x.nwarp * x.rsz + x.near
  if n 0 2 ≠ 1 ∨ 2 ≤ n 2 1 ∨ n 43 1 ≠ 0 ∨ n 48 16 ≠ 0 ∨ x.nwarp = 0 ∨ 64 < x.nwarp ∨ x.body < least ∨ (x.body - least) % 16 ≠ 0 then none
  else some x

/-- What a restore reads: an image in memory, or one that firmware holds. -/
inductive ImageSource where
  | memory (key : Nat)
  | held (bytes : List Byte)

/-- Bytes of an image. -/
def ImageSource.read (s : State) (src : ImageSource) (o n : Nat) : List Byte :=
  match src with
  | .memory key => s.bytes (key + o) n
  | .held bs => (bs.drop o).take n

/-- An access to an image's bytes faults: poisoned data, or a host that has restarted. -/
def ImageSource.bad (s : State) (src : ImageSource) (n : Nat) : Bool :=
  match src with
  | .memory key => revokedKey s key || s.poison.any fun g => decide (key / 16 ≤ g) && decide (16 * g < key + n)
  | .held _ => false

/-- The body of an image, opened under the slot's key; none when the tag differs. -/
def openBody (s : State) (slot : Nat) (src : ImageSource) (x : ImageFields) : Option (List Byte) :=
  let ct := src.read s 64 x.body
  if slot = 0 then some ct
  else
    let head := src.read s 0 64
    let key := ((s.sys.keys.get {} slot).key).getD 0
    let (pt, tag) := gcm key (imageIv slot (BitVec.ofNat 64 x.ctr)) head ct false
    if tag = src.read s (64 + x.body) 16 then some pt else none

/-- What the checks of R434 give: the image's fields, its body, the bit map and the pre-empted workgroup. -/
structure Checked where
  x    : ImageFields
  body : List Byte
  map  : BitMap
  wg   : Workgroup

/-- The checks of R434 in order; the status of the first that fails. -/
def restoreCheck (s : State) (cluster slot : Nat) (src : ImageSource) (key : Nat) : Except Nat Checked :=
  if src.bad s 64 then .error 6
  else match parseImageHeader (src.read s 0 64) with
    | none => .error 3
    | some x =>
      if s.keyBinding x.vf ≠ slot then .error 4
      else if slot ≠ 0 && ((s.sys.lineages.find? x.lin).map (·.latest)) != some (BitVec.ofNat 64 x.ctr) then .error 5
      else if src.bad s (64 + x.body + if slot = 0 then 0 else 16) then .error 6
      else match openBody s slot src x with
        | none => .error 4
        | some body =>
          if x.body ≠ 1024 + x.nwarp * x.rsz + x.near + 16 * (numAt body 576 2) then .error 3
          else match s.sys.maps.find? (·.pa == key) with
            | none => .error 1
            | some m =>
              if m.kslot ≠ x.kslot ∨ m.ctr ≠ BitVec.ofNat 64 x.ctr then .error 3
              else match s.wg? m.wg with
                | none => .error 1
                | some g => if nearFree s cluster < x.near then .error 2 else .ok { x := x, body := body, map := m, wg := g }

/-- The barrier waits of a warp, under its workgroup's handle and its placement core as they are now. -/
def rekeyWaits (x : Warp) : Warp :=
  let wait (wt : Wait) : Wait := match wt with
    | .barrier k m => .barrier (barrierKey x k.scope k.n) m
    | .barrierCount k m => .barrierCount (barrierKey x k.scope k.n) m
    | wt => wt
  { x with regs := { x.regs with paths := x.regs.paths.map fun q => (q.1, q.2.mapWaits wait), stack := x.regs.stack.map (·.mapWaits wait) } }

/-- A handle replaces another wherever the model names the workgroup. -/
def renameWg (s : State) (h h' : Nat) : State :=
  let to_ (n : Nat) : Nat := if n = h then h' else n
  { s with wgs := s.wgs.map fun g => (g.1, { g.2 with pair := g.2.pair.map to_, asks := g.2.asks.map to_ })
           warps := s.warps.map fun x => (x.1, if x.2.wg = h then rekeyWaits { x.2 with wg := h' } else x.2)
           held := s.held.map fun x => { x with wg := to_ x.wg } }

/-- The key of a barrier of a workgroup in a cluster, by scope, instance and number. -/
def keyIn (s : State) (h cluster : Nat) (sc : Scope) (inst n : Nat) : BarrierKey :=
  let part := match sc with
    | .core => (workCores s cluster).getD inst 0
    | .quad => 4 * cluster + inst
    | _ => 0
  { scope := sc, n := n, owner := h, part := part }

/-- A barrier of a restored workgroup, in the target cluster, as its record of the image gives it (R431). -/
def restoredBarrier (s : State) (g : Workgroup) (h' cluster : Nat) (rec : List Byte) : Barrier :=
  let sc := (Scope.ofCode (numAt rec 5 1 % 8)).getD .core
  let inst := numAt rec 6 1
  let n := numAt rec 4 1 % 16
  let old := g.kept.find? fun b => b.key.scope == sc && b.key.n == n && barrierInst s b.key == inst
  let mask := numAt rec 8 8
  let live (w : Nat) : Option (Nat × Word32) := (s.warp? w).bind fun x => if mask.testBit x.regs.warpId then some (w, x.regs.liveLanes) else none
  let arrived := (g.warps.filterMap live).foldl (fun (m : SMap Word32) x => m.put 0 x.1 x.2) ((old.map (·.arrived)).getD [])
  { key := keyIn s h' cluster sc inst n, arrived := arrived, later := (old.map (·.later)).getD [], phases := BitVec.ofNat 32 (numAt rec 0 4) }

/-- The barriers of a restored workgroup: those of the image, and those that it leaves out, in whose first phase only some lanes of warps have
arrived: pre-emption keeps every arrival (R312). -/
def restoredBarriers (s : State) (g : Workgroup) (h' cluster : Nat) (recs : List (List Byte)) : List Barrier :=
  let bars := recs.map (restoredBarrier s g h' cluster)
  let kept := g.kept.map fun b => { b with key := keyIn s h' cluster b.key.scope (barrierInst s b.key) b.key.n }
  bars ++ kept.filter fun b => !bars.any (·.key == b.key)

/-- A restored warp: its record's bytes as its state, its placement core remapped, its reason as it was before (R434 steps 2, 6, 7). -/
def restoredWarp (s : State) (x : Warp) (bs : List Byte) (dorm cluster : Nat) (f : ImageFields) : Warp :=
  let r := parseMain x.regs bs ((bs.drop (x.regs.vofs - 448)).take 448)
  let r := parseAcc r (bs.drop 3648)
  let core := (workCores s cluster).getD (coreOrdinal s r.placeCore) 0
  { x with asid := f.asid, vf := f.vf, waitingSince := none
           regs := { r with dorm := BitVec.ofNat 4 dorm, v := []
                            ident := BitVec.ofNat 64 (r.ident.toNat - r.placeCore * 2 ^ 7 + core * 2 ^ 7) } }

/-- Writes the records of an image at their addresses; none when one of them faults. -/
def writeRecords (s : State) (f : ImageFields) (cluster : Nat) (ws : List Nat) (body : List Byte) : Option State :=
  ((List.range ws.length).zip ws).foldl (fun (acc : Option State) jw =>
    acc.bind fun s => (s.warp? jw.2).bind fun x =>
      let bs := (body.drop (1024 + jw.1 * f.rsz)).take f.rsz
      let x := { x with record := BitVec.ofNat 57 (numAt body (64 + 8 * jw.1) 8), asid := f.asid, vf := f.vf }
      match recordWrite s x (linesFrom (f.rsz / 64) 0 bs) with
      | (_, some _) => none
      | (s, none) =>
        let x := restoredWarp s x bs (numAt body (600 + jw.1 / 2) 1 / 16 ^ (jw.1 % 2) % 16) cluster f
        some (writeBack (s.setWarp jw.2 x) jw.2)) (some s)

/-- Sends that were held for a warp's vectors are applied as one send each (R401). One whose record cannot be read stays held. -/
def applyHeld (s : State) (w : Nat) : State :=
  match s.warp? w with
  | none => s
  | some x =>
    (List.range 64).foldl (fun s v =>
      match (s.port? x.vf x.asid).map (·.vecs.get {} v) with
      | some e =>
        if e.v && e.held && e.hrec == x.record then
          match updateSaved s w (combineInto e.mode v e.hpay) with
          | .ok s => s.modVec x.vf x.asid v fun e => { e with held := false, hpay := 0 }
          | .error s => s
        else s
      | none => s) s

/-- The replies that the supervisor gave meanwhile take effect (R420). -/
def applyReply (s : State) (w : Nat) : State :=
  match (s.warp? w).bind fun x => x.trap.bind (·.reply) with
  | some 2 => killWorkgroup s (((s.warp? w).map (·.wg)).getD 0) true
  | some resp => resumeHeld s w resp
  | none => s

/-- Restores the image of a source (R434): the status, and the handle, which stays on the workgroup's own die, as in the run shown of 19_programs_faults_system.md.
`key` is where its bit map is kept. -/
def restoreImage (s : State) (target slot : Nat) (src : ImageSource) (key : Nat) : State × Nat × Nat :=
  let die := target / 8 % 4
  let cluster := die * 8 + target % 8
  match restoreCheck s cluster slot src key with
  | .error st => (s, st, 0)
  | .ok k =>
    let h := k.map.wg
    let g := k.wg
    let h' := if g.die = die then h else freeHandle s die
    match writeRecords s k.x cluster g.warps k.body with
    | none => (s, 6, 0)
    | some t =>
      let slotNow := t.sys.keys.get {} slot
      let t := if slot = 0 then t
        else { t with sys := { t.sys with keys := t.sys.keys.insert slot { slotNow with ctr := slotNow.ctr + 1 }
                                          lineages := t.sys.lineages.adjust k.x.lin fun l => { l with latest := slotNow.ctr + 1 } } }
      let near := (k.body.drop (1024 + k.x.nwarp * k.x.rsz)).take k.x.near
      let bars := restoredBarriers t g h' cluster ((List.range (numAt k.body 576 2)).map fun i =>
        (k.body.drop (1024 + k.x.nwarp * k.x.rsz + k.x.near + 16 * i)).take 16)
      let g' := ({ g with handle := h', die := die, cluster := cluster, saved := false, preempting := false, priorDorm := [], kept := []
                          nearSize := k.x.near, full := k.map.full, vf := k.x.vf, asid := k.x.asid } : Workgroup).setNear 0 near
      let t := renameWg { t with wgs := (t.wgs.erase h).insert h' g' } h h'
      let t := { t with barriers := t.barriers ++ bars, sys := { t.sys with maps := t.sys.maps.filter (·.pa != key) } }
      let t := g.warps.foldl applyHeld t
      (g.warps.foldl applyReply t, 0, h')

/-- Restores the image at a physical address that an agent of a VF names. -/
def restoreAt (s : State) (vf target slot pa : Nat) : State × Nat × Nat :=
  match imageAddrBad s pa with
  | some st => (s, st, 0)
  | none => restoreImage s target slot (.memory (memoryKey s vf pa)) (memoryKey s vf pa)

/-- The result word of CTXRS. -/
def restoreWord (st h : Nat) : Word64 := BitVec.ofNat 64 (st + h * 2 ^ 24)

/-- CTXRS. -/
def ctxrsBody (c : Ctx) (s : State) : Res :=
  oncePerPath c s fun _ =>
    let (s, st, h) := restoreAt s c.warp.vf (c.uA.toNat % 32) c.uC.toNat c.uB.toNat
    .done (writeUD s c (restoreWord st h))

/-- CTXSV (R430). -/
def execCtxsv (x : RForm) : State → Host.Outcome State Fault Refusal := runIop 0x278 (.r x) ctxsvBody
/-- CTXRS (R434). -/
def execCtxrs (x : RForm) : State → Host.Outcome State Fault Refusal := runIopFlip 0x279 (.r x) ctxrsBody
/-- CTXSV_SAVE (R430). -/
def execCtxsvSave (wg : Nat) : State → Host.Outcome State Fault Refusal := runEventFlip (saveStep wg)

end Sys2Proof.Machine
end

