-- ==== Sys2Proof/Machine/Package.lean ====
section
/-!
DEFINITION. The package as the outside meets it (R290-R293, 08_memory.md; R435-R440, 14_system.md; R456-R466, 16_package.md): boot, the
management registers, flips, outside accesses, errors, TDISP and SPDM, a host's warm restart, power and links.
-/

namespace Sys2Proof.Machine

/-! ### Boot (R461, R462) -/

/-- The parts of a firmware image (R461). -/
structure FirmwareImage where
  head : List Byte
  body : List Byte
  svn  : Word32
  good : Bool

/-- Splits an image; `good` says that MAGIC, LEN and the reserved bytes are as R461 lays them down. -/
def firmwareImage (bs : List Byte) : FirmwareImage :=
  let head := bs.take 4096
  let len := numAt bs 8 8
  let body := (bs.drop 4096).take len
  { head := head, body := body, svn := BitVec.ofNat 32 (numAt bs 4 4)
    good := numAt bs 0 4 == 0x45563738 && head.length == 4096 && body.length == len && ((head.drop 3153).all fun b => b == 0) }

/-- A public key hashes to a digest in fuses. -/
def keyMatches (x : FirmwareImage) (digest : BitVec 256) : Bool :=
  leNat (shake256 ((x.head.drop 80).take 1793) 32) == digest.toNat

/-- The image's own checks: 1 key digest, 2 signature, 3 body digest, 4 SVN; 0 for none. -/
def imageCode (x : FirmwareImage) (digest : BitVec 256) (minSvn : Word32) : Nat :=
  if !keyMatches x digest then 1
  else if !Config.falconVerifies (x.head.take 3153) digest then 2
  else if shake256 x.body 64 != (x.head.drop 16).take 64 then 3
  else if x.svn.toNat < minSvn.toNat then 4
  else 0

/-- The firmware core of a die: the lowest core of its cluster 0 that passed self-test (R33). `selfTest` has sixteen entries a die. -/
def passingCore (b : BootInput) (die : Nat) : Option Nat :=
  ((List.range 16).find? fun i => b.selfTest.getD (16 * die + i) false).map (128 * die + ·)

/-- The boot code of a die. -/
def dieCode (b : BootInput) (x : FirmwareImage) (die : Nat) : Nat :=
  if (passingCore b die).isNone then 5 else imageCode x (b.keyDigest.getD die 0) (b.minSvn.getD die 0)

/-- What stays as it was over a package reset: the hosts' memory, the image that waits for it, and what has already left the package. -/
def resetPackage (b : BootInput) (s : State) : State :=
  let blank := State.reset
  { blank with mem := s.mem.filter (fun c => c.1 / 2 ^ 48 % 16 == 2), out := s.out, fresh := s.fresh, nextId := s.nextId
               pkg := { blank.pkg with staged := s.pkg.staged, fuseKeys := b.keyDigest, fuseSvns := b.minSvn } }

/-- The firmware core's lane of a die, at the start of the body (R413, R440). -/
def firmwareWarp (die core addr : Nat) : Warp :=
  { kind := .firmware die, place := some { core := core, half := 0, slot := 0 }
    regs := { dorm := 0, ident := BitVec.ofNat 64 (core * 2 ^ 7), paths := [(0, { pc := BitVec.ofNat 57 addr, lmask := 1, wtop := 0 })] } }

/-- Firmware's configuration, which the second measurement covers. -/
def configBytes (b : BootInput) : List Byte :=
  words64 [b.tvec.toNat, b.grace.toNat, b.packageNo.toNat] ++ b.partitions.flatMap (fun p => leBytes 1 p.toNat)
    ++ b.routes.flatMap fun r => leBytes 8 r.toNat

/-- A list as a map of its entries that are not zero. -/
def tableOf {w : Nat} (xs : List (BitVec w)) : SMap (BitVec w) :=
  ((List.range xs.length).zip xs).foldl (fun (m : SMap (BitVec w)) x => m.put 0 x.1 x.2) []

/-- What firmware sets up (R462 steps 4 to 6). -/
def setUp (s : State) (b : BootInput) (x : FirmwareImage) (ok : BitVec 4) : State :=
  let dies := (List.range 4).filter ok.getLsbD
  let core (d : Nat) : Nat := (passingCore b d).getD 0
  let s := s.setBytes b.loadAddr x.body
  let s := dies.foldl (fun s d => { s.setWarp s.nextId (firmwareWarp d (core d) b.loadAddr) with nextId := s.nextId + 1 }) s
  let vendor (n : Nat) : Personality := { resident := true, gen := 1, digest := Config.vendorDigest n }
  let pages := b.exposed.flatMap fun r => (List.range r.2.2).map fun i => (r.2.1 + i, r.1)
  { s with
    personalities := [(0, { resident := true }), (1, vendor 1), (2, vendor 2)]
    sys := { s.sys with
      tvec := dies.map fun d => (d, b.tvec.toNat)
      fwcore := dies.map fun d => (d, core d)
      grace := b.grace.toNat
      fostat := if ok.getLsbD 1 then 0 else 2
      partition := ((List.range 32).zip b.partitions).foldl (fun (m : SMap Nat) p => m.put 0 p.1 p.2.toNat) [] }
    pkg := { s.pkg with
      ready := true, dieOk := ok, svn := x.svn, number := b.packageNo.toNat, routes := tableOf b.routes
      measured := [(1, Config.extendMeasure (Config.extendMeasure [] x.head) (shake256 x.body 64)), (2, Config.extendMeasure [] (configBytes b))]
      exposed := pages.foldl (fun (m : SMap (Nat × Bool)) p => m.insert p.1 (p.2, false)) [] } }

/-- PACKAGE_RESET (R462). In recovery mode firmware has not run, and the fields of BOOTSTAT that it sets at boot are zero (R10). -/
def packageReset (b : BootInput) (s : State) : State :=
  let s := resetPackage b s
  let x := firmwareImage (s.pkg.staged.getD b.image)
  let ok : BitVec 4 := BitVec.ofNat 4 ((List.range 4).foldl (fun n d => n + bit (dieCode b x d == 0) * 2 ^ d) 0)
  if ok.getLsbD 0 then setUp s b x ok
  else { s with pkg := { s.pkg with recovery := true, code := dieCode b x 0 } }

/-! ### Functions and their registers (R464-R466) -/

/-- Writes of a function's page are taken: boot is complete, or the device is in recovery mode and the function is its one PF (R462). -/
def State.takesWrites (s : State) (f : Func) : Bool := s.pkg.ready || (s.pkg.recovery && f == .pf 0)

/-- KICK: the queue must be the VF's own. -/
def kick (f : Func) (value : Word64) (s : State) : State :=
  let qid := value.toNat / 2 ^ 32 % 2 ^ 16
  match s.queue? qid with
  | some q => if s.pkg.ready && f == .vf q.vf then kickQueue s qid (value.truncate 32) else s
  | none => s

/-- UISENDR (R396): a send of the host process that a PASID names; refused without one, and from a PF, which has no address spaces. -/
def uisendr (f : Func) (pasid : Option (BitVec 20)) (value : BitVec 128) (s : State) : State :=
  if !s.pkg.ready then s
  else match f, pasid with
    | .vf vf, some p =>
      queueSend s { k := 0, vf := vf, asid := value.toNat / 2 ^ 16 % 2 ^ 16, v := value.toNat % 64, pay := value.extractLsb' 64 64
                    src := .host p (s.deviceOf f), func := some f }
    | _, _ => countRefusal s f

/-- The pages of device memory that a logical device's host is shown. -/
def exposedTo (s : State) (ld page : Nat) : Bool := ((s.pkg.exposed.find? page).map fun x => x.1 == ld).getD false

/-- Drops the cached translations that reach a page (R291 step 1). -/
def dropPhysical (s : State) (page : Nat) : State :=
  { s with tlb := s.tlb.filter fun e => !(decide (e.pbase < 4096 * page + 4096) && decide (4096 * page < e.pbase + e.size)) }

/-- FLIPREQ (R291, R464). -/
def flipreq (ld page : Nat) (toHost : Bool) (s : State) : State :=
  let old := s.pkg.flips.get {} ld
  let put (s : State) (x : Flip) : State := { s with pkg := { s.pkg with flips := s.pkg.flips.insert ld x } }
  if !s.pkg.ready || old.busy then s
  else match s.pkg.exposed.find? page with
    | some (d, host) =>
      if d = ld ∧ host ≠ toHost then
        put (dropPhysical { s with flips := s.flips ++ [page] } page) { page := page, toHost := toHost, busy := true }
      else put s { old with page := page, toHost := toHost, err := true }
    | none => put s { old with page := page, toHost := toHost, err := true }

/-- Accesses to a page that translated before its flip have not all performed (R291 step 2). -/
def pageBusy (s : State) (page : Nat) : Bool :=
  (s.inflight.any fun r => r.elems.any fun e => e.val.isNone && e.pa / 4096 == page)
    || s.held.any fun h => h.moving && h.cells.any fun c => c.1 / 4096 == page

/-- FLIP_COMPLETE (R291 steps 3 and 4). -/
def flipDone (ld : Nat) (s : State) : Option State :=
  let x := s.pkg.flips.get {} ld
  if !x.busy || pageBusy s x.page then none
  else
    let s := llcDrop s fun line => line / 64 == x.page
    some { s with l1 := s.l1.filter (fun l => l.line / 64 != x.page), flips := s.flips.filter (· != x.page)
                  pkg := { s.pkg with exposed := s.pkg.exposed.insert x.page (ld, x.toHost)
                                      flips := s.pkg.flips.insert ld { x with busy := false, done := true } } }

/-- Offset and width in bytes of the register that covers an offset of a function's page, and of a PF's management page. -/
def registerAt (f : Func) (ofs : Nat) : Option (Nat × Nat) :=
  let fixed : List (Nat × Nat) :=
    [(0x000, 8), (0x008, 8), (0x010, 8), (0x018, 8), (0x020, 16), (0x030, 4), (0x038, 8), (0x040, 8), (0x048, 8), (0x050, 4), (0x058, 4), (0x060, 8)]
  let management : List (Nat × Nat) := match f with | .pf _ => [(0x1000, 8), (0x1008, 8), (0x1010, 8)] | .vf _ => []
  match (fixed ++ management).find? fun r => decide (r.1 ≤ ofs) && decide (ofs < r.1 + r.2) with
  | some r => some r
  | none =>
    match f with
    | .pf _ => if 0x1100 ≤ ofs ∧ ofs < 0x1500 then some (ofs / 4 * 4, 4) else none
    | .vf _ => none

/-- SVCDB (R469): a doorbell that would leave more than 64 requests outstanding is ignored and counted. -/
def serviceDoorbell (f : Func) (pi : Word32) (s : State) : State :=
  if 64 < (pi - (s.func f).replied).toNat then countRefusal s f else s.modFunc f fun g => { g with pi := pi }

/-- PWRCAP.LIMIT (R466). -/
def pwrcapWrite (ld : Nat) (limit : BitVec 16) (s : State) : State :=
  if ld = 0 ∧ s.pkg.ready then { s with pkg := { s.pkg with limit := max 1200 (min 2800 limit.toNat) } } else s

/-- A well-formed write of a register takes effect. -/
def writeRegister (f : Func) (ofs : Nat) (value : Word64) (s : State) : State :=
  let n := value.toNat
  match f, ofs with
  | _, 0x000 => kick f value s
  | _, 0x008 => doorbell f value s
  | .vf vf, 0x010 => if n / 2 ^ 8 % 4 < 2 then pageAnswer vf (n % 32) (n / 2 ^ 8 % 4 == 0) s else s
  | .vf vf, 0x018 => if n / 2 ^ 12 % 4 < 3 then traprsp vf (n % 2 ^ 12) (n / 2 ^ 12 % 4) s else s
  | _, 0x020 => uisendr f none (value.zeroExtend 128) s
  | .pf ld, 0x038 => if n % 2 = 1 then flipreq ld (n / 2 ^ 12 % 2 ^ 40) (n / 2 % 2 == 0) s else s
  | _, 0x048 => serviceDoorbell f (value.truncate 32) s
  | _, 0x050 => setConsumed f .trap (value.truncate 32) s
  | _, 0x058 => setConsumed f .scan (value.truncate 32) s
  | _, 0x060 => s.modFunc f fun g => { g with svcBase := value &&& ~~~0xFFF }
  | .pf ld, 0x1010 => pwrcapWrite ld (value.truncate 16) s
  | _, _ => s

/-- REGISTER_WRITE (R464): a write that is not one naturally aligned write of a register's width is ignored and counted. -/
def registerWrite (f : Func) (ofs bytes : Nat) (value : Word64) (s : State) : State :=
  if !s.takesWrites f then s
  else match registerAt f ofs with
    | none => s
    | some (at_, width) =>
      if ofs ≠ at_ ∨ bytes ≠ width then countRefusal s f
      else if s.pkg.ready || at_ == 0x048 || at_ == 0x060 then writeRegister f at_ value s
      else s

/-- TDROP_READ: the count is returned and cleared, for a PF whose logical device is bound to the tenant's queue (R466). -/
def tdropRead (ld tenant : Nat) (s : State) : State :=
  let dev := (s.queue? (s.work.tenants.get {} tenant).qid).map fun q => (s.vfs.get {} q.vf).dev
  if !s.pkg.ready || dev != some ld then s.emit (.value 0)
  else { s with work := { s.work with drops := s.work.drops.put 0 tenant 0 } }.emit (.value ((s.work.drops.get 0 tenant).zeroExtend 64))

/-- FLIPSTAT of a logical device. -/
def flipStatus (s : State) (ld : Nat) : Nat :=
  let x := s.pkg.flips.get {} ld
  x.page * 2 ^ 12 + bit x.err * 4 + bit x.done * 2 + bit x.busy

/-- BOOTSTAT. -/
def bootStatus (s : State) : Nat :=
  s.pkg.svn.toNat * 2 ^ 32 + s.pkg.code * 2 ^ 8 + s.pkg.dieOk.toNat * 2 ^ 4 + bit s.pkg.recovery * 2 + bit s.pkg.ready

/-- What a read of a register of the page returns: a write-only register, and an offset at which none starts, read as zero (R464; the second
is a DESIGN CHOICE, notes/assumptions/64.md). -/
def readRegister (s : State) (f : Func) (ofs : Nat) : Nat :=
  match f, ofs with
  | .pf ld, 0x040 => flipStatus s ld
  | _, 0x050 => (s.func f).trapCi.toNat
  | _, 0x058 => (s.func f).scanCi.toNat
  | _, 0x060 => (s.func f).svcBase.toNat
  | _, _ => 0

/-- What a read of a register of the management page of a PF returns (R466). -/
def readManagement (s : State) (ofs : Nat) : Nat :=
  match ofs with
  | 0x1000 => bootStatus s
  | 0x1008 => s.pkg.number
  | 0x1010 => s.pkg.watts % 2 ^ 16 * 2 ^ 16 + s.pkg.limit
  | _ => 0

/-- UIREFUSE_READ, and a read of any other register of a function's pages: the value that it returns. UIREFUSE is cleared (R464, R466). Until
boot is complete the register page reads as zero, and in recovery mode only the PF of logical device 0 is there (R462). -/
def uirefuseRead (f : Func) (ofs : Nat) (s : State) : State :=
  match f with
  | .pf ld =>
    if 0x1100 ≤ ofs then tdropRead ld ((ofs - 0x1100) / 4) s
    else if 0x1000 ≤ ofs then s.emit (.value (if s.pkg.recovery && ld != 0 then 0 else BitVec.ofNat 64 (readManagement s ofs)))
    else page s
  | .vf _ => page s
where
  page (s : State) : State :=
    if !s.pkg.ready then s.emit (.value 0)
    else if ofs = 0x030 then (s.modFunc f fun g => { g with refuse := 0 }).emit (.value ((s.func f).refuse.zeroExtend 64))
    else s.emit (.value (BitVec.ofNat 64 (readRegister s f ofs)))

/-! ### Accesses from outside (R262, R290, R457) -/

/-- An access from outside that performs at a physical address: what it reads leaves the package. -/
def outerAccess (s : State) (a : Nat) : OuterAccess → State
  | .read n => s.emit (.bytes (s.bytes a n))
  | .write bs => agentWrite s a bs

/-- HOST_SNOOP (R262): the host takes a line of its own memory for itself, and its data stand there afterwards. -/
def hostSnoop (ld addr : Nat) (data : List Byte) (s : State) : State :=
  let key := hostKey ld addr
  let s := llcDrop s fun line => decide (64 * line < key + max 1 data.length) && decide (key < 64 * line + 64)
  if data.isEmpty then s else agentWrite s key data

/-- HOST_CXL_MEM_ACCESS (R290): pages that are not exposed to the host are out of its reach. -/
def hostAccess (ld addr : Nat) (acc : OuterAccess) (s : State) : State :=
  if exposedTo s ld (addr / 4096) then outerAccess s addr acc else s

/-- RDMA_ACCESS (R457): the ranges translate under the VF and ASID; a failure is answered with a NAK, and the queue pair is in error. -/
def rdmaAccess (qp vf asid va : Nat) (acc : OuterAccess) (s : State) : State :=
  let q : Queue := { vf := vf, asid := asid }
  let nak (s : State) : State := { s with pkg := { s.pkg with errorQps := NSet.insert s.pkg.errorQps qp } }.emit (.nak qp)
  if s.pkg.errorQps.contains qp ∨ 65536 ≤ qp then s
  else match acc with
    | .read n =>
      (match queueRead s q va n with
        | (s, .ok bs) => s.emit (.bytes bs)
        | (s, .error _) => nak s)
    | .write bs =>
      let pages := cutRange 4096 (bs.length / 4096 + 2) va bs.length
      if pages.all (fun p => match combine s none vf asid p.1 .write false false with | .ok c => !hostPageLost s vf c.pa | .fail _ => false) then
        (queueWrite s q va bs).1
      else nak s

/-- PEER_REQUEST: an access performs at this package's DRAM (R262), and a send goes to the engine that holds the port (R396). -/
def peerRequest (pkg at_ : Nat) (op : PeerOp) (s : State) : State :=
  match op with
  | .access acc => if at_ < 2 ^ 38 then outerAccess s at_ acc else s
  | .send vf target v pay => queueSend s { k := 0, vf := vf, asid := target, v := v, pay := pay, src := .peer at_ pkg }

/-! ### Errors, links, power, limiters, slices -/

/-- UNCORRECTABLE_ERROR (R256, R292). -/
def uncorrectable (site : ErrorSite) (s : State) : State :=
  let killOwner (s : State) (w : Nat) : State := match s.warp? w with | some x => killWorkgroup s x.wg true | none => s
  match site with
  | .cleanRegisterLine _ | .cleanCacheLine _ => s
  | .dirtyRegisterLine w | .accumulators w => killOwner s w
  | .nearStore wg => killWorkgroup s wg true
  | .dirtyL1Line core addr =>
    let hit (h : Held) : Bool := h.heldBy core && h.cells.any fun c => c.1 / 64 == addr / 64
    (NSet.insertAll [] ((s.held.filter hit).map (·.wg))).foldl (fun s g => killWorkgroup s g true) s
  | .dirtyLlcOrDram addr => { s with poison := NSet.insertAll s.poison ((List.range 4).map fun i => addr / 64 * 4 + i) }

/-- LINK_LANE_LOSS (R458): one lane lost leaves two in use; a second takes the port down. -/
def laneLoss (port lanes : Nat) (s : State) : State :=
  let now := s.pkg.lanes.get 4 port
  let left := if lanes = 0 then now else if now = 4 ∧ lanes = 1 then 2 else 0
  if port < 36 then { s with pkg := { s.pkg with lanes := s.pkg.lanes.put 4 port left } } else s

/-- POWER_LIMIT_STEP (R460): the arithmetic clock in MHz, between 800 and 1,700. -/
def powerStep (watts : Nat) (s : State) : State :=
  let mhz := if s.pkg.limit < watts then max 800 (s.pkg.mhz - 100) else min 1700 (s.pkg.mhz + 100)
  { s with pkg := { s.pkg with watts := watts, mhz := mhz } }

/-- RATE_LIMITER_REFILL (R439): RATE lines more, up to BURST. -/
def refillBucket (cluster vf : Nat) (s : State) : State :=
  let k := limitKey cluster vf
  let l := (s.sys.limits.get 0 k).toNat
  let n := min (l / 2 ^ 24 % 2 ^ 16) (s.sys.tokens.get 0 k + l % 2 ^ 16)
  { s with sys := { s.sys with tokens := s.sys.tokens.put 0 k n } }

/-- The lines of a slice that its ways still hold, the newest of each kind first (R28, R29). -/
def trimSlice (s : State) (k : Nat) : State :=
  let of_ (remote : Bool) : List LlcLine := s.llc.filter fun l => l.slice == k && l.remote == remote
  let excess (remote : Bool) : List LlcLine :=
    (((of_ remote).filter (·.pins.isEmpty)).take ((of_ remote).length - sliceLines s k remote))
  let gone := excess true
  { s with llc := s.llc.filter (fun l => !(gone ++ excess false).contains l)
           copies := gone.foldl (fun m l => m.put 0 l.line (m.get 0 l.line &&& ~~~(1#4 <<< (k / 64)))) s.copies }

/-- REMOTE_LINE_WAYS_SET (R28, R29): refused beyond 12 ways, beyond 8 of a kind, and while a workgroup is resident in the slice's cluster. -/
def setWays (die stop near remote : Nat) (s : State) : State :=
  let k := 64 * die + stop
  let resident := s.wgs.any fun g => g.2.cluster == 8 * die + stop / 8 && !g.2.saved
  if 4 ≤ die ∨ 64 ≤ stop ∨ 8 < near ∨ 8 < remote ∨ 12 < near + remote ∨ resident then s
  else trimSlice { s with nearWays := s.nearWays.put 0 k near, remoteWays := s.remoteWays.put 0 k remote } k

/-- FIRMWARE_FAILOVER (R440): die 1 takes over what die 0 served, or die 0 serves alone. -/
def failover (s : State) : State :=
  { s with sys := { s.sys with fostat := s.sys.fostat ||| (if s.pkg.dieOk.getLsbD 1 then 1 else 2) } }

/-! ### TDISP and SPDM (R435, R436, R463) -/

/-- The VFs of an interface. -/
def State.vfsOf (s : State) : Func → List Nat
  | .vf n => [n]
  | .pf ld => (List.range 256).filter fun v => (s.vfs.get {} v).dev == ld

/-- R436 for one VF: its queues are destroyed, its records zeroed, its workgroups killed with `.nr`, and its key slot cleared. -/
def stopVf (s : State) (vf : Nat) : State :=
  let s := (s.work.queues.filter fun q => q.2.vf == vf && q.2.live).foldl (fun s q => destroyQueue s q.1) s
  let s := (s.warps.filter fun x => x.2.kind == .ordinary && x.2.vf == vf).foldl (fun s x => (zeroRecord s x.2).1) s
  let s := (s.wgs.filter fun g => g.2.vf == vf).foldl (fun s g => killWorkgroup s g.1 false) s
  if s.keyBinding vf = 0 then s else clearSlot s (s.keyBinding vf)

/-- What locking an interface measures (R435). -/
def interfaceBytes (s : State) (f : Func) : List Byte :=
  let vfs := s.vfsOf f
  let mine (vf : Nat) : Bool := vfs.contains vf
  let queues := s.work.queues.filter fun q => mine q.2.vf
  let queueWords := queues.flatMap fun q =>
    [q.1, q.2.ring.toNat, q.2.arena.toNat, q.2.arenasz, q.2.call.toNat, q.2.land_.toNat, q.2.nodeq, q.2.asid, q.2.vf, q.2.davail.toNat, q.2.rlog, q.2.priocap]
  let msix := (s.func f).msix.flatMap fun e => [e.1, e.2.toNat]
  let rings := (s.rings.filter fun r => mine (r.1 / 4)).flatMap fun r => [r.1, r.2.base, r.2.log, r.2.vec]
  let ports := (s.ui.ports.filter fun p => mine (p.1 / 65536)).flatMap fun p => p.1 :: p.2.perms.flatMap fun e => [e.1, e.2.vmask.toNat, e.2.cls.toNat, e.2.id.toNat]
  let tenants := (s.work.tenants.filter fun t => queues.any fun q => q.1 == t.2.qid).flatMap fun t =>
    [t.1, t.2.src.toNat, t.2.qid, t.2.flags.toNat, t.2.priocap.toNat, t.2.maxgrid.toNat, t.2.entlo.toNat, t.2.enthi.toNat, t.2.maxnear]
  (queueWords ++ msix ++ rings ++ ports ++ tenants ++ vfs.map s.keyBinding).flatMap (leBytes 16)

/-- Moves an interface to a state; ERROR and a stop have the effects of R436. -/
def moveInterface (s : State) (f : Func) (to_ : TdispState) : State :=
  let s := s.modFunc f fun g => { g with tdisp := to_ }
  match to_ with
  | .error | .unlocked => (s.vfsOf f).foldl stopVf s
  | .locked => s.emit (.report (Config.extendMeasure [] (interfaceBytes s f)))
  | .run => s

/-- TDISP_REQUEST (R435): the transitions of TDISP 1.0; a request that the state does not allow changes nothing. -/
def tdispRequest (f : Func) (op : TdispOp) (s : State) : State :=
  match op, (s.func f).tdisp with
  | .lock, .unlocked => moveInterface s f .locked
  | .start, .locked => moveInterface s f .run
  | .stop, .locked | .stop, .run | .stop, .error => moveInterface s f .unlocked
  | .fail, .locked | .fail, .run => moveInterface s f .error
  | _, _ => s

/-- MSIX_TABLE_WRITE (R435). -/
def msixWrite (f : Func) (vec : Nat) (value : BitVec 128) (s : State) : State :=
  match (s.func f).tdisp with
  | .locked | .run => moveInterface s f .error
  | _ => s.modFunc f fun g => { g with msix := g.msix.put 0 vec value }

/-- A measurement that GET_MEASUREMENTS reports (R463). -/
def measurement (s : State) (index : Nat) : Option (List Byte) :=
  if index = 1 ∨ index = 2 then s.pkg.measured.find? index
  else if index = 3 then some (leBytes 4 s.pkg.svn.toNat)
  else if 16 ≤ index then ((s.personalities.find? (index - 16)).filter (·.resident)).map (·.digest)
  else none

/-- SPDM_REQUEST (R463): a signed measurement, or a session; pages of a restarted host are mapped afresh under its new session (R437). -/
def spdmRequest (ld : Nat) (op : SpdmOp) (s : State) : State :=
  match op with
  | .getMeasurements index =>
    (match measurement s index with
      | some m => s.emit (.report (m ++ Config.falconSign m))
      | none => s)
  | .establish => { s with revoked := NSet.erase s.revoked ld, pkg := { s.pkg with sessions := NSet.insert s.pkg.sessions ld } }

/-! ### A host's warm restart (R437) -/

/-- The path of a warp that holds a lane. -/
def pathOfLanes (x : Warp) (m : BitVec 32) : Option Nat :=
  (List.find? (fun (q : Nat × Path) => q.2.lmask &&& m != 0) x.regs.paths).map (·.1)

/-- The fault of an access that a restart has discarded. -/
def hostFault (s : State) (w : Nat) (lanes : BitVec 32) (va : Nat) : State :=
  match (s.warp? w).bind (pathOfLanes · lanes) with
  | some p => raiseFault s w p .hostlost (BitVec.ofNat 64 va)
  | none => s

/-- Accesses to a host's memory that have not performed are discarded, and their instructions fault. -/
def discardHost (s : State) (ld : Nat) : State :=
  let of_ (a : Nat) : Bool := a / 2 ^ 48 == ld * 16 + 2
  let open_ (e : Elem) : Bool := e.val.isNone && of_ e.pa
  let reads := s.inflight.filter fun r => r.elems.any open_
  let stores := s.held.filter fun h => h.cells.any fun c => of_ c.1
  let s := { s with inflight := s.inflight.filter (fun r => !r.elems.any open_), held := s.held.filter fun h => !h.cells.any fun c => of_ c.1 }
  let s := reads.foldl (fun s r => hostFault s r.warp r.lanes (((r.elems.find? open_).map (·.va)).getD 0)) s
  stores.foldl (fun s h => hostFault s h.warp h.lanes h.va) s

/-- A pending call reads as failed (R378, R437): its slot shows STATE 3 where the slot can still be reached, and its wait ends. -/
def failCall (s : State) (w : Nat) : State :=
  match s.warp? w, s.ui.calls.find? (·.w == w) with
  | some x, some call =>
    let s := (queueWrite s { vf := x.vf, asid := x.asid } (callSlotOf s x) (leBytes 4 3)).1
    let s := dropCalls s w
    let fail (q : Path) : Path := q.mapWaits (replied true 0)
    if call.vec = plainCall then s.modRegs w fun r => { r with paths := r.paths.map fun q => (q.1, fail q.2), stack := r.stack.map fail }
    else queueSend s { k := 0, vf := x.vf, asid := x.asid, v := call.vec, pay := call.seq.zeroExtend 64, src := .firmware }
  | _, _ => s

/-- HOST_WARM_RESTART (R437). -/
def hostRestart (ld : Nat) (s : State) : State :=
  let s := discardHost s ld
  let s := { s with revoked := NSet.insert s.revoked ld, tlb := s.tlb.filter fun e => e.pbase / 2 ^ 48 != ld * 16 + 2 }
  let mine (vf : Nat) : Bool := (s.vfs.get ({} : VfEntry) vf).dev == ld
  let s := (s.ui.calls.map (·.w)).foldl (fun s w => if ((s.warp? w).map fun x => mine x.vf).getD false then failCall s w else s) s
  let s := (s.wgs.filter fun g => mine g.2.vf && !g.2.saved).foldl (fun s g =>
    beginSave s g.1 { image := none, slot := s.keyBinding g.2.vf, svc := (s.sys.saves.find? g.1).bind (·.svc) }) s
  { s with pkg := { s.pkg with sessions := NSet.erase s.pkg.sessions ld }
           sys := { s.sys with graceEnd := s.sys.graceEnd.insert ld (s.clock + s.sys.grace * s.pkg.mhz * 1000) } }

/-- GRACE_EXPIRY (R437 step 5): held images are destroyed and their key slots cleared; their grids launch nothing more. -/
def graceExpiry (ld : Nat) (s : State) : Option State :=
  match s.sys.graceEnd.find? ld with
  | none => none
  | some t =>
    if s.clock < t then none
    else
      let gone := s.sys.images.filter (·.ld == ld)
      let s := { s with sys := { s.sys with graceEnd := s.sys.graceEnd.erase ld, images := s.sys.images.filter (·.ld != ld) } }
      some (gone.foldl (fun s i =>
        let grid := ((s.wg? i.wg).map (·.grid)).getD 0
        let s := (killWorkgroup s i.wg false).modGrid grid fun g => { g with dies := [], again := [] }
        if i.slot = 0 then s else clearSlot s i.slot) s)

/-! ### Meanings -/

/-- PACKAGE_RESET (R462). -/
def execPackageReset (b : BootInput) (s : State) : Host.Outcome State Fault Refusal := .next (packageReset b s)
/-- KICK (R465). -/
def execKick (f : Func) (value : Word64) (s : State) : Host.Outcome State Fault Refusal := .next (kick f value s)
/-- UISENDR (R396). -/
def execUisendr (f : Func) (pasid : Option (BitVec 20)) (value : BitVec 128) (s : State) : Host.Outcome State Fault Refusal :=
  .next (uisendr f pasid value s)
/-- UIREFUSE_READ (R464). -/
def execUirefuseRead (r : PageRegister) (s : State) : Host.Outcome State Fault Refusal := .next (uirefuseRead r.func r.ofs s)
/-- TDROP_READ (R466). -/
def execTdropRead (ld tenant : Nat) (s : State) : Host.Outcome State Fault Refusal := .next (tdropRead ld tenant s)
/-- PWRCAP_WRITE (R466). -/
def execPwrcapWrite (ld : Nat) (limit : BitVec 16) (s : State) : Host.Outcome State Fault Refusal := .next (pwrcapWrite ld limit s)
/-- REGISTER_WRITE (R464). -/
def execRegisterWrite (f : Func) (ofs bytes : Nat) (value : Word64) : State → Host.Outcome State Fault Refusal :=
  runEventFlip fun s => some (registerWrite f ofs bytes value s)
/-- FLIPREQ_TO_HOST (R291). -/
def execFlipreqToHost (ld page : Nat) (s : State) : Host.Outcome State Fault Refusal := .next (flipreq ld page true s)
/-- FLIPREQ_TO_DEVICE (R291). -/
def execFlipreqToDevice (ld page : Nat) (s : State) : Host.Outcome State Fault Refusal := .next (flipreq ld page false s)
/-- FLIP_COMPLETE (R291). -/
def execFlipComplete (ld : Nat) : State → Host.Outcome State Fault Refusal := runEvent (flipDone ld)
/-- HOST_SNOOP (R262). -/
def execHostSnoop (ld addr : Nat) (data : List (BitVec 8)) (s : State) : Host.Outcome State Fault Refusal := .next (hostSnoop ld addr data s)
/-- HOST_CXL_MEM_ACCESS (R290). -/
def execHostCxlMemAccess (ld addr : Nat) (acc : OuterAccess) (s : State) : Host.Outcome State Fault Refusal := .next (hostAccess ld addr acc s)
/-- RDMA_ACCESS (R457). -/
def execRdmaAccess (qp vf asid va : Nat) (acc : OuterAccess) : State → Host.Outcome State Fault Refusal :=
  runEventFlip fun s => some (rdmaAccess qp vf asid va acc s)
/-- PEER_REQUEST (R262). -/
def execPeerRequest (pkg at_ : Nat) (op : PeerOp) (s : State) : Host.Outcome State Fault Refusal := .next (peerRequest pkg at_ op s)
/-- UNCORRECTABLE_ERROR (R292). -/
def execUncorrectableError (site : ErrorSite) : State → Host.Outcome State Fault Refusal :=
  runEventFlip fun s => some (uncorrectable site s)
/-- LINK_LANE_LOSS (R458). -/
def execLinkLaneLoss (port lanes : Nat) (s : State) : Host.Outcome State Fault Refusal := .next (laneLoss port lanes s)
/-- FLIT_RETRY (R458): the flit is sent again; nothing that the model holds changes. -/
def execFlitRetry (_port : Nat) (s : State) : Host.Outcome State Fault Refusal := .next s
/-- POWER_LIMIT_STEP (R460). -/
def execPowerLimitStep (watts : Nat) (s : State) : Host.Outcome State Fault Refusal := .next (powerStep watts s)
/-- RATE_LIMITER_REFILL (R439). -/
def execRateLimiterRefill (cluster vf : Nat) (s : State) : Host.Outcome State Fault Refusal := .next (refillBucket cluster vf s)
/-- REMOTE_LINE_WAYS_SET (R29). -/
def execRemoteLineWaysSet (die stop near remote : Nat) (s : State) : Host.Outcome State Fault Refusal := .next (setWays die stop near remote s)
/-- FIRMWARE_FAILOVER (R440). -/
def execFirmwareFailover (s : State) : Host.Outcome State Fault Refusal := .next (failover s)
/-- TDISP_REQUEST (R435, R436). -/
def execTdispRequest (ifc : Func) (op : TdispOp) : State → Host.Outcome State Fault Refusal :=
  runEventFlip fun s => some (tdispRequest ifc op s)
/-- MSIX_TABLE_WRITE (R435). -/
def execMsixTableWrite (ifc : Func) (vec : Nat) (value : BitVec 128) : State → Host.Outcome State Fault Refusal :=
  runEventFlip fun s => some (msixWrite ifc vec value s)
/-- SPDM_REQUEST (R463). -/
def execSpdmRequest (ld : Nat) (op : SpdmOp) (s : State) : Host.Outcome State Fault Refusal := .next (spdmRequest ld op s)
/-- HOST_WARM_RESTART (R437). -/
def execHostWarmRestart (ld : Nat) : State → Host.Outcome State Fault Refusal :=
  runEventFlip fun s => some (hostRestart ld s)
/-- GRACE_EXPIRY (R437). -/
def execGraceExpiry (ld : Nat) : State → Host.Outcome State Fault Refusal := runEventFlip (graceExpiry ld)

end Sys2Proof.Machine
end

