-- ==== Sys2Proof/Machine/Predicate.lean ====
section
/-!
DEFINITION. The predicate instructions (R164-R166, 04_control.md).
-/

namespace Sys2Proof.Machine

/-- A predicate operation: in the active lanes, or on the scalar unit in all 32 lanes when the guard holds (R165, R166). `f`
gives the new bits of every lane. -/
def predOp (c : Ctx) (s : State) (f : BitVec 32) : Res :=
  if c.f.u then (if c.guard0 then .done (writePred s c c.f.d.toNat 0xFFFFFFFF f) else .done s)
  else .done (writePred s c c.f.d.toNat c.act f)

/-- Predicate operands A, B, C and D over all lanes. -/
def Ctx.pA (c : Ctx) : BitVec 32 := c.warp.regs.pred c.f.fa.toNat
def Ctx.pB (c : Ctx) : BitVec 32 := c.warp.regs.pred c.f.fb.toNat
def Ctx.pC (c : Ctx) : BitVec 32 := c.warp.regs.pred c.f.fc.toNat
def Ctx.pD (c : Ctx) : BitVec 32 := c.warp.regs.pred c.f.d.toNat

/-- A mask inverted when `b`. -/
def invertIf (b : Bool) (x : BitVec 32) : BitVec 32 := if b then ~~~x else x

/-- PAND, POR and PXOR: Q[1] inverts A and Q[2] inverts B (R165). -/
def predLogic (f : BitVec 32 → BitVec 32 → BitVec 32) (c : Ctx) (s : State) : Res :=
  predOp c s (f (invertIf (c.q % 2 == 1) c.pA) (invertIf (c.q / 2 % 2 == 1) c.pB))

/-- PCOMB (R164). -/
def pcombBody (c : Ctx) (s : State) : Res :=
  if c.act = 0 then .done s
  else
    let held := c.pA &&& c.act
    let some_ := held != 0
    let every := held == c.act
    if c.q = 3 then .done (writeUD s c (held.zeroExtend 64))
    else
      let v := if c.q = 0 then some_ else if c.q = 1 then every else every || !some_
      .done (writePred s c c.f.d.toNat c.act (if v then 0xFFFFFFFF else 0))

/-- PLOP3 (R165). -/
def plop3Body (c : Ctx) (s : State) : Res :=
  predOp c s (maskOf fun l => lutBit c.f.fc (c.pA.getLsbD l) (c.pB.getLsbD l) (c.pD.getLsbD l))

/-- PMASK (R165, R166). -/
def pmaskBody (c : Ctx) (s : State) : Res :=
  if c.q = 1 then predOp c s (c.uA.truncate 32)
  else oncePerPath c s fun _ =>
    .done (writeUD s c (((if c.f.u then c.pA else c.pA &&& c.path.lmask)).zeroExtend 64))

/-- PSET (R165, R166). -/
def psetBody (c : Ctx) (s : State) : Res :=
  predOp c s (maskOf fun l => (c.srcA l == 0) == (c.q == 1))

/-- PSEL (R165). -/
def pselBody (c : Ctx) (s : State) : Res := predOp c s ((c.pA &&& c.pC) ||| (c.pB &&& ~~~c.pC))

/-- PCOMB (R164). -/
def execPcomb (x : RForm) : State → Host.Outcome State Fault Refusal := runIop 0x00D (.r x) pcombBody
/-- PAND (R165). -/
def execPand (x : RForm) : State → Host.Outcome State Fault Refusal := runIop 0x00E (.r x) (predLogic (· &&& ·))
/-- POR (R165). -/
def execPor (x : RForm) : State → Host.Outcome State Fault Refusal := runIop 0x00F (.r x) (predLogic (· ||| ·))
/-- PXOR (R165). -/
def execPxor (x : RForm) : State → Host.Outcome State Fault Refusal := runIop 0x010 (.r x) (predLogic (· ^^^ ·))
/-- PNOT (R165). -/
def execPnot (x : RForm) : State → Host.Outcome State Fault Refusal := runIop 0x011 (.r x) fun c s => predOp c s (~~~c.pA)
/-- PLOP3 (R165). -/
def execPlop3 (x : RForm) : State → Host.Outcome State Fault Refusal := runIop 0x012 (.r x) plop3Body
/-- PMASK (R165). -/
def execPmask (x : RForm) : State → Host.Outcome State Fault Refusal := runIop 0x013 (.r x) pmaskBody
/-- PSET (R165). -/
def execPset (x : RForm) : State → Host.Outcome State Fault Refusal := runIop 0x014 (.r x) psetBody
/-- PSEL (R165). -/
def execPsel (x : RForm) : State → Host.Outcome State Fault Refusal := runIop 0x015 (.r x) pselBody

end Sys2Proof.Machine
end

