-- ==== Sys2Proof/Machine/Quant.lean ====
section
/-!
DEFINITION. The quantising instructions and the Hadamard converter (R219-R224, 06_float.md).
-/

namespace Sys2Proof.Machine

/-- What the quantising instructions round by: DAZ and FTZ never act (R202). -/
def Ctx.quantEnv (c : Ctx) : FEnv := { c.fenv with daz := false, ftz := false }

/-- C names a uniform. -/
def Ctx.hasC (c : Ctx) : Bool := match c.f with | .r x => x.cs | _ => false

/-- The lanes of the lane block of lane l, in blocks of nb lanes (R219). -/
def blockLanes (nb k : Nat) : List Nat := (List.range nb).map (nb * k + ·)

/-- The element number of the block that a lane lies in. -/
def blocksOf (nb : Nat) (act : BitVec 32) : List Nat := (List.range (32 / nb)).filter fun k => (blockLanes nb k).any act.getLsbD

/-- The FP32 source of a lane, exactly; zero outside LaneMask() (R219). -/
def Ctx.quantSource (c : Ctx) (l : Nat) : FNum :=
  if c.path.lmask.getLsbD l then readFloat .f32 false ((c.srcA l).toNat % 2 ^ 32) else .fin ⟨false, 0, 0⟩

/-- Runs with the descriptor at S(B), which is 32-byte aligned (R218). -/
def withDesc (c : Ctx) (s : State) (t : ElemType) (f : State → List Byte → List Byte → Res) : Res :=
  if c.act = 0 then .done s
  else
    let va := c.uB.toNat
    if va % 32 != 0 then .trap .align (BitVec.ofNat 64 va) else loadDesc c s va (some t) fun s d => f s d.1 d.2

/-- The scale of block k that S(C) gives (R222). -/
def Ctx.givenScale (c : Ctx) (sfmt k : Nat) : Scale :=
  if c.hasC && sfmt != 0 then scaleOf sfmt (c.uC.toNat / 2 ^ (8 * k) % 256) else .one

/-- The same scale as a number: a NaN of E4M3 has its sign and fraction (R204, R223). -/
def Ctx.givenScaleNum (c : Ctx) (sfmt k : Nat) : FNum :=
  match c.givenScale sfmt k with
  | .val d => .fin d
  | .nan => if sfmt = 2 then readFloat .e4m3 false (c.uC.toNat / 2 ^ (8 * k) % 256) else .nan false false (2 ^ 22) 23

/-- Writes element n of D in the active lanes and keeps flags and states. -/
def writeElements (c : Ctx) (s : State) (outs : List (Nat × Nat × FLane)) (fl : Exc) : State :=
  let s := writeVec s c (c.f.km.getLsbD 3) c.f.d.toNat 1 c.act fun l =>
    BitVec.ofNat 64 (setElement c.ty ((c.oldD l).toNat % 2 ^ 32) c.q ((laneValue (0, ({} : FLane)) outs l).1))
  keepLanes c (raiseExc s c fl) (outs.map fun o => (o.1, o.2.2))

/-- QNT and QNTH (R221). -/
def qntBody (transform : Bool) (c : Ctx) (s : State) : Res :=
  withDesc c s c.ty fun s d book =>
    let env := c.quantEnv
    let nb := descBlk d
    let sfmt := descSfmt d
    let block (k : Nat) : List FNum :=
      let xs := (blockLanes nb k).map c.quantSource
      if transform then
        (if xs.any FNum.isNan then xs.map fun _ => .nan false false (2 ^ 22) 23 else hadamardAll env.down (if nb = 16 then 2 else 3) xs)
      else xs
    let parts := (blocksOf nb c.act).map fun k =>
      let ys := block k
      let inMask := ((List.range nb).zip ys).filterMap fun y => if c.path.lmask.getLsbD (nb * k + y.1) then some y.2 else none
      let sc := blockScale c.ty sfmt book inMask
      let outs := ((List.range nb).zip ys).filterMap fun y =>
        let l := nb * k + y.1
        if c.act.getLsbD l then some (l, quantElement env c.ty book sc.2.1 y.2 { sr := c.warp.regs.srst.lane l }) else none
      (k, sc, outs)
    let s := writeElements c s (parts.flatMap fun p => p.2.2) (parts.foldl (fun x p => x ||| p.2.1.2.2) 0)
    .done (if c.hasC && sfmt != 0 then
      writeUni s c c.f.fc.toNat (parts.foldl (fun (w : Word64) p =>
        (w &&& ~~~((0xFF : Word64) <<< (8 * p.1))) ||| (BitVec.ofNat 64 p.2.1.1 <<< (8 * p.1))) c.uC)
      else s)

/-- QSCALE (R222). -/
def qscaleBody (c : Ctx) (s : State) : Res :=
  withDesc c s c.ty fun s d book =>
    let nb := descBlk d
    let outs := (lanesOf c.act).map fun l =>
      (l, quantElement c.quantEnv c.ty book (c.givenScale (descSfmt d) (l / nb)) (c.quantSource l) { sr := c.warp.regs.srst.lane l })
    .done (writeElements c s outs 0)

/-- DQNT (R223). -/
def dqntBody (c : Ctx) (s : State) : Res :=
  withDesc c s c.ty fun s d book =>
    let nb := descBlk d
    let env := c.quantEnv
    let outs := (lanesOf c.act).map fun l =>
      let x := decodeElement c.ty book ((c.srcA l).toNat / 2 ^ (c.ty.bits * c.q))
      let sc := c.givenScaleNum (descSfmt d) (l / nb)
      let st : FLane := { sr := c.warp.regs.srst.lane l }
      (l, nanOr env .f32 [x, sc] st fun st => writeFloat env .f32 false true [x, sc] (x.mul sc) st)
    let s := writeVec s c (c.f.km.getLsbD 3) c.f.d.toNat 1 c.act fun l => BitVec.ofNat 64 ((laneValue (0, ({} : FLane)) outs l).1)
    .done (keepLanes c s (outs.map fun o => (o.1, o.2.2)))

/-- HADT (R220). -/
def hadtBody (c : Ctx) (s : State) : Res :=
  let env := c.quantEnv
  let nb := if c.q % 2 = 0 then 16 else 32
  let sh := if c.q = 1 then 3 else 2
  let outs := (lanesOf c.act).map fun l =>
    let xs := (blockLanes nb (l / nb)).map c.quantSource
    let st : FLane := { sr := c.warp.regs.srst.lane l }
    (l, nanOr env .f32 xs st fun st => writeFloat env .f32 false true [] (hadamard env.down sh xs (l % nb)) st)
  let s := writeVec s c (c.f.km.getLsbD 3) c.f.d.toNat 1 c.act fun l => BitVec.ofNat 64 ((laneValue (0, ({} : FLane)) outs l).1)
  .done (keepLanes c s (outs.map fun o => (o.1, o.2.2)))

/-- CBLD (R224). -/
def cbldBody (c : Ctx) (s : State) : Res :=
  withDesc c s .cb4 fun s _ book =>
    let n := c.q
    .done (writeVec s c (c.f.km.getLsbD 3) c.f.d.toNat 1 c.act fun l =>
      let a := (c.srcA l).toNat / 2 ^ (8 * n)
      BitVec.ofNat 64 (bookWord book (a / 16 % 16) * 2 ^ 16 + bookWord book (a % 16)))

/-- QNT (R221). -/
def execQnt (x : RForm) : State → Host.Outcome State Fault Refusal := runIop 0x0DE (.r x) (afterOverflow (qntBody false))
/-- QNTH (R221). -/
def execQnth (x : RForm) : State → Host.Outcome State Fault Refusal := runIop 0x0DF (.r x) (afterOverflow (qntBody true))
/-- DQNT (R223). -/
def execDqnt (x : RForm) : State → Host.Outcome State Fault Refusal := runIop 0x0E0 (.r x) (afterOverflow dqntBody)
/-- QSCALE (R222). -/
def execQscale (x : RForm) : State → Host.Outcome State Fault Refusal := runIop 0x0E1 (.r x) (afterOverflow qscaleBody)
/-- HADT (R220). -/
def execHadt (x : RForm) : State → Host.Outcome State Fault Refusal := runIop 0x0E2 (.r x) hadtBody
/-- CBLD (R224). -/
def execCbld (x : RForm) : State → Host.Outcome State Fault Refusal := runIop 0x0E3 (.r x) (afterOverflow cbldBody)

end Sys2Proof.Machine
end

