-- ==== Sys2Proof/Machine/Service.lean ====
section
/-!
DEFINITION. The firmware services (R469, R470, 16_package.md): one meaning for each service, over one frame that takes a request from its
ring, answers it from the log, refuses it, or applies it and replies.
-/

namespace Sys2Proof.Machine

/-! ### The frame of a service (R440, R469) -/

/-- What a service comes to: a status other than OK, a state with results, or a state whose reply comes later. -/
inductive Served where
  | refuse (status : Nat)
  | ok (s : State) (res : List Word64)
  | later (s : State)

/-- A request is taken from its ring, and answered from the log when its number stands there; in recovery mode only FWUPDATE is served.
A request whose reserved bytes are not zero is BADARG. -/
def serve (svc : Nat) (r : SvcReq) (f : State → Served) (s : State) : State :=
  let s := s.modFunc r.caller fun g => { g with taken := g.taken + 1 }
  match s.sys.log.find? (logKey r) with
  | some bs => sendReply s r.caller r.index bs
  | none =>
    if !r.clean then answer s r svc 1 []
    else if s.pkg.recovery && svc != 0xF0 then answer s r svc 4 []
    else match f s with
      | .refuse st => answer s r svc st []
      | .ok t res => answer t r svc 0 res
      | .later t => t

/-- The arguments of a request from the `n`-th on are zero. -/
def argsEndAt (r : SvcReq) (n : Nat) : Bool := ([r.a0, r.a1, r.a2, r.a3, r.a4, r.a5].drop n).all fun a => a == 0

/-- An argument has no bit set outside fields, given as position and width. -/
def onlyFields (a : Word64) (fields : List (Nat × Nat)) : Bool :=
  a.toNat == fields.foldl (fun n f => n + a.toNat / 2 ^ f.1 % 2 ^ f.2 * 2 ^ f.1) 0

/-- Bits of an argument. -/
def argBits (a : Word64) (lo n : Nat) : Nat := a.toNat / 2 ^ lo % 2 ^ n

/-- The caller may act on a VF: a PF for its device's VFs, a VF for itself (R470). -/
def mayUse (r : SvcReq) (s : State) (vf : Nat) : Bool :=
  match r.caller with
  | .pf ld => (s.vfs.get {} vf).dev == ld
  | .vf n => n == vf

/-- The VF that a request names; a VF names itself. -/
def vfArg (r : SvcReq) (field : Nat) : Nat := match r.caller with | .pf _ => field | .vf n => n

/-- The VF whose address space an ASID argument names: the caller's own, or the first of the device's VFs that has the space. -/
def vfOfAsid (r : SvcReq) (s : State) (asid : Nat) : Option Nat :=
  match r.caller with
  | .vf n => some n
  | .pf ld => (List.find? (fun (x : Nat × Space) => x.2.asid == asid && (s.vfs.get {} x.2.vf).dev == ld) s.spaces).map fun x => x.2.vf

/-- A PF is the caller. -/
def fromPf (r : SvcReq) : Bool := match r.caller with | .pf _ => true | .vf _ => false

/-- BADARG, then what follows. -/
def whenArgs (ok : Bool) (f : Served) : Served := if ok then f else .refuse 1

/-- DENIED, then what follows. -/
def whenAllowed (ok : Bool) (f : Served) : Served := if ok then f else .refuse 4

/-- A VF whose interface is locked or running, itself or with its device (R435). -/
def State.configLocked (s : State) (vf : Nat) : Bool :=
  let locked (f : Func) : Bool := match (s.func f).tdisp with | .locked | .run => true | _ => false
  locked (.vf vf) || locked (.pf (s.vfs.get {} vf).dev)

/-- LOCKED, then what follows. -/
def whenUnlocked (s : State) (vf : Nat) (f : Served) : Served := if s.configLocked vf then .refuse 3 else f

/-! ### Queues, ports, tenants and rings -/

/-- The lowest queue number that names no queue still in use. -/
def freeQueue (s : State) : Option Nat :=
  (List.range 65536).find? fun n => match s.queue? n with
    | none => true
    | some q => !q.live && !s.work.grids.any (fun g => g.2.qid == n) && !s.warps.any fun x => x.2.kind == .ordinary && x.2.qid == n

/-- QCREATE. -/
def qcreate (r : SvcReq) (s : State) : Served :=
  let a := r.a5
  let vf := vfArg r (argBits a 16 8)
  let rlog := argBits a 40 5
  whenArgs (onlyFields a [(0, 16), (16, 8), (24, 4), (32, 4), (40, 5), (48, 2)] && decide (rlog ≤ 16) && r.a0.toNat % 4096 == 0
      && r.a1.toNat % 4096 == 0 && r.a2.toNat % 4096 == 0 && r.a4.toNat % 4096 == 0) <|
    whenAllowed (mayUse r s vf) <| whenUnlocked s vf <|
      match freeQueue s with
      | none => .refuse 2
      | some qid =>
        let q : Queue := { ring := r.a0, arena := r.a1, arenasz := r.a2.toNat, call := r.a3, land_ := r.a4, nodeq := argBits a 48 2
                           asid := argBits a 0 16, vf := vf, davail := BitVec.ofNat 4 (argBits a 24 4), live := true, rlog := rlog
                           priocap := argBits a 32 4 }
        .ok { s with work := { s.work with queues := s.work.queues.insert qid q } } [BitVec.ofNat 64 qid]

/-- QDESTROY. -/
def qdestroy (r : SvcReq) (s : State) : Served :=
  whenArgs (argsEndAt r 1 && decide (r.a0.toNat < 65536)) <|
    match (s.queue? r.a0.toNat).filter (·.live) with
    | none => .refuse 5
    | some q => whenAllowed (mayUse r s q.vf) <| whenUnlocked s q.vf <| .ok (destroyQueue s r.a0.toNat) []

/-- Goes on with the VF of an ASID argument. -/
def withAsid (r : SvcReq) (s : State) (asid : Nat) (f : Nat → Served) : Served :=
  match vfOfAsid r s asid with
  | none => .refuse 5
  | some vf => f vf

/-- PORTCREATE. -/
def portcreate (r : SvcReq) (s : State) : Served :=
  whenArgs (argsEndAt r 1 && onlyFields r.a0 [(0, 16)]) <|
    withAsid r s r.a0.toNat fun vf => whenUnlocked s vf <|
      if (s.port? vf r.a0.toNat).isSome then .refuse 6
      else .ok { s with ui := { s.ui with ports := s.ui.ports.insert (State.spaceKey vf r.a0.toNat) {} } } []

/-- What PORTDESTROY takes from a warp: the pending bits of the vectors that it holds. A pre-empted warp's stand in its image, where no vector
is left that could be delivered. -/
def dropPending (s : State) (w : Nat) (x : Warp) : Except State State :=
  let vs := (List.range 64).filter (holdsVector s x)
  if vs.isEmpty || x.regs.dorm = 12 then .ok s else updateSaved s w fun y => vs.foldl (fun y v => clearPending v y) y

/-- PORTDESTROY: each vector is unregistered as its handler would, and what was held for it goes. While a handler's record cannot be read, the
port is in a state that refuses the change (DESIGN CHOICE, notes/assumptions/65.md). -/
def portdestroy (r : SvcReq) (s : State) : Served :=
  let asid := r.a0.toNat
  whenArgs (argsEndAt r 1 && onlyFields r.a0 [(0, 16)]) <|
    withAsid r s asid fun vf => whenUnlocked s vf <|
      if (s.port? vf asid).isNone then .refuse 5
      else
        let holders := s.warps.filter fun x => x.2.kind == .ordinary && x.2.vf == vf && x.2.asid == asid
        let dropped := holders.foldl (fun (a : Except State State) x => match a with | .ok s => dropPending s x.1 x.2 | .error s => .error s) (.ok s)
        match dropped with
        | .error _ => .refuse 6
        | .ok s => .ok { s with ui := { s.ui with ports := s.ui.ports.erase (State.spaceKey vf asid) } } []

/-- PERMWRITE: the entry of R391. -/
def permwrite (r : SvcReq) (s : State) : Served :=
  let asid := argBits r.a0 0 16
  let cls := argBits r.a2 0 8
  let id := argBits r.a2 16 48
  let idOk := match cls % 4 with | 1 => decide (id < 2 ^ 24) | 2 => decide (id < 2 ^ 25) | 3 => decide (id < 2 ^ 16) | _ => true
  whenArgs (argsEndAt r 3 && onlyFields r.a0 [(0, 16), (16, 6)] && onlyFields r.a2 [(0, 2), (7, 1), (16, 48)] && idOk) <|
    withAsid r s asid fun vf => whenUnlocked s vf <|
      if (s.port? vf asid).isNone then .refuse 5
      else
        let e : Perm := { vmask := r.a1, cls := BitVec.ofNat 8 cls, id := BitVec.ofNat 48 id }
        .ok (s.modPort vf asid fun p => { p with perms := p.perms.insert (argBits r.a0 16 6) e }) []

/-- TENANTWRITE: the entry of R375 from the host's memory. -/
def tenantwrite (r : SvcReq) (s : State) : Served :=
  let n := r.a0.toNat
  let bs := s.bytes (hostKey (s.deviceOf r.caller) r.a1.toNat) 64
  let old := s.work.tenants.get {} n
  let t := parseTenant bs old.lastseq
  let vfOf (qid : Nat) : Option Nat := (s.queue? qid).map (·.vf)
  let locked (qid : Nat) : Bool := ((vfOf qid).map s.configLocked).getD false
  whenArgs (argsEndAt r 2 && onlyFields r.a0 [(0, 8)] && numAt bs 18 1 < 2 && (bs.drop 46).all fun b => b == 0) <|
    whenAllowed (fromPf r && ((vfOf t.qid).map (mayUse r s)).getD true && (!old.flags.getLsbD 0 || ((vfOf old.qid).map (mayUse r s)).getD true)) <|
      if t.flags.getLsbD 0 && (vfOf t.qid).isNone then .refuse 5
      else if locked t.qid || (old.flags.getLsbD 0 && locked old.qid) then .refuse 3
      else .ok { s with work := { s.work with tenants := s.work.tenants.insert n t } } []

/-- RINGCFG. -/
def ringcfg (r : SvcReq) (s : State) : Served :=
  let k := argBits r.a0 0 2
  let vf := vfArg r (argBits r.a0 8 8)
  let log := argBits r.a2 0 4
  let logOk := r.a1 == 0 || (if k = 0 then log == 0 else decide (4 ≤ log) && decide (log ≤ 12))
  whenArgs (argsEndAt r 3 && onlyFields r.a0 [(0, 2), (8, 8)] && k != 3 && r.a1.toNat % 4096 == 0 && onlyFields r.a2 [(0, 4), (8, 8)] && logOk) <|
    whenAllowed (mayUse r s vf) <| whenUnlocked s vf <|
      if r.a1 = 0 then .ok { s with rings := s.rings.erase (4 * vf + k) } []
      else .ok { s with rings := s.rings.insert (4 * vf + k) { base := r.a1.toNat, log := log, vec := argBits r.a2 8 8 } } []

/-! ### Translation and devices -/

/-- A table root is an address of a 4 KiB table below 2^52. -/
def rootOk (a : Word64) : Bool := a.toNat % 4096 == 0 && decide (a.toNat < 2 ^ 52)

/-- ASIDSET. -/
def asidset (r : SvcReq) (s : State) : Served :=
  let asid := argBits r.a0 0 16
  let vf := vfArg r (argBits r.a0 16 8)
  whenArgs (argsEndAt r 2 && onlyFields r.a0 [(0, 16), (16, 8)] && rootOk r.a1 && asid != 0xFFFF) <|
    whenAllowed (mayUse r s vf) <|
      let k := State.spaceKey vf asid
      let spaces := if r.a1 = 0 then s.spaces.erase k
        else s.spaces.insert k { (s.spaces.find? k).getD { vf := vf, asid := asid, root := 0 } with root := r.a1.truncate 52 }
      .ok (invalidate { s with spaces := spaces } (· == vf) (· == asid) fun _ _ => true) []

/-- S2SET. -/
def s2set (r : SvcReq) (s : State) : Served :=
  let vf := argBits r.a0 0 8
  whenArgs (argsEndAt r 2 && onlyFields r.a0 [(0, 9)] && rootOk r.a1) <|
    whenAllowed (fromPf r && mayUse r s vf) <|
      let e := { s.vfs.get {} vf with s2en := r.a0.getLsbD 8, s2root := r.a1.truncate 52 }
      .ok (invalidate { s with vfs := s.vfs.insert vf e } (· == vf) (fun _ => true) fun _ _ => true) []

/-- VFASSIGN. -/
def vfassign (r : SvcReq) (s : State) : Served :=
  let vf := argBits r.a0 0 8
  whenArgs (argsEndAt r 1 && onlyFields r.a0 [(0, 12)]) <|
    whenAllowed (r.caller == .pf 0) <| whenUnlocked s vf <|
      .ok { s with vfs := s.vfs.insert vf { s.vfs.get {} vf with dev := argBits r.a0 8 4 } } []

/-- RATESET. -/
def rateset (r : SvcReq) (s : State) : Served :=
  let vf := argBits r.a0 8 8
  let cluster := argBits r.a0 3 2 * 8 + argBits r.a0 0 3
  whenArgs (argsEndAt r 2 && onlyFields r.a0 [(0, 5), (8, 8)] && onlyFields r.a1 [(0, 16), (24, 16)]) <|
    whenAllowed (fromPf r && mayUse r s vf) <|
      .ok { s with sys := { s.sys with limits := s.sys.limits.put 0 (limitKey cluster vf) r.a1 } } []

/-- KEYOP. A change to a slot of a locked interface is refused with LOCKED (R435). -/
def keyop (r : SvcReq) (s : State) : Served :=
  let op := argBits r.a0 0 2
  let slot := argBits r.a0 16 12
  let vf := argBits r.a0 32 8
  let bound := (s.sys.keys.get {} slot).vf
  let mine (v : Option Nat) : Bool := (v.map (mayUse r s)).getD true
  whenArgs (argsEndAt r 1 && onlyFields r.a0 [(0, 2), (16, 12), (32, 8)] && op != 3 && (op == 2 || vf == 0)) <|
    whenAllowed (fromPf r && mine bound && (op != 2 || mayUse r s vf)) <|
      if (bound.map s.configLocked).getD false || (op = 2 && s.configLocked vf) then .refuse 3
      else
        let (s, x) := keyslot s (if op = 2 then 3 else op) slot vf
        .ok s [x]

/-! ### Pre-emption and killing -/

/-- PREEMPT: the checks and statuses of CTXSV; the reply comes when the save has ended. -/
def preempt (r : SvcReq) (s : State) : Served :=
  let h := r.a0.toNat
  let slot := r.a2.toNat
  whenArgs (argsEndAt r 3 && decide (slot < 4096)) <|
    whenAllowed (((s.wg? h).map fun g => mayUse r s g.vf).getD true) <|
      if (s.sys.saves.find? h).isSome then .refuse 6
      else match saveCheck s h r.a1.toNat slot with
        | some st => .ok s [BitVec.ofNat 64 st]
        | none =>
          let vf := ((s.wg? h).map (·.vf)).getD 0
          .later (beginSave s h { image := some (memoryKey s vf r.a1.toNat), slot := slot, svc := some r })

/-- The key in memory of a physical address that a service names. -/
def imageKey (r : SvcReq) (s : State) (pa : Nat) : Nat := if pa / 2 ^ 48 = 2 then hostKey (s.deviceOf r.caller) pa else pa

/-- RESTORE. An image whose ORIGIN is a VF that the caller may not act for is refused. -/
def restore (r : SvcReq) (s : State) : Served :=
  let pa := r.a1.toNat
  let key := imageKey r s pa
  whenArgs (argsEndAt r 3 && onlyFields r.a0 [(0, 5)] && decide (r.a2.toNat < 4096)) <|
    match imageAddrBad s pa with
    | some st => .ok s [restoreWord st 0]
    | none =>
      whenAllowed (mayUse r s (numAt (s.bytes (key + 42) 1) 0 1)) <|
        let (s, st, h) := restoreImage s r.a0.toNat r.a2.toNat (.memory key) key
        .ok s [restoreWord st h]

/-- HELDRESTORE: each held image goes back to its own cluster. -/
def heldrestore (r : SvcReq) (s : State) : Served :=
  let ld := argBits r.a0 0 4
  whenArgs (argsEndAt r 1 && onlyFields r.a0 [(0, 4)]) <|
    whenAllowed (r.caller == .pf ld && s.pkg.sessions.contains ld) <|
      let (s, n) := (s.sys.images.filter (·.ld == ld)).foldl (fun (acc : State × Nat) i =>
        let cluster := (((acc.1.wg? i.wg).map (·.cluster)).getD 0)
        let (t, st, _) := restoreImage acc.1 cluster i.slot (.held i.bytes) (2 ^ 52 + i.wg)
        if st = 0 then ({ t with sys := { t.sys with images := t.sys.images.erase i } }, acc.2 + 1) else acc) (s, 0)
      let left := s.sys.images.any (·.ld == ld)
      .ok (if left then s else { s with sys := { s.sys with graceEnd := s.sys.graceEnd.erase ld } }) [BitVec.ofNat 64 n]

/-- SVC_WGKILL. -/
def svcWgkill (r : SvcReq) (s : State) : Served :=
  whenArgs (argsEndAt r 2 && onlyFields r.a1 [(0, 1)]) <|
    match s.wg? r.a0.toNat with
    | none => .refuse 5
    | some g => whenAllowed (mayUse r s g.vf) <| .ok (killWorkgroup s r.a0.toNat (!r.a1.getLsbD 0)) []

/-! ### Settings of the package -/

/-- ISOBARI: a power of two from 2^16 to 2^30. -/
def isobari (r : SvcReq) (s : State) : Served :=
  whenArgs (argsEndAt r 1 && (List.range 15).any fun i => r.a0.toNat == 2 ^ (16 + i)) <|
    whenAllowed (fromPf r) <| .ok { s with dbg := { s.dbg with interval := r.a0.toNat } } []

/-- GRACESET. -/
def graceset (r : SvcReq) (s : State) : Served :=
  whenArgs (argsEndAt r 1 && decide (r.a0.toNat ≤ 60000)) <|
    whenAllowed (r.caller == .pf 0) <| .ok { s with sys := { s.sys with grace := r.a0.toNat } } []

/-- A workgroup is resident in a cluster. -/
def clusterInUse (s : State) (cluster : Nat) : Bool := s.wgs.any fun g => g.2.cluster == cluster && !g.2.saved

/-- PARTSET. -/
def partset (r : SvcReq) (s : State) : Served :=
  let cluster := argBits r.a0 0 5
  whenArgs (argsEndAt r 1 && onlyFields r.a0 [(0, 5), (8, 4)]) <|
    whenAllowed (r.caller == .pf 0) <|
      if clusterInUse s cluster then .refuse 6
      else .ok { s with sys := { s.sys with partition := s.sys.partition.put 0 cluster (argBits r.a0 8 4) } } []

/-- PARTRESET (R438): the partition's workgroups are killed with `.nr`, the lines leave its LLC slices, its TLBs and walkers' caches are emptied;
what their near stores held goes with the workgroups. -/
def partreset (r : SvcReq) (s : State) : Served :=
  let id := argBits r.a0 0 4
  let mine (cluster : Nat) : Bool := s.sys.partition.get 0 cluster == id
  whenArgs (argsEndAt r 1 && onlyFields r.a0 [(0, 4)]) <|
    whenAllowed (r.caller == .pf 0) <|
      let s := (s.wgs.filter fun g => mine g.2.cluster && !g.2.saved).foldl (fun s g => killWorkgroup s g.1 false) s
      let home (h : TlbHome) : Bool := match h with | .core n => mine (clusterOf n) | .cluster n => mine n
      let copyOf (l : LlcLine) : Bool := l.remote && mine (l.slice / 8)
      .ok { s with tlb := s.tlb.filter (fun e => !home e.home), walkCache := s.walkCache.filter (fun e => !mine e.cluster)
                   llc := s.llc.filter (fun l => !mine (l.slice / 8))
                   copies := (s.llc.filter copyOf).foldl (fun m l => m.put 0 l.line (m.get 0 l.line &&& ~~~(1#4 <<< (l.slice / 64)))) s.copies } []

/-- TRACE (R452). -/
def trace (r : SvcReq) (s : State) : Served :=
  whenArgs (argsEndAt r 3 && onlyFields r.a0 [(0, 2)]) <|
    whenAllowed (fromPf r) <|
      match argBits r.a0 0 2 with
      | 0 => let (s, st) := enableRing s r.a1.toNat r.a2; .ok s [BitVec.ofNat 64 st]
      | 1 => let (s, x) := disableRing s (r.a1.toNat % 512); .ok s [x]
      | op => let (s, st) := selectComparator s (op == 3) r.a1 r.a2; .ok s [BitVec.ofNat 64 st]

/-- FWUPDATE: an image that every die would accept waits for the next package reset. -/
def fwupdate (r : SvcReq) (s : State) : Served :=
  let bs := s.bytes (hostKey (s.deviceOf r.caller) r.a0.toNat) r.a1.toNat
  let x := firmwareImage bs
  let passes (die : Nat) : Bool := imageCode x (s.pkg.fuseKeys.getD die 0) (s.pkg.fuseSvns.getD die 0) == 0
  whenArgs (argsEndAt r 2) <|
    whenAllowed (r.caller == .pf 0) <|
      if x.good && bs.length == 4096 + x.body.length && (List.range 4).all passes then
        .ok { s with pkg := { s.pkg with staged := some bs } } []
      else .refuse 1

/-! ### The mailbox (R469) -/

/-- The request in a slot of a function's request ring, with its service code. -/
def requestAt (s : State) (f : Func) (i : Nat) : Nat × SvcReq :=
  let bs := s.bytes (serviceSlot s f false i) 64
  let arg (k : Nat) : Word64 := BitVec.ofNat 64 (numAt bs (16 + 8 * k) 8)
  (numAt bs 8 2, { caller := f, seq := BitVec.ofNat 64 (numAt bs 0 8), index := i % 64, a0 := arg 0, a1 := arg 1, a2 := arg 2, a3 := arg 3
                   a4 := arg 4, a5 := arg 5, clean := ((bs.drop 10).take 6).all fun b => b == 0 })

/-- Requests of a function that firmware has not taken. -/
def requestsWaiting (g : FuncRegs) : Bool := let n := (g.pi - g.taken).toNat; decide (0 < n) && decide (n ≤ 64)

/-- The next request that firmware takes, one at a time for the package: the functions in order, none while a pre-emption that a request
asked for is in progress. -/
def nextRequest (s : State) : Option (Nat × SvcReq) :=
  if !(s.pkg.ready || s.pkg.recovery) || s.sys.saves.any (fun r => r.2.svc.isSome) then none
  else (List.find? (fun (x : Nat × FuncRegs) => requestsWaiting x.2) s.pkg.funcs).map fun x =>
    requestAt s (if x.1 < 16 then .pf x.1 else .vf (x.1 - 16)) x.2.taken.toNat

/-- A request whose code names no service is answered with a status that the manual does not state. -/
def serveUnknown (svc : Nat) (r : SvcReq) (s : State) : State :=
  let st := (Config.unknownService s.fresh).toNat
  serve svc r (fun _ => .refuse st) { s with fresh := s.fresh + 1 }

/-! ### Meanings -/

/-- QCREATE (R365, R470). -/
def execQcreate (r : SvcReq) (s : State) : Host.Outcome State Fault Refusal := .next (serve 0x01 r (qcreate r) s)
/-- QDESTROY (R372, R470). -/
def execQdestroy (r : SvcReq) : State → Host.Outcome State Fault Refusal := runEventFlip fun s => some (serve 0x02 r (qdestroy r) s)
/-- PORTCREATE (R389, R470). -/
def execPortcreate (r : SvcReq) (s : State) : Host.Outcome State Fault Refusal := .next (serve 0x03 r (portcreate r) s)
/-- PORTDESTROY (R389, R470). -/
def execPortdestroy (r : SvcReq) : State → Host.Outcome State Fault Refusal := runEventFlip fun s => some (serve 0x04 r (portdestroy r) s)
/-- PERMWRITE (R391, R470). -/
def execPermwrite (r : SvcReq) (s : State) : Host.Outcome State Fault Refusal := .next (serve 0x05 r (permwrite r) s)
/-- TENANTWRITE (R375, R470). -/
def execTenantwrite (r : SvcReq) (s : State) : Host.Outcome State Fault Refusal := .next (serve 0x06 r (tenantwrite r) s)
/-- RINGCFG (R467, R470). -/
def execRingcfg (r : SvcReq) (s : State) : Host.Outcome State Fault Refusal := .next (serve 0x07 r (ringcfg r) s)
/-- ASIDSET (R268, R470). -/
def execAsidset (r : SvcReq) (s : State) : Host.Outcome State Fault Refusal := .next (serve 0x08 r (asidset r) s)
/-- S2SET (R268, R470). -/
def execS2set (r : SvcReq) (s : State) : Host.Outcome State Fault Refusal := .next (serve 0x09 r (s2set r) s)
/-- VFASSIGN (R456, R470). -/
def execVfassign (r : SvcReq) (s : State) : Host.Outcome State Fault Refusal := .next (serve 0x0A r (vfassign r) s)
/-- RATESET (R439, R470). -/
def execRateset (r : SvcReq) (s : State) : Host.Outcome State Fault Refusal := .next (serve 0x0B r (rateset r) s)
/-- KEYOP (R429, R470). -/
def execKeyop (r : SvcReq) (s : State) : Host.Outcome State Fault Refusal := .next (serve 0x0C r (keyop r) s)
/-- PREEMPT (R430, R470). -/
def execPreempt (r : SvcReq) (s : State) : Host.Outcome State Fault Refusal := .next (serve 0x0D r (preempt r) s)
/-- RESTORE (R434, R470). -/
def execRestore (r : SvcReq) : State → Host.Outcome State Fault Refusal := runEventFlip fun s => some (serve 0x0E r (restore r) s)
/-- HELDRESTORE (R437, R470). -/
def execHeldrestore (r : SvcReq) : State → Host.Outcome State Fault Refusal := runEventFlip fun s => some (serve 0x0F r (heldrestore r) s)
/-- SVC_WGKILL (R427, R470). -/
def execSvcWgkill (r : SvcReq) : State → Host.Outcome State Fault Refusal := runEventFlip fun s => some (serve 0x10 r (svcWgkill r) s)
/-- ISOBARI (R454, R470). -/
def execIsobari (r : SvcReq) (s : State) : Host.Outcome State Fault Refusal := .next (serve 0x11 r (isobari r) s)
/-- GRACESET (R415, R470). -/
def execGraceset (r : SvcReq) (s : State) : Host.Outcome State Fault Refusal := .next (serve 0x12 r (graceset r) s)
/-- PARTSET (R438, R470). -/
def execPartset (r : SvcReq) (s : State) : Host.Outcome State Fault Refusal := .next (serve 0x13 r (partset r) s)
/-- PARTRESET (R438, R470). -/
def execPartreset (r : SvcReq) : State → Host.Outcome State Fault Refusal := runEventFlip fun s => some (serve 0x14 r (partreset r) s)
/-- TRACE (R452, R470). -/
def execSvcTrace (r : SvcReq) (s : State) : Host.Outcome State Fault Refusal := .next (serve 0x15 r (trace r) s)
/-- FWUPDATE (R461, R470). -/
def execFwupdate (r : SvcReq) (s : State) : Host.Outcome State Fault Refusal := .next (serve 0xF0 r (fwupdate r) s)

/-- The service of a code. -/
def serviceOf (svc : Nat) (r : SvcReq) : Option (State → Host.Outcome State Fault Refusal) :=
  match svc with
  | 0x01 => some (execQcreate r) | 0x02 => some (execQdestroy r) | 0x03 => some (execPortcreate r) | 0x04 => some (execPortdestroy r)
  | 0x05 => some (execPermwrite r) | 0x06 => some (execTenantwrite r) | 0x07 => some (execRingcfg r) | 0x08 => some (execAsidset r)
  | 0x09 => some (execS2set r) | 0x0A => some (execVfassign r) | 0x0B => some (execRateset r) | 0x0C => some (execKeyop r)
  | 0x0D => some (execPreempt r) | 0x0E => some (execRestore r) | 0x0F => some (execHeldrestore r) | 0x10 => some (execSvcWgkill r)
  | 0x11 => some (execIsobari r) | 0x12 => some (execGraceset r) | 0x13 => some (execPartset r) | 0x14 => some (execPartreset r)
  | 0x15 => some (execSvcTrace r) | 0xF0 => some (execFwupdate r)
  | _ => none

end Sys2Proof.Machine
end

