-- ==== Sys2Proof/Machine/Fetch.lean ====
section
/-!
DEFINITION. Fetching guest instructions (R47, R61, R107, R110-R113, R159, R275): what stands at a path's PC, from the Gazetteer, and what has
to happen first when the line is not there.
-/

namespace Sys2Proof.Machine

/-- What a path finds at its PC. -/
inductive Fetch where
  /-- a guest word under a personality, with its eight bytes -/
  | word (g : Guest) (w8 : Nat)
  /-- the fetch faults -/
  | bad (code : FaultCode) (info : Word64)
  /-- a walk, a page request or a fill has been started, or the path waits -/
  | first (s : State)
  /-- a fill of the line is in flight -/
  | filling

/-- An address is an instruction start under a personality (R61, R110). -/
def isStart (s : State) (x : Warp) (pid a : Nat) : Bool :=
  if pid = 0 then a % 8 == 0 else if pid = 1 then a % 4 == 0 else if pid = 2 then a % 2 == 0
  else match (s.personalities.find? pid).bind (·.tables) with
    | none => a % 2 == 0
    | some t =>
      match t.lrs.filter (bitAt · 31) with
      | [e] => a % (2 * (bitsAt e 28 2 + 1)) == 0
      | _ => s.sys.starts.any fun m =>
          m.vf == x.vf && m.asid == x.asid && m.page == a / 4096 * 4096 && m.pid == pid && m.offs.contains (a % 4096)

/-- The guest word of an entry at an address. -/
def entryWord (s : State) (x : Warp) (e : GazEntry) (a : Nat) : Fetch :=
  if !isStart s x e.pid a then .bad .align (BitVec.ofNat 64 a)
  else match e.guest s a with
    | .ok g => .word g (e.word a)
    | .error _ => .bad .illop (BitVec.ofNat 64 a)

/-- Starts the fill of a line, unless it is in flight (R47). -/
def startFill (s : State) (x : Warp) (pid a : Nat) : Fetch :=
  if s.fills.any fun f => f.cluster == clusterOf x.core && f.pid == pid && f.vf == x.vf && f.asid == x.fetchAsid && f.line == a / 64 then .filling
  else
    let f : GazFill := { k := s.nextId, cluster := clusterOf x.core, core := x.core, pid := pid, vf := x.vf, asid := x.fetchAsid, line := a / 64 }
    .first { s with nextId := s.nextId + 1, fills := s.fills ++ [f] }

/-- What stands at an address under the personality of its page: a word of the Gazetteer, or a line that has to be filled first (R47, R113). A
personality that is not resident faults (R121). -/
def fetchLine (s : State) (x : Warp) (pid a : Nat) : Fetch :=
  if !(s.personalities.get {} pid).resident then .bad .pfault (BitVec.ofNat 64 a)
  else match gazetteer s x pid a with
    | some e => entryWord s x e a
    | none => startFill s x pid a

/-- The path waits, with its clause as it is; a wait whose instruction has had an effect stays. -/
def parkFetch (s : State) (w p : Nat) (wt : Wait) : Fetch :=
  .first { s.modPath w p (fun q => { q with wait := if (q.wait.map (·.begun)).getD false then q.wait else some wt }) with cur := none }

/-- A fetch translates, which needs the page's personality even where the Gazetteer holds the line; V = 0 raises a page request (R275). Privileged
mode fetches J64 at physical addresses (R413). -/
def fetchVa (s : State) (w p : Nat) (x : Warp) (q : Path) (a : Nat) : Fetch :=
  if x.privileged then fetchLine s x 0 a
  else match lookupVa s x q a .fetch with
    | .ok _ _ => fetchLine s x ((pageId s x a).getD 0) a
    | .walk => let (s, wt) := startWalk s w p x a .fetch; parkFetch s w p wt
    | .flip page => parkFetch s w p (.flip page)
    | .fail (.absent st tb pg) =>
      (match raiseRequest s x.vf x.asid pg st (if tb then .read else .fetch) with
        | (s, .rid n) => parkFetch s w p (.requests x.vf [n])
        | (s, .full) => parkFetch s w p (.requestRoom x.vf [])
        | (_, .noRing) => .bad .pfault (BitVec.ofNat 64 a))
    | .fail f => .bad f.code (BitVec.ofNat 64 a)

/-- What a path finds at its PC: a word decoded for its clause, which runs to its end whatever becomes of the page (R111, R121), or what a fetch
finds. The high bits of a register-held target must be zero (R159). -/
def fetchAt (s : State) (w p : Nat) (x : Warp) (q : Path) : Fetch :=
  if q.pcHi ≠ 0 then .bad .pfault (q.pcHi ++ q.pc)
  else match q.clause.bind (·.code.find? q.pc.toNat) with
    | some (g, w8) => .word g w8
    | none => fetchVa s w p x q q.pc.toNat

/-- The words decoded for the clause of a path, with those of a line that it uses for the first time (R113). -/
def learn (s : State) (x : Warp) (q : Path) : Path :=
  match q.clause with
  | none => q
  | some c =>
    if (c.code.find? q.pc.toNat).isSome then q
    else { q with clause := some { c with code := (decodeAhead s x c.left q.pc.toNat).foldl (fun m e => m.insert e.1 e.2) c.code } }

/-- The clause header that a guest word is, with its bytes. -/
def headerOf : Guest → Option (Header × Nat)
  | .header h n => some (h, n)
  | _ => none

end Sys2Proof.Machine
end

