-- ==== Sys2Proof/Machine/Residency.lean ====
section
/-!
DEFINITION. The scheduler of clauses (R37-R40, R69, R70, R141-R145) and the activation unit (R341-R346): when a wait has ended, which clause
starts next, and activation and eviction.
-/

namespace Sys2Proof.Machine

/-! ### The end of a wait -/

/-- A node queue takes as many records as a push needs, or the push would no longer wait. -/
def nodeRoomNow (s : State) (k n : Nat) : Bool :=
  match s.work.nodes.find? k with
  | none => true
  | some q => decide (n ≤ q.openChip s + (q.desc.capacity - q.share.length)) || ((s.grid? q.grid).map (·.cut)).getD true

/-- An exchange that a path waits for has ended: it is matched, or its partner's type differed, or the partner is gone or no longer paired (R356). -/
def shufReady (s : State) (x : Warp) (k : Nat) : Bool :=
  match s.eng.shufs.find? (·.k == k) with
  | none => true
  | some o =>
    match s.warp? o.peer with
    | none => true
    | some y => o.bad || y.exited || (s.wg? x.wg).bind (·.pair) != some y.wg

/-- Paths of a warp that HALT names have ended their clauses (R426). -/
def haltReady (s : State) (wg n : Nat) (paths : BitVec 32) : Bool :=
  match (warpIn s wg n).bind s.warp? with
  | some y => y.regs.paths.all fun q => !(paths == 0 || paths.getLsbD q.1) || !q.2.running y.regs.ctxf
  | none => true

/-- A wait of a path has ended, so that its instruction or header may be tried again (R341: each path tests its wait again). -/
def waitReady (s : State) (w : Nat) (x : Warp) (p : Nat) (q : Path) (wt : Wait) : Bool :=
  let own := s.wg? x.wg
  let readsBack := (pendingReads s w q.lmask).isEmpty
  match wt with
  | .regs rs => !rs.any (busyRegs s w).contains
  | .miss slots => slots.all x.holds
  | .refill slots => !slots.any x.refills
  | .walk k => !s.walks.any (·.k == k)
  | .walkRoom => decide ((s.walks.filter fun k => clusterOf k.core == clusterOf x.core).length < 64)
  | .requestRoom _ _ => (freeRid s x.vf).isSome || (s.ring? x.vf .pageRequest).isNone
  | .requests _ rids => rids.isEmpty
  | .header m | .flags m => x.regs.flagsClear m
  | .reads rids => !s.inflight.any fun r => rids.contains r.rid
  | .writes wids rids => allDone s wids rids
  | .posting wids _ => allDone s wids []
  | .loaded rid => !s.inflight.any (·.rid == rid) && readsBack
  | .barrier key m => phasePast (s.barrier key).phases m && readsBack
  | .barrierCount key m => phasePast (s.barrier key).phases m
  | .tb o m => (match own with
      | some g => (g.tbRoot? o).isNone || phasePast (BitVec.ofNat 32 (g.tbPhase o)) m
      | none => true)
  | .tbGone | .installing _ => true
  | .granules op todo _ => todo.isEmpty || (own.map fun g => tbStopped op g todo).getD false
  | .flagRoom f => decide (x.regs.flagCount f < 1023)
  | .engineRoom => decide ((s.eng.queue.filter (·.core == x.core)).length < 32)
  | .copyRoom =>
    let mine := s.eng.copies.filter (·.cluster == clusterOf x.core)
    decide (mine.length < 128) && decide ((mine.filter (·.wg == x.wg)).length < 32)
  | .batch ns => !x.batches.any fun b => ns.contains b.b.toNat && b.pending s
  | .batchRoom => decide ((x.batches.filter fun b => b.closed && !b.ops.isEmpty).length < 16)
  | .copies ids => !s.eng.copies.any fun c => ids.contains c.id
  | .pair h => (match own with | some g => g.asks != some h | none => true) || (s.wg? h).isNone
  | .shuf k => shufReady s x k
  | .sleep _ _ out => (match out with | some (0, _) => readsBack | o => o.isSome)
  | .uiwait _ _ out => out.isSome
  | .nodeRoom k n _ => nodeRoomNow s k n
  | .launchSlot => (freeLaunch x).isSome
  | .grid k => ((x.launches.get {} k).done).isSome || ((x.launches.get {} k).grid).isNone
  | .callIdle => (match (callState s x).2 with | some (st, _, _) => st == 0 | none => true)
  | .callReply out => out.isSome
  | .callRead => (match (callState s x).2 with | some (st, _, _) => decide (2 ≤ st) | none => true)
  | .emulation => x.regs.paths.all fun q => q.1 == p || !q.2.emu
  | .remote n r => (match s.warp? n with | some y => !(busyRegs s n).contains r && !y.stuck | none => true)
  | .flip page => !s.flips.contains page
  | .halting wg n paths => haltReady s wg n paths
  | .saving _ out => out.isSome
  | .restored wg => !((s.wg? wg).map (·.saved)).getD false
  | .gstatRead ids _ _ | .gstatWrite ids => !ids.any (openOps s w).contains

/-- The wait of a path, if it has one, has ended. -/
def Path.free (s : State) (w : Nat) (x : Warp) (p : Nat) (q : Path) : Bool := (q.wait.map (waitReady s w x p q)).getD true

/-! ### Which clauses may start (R143, R144) -/

/-- The workgroup of a warp is being pre-empted, or is saved (R430). -/
def preempting (s : State) (x : Warp) : Bool := ((s.wg? x.wg).map fun g => g.preempting || g.saved).getD false

/-- A warp's paths may start clauses: it is resident and neither leaving, trapped, context-faulted nor being pre-empted; a privileged lane
until a fault ends its mode, a firmware core's until it stops. -/
def mayStart (s : State) (x : Warp) : Bool :=
  x.place.isSome && !x.arriving && !x.leaving && !x.released && x.faultVa.isNone
    && (match x.kind with
      | .ordinary => x.trap.isNone && !preempting s x
      | .trapLane t => ((s.warp? t).map fun y => (y.trap.bind (·.inner)).isNone).getD false
      | .firmware _ => true)

/-- A path competes for issue, apart from its slices: it stands between clauses, nothing holds it, its header's flags are clear, and no interrupt
is due to it first (R399). -/
def competes (s : State) (w p : Nat) (x : Warp) (q : Path) : Bool :=
  mayStart s x && q.clause.isNone && !q.park && !q.halted && !q.stopped && q.free s w x p && (pendingDelivery s x).map (·.2) != some p
    && (match fetchAt s w p x q with
      | .word g _ => (match headerOf g with
          | some (h, _) => headerBad h x || x.regs.flagsClear h.waits
          | none => true)
      | .bad _ _ => true
      | .first _ | .filling => false)

/-- A candidate of R143 with its keys. -/
structure Candidate where
  w      : Nat
  p      : Nat
  slices : Nat
  key    : StartKey
  slot   : Nat

/-- The order of R143: urgent, older, higher class, not yielded, lower warp slot, lower path. A yielded pair is last among pairs of equal age and
class, as the list of keys has it (DEDUCED, notes/assumptions/57.md). -/
def Candidate.before (a b : Candidate) : Bool :=
  if a.key.urgent != b.key.urgent then a.key.urgent
  else if a.key.age != b.key.age then decide (a.key.age < b.key.age)
  else if a.key.prio != b.key.prio then decide (b.key.prio < a.key.prio)
  else if a.key.late != b.key.late then b.key.late
  else if a.slot != b.slot then decide (a.slot < b.slot)
  else decide (a.p < b.p)

/-- Puts a candidate in its place. -/
def Candidate.insert (c : Candidate) : List Candidate → List Candidate
  | [] => [c]
  | d :: rest => if c.before d then c :: d :: rest else d :: c.insert rest

/-- The warps on a half. -/
def here (s : State) (core half : Nat) : List (Nat × Warp) :=
  s.warps.filter fun x => match x.2.place with | some pl => pl.core == core && pl.half == half | none => false

/-- The warp slot of a resident warp. -/
def Warp.slot (x : Warp) : Nat := (x.place.map (·.slot)).getD 0

/-- The candidates of a half in order. -/
def halfCandidates (s : State) (core half : Nat) : List Candidate :=
  let all := (here s core half).flatMap fun x => (x.2.regs.paths.filter fun q => competes s x.1 q.1 x.2 q.2).map fun q =>
    ({ w := x.1, p := q.1, slices := sliceSet q.2.lmask, key := startKey s x.2 q.2, slot := x.2.slot } : Candidate)
  all.foldl (fun l c => c.insert l) []

/-- The slices of a half that clauses in progress hold. -/
def busySlices (s : State) (core half : Nat) : Nat :=
  (here s core half).foldl (fun m x =>
    x.2.regs.paths.foldl (fun m q => if q.2.running x.2.regs.ctxf then m ||| sliceSet q.2.lmask else m) m) 0

/-- The candidates that start: taken in order on free slices, where an urgent candidate keeps its slices from those behind it (R144). -/
def starters : List Candidate → Nat → List Candidate
  | [], _ => []
  | c :: rest, busy =>
    if c.slices &&& busy = 0 then c :: starters rest (busy ||| c.slices)
    else starters rest (if c.key.urgent then busy ||| c.slices else busy)

/-- Whether a path may start a clause now: it is the first that R143 starts on its half. -/
def mayStartClause (s : State) (w p : Nat) (x : Warp) : Bool :=
  match x.place with
  | some pl => ((starters (halfCandidates s pl.core pl.half) (busySlices s pl.core pl.half)).head?.map fun c => (c.w, c.p)) == some (w, p)
  | none => false

/-- The other candidates of the half have been passed once more (R144). -/
def countPassed (s : State) (w p core half : Nat) : State :=
  (halfCandidates s core half).foldl (fun s c =>
    if c.w = w ∧ c.p = p then s else s.modPath c.w c.p fun q => { q with passed := q.passed + 1 }) s

/-- CLAUSE_START (R143, R69, R70): the header is consumed, or an implicit clause opens at the guest instruction; a fetch that faults traps
the path. -/
def startClause (w p : Nat) (s : State) : Option State :=
  match s.warp? w, s.path? w p with
  | some x, some q =>
    if !mayStartClause s w p x then none
    else
      let pl := x.place.getD { core := 0, half := 0, slot := 0 }
      match fetchAt s w p x q with
      | .bad code info => some (raiseFault { s with cur := none } w p code info)
      | .word g w8 =>
        let s := countPassed { s with cur := none } w p pl.core pl.half
        (match headerOf g with
          | some (h, n) => some (applyHeader s w p h n w8)
          | none =>
            let s := traceClause s w p none 0
            let c := beginClause s x q q.pc.toNat implicitClause
            some { s.modPath w p (fun q => { q with clause := some c, passed := 0, urgent := false, yielded := false }) with
                   cur := some { w := w, p := p } })
      | .first _ | .filling => none
  | _, _ => none

/-- PATH_URGENT (R144). -/
def pathUrgent (w p : Nat) (s : State) : Option State :=
  match s.path? w p with
  | some q => if 64 ≤ q.passed ∧ q.urgent = false then some (s.modPath w p fun q => { q with urgent := true }) else none
  | none => none

/-- PARK_RELEASE_TIMEOUT (R141): 1,024 cycles after the path parked; then it may rejoin (R138). -/
def parkTimeout (w p : Nat) (s : State) : Option State :=
  match s.path? w p with
  | some q =>
    if q.park && decide (q.parkedAt + 1024 ≤ s.clock) then some (clauseBoundary (s.modPath w p fun q => { q with park := false }) w) else none
  | none => none

/-! ### Activation and eviction (R341-R346) -/

/-- A dormant warp may be activated (R341, R412, R430). -/
def activatable (s : State) (w : Nat) (x : Warp) : Bool :=
  x.kind == .ordinary && x.place.isNone && !x.released && x.trap.isNone && x.faultVa.isNone && !preempting s x && !x.regs.paths.isEmpty
    && (x.regs.dorm == 1 || x.regs.dorm == 2 || x.regs.dorm == 9 || x.deliverable != 0
      || x.regs.paths.any fun q => !q.2.park && !q.2.halted && !q.2.stopped && q.2.free s w x q.1)

/-- The keys of R342: deliverable interrupts by priority, then launch priority, then the earlier arrival. -/
structure Rank where
  irq   : Nat
  prio  : Nat
  since : Nat

/-- One rank comes before another. -/
def Rank.before (a b : Rank) : Bool :=
  if a.irq != b.irq then decide (b.irq < a.irq) else if a.prio != b.prio then decide (b.prio < a.prio) else decide (a.since < b.since)

/-- The rank of an activatable warp. -/
def rankOf (s : State) (x : Warp) : Rank :=
  let irq := match s.port? x.vf x.asid with
    | some port => ((chosenVector port x).map fun v => (port.vecs.get {} v).prio + 1).getD 0
    | none => 0
  { irq := irq, prio := x.regs.prio, since := x.waitingSince.getD s.clock }

/-- The first-ranked activatable warp of a cluster. -/
def firstRanked (s : State) (cluster : Nat) : Option (Nat × Warp) :=
  (s.warps.filter fun x => activatable s x.1 x.2 && clusterOf x.2.regs.placeCore == cluster).foldl
    (fun (best : Option (Nat × Warp)) x => match best with
      | some b => if (rankOf s x.2).before (rankOf s b.2) then some x else best
      | none => some x) none

/-- Warps on a half that hold its resources. -/
def onHalf (s : State) (core half : Nat) (count : Warp → Bool) : List Warp :=
  ((here s core half).filter fun x => x.2.kind == .ordinary && count x.2).map (·.2)

/-- The register-cache slots that count for a warp on a half: the hot set of its last placement, or of HOTSET where that is smaller (R361), and
at least those that it still holds. -/
def Warp.slotsHeld (x : Warp) : Nat := max (min x.placedHot x.regs.hotSet) x.cached

/-- The slots that context-faulted warps keep on a half (R153, R348). -/
def pinnedOn (s : State) (core half : Nat) : Nat :=
  s.warps.foldl (fun n x => if x.2.place.isNone && x.2.pinnedAt == some (core, half) then n + x.2.pinned.length else n) 0

/-- A candidate fits a half (R31, R35, R43, R342): 2,048 register-cache slots and 32 warp slots a half, 32 accumulators a core. -/
def fitsHalf (s : State) (core half : Nat) (x : Warp) (count : Warp → Bool) : Bool :=
  let mine := onHalf s core half count
  let accs := (mine ++ onHalf s core (1 - half) count).foldl (fun n y => n + y.regs.nacc) 0
  decide (mine.length < 32) && decide (mine.foldl (fun n y => n + y.slotsHeld) (x.regs.hotSet + pinnedOn s core half) ≤ 2048)
    && decide (accs + x.regs.nacc ≤ 32)

/-- The half that takes a candidate: on its placement core, or else on the lowest work core of the cluster; the lower half first. -/
def halfFor (s : State) (cluster : Nat) (x : Warp) (count : Warp → Bool) : Option (Nat × Nat) :=
  let cores := x.regs.placeCore :: workCores s cluster
  (cores.flatMap fun c => [(c, 0), (c, 1)]).find? fun ch => fitsHalf s ch.1 ch.2 x count

/-- The lowest free warp slot of a half. -/
def freeSlot (s : State) (core half : Nat) : Nat :=
  let used := (onHalf s core half fun _ => true).filterMap fun y => y.place.map (·.slot)
  ((List.range 32).find? fun n => !used.contains n).getD 0

/-- ACTIVATION (R342, R345). -/
def activate (cluster : Nat) (s : State) : Option State :=
  match firstRanked s cluster with
  | none => none
  | some (w, x) =>
    match halfFor s cluster x (fun _ => true) with
    | none => none
    | some (core, half) =>
      some (s.setWarp w { x with place := some { core := core, half := half, slot := freeSlot s core half }, arriving := true, leaving := false
                                 waitingSince := none, placedHot := x.regs.hotSet, regs := { x.regs with dorm := 0 } })

/-- The slots that Foehn brings in at an activation: the windows of the valid paths, up to the hot set. -/
def activationSlots (r : Regs) : List Nat :=
  ((List.range r.stackSize).filter r.inWindow).take r.hotSet

/-- ACTIVATION_COMPLETE (R345): the record has been read; a launch's first activation refreshes at `.pod`, a node warp's at `.clus` (R369, R383).
Sends that have been held for want of the record are applied (R401). -/
def activationDone (w : Nat) (s : State) : Option State :=
  match s.warp? w with
  | none => none
  | some x =>
    if !x.arriving then none
    else
      match readRegs s x with
      | (s, .error va) => some (contextFault s w va)
      | (s, .ok r) =>
        match recordRead s x 3648 (256 * r.nacc) with
        | (s, .error va) => some (contextFault s w va)
        | (s, .ok acc) =>
          let r := { parseAcc r acc with dorm := 0 }
          let want := (activationSlots r).filter fun n => (r.v.find? n).isNone
          let y := { x with arriving := false, residentAt := s.clock, fresh := false, accDirty := false, regs := r }
          let s := s.setWarp w (y.addRefills want)
          some (applyHeld (if x.fresh then refresh s x.core (if x.node.isSome then .clus else .pod) else s) w)

/-- Warps that R343 may evict for a candidate, as number and warp. -/
def victims (s : State) (cluster : Nat) (cand : Warp) : List (Nat × Warp) :=
  s.warps.filter fun x =>
    x.2.kind == .ordinary && !x.2.arriving && !x.2.leaving && x.2.trap.isNone && x.2.faultVa.isNone
      && (match x.2.place with | some pl => clusterOf pl.core == cluster | none => false)
      && (x.2.waiting || ((decide (0 < (rankOf s cand).irq) || decide (x.2.regs.prio < cand.regs.prio))
            && decide (x.2.residentAt + 4096 ≤ s.clock)))

/-- The victim that goes first: waiting before not waiting, then the least recently issued. -/
def firstVictim (xs : List (Nat × Warp)) : Option Nat :=
  (xs.foldl (fun (best : Option (Nat × Warp)) x => match best with
    | some b =>
      if x.2.waiting != b.2.waiting then (if x.2.waiting then some x else best)
      else if x.2.issuedAt < b.2.issuedAt then some x else best
    | none => some x) none).map (·.1)

/-- EVICTION_START (R343): the first-ranked candidate fits nowhere, not even once those that are leaving have gone. -/
def startEviction (cluster : Nat) (s : State) : Option State :=
  match firstRanked s cluster with
  | none => none
  | some (_, x) =>
    if (halfFor s cluster x fun _ => true).isSome || (halfFor s cluster x fun y => !y.leaving).isSome then none
    else (firstVictim (victims s cluster x)).map fun v => s.modWarp v fun y => { y with leaving := true }

/-- EVICTION_COMMIT (R344). -/
def evictionDone (w : Nat) (s : State) : Option State :=
  match s.warp? w with
  | some x => if x.leaving && evictable s w x then some (commitEviction s w) else none
  | none => none

/-! ### Meanings -/

/-- CLAUSE_START (R143). -/
def execClauseStart (w p : Nat) : State → Host.Outcome State Fault Refusal := runEvent (startClause w p)
/-- PATH_URGENT (R144). -/
def execPathUrgent (w p : Nat) : State → Host.Outcome State Fault Refusal := runEvent (pathUrgent w p)
/-- PARK_RELEASE_TIMEOUT (R141). -/
def execParkReleaseTimeout (w p : Nat) : State → Host.Outcome State Fault Refusal := runEvent (parkTimeout w p)
/-- ACTIVATION (R345). -/
def execActivation (cluster : Nat) : State → Host.Outcome State Fault Refusal := runEvent (activate cluster)
/-- ACTIVATION_COMPLETE (R345). -/
def execActivationComplete (w : Nat) : State → Host.Outcome State Fault Refusal := runEventFlip (activationDone w)
/-- EVICTION_START (R343). -/
def execEvictionStart (cluster : Nat) : State → Host.Outcome State Fault Refusal := runEvent (startEviction cluster)
/-- EVICTION_COMMIT (R344). -/
def execEvictionCommit (w : Nat) : State → Host.Outcome State Fault Refusal := runEventFlip (evictionDone w)

end Sys2Proof.Machine
end

