-- ==== Sys2Proof/Machine/Dispatch.lean ====
section
/-!
DEFINITION. The dispatch: one arm for each constructor of `Instr`, each a direct call of its meaning.
-/

namespace Sys2Proof.Machine

def exec (i : Instr) (s : State) : Host.Outcome State Fault Refusal :=
  match i with
  | .j32Iaddi g d a imm => Sys2Proof.Machine.execJ32Iaddi g d a imm s
  | .j32Andi g d a imm => Sys2Proof.Machine.execJ32Andi g d a imm s
  | .j32Ori g d a imm => Sys2Proof.Machine.execJ32Ori g d a imm s
  | .j32Xori g d a imm => Sys2Proof.Machine.execJ32Xori g d a imm s
  | .j32ShlI g d a n => Sys2Proof.Machine.execJ32ShlI g d a n s
  | .j32ShrI g d a n => Sys2Proof.Machine.execJ32ShrI g d a n s
  | .j32SarI g d a n => Sys2Proof.Machine.execJ32SarI g d a n s
  | .j32RotI g d a n => Sys2Proof.Machine.execJ32RotI g d a n s
  | .j32Icmpi g cc p a imm => Sys2Proof.Machine.execJ32Icmpi g cc p a imm s
  | .j32Movi g d imm => Sys2Proof.Machine.execJ32Movi g d imm s
  | .j32Movhi g d imm => Sys2Proof.Machine.execJ32Movhi g d imm s
  | .j32Ffma g d a b m => Sys2Proof.Machine.execJ32Ffma g d a b m s
  | .j32Ffma64 g d a b m => Sys2Proof.Machine.execJ32Ffma64 g d a b m s
  | .j32Ld g d base size ofs => Sys2Proof.Machine.execJ32Ld g d base size ofs s
  | .j32St g d base size ofs => Sys2Proof.Machine.execJ32St g d base size ofs s
  | .j32Ldx g d base idx size ofs => Sys2Proof.Machine.execJ32Ldx g d base idx size ofs s
  | .j32Stx g d base idx size ofs => Sys2Proof.Machine.execJ32Stx g d base idx size ofs s
  | .j32Ldu g d base size ofs => Sys2Proof.Machine.execJ32Ldu g d base size ofs s
  | .j32Stu g d base size ofs => Sys2Proof.Machine.execJ32Stu g d base size ofs s
  | .j32Nld g d base size ofs => Sys2Proof.Machine.execJ32Nld g d base size ofs s
  | .j32Nst g d base size ofs => Sys2Proof.Machine.execJ32Nst g d base size ofs s
  | .j32Bra g ofs => Sys2Proof.Machine.execJ32Bra g ofs s
  | .j32Call g slide frame ofs => Sys2Proof.Machine.execJ32Call g slide frame ofs s
  | .j32Nop g => Sys2Proof.Machine.execJ32Nop g s
  | .j32Ret g => Sys2Proof.Machine.execJ32Ret g s
  | .j32Exit g => Sys2Proof.Machine.execJ32Exit g s
  | .j32Yield g => Sys2Proof.Machine.execJ32Yield g s
  | .j32Brx g a => Sys2Proof.Machine.execJ32Brx g a s
  | .j32Loop g ofs => Sys2Proof.Machine.execJ32Loop g ofs s
  | .j32Atom g d base size ofs => Sys2Proof.Machine.execJ32Atom g d base size ofs s
  | .j32Emu c pay => Sys2Proof.Machine.execJ32Emu c pay s
  | .j32Header glen waits sf1 sf2 rlx => Sys2Proof.Machine.execJ32Header glen waits sf1 sf2 rlx s
  | .j16Fadd d a b => Sys2Proof.Machine.execJ16Fadd d a b s
  | .j16Fmul d a b => Sys2Proof.Machine.execJ16Fmul d a b s
  | .j16Ffma d a b => Sys2Proof.Machine.execJ16Ffma d a b s
  | .j16Iadd d a b => Sys2Proof.Machine.execJ16Iadd d a b s
  | .j16Isub d a b => Sys2Proof.Machine.execJ16Isub d a b s
  | .j16Mov d a => Sys2Proof.Machine.execJ16Mov d a s
  | .j16And d a => Sys2Proof.Machine.execJ16And d a s
  | .j16Or d a => Sys2Proof.Machine.execJ16Or d a s
  | .j16Xor d a => Sys2Proof.Machine.execJ16Xor d a s
  | .j16Shl d a => Sys2Proof.Machine.execJ16Shl d a s
  | .j16Shr d a => Sys2Proof.Machine.execJ16Shr d a s
  | .j16Sar d a => Sys2Proof.Machine.execJ16Sar d a s
  | .j16Imul d a => Sys2Proof.Machine.execJ16Imul d a s
  | .j16Fsub d a => Sys2Proof.Machine.execJ16Fsub d a s
  | .j16Fmin d a => Sys2Proof.Machine.execJ16Fmin d a s
  | .j16Fmax d a => Sys2Proof.Machine.execJ16Fmax d a s
  | .j16Ineg d a => Sys2Proof.Machine.execJ16Ineg d a s
  | .j16CvtF32S32 d a => Sys2Proof.Machine.execJ16CvtF32S32 d a s
  | .j16CvtS32F32 d a => Sys2Proof.Machine.execJ16CvtS32F32 d a s
  | .j16Movi d imm => Sys2Proof.Machine.execJ16Movi d imm s
  | .j16Ld d base ofs => Sys2Proof.Machine.execJ16Ld d base ofs s
  | .j16St d base ofs => Sys2Proof.Machine.execJ16St d base ofs s
  | .j16Ldx d base idx => Sys2Proof.Machine.execJ16Ldx d base idx s
  | .j16Stx d base idx => Sys2Proof.Machine.execJ16Stx d base idx s
  | .j16Bra ofs => Sys2Proof.Machine.execJ16Bra ofs s
  | .j16Brp inv ofs => Sys2Proof.Machine.execJ16Brp inv ofs s
  | .j16Icmp a b cc => Sys2Proof.Machine.execJ16Icmp a b cc s
  | .j16Nop => Sys2Proof.Machine.execJ16Nop s
  | .j16Ret => Sys2Proof.Machine.execJ16Ret s
  | .j16Exit => Sys2Proof.Machine.execJ16Exit s
  | .j16Bar scope => Sys2Proof.Machine.execJ16Bar scope s
  | .j16Yield => Sys2Proof.Machine.execJ16Yield s
  | .j16Emu pay => Sys2Proof.Machine.execJ16Emu pay s
  | .nop x => Sys2Proof.Machine.execNop x s
  | .bra x => Sys2Proof.Machine.execBra x s
  | .brx x => Sys2Proof.Machine.execBrx x s
  | .call x => Sys2Proof.Machine.execCall x s
  | .callx x => Sys2Proof.Machine.execCallx x s
  | .ret x => Sys2Proof.Machine.execRet x s
  | .exit x => Sys2Proof.Machine.execExit x s
  | .yield x => Sys2Proof.Machine.execYield x s
  | .join x => Sys2Proof.Machine.execJoin x s
  | .loop x => Sys2Proof.Machine.execLoop x s
  | .brau x => Sys2Proof.Machine.execBrau x s
  | .waitf x => Sys2Proof.Machine.execWaitf x s
  | .pcomb x => Sys2Proof.Machine.execPcomb x s
  | .pand x => Sys2Proof.Machine.execPand x s
  | .por x => Sys2Proof.Machine.execPor x s
  | .pxor x => Sys2Proof.Machine.execPxor x s
  | .pnot x => Sys2Proof.Machine.execPnot x s
  | .plop3 x => Sys2Proof.Machine.execPlop3 x s
  | .pmask x => Sys2Proof.Machine.execPmask x s
  | .pset x => Sys2Proof.Machine.execPset x s
  | .psel x => Sys2Proof.Machine.execPsel x s
  | .iadd x => Sys2Proof.Machine.execIadd x s
  | .isub x => Sys2Proof.Machine.execIsub x s
  | .isum x => Sys2Proof.Machine.execIsum x s
  | .icadd x => Sys2Proof.Machine.execIcadd x s
  | .ineg x => Sys2Proof.Machine.execIneg x s
  | .iabs x => Sys2Proof.Machine.execIabs x s
  | .imin x => Sys2Proof.Machine.execImin x s
  | .imax x => Sys2Proof.Machine.execImax x s
  | .imul x => Sys2Proof.Machine.execImul x s
  | .imulhi x => Sys2Proof.Machine.execImulhi x s
  | .imad x => Sys2Proof.Machine.execImad x s
  | .imadw x => Sys2Proof.Machine.execImadw x s
  | .sad x => Sys2Proof.Machine.execSad x s
  | .idot4 x => Sys2Proof.Machine.execIdot4 x s
  | .icmp x => Sys2Proof.Machine.execIcmp x s
  | .sel x => Sys2Proof.Machine.execSel x s
  | .and x => Sys2Proof.Machine.execAnd x s
  | .or x => Sys2Proof.Machine.execOr x s
  | .xor x => Sys2Proof.Machine.execXor x s
  | .lop3 x => Sys2Proof.Machine.execLop3 x s
  | .shl x => Sys2Proof.Machine.execShl x s
  | .shr x => Sys2Proof.Machine.execShr x s
  | .sar x => Sys2Proof.Machine.execSar x s
  | .rot x => Sys2Proof.Machine.execRot x s
  | .fshf x => Sys2Proof.Machine.execFshf x s
  | .bfe x => Sys2Proof.Machine.execBfe x s
  | .bfi x => Sys2Proof.Machine.execBfi x s
  | .brev x => Sys2Proof.Machine.execBrev x s
  | .popc x => Sys2Proof.Machine.execPopc x s
  | .clz x => Sys2Proof.Machine.execClz x s
  | .ctz x => Sys2Proof.Machine.execCtz x s
  | .mov x => Sys2Proof.Machine.execMov x s
  | .movi x => Sys2Proof.Machine.execMovi x s
  | .lea x => Sys2Proof.Machine.execLea x s
  | .lxch x => Sys2Proof.Machine.execLxch x s
  | .perm x => Sys2Proof.Machine.execPerm x s
  | .bcast x => Sys2Proof.Machine.execBcast x s
  | .wred x => Sys2Proof.Machine.execWred x s
  | .wscan x => Sys2Proof.Machine.execWscan x s
  | .matchLanes x => Sys2Proof.Machine.execMatchLanes x s
  | .fadd x => Sys2Proof.Machine.execFadd x s
  | .fsub x => Sys2Proof.Machine.execFsub x s
  | .fmul x => Sys2Proof.Machine.execFmul x s
  | .ffma x => Sys2Proof.Machine.execFfma x s
  | .fmin x => Sys2Proof.Machine.execFmin x s
  | .fmax x => Sys2Proof.Machine.execFmax x s
  | .fcmp x => Sys2Proof.Machine.execFcmp x s
  | .fclass x => Sys2Proof.Machine.execFclass x s
  | .frnd x => Sys2Proof.Machine.execFrnd x s
  | .fldexp x => Sys2Proof.Machine.execFldexp x s
  | .fgetexp x => Sys2Proof.Machine.execFgetexp x s
  | .fdivs x => Sys2Proof.Machine.execFdivs x s
  | .frcp x => Sys2Proof.Machine.execFrcp x s
  | .frsq x => Sys2Proof.Machine.execFrsq x s
  | .fsqrt x => Sys2Proof.Machine.execFsqrt x s
  | .fexp2 x => Sys2Proof.Machine.execFexp2 x s
  | .flog2 x => Sys2Proof.Machine.execFlog2 x s
  | .fsin x => Sys2Proof.Machine.execFsin x s
  | .fcos x => Sys2Proof.Machine.execFcos x s
  | .ftanh x => Sys2Proof.Machine.execFtanh x s
  | .hadd2 x => Sys2Proof.Machine.execHadd2 x s
  | .hmul2 x => Sys2Proof.Machine.execHmul2 x s
  | .hfma2 x => Sys2Proof.Machine.execHfma2 x s
  | .hmin2 x => Sys2Proof.Machine.execHmin2 x s
  | .hmax2 x => Sys2Proof.Machine.execHmax2 x s
  | .hdot2 x => Sys2Proof.Machine.execHdot2 x s
  | .cvt x => Sys2Proof.Machine.execCvt x s
  | .cvti x => Sys2Proof.Machine.execCvti x s
  | .cvtf x => Sys2Proof.Machine.execCvtf x s
  | .cvtp x => Sys2Proof.Machine.execCvtp x s
  | .qnt x => Sys2Proof.Machine.execQnt x s
  | .qnth x => Sys2Proof.Machine.execQnth x s
  | .dqnt x => Sys2Proof.Machine.execDqnt x s
  | .qscale x => Sys2Proof.Machine.execQscale x s
  | .hadt x => Sys2Proof.Machine.execHadt x s
  | .cbld x => Sys2Proof.Machine.execCbld x s
  | .mma x => Sys2Proof.Machine.execMma x s
  | .mfence x => Sys2Proof.Machine.execMfence x s
  | .mwait x => Sys2Proof.Machine.execMwait x s
  | .mzero x => Sys2Proof.Machine.execMzero x s
  | .mlda x => Sys2Proof.Machine.execMlda x s
  | .msta x => Sys2Proof.Machine.execMsta x s
  | .mrow x => Sys2Proof.Machine.execMrow x s
  | .msetr x => Sys2Proof.Machine.execMsetr x s
  | .mcvt x => Sys2Proof.Machine.execMcvt x s
  | .mptb x => Sys2Proof.Machine.execMptb x s
  | .mfmt x => Sys2Proof.Machine.execMfmt x s
  | .tld x => Sys2Proof.Machine.execTld x s
  | .tst x => Sys2Proof.Machine.execTst x s
  | .tmod x => Sys2Proof.Machine.execTmod x s
  | .ld x => Sys2Proof.Machine.execLd x s
  | .st x => Sys2Proof.Machine.execSt x s
  | .ldv x => Sys2Proof.Machine.execLdv x s
  | .stv x => Sys2Proof.Machine.execStv x s
  | .ldp x => Sys2Proof.Machine.execLdp x s
  | .stp x => Sys2Proof.Machine.execStp x s
  | .ldu x => Sys2Proof.Machine.execLdu x s
  | .stu x => Sys2Proof.Machine.execStu x s
  | .gath x => Sys2Proof.Machine.execGath x s
  | .scat x => Sys2Proof.Machine.execScat x s
  | .ldnf x => Sys2Proof.Machine.execLdnf x s
  | .nld x => Sys2Proof.Machine.execNld x s
  | .nst x => Sys2Proof.Machine.execNst x s
  | .nldu x => Sys2Proof.Machine.execNldu x s
  | .nstu x => Sys2Proof.Machine.execNstu x s
  | .nsetf x => Sys2Proof.Machine.execNsetf x s
  | .cld x => Sys2Proof.Machine.execCld x s
  | .cldu x => Sys2Proof.Machine.execCldu x s
  | .smpl x => Sys2Proof.Machine.execSmpl x s
  | .pref x => Sys2Proof.Machine.execPref x s
  | .prefu x => Sys2Proof.Machine.execPrefu x s
  | .cwb x => Sys2Proof.Machine.execCwb x s
  | .cinv x => Sys2Proof.Machine.execCinv x s
  | .phase x => Sys2Proof.Machine.execPhase x s
  | .fence x => Sys2Proof.Machine.execFence x s
  | .xfence x => Sys2Proof.Machine.execXfence x s
  | .fwait x => Sys2Proof.Machine.execFwait x s
  | .lds x => Sys2Proof.Machine.execLds x s
  | .sts x => Sys2Proof.Machine.execSts x s
  | .atom x => Sys2Proof.Machine.execAtom x s
  | .atomu x => Sys2Proof.Machine.execAtomu x s
  | .cas x => Sys2Proof.Machine.execCas x s
  | .red x => Sys2Proof.Machine.execRed x s
  | .bar x => Sys2Proof.Machine.execBar x s
  | .bara x => Sys2Proof.Machine.execBara x s
  | .barw x => Sys2Proof.Machine.execBarw x s
  | .tbinit x => Sys2Proof.Machine.execTbinit x s
  | .tbexp x => Sys2Proof.Machine.execTbexp x s
  | .tbarr x => Sys2Proof.Machine.execTbarr x s
  | .tbwait x => Sys2Proof.Machine.execTbwait x s
  | .tbq x => Sys2Proof.Machine.execTbq x s
  | .cpy x => Sys2Proof.Machine.execCpy x s
  | .cpyo x => Sys2Proof.Machine.execCpyo x s
  | .cpyt x => Sys2Proof.Machine.execCpyt x s
  | .cpyq x => Sys2Proof.Machine.execCpyq x s
  | .cpymc x => Sys2Proof.Machine.execCpymc x s
  | .cpys x => Sys2Proof.Machine.execCpys x s
  | .cpyc x => Sys2Proof.Machine.execCpyc x s
  | .cpyw x => Sys2Proof.Machine.execCpyw x s
  | .rld x => Sys2Proof.Machine.execRld x s
  | .rldu x => Sys2Proof.Machine.execRldu x s
  | .xshuf x => Sys2Proof.Machine.execXshuf x s
  | .xpair x => Sys2Proof.Machine.execXpair x s
  | .ctxq x => Sys2Proof.Machine.execCtxq x s
  | .sleep x => Sys2Proof.Machine.execSleep x s
  | .wake x => Sys2Proof.Machine.execWake x s
  | .hotset x => Sys2Proof.Machine.execHotset x s
  | .pinstall x => Sys2Proof.Machine.execPinstall x s
  | .pbind x => Sys2Proof.Machine.execPbind x s
  | .emret x => Sys2Proof.Machine.execEmret x s
  | .pquery x => Sys2Proof.Machine.execPquery x s
  | .pevict x => Sys2Proof.Machine.execPevict x s
  | .gzinv x => Sys2Proof.Machine.execGzinv x s
  | .npush x => Sys2Proof.Machine.execNpush x s
  | .nflush x => Sys2Proof.Machine.execNflush x s
  | .nqry x => Sys2Proof.Machine.execNqry x s
  | .nrecv x => Sys2Proof.Machine.execNrecv x s
  | .nlaunch x => Sys2Proof.Machine.execNlaunch x s
  | .nlwait x => Sys2Proof.Machine.execNlwait x s
  | .syscall x => Sys2Proof.Machine.execSyscall x s
  | .sysrd x => Sys2Proof.Machine.execSysrd x s
  | .syscan x => Sys2Proof.Machine.execSyscan x s
  | .uisend x => Sys2Proof.Machine.execUisend x s
  | .uireg x => Sys2Proof.Machine.execUireg x s
  | .uiunreg x => Sys2Proof.Machine.execUiunreg x s
  | .uimaskOp x => Sys2Proof.Machine.execUimaskOp x s
  | .uiwait x => Sys2Proof.Machine.execUiwait x s
  | .uiend x => Sys2Proof.Machine.execUiend x s
  | .uiack x => Sys2Proof.Machine.execUiack x s
  | .uipoll x => Sys2Proof.Machine.execUipoll x s
  | .mfsr x => Sys2Proof.Machine.execMfsr x s
  | .mtsr x => Sys2Proof.Machine.execMtsr x s
  | .trap x => Sys2Proof.Machine.execTrap x s
  | .tret x => Sys2Proof.Machine.execTret x s
  | .pld x => Sys2Proof.Machine.execPld x s
  | .pst x => Sys2Proof.Machine.execPst x s
  | .tlbinv x => Sys2Proof.Machine.execTlbinv x s
  | .atq x => Sys2Proof.Machine.execAtq x s
  | .ctxsv x => Sys2Proof.Machine.execCtxsv x s
  | .ctxrs x => Sys2Proof.Machine.execCtxrs x s
  | .keyslot x => Sys2Proof.Machine.execKeyslot x s
  | .scanrq x => Sys2Proof.Machine.execScanrq x s
  | .halt x => Sys2Proof.Machine.execHalt x s
  | .resume x => Sys2Proof.Machine.execResume x s
  | .lanesel x => Sys2Proof.Machine.execLanesel x s
  | .ipifw x => Sys2Proof.Machine.execIpifw x s
  | .wgkill x => Sys2Proof.Machine.execWgkill x s
  | .qkill x => Sys2Proof.Machine.execQkill x s
  | .bkpt x => Sys2Proof.Machine.execBkpt x s
  | .stamp x => Sys2Proof.Machine.execStamp x s
  | .bearq x => Sys2Proof.Machine.execBearq x s
  | .progq x => Sys2Proof.Machine.execProgq x s
  | .trcon x => Sys2Proof.Machine.execTrcon x s
  | .trcoff x => Sys2Proof.Machine.execTrcoff x s
  | .trcsel x => Sys2Proof.Machine.execTrcsel x s
  | .clauseStart w p => Sys2Proof.Machine.execClauseStart w p s
  | .pathUrgent w p => Sys2Proof.Machine.execPathUrgent w p s
  | .parkReleaseTimeout w p => Sys2Proof.Machine.execParkReleaseTimeout w p s
  | .gazetteerFill k => Sys2Proof.Machine.execGazetteerFill k s
  | .emulationTrap e => Sys2Proof.Machine.execEmulationTrap e s
  | .registerCacheMiss w p => Sys2Proof.Machine.execRegisterCacheMiss w p s
  | .refillArrive w slot => Sys2Proof.Machine.execRefillArrive w slot s
  | .foehnSpillComplete w slot => Sys2Proof.Machine.execFoehnSpillComplete w slot s
  | .ctxfaultRetry w => Sys2Proof.Machine.execCtxfaultRetry w s
  | .activation cluster => Sys2Proof.Machine.execActivation cluster s
  | .activationComplete w => Sys2Proof.Machine.execActivationComplete w s
  | .evictionStart cluster => Sys2Proof.Machine.execEvictionStart cluster s
  | .evictionCommit w => Sys2Proof.Machine.execEvictionCommit w s
  | .warpRelease w => Sys2Proof.Machine.execWarpRelease w s
  | .memoryReadReturn rid => Sys2Proof.Machine.execMemoryReadReturn rid s
  | .writePerform wid => Sys2Proof.Machine.execWritePerform wid s
  | .walkComplete k => Sys2Proof.Machine.execWalkComplete k s
  | .prqrspSuccess vf rid => Sys2Proof.Machine.execPrqrspSuccess vf rid s
  | .prqrspInvalid vf rid => Sys2Proof.Machine.execPrqrspInvalid vf rid s
  | .progressiveReplay w p => Sys2Proof.Machine.execProgressiveReplay w p s
  | .nearstoreGranuleStep w p granule => Sys2Proof.Machine.execNearstoreGranuleStep w p granule s
  | .execPageStore wid => Sys2Proof.Machine.execExecPageStore wid s
  | .barrierPhaseComplete key => Sys2Proof.Machine.execBarrierPhaseComplete key s
  | .tbCredit k => Sys2Proof.Machine.execTbCredit k s
  | .copyStart cluster => Sys2Proof.Machine.execCopyStart cluster s
  | .copyChunk id => Sys2Proof.Machine.execCopyChunk id s
  | .copyComplete id => Sys2Proof.Machine.execCopyComplete id s
  | .tileFetchArrive op line => Sys2Proof.Machine.execTileFetchArrive op line s
  | .engineOpComplete core => Sys2Proof.Machine.execEngineOpComplete core s
  | .uiSendArrive k => Sys2Proof.Machine.execUiSendArrive k s
  | .uiDelivery w => Sys2Proof.Machine.execUiDelivery w s
  | .sleepTimeout w p => Sys2Proof.Machine.execSleepTimeout w p s
  | .uiwaitTimeout w p => Sys2Proof.Machine.execUiwaitTimeout w p s
  | .nodeWarpFormCount q => Sys2Proof.Machine.execNodeWarpFormCount q s
  | .nodeTimer q => Sys2Proof.Machine.execNodeTimer q s
  | .nodePartRetry q => Sys2Proof.Machine.execNodePartRetry q s
  | .kick f value => Sys2Proof.Machine.execKick f value s
  | .dispatchPacket qid => Sys2Proof.Machine.execDispatchPacket qid s
  | .workgroupPlace grid die => Sys2Proof.Machine.execWorkgroupPlace grid die s
  | .gridComplete grid => Sys2Proof.Machine.execGridComplete grid s
  | .launchDatagram src payload => Sys2Proof.Machine.execLaunchDatagram src payload s
  | .callDoorbell f value => Sys2Proof.Machine.execCallDoorbell f value s
  | .trapEntry w => Sys2Proof.Machine.execTrapEntry w s
  | .trapnest w code info => Sys2Proof.Machine.execTrapnest w code info s
  | .traprspRetry vf slot => Sys2Proof.Machine.execTraprspRetry vf slot s
  | .traprspSkip vf slot => Sys2Proof.Machine.execTraprspSkip vf slot s
  | .traprspKill vf slot => Sys2Proof.Machine.execTraprspKill vf slot s
  | .ringReportPost vf ring => Sys2Proof.Machine.execRingReportPost vf ring s
  | .trapci f ci => Sys2Proof.Machine.execTrapci f ci s
  | .scanci f ci => Sys2Proof.Machine.execScanci f ci s
  | .scanComplete die => Sys2Proof.Machine.execScanComplete die s
  | .uncorrectableError site => Sys2Proof.Machine.execUncorrectableError site s
  | .isobarSample die => Sys2Proof.Machine.execIsobarSample die s
  | .comparatorMatch w p k => Sys2Proof.Machine.execComparatorMatch w p k s
  | .traceSample core => Sys2Proof.Machine.execTraceSample core s
  | .rateLimiterRefill cluster vf => Sys2Proof.Machine.execRateLimiterRefill cluster vf s
  | .firmwareFailover => Sys2Proof.Machine.execFirmwareFailover s
  | .hostWarmRestart ld => Sys2Proof.Machine.execHostWarmRestart ld s
  | .graceExpiry ld => Sys2Proof.Machine.execGraceExpiry ld s
  | .packageReset b => Sys2Proof.Machine.execPackageReset b s
  | .powerLimitStep watts => Sys2Proof.Machine.execPowerLimitStep watts s
  | .pwrcapWrite ld limit => Sys2Proof.Machine.execPwrcapWrite ld limit s
  | .uirefuseRead r => Sys2Proof.Machine.execUirefuseRead r s
  | .tdropRead ld tenant => Sys2Proof.Machine.execTdropRead ld tenant s
  | .uisendr f pasid value => Sys2Proof.Machine.execUisendr f pasid value s
  | .flipreqToHost ld page => Sys2Proof.Machine.execFlipreqToHost ld page s
  | .flipreqToDevice ld page => Sys2Proof.Machine.execFlipreqToDevice ld page s
  | .flipComplete ld => Sys2Proof.Machine.execFlipComplete ld s
  | .hostSnoop ld addr data => Sys2Proof.Machine.execHostSnoop ld addr data s
  | .hostCxlMemAccess ld addr acc => Sys2Proof.Machine.execHostCxlMemAccess ld addr acc s
  | .rdmaAccess qp vf asid va acc => Sys2Proof.Machine.execRdmaAccess qp vf asid va acc s
  | .linkLaneLoss port lanes => Sys2Proof.Machine.execLinkLaneLoss port lanes s
  | .flitRetry port => Sys2Proof.Machine.execFlitRetry port s
  | .registerWrite f ofs bytes value => Sys2Proof.Machine.execRegisterWrite f ofs bytes value s
  | .qcreate r => Sys2Proof.Machine.execQcreate r s
  | .qdestroy r => Sys2Proof.Machine.execQdestroy r s
  | .portcreate r => Sys2Proof.Machine.execPortcreate r s
  | .portdestroy r => Sys2Proof.Machine.execPortdestroy r s
  | .permwrite r => Sys2Proof.Machine.execPermwrite r s
  | .tenantwrite r => Sys2Proof.Machine.execTenantwrite r s
  | .ringcfg r => Sys2Proof.Machine.execRingcfg r s
  | .asidset r => Sys2Proof.Machine.execAsidset r s
  | .s2set r => Sys2Proof.Machine.execS2set r s
  | .vfassign r => Sys2Proof.Machine.execVfassign r s
  | .rateset r => Sys2Proof.Machine.execRateset r s
  | .keyop r => Sys2Proof.Machine.execKeyop r s
  | .preempt r => Sys2Proof.Machine.execPreempt r s
  | .restore r => Sys2Proof.Machine.execRestore r s
  | .heldrestore r => Sys2Proof.Machine.execHeldrestore r s
  | .svcWgkill r => Sys2Proof.Machine.execSvcWgkill r s
  | .isobari r => Sys2Proof.Machine.execIsobari r s
  | .graceset r => Sys2Proof.Machine.execGraceset r s
  | .partset r => Sys2Proof.Machine.execPartset r s
  | .partreset r => Sys2Proof.Machine.execPartreset r s
  | .svcTrace r => Sys2Proof.Machine.execSvcTrace r s
  | .fwupdate r => Sys2Proof.Machine.execFwupdate r s
  | .ctxsvSave wg => Sys2Proof.Machine.execCtxsvSave wg s
  | .tdispRequest ifc op => Sys2Proof.Machine.execTdispRequest ifc op s
  | .msixTableWrite ifc vec value => Sys2Proof.Machine.execMsixTableWrite ifc vec value s
  | .spdmRequest ld op => Sys2Proof.Machine.execSpdmRequest ld op s
  | .peerRequest pkg at_ op => Sys2Proof.Machine.execPeerRequest pkg at_ op s
  | .remoteLineWaysSet die stop near remote => Sys2Proof.Machine.execRemoteLineWaysSet die stop near remote s

end Sys2Proof.Machine
end

