-- ==== Sys2Proof/Machine/Opcode.lean ====
section
/-!
DEFINITION. The meaning of an IOP by its opcode and fields (R71-R76): what `exec` gives the instruction of these parts.
-/

namespace Sys2Proof.Machine

/-- Opcodes of format R below 0x0C0. -/
def issueRCore (opc : Nat) (x : RForm) : Option (State → Host.Outcome State Fault Refusal) :=
  match opc with
  | 0x001 => some (execNop x)
  | 0x007 => some (execExit x)
  | 0x008 => some (execYield x)
  | 0x00C => some (execWaitf x)
  | 0x00D => some (execPcomb x)
  | 0x00E => some (execPand x)
  | 0x00F => some (execPor x)
  | 0x010 => some (execPxor x)
  | 0x011 => some (execPnot x)
  | 0x012 => some (execPlop3 x)
  | 0x013 => some (execPmask x)
  | 0x014 => some (execPset x)
  | 0x015 => some (execPsel x)
  | 0x040 => some (execIadd x)
  | 0x041 => some (execIsub x)
  | 0x042 => some (execIsum x)
  | 0x043 => some (execIcadd x)
  | 0x044 => some (execIneg x)
  | 0x045 => some (execIabs x)
  | 0x046 => some (execImin x)
  | 0x047 => some (execImax x)
  | 0x048 => some (execImul x)
  | 0x049 => some (execImulhi x)
  | 0x04A => some (execImad x)
  | 0x04B => some (execImadw x)
  | 0x04C => some (execSad x)
  | 0x04D => some (execIdot4 x)
  | 0x04E => some (execIcmp x)
  | 0x04F => some (execSel x)
  | 0x050 => some (execAnd x)
  | 0x051 => some (execOr x)
  | 0x052 => some (execXor x)
  | 0x053 => some (execLop3 x)
  | 0x054 => some (execShl x)
  | 0x055 => some (execShr x)
  | 0x056 => some (execSar x)
  | 0x057 => some (execRot x)
  | 0x058 => some (execFshf x)
  | 0x059 => some (execBfe x)
  | 0x05A => some (execBfi x)
  | 0x05B => some (execBrev x)
  | 0x05C => some (execPopc x)
  | 0x05D => some (execClz x)
  | 0x05E => some (execCtz x)
  | 0x05F => some (execMov x)
  | 0x061 => some (execLea x)
  | 0x062 => some (execLxch x)
  | 0x063 => some (execPerm x)
  | 0x064 => some (execBcast x)
  | 0x065 => some (execWred x)
  | 0x066 => some (execWscan x)
  | 0x067 => some (execMatchLanes x)
  | _ => none

/-- Opcodes 0x0C0 to 0x13F of format R. -/
def issueRFloat (opc : Nat) (x : RForm) : Option (State → Host.Outcome State Fault Refusal) :=
  match opc with
  | 0x0C0 => some (execFadd x)
  | 0x0C1 => some (execFsub x)
  | 0x0C2 => some (execFmul x)
  | 0x0C3 => some (execFfma x)
  | 0x0C4 => some (execFmin x)
  | 0x0C5 => some (execFmax x)
  | 0x0C6 => some (execFcmp x)
  | 0x0C7 => some (execFclass x)
  | 0x0C8 => some (execFrnd x)
  | 0x0C9 => some (execFldexp x)
  | 0x0CA => some (execFgetexp x)
  | 0x0CB => some (execFdivs x)
  | 0x0CC => some (execFrcp x)
  | 0x0CD => some (execFrsq x)
  | 0x0CE => some (execFsqrt x)
  | 0x0CF => some (execFexp2 x)
  | 0x0D0 => some (execFlog2 x)
  | 0x0D1 => some (execFsin x)
  | 0x0D2 => some (execFcos x)
  | 0x0D3 => some (execFtanh x)
  | 0x0D4 => some (execHadd2 x)
  | 0x0D5 => some (execHmul2 x)
  | 0x0D6 => some (execHfma2 x)
  | 0x0D7 => some (execHmin2 x)
  | 0x0D8 => some (execHmax2 x)
  | 0x0D9 => some (execHdot2 x)
  | 0x0DA => some (execCvt x)
  | 0x0DB => some (execCvti x)
  | 0x0DC => some (execCvtf x)
  | 0x0DD => some (execCvtp x)
  | 0x0DE => some (execQnt x)
  | 0x0DF => some (execQnth x)
  | 0x0E0 => some (execDqnt x)
  | 0x0E1 => some (execQscale x)
  | 0x0E2 => some (execHadt x)
  | 0x0E3 => some (execCbld x)
  | _ => none

/-- Opcodes 0x140 to 0x23F of format R. -/
def issueRUnits (opc : Nat) (x : RForm) : Option (State → Host.Outcome State Fault Refusal) :=
  match opc with
  | 0x141 => some (execMfence x)
  | 0x142 => some (execMwait x)
  | 0x143 => some (execMzero x)
  | 0x146 => some (execMrow x)
  | 0x147 => some (execMsetr x)
  | 0x148 => some (execMcvt x)
  | 0x14D => some (execTmod x)
  | 0x196 => some (execCinv x)
  | 0x1E0 => some (execPhase x)
  | 0x1E1 => some (execFence x)
  | 0x1E2 => some (execXfence x)
  | 0x1E3 => some (execFwait x)
  | 0x1EA => some (execBar x)
  | 0x1EB => some (execBara x)
  | 0x1EC => some (execBarw x)
  | 0x1ED => some (execTbinit x)
  | 0x1EE => some (execTbexp x)
  | 0x1EF => some (execTbarr x)
  | 0x1F0 => some (execTbwait x)
  | 0x1F1 => some (execTbq x)
  | 0x225 => some (execCpys x)
  | 0x226 => some (execCpyc x)
  | 0x227 => some (execCpyw x)
  | 0x230 => some (execRld x)
  | 0x231 => some (execRldu x)
  | 0x232 => some (execXshuf x)
  | 0x233 => some (execXpair x)
  | 0x234 => some (execCtxq x)
  | 0x235 => some (execSleep x)
  | 0x236 => some (execWake x)
  | 0x237 => some (execHotset x)
  | _ => none

/-- Opcodes of format R from 0x240. -/
def issueRSystem (opc : Nat) (x : RForm) : Option (State → Host.Outcome State Fault Refusal) :=
  match opc with
  | 0x240 => some (execPinstall x)
  | 0x241 => some (execPbind x)
  | 0x242 => some (execEmret x)
  | 0x243 => some (execPquery x)
  | 0x244 => some (execPevict x)
  | 0x245 => some (execGzinv x)
  | 0x250 => some (execNpush x)
  | 0x251 => some (execNflush x)
  | 0x252 => some (execNqry x)
  | 0x253 => some (execNrecv x)
  | 0x254 => some (execNlaunch x)
  | 0x255 => some (execNlwait x)
  | 0x256 => some (execSyscall x)
  | 0x257 => some (execSysrd x)
  | 0x258 => some (execSyscan x)
  | 0x260 => some (execUisend x)
  | 0x261 => some (execUireg x)
  | 0x262 => some (execUiunreg x)
  | 0x263 => some (execUimaskOp x)
  | 0x264 => some (execUiwait x)
  | 0x265 => some (execUiend x)
  | 0x266 => some (execUiack x)
  | 0x267 => some (execUipoll x)
  | 0x272 => some (execTrap x)
  | 0x273 => some (execTret x)
  | 0x276 => some (execTlbinv x)
  | 0x277 => some (execAtq x)
  | 0x278 => some (execCtxsv x)
  | 0x279 => some (execCtxrs x)
  | 0x27A => some (execKeyslot x)
  | 0x27B => some (execScanrq x)
  | 0x27C => some (execHalt x)
  | 0x27D => some (execResume x)
  | 0x27E => some (execLanesel x)
  | 0x27F => some (execIpifw x)
  | 0x280 => some (execWgkill x)
  | 0x281 => some (execQkill x)
  | 0x290 => some (execBkpt x)
  | 0x291 => some (execStamp x)
  | 0x292 => some (execBearq x)
  | 0x293 => some (execProgq x)
  | 0x294 => some (execTrcon x)
  | 0x295 => some (execTrcoff x)
  | 0x296 => some (execTrcsel x)
  | _ => none

/-- Opcodes of format R. -/
def issueR (opc : Nat) (x : RForm) : Option (State → Host.Outcome State Fault Refusal) :=
  if opc < 0x0C0 then issueRCore opc x else if opc < 0x140 then issueRFloat opc x else if opc < 0x240 then issueRUnits opc x
  else issueRSystem opc x

/-- Opcodes of format I (R59). -/
def issueI (opc : Nat) (x : IForm) : Option (State → Host.Outcome State Fault Refusal) :=
  match opc with
  | 0x060 => some (execMovi x)
  | _ => none

/-- Opcodes of format M (R60). -/
def issueM (opc : Nat) (x : MForm) : Option (State → Host.Outcome State Fault Refusal) :=
  match opc with
  | 0x14B => some (execTld x)
  | 0x14C => some (execTst x)
  | 0x180 => some (execLd x)
  | 0x181 => some (execSt x)
  | 0x182 => some (execLdv x)
  | 0x183 => some (execStv x)
  | 0x184 => some (execLdp x)
  | 0x185 => some (execStp x)
  | 0x186 => some (execLdu x)
  | 0x187 => some (execStu x)
  | 0x188 => some (execGath x)
  | 0x189 => some (execScat x)
  | 0x18A => some (execLdnf x)
  | 0x18B => some (execNld x)
  | 0x18C => some (execNst x)
  | 0x18D => some (execNldu x)
  | 0x18E => some (execNstu x)
  | 0x18F => some (execNsetf x)
  | 0x190 => some (execCld x)
  | 0x191 => some (execCldu x)
  | 0x192 => some (execSmpl x)
  | 0x193 => some (execPref x)
  | 0x194 => some (execPrefu x)
  | 0x195 => some (execCwb x)
  | 0x1E4 => some (execLds x)
  | 0x1E5 => some (execSts x)
  | 0x1E6 => some (execAtom x)
  | 0x1E7 => some (execAtomu x)
  | 0x1E8 => some (execCas x)
  | 0x1E9 => some (execRed x)
  | 0x274 => some (execPld x)
  | 0x275 => some (execPst x)
  | _ => none

/-- Opcodes of format B (R61). -/
def issueB (opc : Nat) (x : BForm) : Option (State → Host.Outcome State Fault Refusal) :=
  match opc with
  | 0x002 => some (execBra x)
  | 0x003 => some (execBrx x)
  | 0x004 => some (execCall x)
  | 0x005 => some (execCallx x)
  | 0x006 => some (execRet x)
  | 0x009 => some (execJoin x)
  | 0x00A => some (execLoop x)
  | 0x00B => some (execBrau x)
  | _ => none

/-- Opcodes of format A (R62). -/
def issueA (opc : Nat) (x : AForm) : Option (State → Host.Outcome State Fault Refusal) :=
  match opc with
  | 0x140 => some (execMma x)
  | 0x144 => some (execMlda x)
  | 0x145 => some (execMsta x)
  | 0x149 => some (execMptb x)
  | 0x14A => some (execMfmt x)
  | 0x220 => some (execCpy x)
  | 0x221 => some (execCpyo x)
  | 0x222 => some (execCpyt x)
  | 0x223 => some (execCpyq x)
  | 0x224 => some (execCpymc x)
  | _ => none

/-- Opcodes of format S (R63). -/
def issueS (opc : Nat) (x : SForm) : Option (State → Host.Outcome State Fault Refusal) :=
  match opc with
  | 0x270 => some (execMfsr x)
  | 0x271 => some (execMtsr x)
  | _ => none

/-- The meaning of opcode and fields; `none` for a reserved opcode and for fields of another format. -/
def meaningOf (opc : Nat) (f : Form) : Option (State → Host.Outcome State Fault Refusal) :=
  match f with
  | .r x => issueR opc x
  | .i x => issueI opc x
  | .m x => issueM opc x
  | .b x => issueB opc x
  | .a x => issueA opc x
  | .s x => issueS opc x

/-- An IOP given as opcode and fields runs; what is no IOP leaves the issue slot, which no decoded word asks for. -/
def runParts (p : Nat × Form) (s : State) : Host.Outcome State Fault Refusal :=
  match meaningOf p.1 p.2 with
  | some f => f s
  | none => .next { s with cur := none }

end Sys2Proof.Machine
end

