-- ==== Sys2Proof/Machine/Schedule.lean ====
section
/-!
DEFINITION. What may happen next (R37-R40, R143-R145): the steps of the machine that a state may enable, the fetches and resumptions of paths,
and what the scheduler notes of each cycle.
-/

namespace Sys2Proof.Machine

/-! ### What the scheduler notes -/

/-- A competing pair has its age from the cycle in which it became runnable (R143). -/
def noteAge (s : State) (w : Nat) (x : Warp) (p : Nat) (q : Path) : Path :=
  if competes s w p x q then (if q.age.isNone then { q with age := some s.clock } else q) else if q.age.isNone then q else { q with age := none }

/-- An activatable warp has its place in line from the cycle in which it became so (R342). -/
def noteWaiting (s : State) (w : Nat) (x : Warp) : Warp :=
  if activatable s w x then (if x.waitingSince.isNone then { x with waitingSince := some s.clock } else x)
  else if x.waitingSince.isNone then x else { x with waitingSince := none }

/-- What the scheduler notes in a cycle. -/
def noteRunnable (s : State) : State :=
  { s with warps := s.warps.map fun (w, x) =>
      let y := noteWaiting s w x
      (w, { y with regs := { y.regs with paths := y.regs.paths.map fun (p, q) => (p, noteAge s w x p q) } }) }

/-! ### Paths -/

/-- A path that stands between clauses prepares to compete: it fetches, or it waits for the flags of its header (R70, R275). -/
def preparePath (w p : Nat) (s : State) : Option State :=
  match s.warp? w, s.path? w p with
  | some x, some q =>
    if mayStart s x && q.clause.isNone && !q.park && !q.halted && !q.stopped && q.free s w x p then
      match fetchAt s w p x q with
      | .first t => some t
      | .word g w8 => (match headerOf g with
          | some (h, n) =>
            if headerBad h x || x.regs.flagsClear h.waits || q.wait.isSome then none else some (applyHeader s w p h n w8)
          | none => none)
      | .bad _ _ | .filling => none
    else none
  | _, _ => none

/-- An urgent candidate of a half keeps slices from every clause that would use them (R144). -/
def urgentKeeps (s : State) (core half slices : Nat) : Bool :=
  (halfCandidates s core half).any fun c => c.key.urgent && c.slices &&& slices != 0

/-- The clause of a path may go on: nothing holds the path, and where a long wait had given up its slices they are free again (R37, R141). -/
def mayGoOn (s : State) (w p : Nat) (x : Warp) (q : Path) : Bool :=
  match x.place with
  | none => false
  | some pl =>
    q.clause.isSome && !x.arriving && !x.released && q.free s w x p
      && (if q.running x.regs.ctxf then
            (x.trap.bind (·.lane)).isNone
              && (match x.kind with
                | .trapLane t => ((s.warp? t).map fun y => (y.trap.bind (·.inner)).isNone).getD false
                | _ => true)
          else mayStart s x && !q.park && !q.halted && !q.stopped && busySlices s pl.core pl.half &&& sliceSet q.lmask == 0
            && !urgentKeeps s pl.core pl.half (sliceSet q.lmask))
      && (match fetchAt s w p x q with | .filling => false | _ => true)

/-- A path's instruction is a progressive one that runs again with its restart record (R279). -/
def Path.replays (q : Path) : Bool :=
  (match q.wait with | some (.requests _ []) => true | _ => false) && q.restarts

/-! ### The scalar unit (R145) -/

/-- An IOP issues on the half's scalar unit: U = 1, or an opcode that acts once per path there (R166, R229, R267, R307, R320, R350, R387, R394,
R418). -/
def scalarOp (p : Nat × Form) : Bool :=
  let o := p.1
  let within (lo hi : Nat) : Bool := decide (lo ≤ o) && decide (o ≤ hi)
  p.2.u || o == 0x141 || o == 0x142 || within 0x149 0x14D || within 0x184 0x187 || o == 0x18D || o == 0x18E || o == 0x191 || o == 0x194
    || within 0x1E0 0x1E3 || o == 0x1E7 || within 0x1EA 0x1F1 || o == 0x220 || within 0x222 0x227 || o == 0x231 || within 0x233 0x237
    || within 0x251 0x258 || within 0x260 0x267 || within 0x272 0x281 || within 0x290 0x296
    || (match p.2 with | .s x => !selLane x.sel.toNat | _ => false)

/-- A guest word has an IOP for the scalar unit. -/
def guestScalar : Guest → Bool
  | .row i _ => ((i.expansion.getD i).parts.map scalarOp).getD false
  | .slots is _ => is.any scalarOp
  | _ => false

/-- A path of a clause that runs has come to an IOP for the scalar unit. -/
def atScalar (s : State) (w p : Nat) (x : Warp) (q : Path) : Bool :=
  mayGoOn s w p x q && q.running x.regs.ctxf && (match fetchAt s w p x q with | .word g _ => guestScalar g | _ => false)

/-- A running clause with its keys of R143. -/
def running (w p : Nat) (x : Warp) (q : Path) : Candidate :=
  { w := w, p := p, slices := sliceSet q.lmask, key := (q.clause.map (·.key)).getD {}, slot := x.slot }

/-- The next guest instruction of a path does not overtake one that comes before it on its half's scalar unit: where clauses that run have each
come to one, they issue in the order of R143 (R145). -/
def scalarFirst (s : State) (w p : Nat) (x : Warp) (q : Path) : Bool :=
  match x.place with
  | none => true
  | some pl =>
    !atScalar s w p x q || (here s pl.core pl.half).all fun y => y.2.regs.paths.all fun r =>
      (y.1 == w && r.1 == p) || !(atScalar s y.1 r.1 y.2 r.2 && (running y.1 r.1 y.2 r.2).before (running w p x q))

/-- The issuing path may issue its next guest instruction. -/
def mayIssueNext (s : State) : Bool :=
  match s.cur with
  | none => false
  | some k => match s.warp? k.w, s.path? k.w k.p with
    | some x, some q => scalarFirst s k.w k.p x q
    | _, _ => true

/-- A path whose clause goes on issues next. -/
def goOn (w p : Nat) (s : State) : Option State :=
  match s.warp? w, s.path? w p with
  | some x, some q => if mayGoOn s w p x q && !q.replays && scalarFirst s w p x q then some { s with cur := some { w := w, p := p } } else none
  | _, _ => none

/-! ### Steps of the machine -/

/-- A step that a state may enable: the meaning of an instruction of the model that no path issues. -/
abbrev Event := State → Host.Outcome State Fault Refusal

/-- Granules that an instruction of a path still waits for. -/
def waitedGranules (q : Path) : List Nat :=
  match q.wait with
  | some (.granules _ todo _) => NSet.insertAll [] (todo.map fun e => e.off / 16)
  | _ => []

/-- The steps that a warp may take next. -/
def warpEvents (w : Nat) (x : Warp) : List Event :=
  (match x.trap with
    | some t => execTrapEntry w :: (match t.inner with | some code => [execTrapnest w code 0] | none => [])
    | none => [])
  ++ (if x.arriving then [execActivationComplete w] else [])
  ++ (if x.leaving then [execEvictionCommit w] else [])
  ++ [execWarpRelease w, execUiDelivery w]
  ++ (match x.nextMove with
    | some (.refill n) => [execRefillArrive w n]
    | some (.spill n) => [execFoehnSpillComplete w n]
    | some (.miss p) => [execRegisterCacheMiss w p]
    | none => [])
  ++ x.regs.paths.flatMap fun (p, q) =>
      [execParkReleaseTimeout w p, execPathUrgent w p, execSleepTimeout w p, execUiwaitTimeout w p, execProgressiveReplay w p,
        execClauseStart w p] ++ (waitedGranules q).map fun n => execNearstoreGranuleStep w p n

/-- The steps of the memory system. -/
def memoryEvents (s : State) : List Event :=
  s.inflight.map (fun r => execMemoryReadReturn r.rid)
  ++ s.held.map (fun h => if h.exec.isSome then execExecPageStore h.wid else execWritePerform h.wid)
  ++ s.walks.map (fun k => execWalkComplete k.k) ++ s.fills.map (fun f => execGazetteerFill f.k)

/-- The steps of the engines, the streamers, the barrier networks and the interrupt engine. -/
def engineEvents (s : State) : List Event :=
  s.barriers.map (fun b => execBarrierPhaseComplete b.key) ++ s.eng.credits.map (fun c => execTbCredit c.k)
  ++ (NSet.insertAll [] (s.eng.copies.map (·.cluster))).map (fun c => execCopyStart c)
  ++ s.eng.copies.flatMap (fun c => [execCopyChunk c.id, execCopyComplete c.id])
  ++ s.eng.queue.flatMap (fun o => o.need.map fun n => execTileFetchArrive o.id n.1)
  ++ (NSet.insertAll [] (s.eng.queue.map (·.core))).map (fun c => execEngineOpComplete c)
  ++ s.ui.sends.map (fun x => execUiSendArrive x.k)

/-- The steps of work distribution, activation and eviction. -/
def workEvents (s : State) : List Event :=
  s.work.nodes.flatMap (fun q => [execNodeWarpFormCount q.1, execNodeTimer q.1, execNodePartRetry q.1])
  ++ s.work.queues.map (fun q => execDispatchPacket q.1)
  ++ s.work.grids.flatMap (fun g => execGridComplete g.1 :: (List.range 4).map fun die => execWorkgroupPlace g.1 die)
  ++ (NSet.insertAll [] (s.wgs.map fun g => g.2.cluster)).flatMap (fun c => [execActivation c, execEvictionStart c])

/-- Limiters that have room in their buckets. -/
def limitersOpen (s : State) : List Nat :=
  (s.sys.limits.filter fun l => decide (s.sys.tokens.get 0 l.1 < l.2.toNat / 2 ^ 24 % 2 ^ 16)).map (·.1)

/-- Die 0's firmware core has stopped (R414, R440). -/
def firmwareStopped (s : State) : Bool :=
  s.sys.fostat == 0 && s.warps.any fun x => x.2.kind == .firmware 0 && x.2.released

/-- The steps of the system: reports, scans, samples, limiters, flips, saves, grace periods, failover, and requests to firmware whose
code names a service. -/
def systemEvents (s : State) : List Event :=
  s.reports.map (fun r => execRingReportPost r.vf r.ring) ++ s.sys.scans.map (fun r => execScanComplete r.die)
  ++ s.sys.fwcore.map (fun d => execIsobarSample d.1) ++ s.dbg.rings.map (fun r => execTraceSample r.1)
  ++ (limitersOpen s).map (fun k => execRateLimiterRefill (k / 256) (k % 256))
  ++ (s.pkg.flips.filter (·.2.busy)).map (fun f => execFlipComplete f.1)
  ++ s.sys.saves.map (fun r => execCtxsvSave r.1) ++ s.sys.graceEnd.map (fun g => execGraceExpiry g.1)
  ++ (if firmwareStopped s then [execFirmwareFailover] else [])
  ++ ((nextRequest s).bind fun r => serviceOf r.1 r.2).toList

/-- The steps of the machine that a state may enable. -/
def events (s : State) : List Event :=
  s.warps.flatMap (fun x => warpEvents x.1 x.2) ++ memoryEvents s ++ engineEvents s ++ workEvents s ++ systemEvents s

/-- The state after a step of the machine that no path issues, when the state enables it. -/
def eventNext (e : Event) (s : State) : Option State :=
  match e { s with cur := none } with
  | .next t => some t
  | _ => none

/-- A warp of which every lane has exited is released in the first cycle in which nothing of it is left to wait for (R162). -/
def releaseNext (s : State) : Option State := s.warps.findSome? fun x => eventNext (execWarpRelease x.1) s

/-- What firmware does with a request whose code names no service. -/
def unknownRequest (s : State) : List State :=
  match nextRequest s with
  | some (svc, r) => if (serviceOf svc r).isNone then [serveUnknown svc r { s with cur := none }] else []
  | none => []

/-- What the paths may do besides starting a clause. -/
def pathMoves (s : State) : List State :=
  s.warps.flatMap fun x => x.2.regs.paths.flatMap fun q =>
    (preparePath x.1 q.1 { s with cur := none }).toList ++ (goOn x.1 q.1 { s with cur := none }).toList

/-- The states that the machine may go to next without an input, apart from the issue of the next guest instruction of `State.cur`. -/
def moves (s : State) : List State :=
  (events s).filterMap (fun e => eventNext e s) ++ unknownRequest s ++ pathMoves s

/-- The move that comes next; `mayIssue` adds one choice, that none of them does (notes/assumptions/2.md). -/
def chooseMove (s : State) (mayIssue : Bool) : Option State :=
  let ms := moves s
  if ms.isEmpty then none else ms[Config.schedule s.fresh % (ms.length + mayIssue.toNat)]?

end Sys2Proof.Machine
end

