-- ==== Sys2Proof/Machine/Step.lean ====
section
/-!
DEFINITION. The step of the machine: an input, the next slot of a guest instruction, the next guest instruction of the issuing path, or a
step that the state enables; then the clock moves on.
-/

namespace Sys2Proof.Machine

/-- A function on the next state of an outcome. -/
def onNext (f : State → State) : Host.Outcome State Fault Refusal → Host.Outcome State Fault Refusal
  | .next t => .next (f t)
  | .fault r => .fault r
  | .refused r => .refused r

/-- The scheduler notes who has become runnable in this cycle, and time passes. -/
def tick (s : State) : State :=
  let s := noteRunnable s
  { s with clock := s.clock + 1 + Config.stepCycles s.fresh, fresh := s.fresh + 1 }

/-! ### The issue of a guest instruction -/

/-- The path stands between guest instructions. -/
def Cur.atBoundary (k : Cur) : Bool := k.rest.isEmpty && k.done == 0

/-- The slots of an expansion run in order (R103). -/
def runSlots (x : Warp) (k : Cur) (slots : List (Nat × Form)) (bytes : Nat) (s : State) : Host.Outcome State Fault Refusal :=
  match slots with
  | [] => .next { s with cur := none }
  | [p] => runParts p { s with cur := some { k with len := bytes } }
  | p :: rest => runParts p { s with cur := some { k with len := bytes, rest := rest, undo := some (x.regs.p, x.regs.srst) } }

/-- A decoded guest word runs (R39, R92, R108). -/
def runGuest (x : Warp) (k : Cur) (g : Guest) (w8 : Nat) (s : State) : Host.Outcome State Fault Refusal :=
  match g with
  | .header h n => header h n (w8 % 2 ^ (8 * n)) s
  | .row i n => exec i { s with cur := some { k with len := n } }
  | .emu e => execEmulationTrap e { s with cur := some { k with len := e.bits / 8 } }
  | .slots l n => runSlots x k l n s

/-- A guest word would carry the path's implicit clause past 24 IOPs, so that the clause ends before it (R39). -/
def overfull (q : Path) (g : Guest) : Bool :=
  match q.clause with
  | some c => c.implicit && decide (c.iops < guestIops g)
  | none => false

/-- SKIPM clears when the match that it passes has issued; an instruction that still waits for its operands has not (R449). -/
def passMatch (k : Cur) (q : Path) (t : State) : State :=
  t.modPath k.w k.p fun r => if r.pc == q.pc && (r.wait.map fun wt => !wt.begun).getD false then r else { r with skip := false }

/-- The guest instruction at the PC of the issuing path. -/
def fetchAndRun (x : Warp) (q : Path) (k : Cur) (s : State) : Host.Outcome State Fault Refusal :=
  match fetchAt s k.w k.p x q with
  | .bad code info => .next (raiseFault s k.w k.p code info)
  | .first t => .next { t with cur := none }
  | .filling => .next { s with cur := none }
  | .word g w8 =>
    if overfull q g then .next (clauseBoundary (endClause s k.w k.p) k.w)
    else runGuest x { k with due := false } g w8 (s.modPath k.w k.p (learn s x))

/-- The issuing path issues: the next slot of its guest instruction, or its next guest instruction, unless a comparator matches there
(R449). -/
def issueNext (k : Cur) (s : State) : Host.Outcome State Fault Refusal :=
  match k.rest with
  | p :: rest => runParts p { s with cur := some { k with rest := rest } }
  | [] =>
    match s.warp? k.w, s.path? k.w k.p with
    | some x, some q =>
      match breakingComparator s with
      | none => fetchAndRun x q k s
      | some n => if q.skip then onNext (passMatch k q) (fetchAndRun x q k s) else execComparatorMatch k.w k.p n s
    | _, _ => .next { s with cur := none }

/-- A step that is chosen, or none that comes before the issue of the next guest instruction. -/
def chosen (s : State) : Option (Host.Outcome State Fault Refusal) := (chooseMove s (mayIssueNext s)).map .next

/-- What comes before the issue of the next guest instruction: the release of a warp, an input, or a step that the state enables and that is
chosen. An input whose accesses meet a page in flip waits for the flip to end (R291; DEDUCED, notes/assumptions/60.md). -/
def before (s : State) : Option (Host.Outcome State Fault Refusal) :=
  match releaseNext s, s.agenda with
  | some t, _ => some (.next t)
  | none, [] => chosen s
  | none, i :: rest =>
    match exec i { s with agenda := rest, cur := none } with
    | .fault .notEnabled => if s.flips.isEmpty then some (.fault .notEnabled) else chosen s
    | r => some r

/-- What happens in a step. -/
def act (s : State) : Host.Outcome State Fault Refusal :=
  match s.cur with
  | some k =>
    if k.due || !k.atBoundary then issueNext k s
    else (before s).getD (issueNext k s)
  | none => (before s).getD (.next s)

/-- One step of the machine. -/
def step (s : State) : Host.Outcome State Fault Refusal := onNext tick (act s)

/-! ### The next fetched word -/

/-- The eight bytes of a word whose bits above `nbits` are zero, in the order of memory. -/
def wordBytes (nbits w : Nat) : List Byte := leBytes 8 (w % 2 ^ nbits)

/-- The warp, path and their numbers that step fetches for next: those of `State.cur`, or else a new warp on core 0 with one path of 32 lanes
and a window of 64 slots, all of them in the register cache. -/
def fetchPath (s : State) : Nat × Nat × Warp × Path :=
  let fresh : Nat × Nat × Warp × Path :=
    let r : Regs := { v := (List.range 64).map fun n => (n, zeroRow), decl := 0x00FF000000000000, srst := launchSrstate, dorm := 0 }
    (s.nextId, 0, { regs := r, place := some { core := 0, half := 0, slot := 0 }, fresh := false }, { pc := 0x1000, lmask := 0xFFFFFFFF, wtop := 64 })
  match s.cur with
  | none => fresh
  | some k => match s.warp? k.w, s.path? k.w k.p with
    | some x, some q => if x.privileged then fresh else (k.w, k.p, x, q)
    | _, _ => fresh

/-- The personality of a word of the opcode table: J16, J32 or J64 by its bits. -/
def wordPid (nbits : Nat) : Nat := if nbits = 16 then 2 else if nbits = 32 then 1 else 0

/-- `s` with a word of `nbits` bits at the PC of the path that issues next: in the Gazetteer under the personality of the word, which is resident,
with the page's translation in the TLB of the path's core. The path runs an implicit clause, its PC is aligned, no comparator stops it, its
page is in no flip, and no other step comes first. The model's way to place a word, not the manual's (notes/assumptions/8.md). -/
def State.withFetchWord (s : State) (nbits w : Nat) : State :=
  let (n, p, x, q) := fetchPath s
  let pid := wordPid nbits
  let pc : BitVec 57 := BitVec.ofNat 57 (q.pc.toNat / 64 * 64)
  let page := pc.toNat / 4096
  let q := { q with pc := pc, pcHi := 0, clause := some implicitClause, wait := none, notes := [], skip := true }
  let e : GazEntry := { cluster := clusterOf x.core, pid := pid, vf := x.vf, asid := x.asid, line := pc.toNat / 64
                        bytes := wordBytes nbits w ++ List.replicate 120 0 }
  let t : TlbEntry := { home := .core x.core, vf := x.vf, asid := x.asid, glob := false, vbase := 4096 * page, pbase := 4096 * (page % 2 ^ 26)
                        size := 4096, r := true, w := false, x := true, ctx := false, sv := true, pid := pid, dirty := false }
  { s with nextId := max s.nextId (n + 1)
           warps := s.warps.insert n { x with regs := { x.regs with paths := x.regs.paths.insert p q } }
           gaz := e :: s.gaz
           tlb := t :: s.tlb
           flips := s.flips.filter (· != page % 2 ^ 26)
           personalities := s.personalities.insert pid { s.personalities.get {} pid with resident := true }
           cur := some { w := n, p := p, due := true } }

end Sys2Proof.Machine
end

