-- ==== Sys2Proof/Safety.lean ====
section
/-!
DEFINITION. The terms that claims are stated in: when an IOP runs to its own effect, what completes it, and what it leaves as it was.
-/

namespace Sys2Proof.Machine

/-- A meaning. -/
abbrev Run := State → Host.Outcome State Fault Refusal

/-- An IOP runs to its own effect: it is legal, its path issues it in the mode that it needs (R413, R416), its registers lie in the window (R148) with
no write outstanding (R39), and the slots that it needs are in the register cache (R347). `c` is its context. -/
abbrev Ready (opc : Nat) (f : Form) (s : State) (c : Ctx) : Prop :=
  s.cur = some c.cur ∧ c.w = c.cur.w ∧ c.p = c.cur.p ∧ s.warp? c.w = some c.warp ∧ c.warp.regs.paths.find? c.p = some c.path
    ∧ c.opc = opc ∧ c.f = f ∧ c.sh = (shape opc f).getD {}
    ∧ legal opc f = true ∧ (isPrivileged opc = true → c.warp.privileged = true)
    ∧ (c.warp.privileged = true → privilegedSubset opc f c.sh = true)
    ∧ (c.act ≠ 0 → beyondWindow c.path (iopRegs c.path f c.sh) = none)
    ∧ (∀ r ∈ iopRegs c.path f c.sh, r ∉ busyRegs s c.w)
    ∧ (c.act ≠ 0 → ∀ n ∈ neededSlots c.path f c.sh, c.warp.holds n = true)

/-- The state after the instruction with effect `t`: PROG counts it, the PC moves past it, and its clause goes on or ends (R39, R450); an earlier
slot of an expansion only makes way for the next. -/
def Completed (c : Ctx) (t : State) : State := finish c t (.done t)

/-- The state after an instruction that has placed its paths itself. -/
def Transferred (c : Ctx) (t : State) : State := finish c t (.moved t)

/-- After the first slot of a row whose first slot writes k0 in every lane (R124). -/
def firstSlot (x : Word32) (s : State) : State :=
  { s with cur := s.cur.map fun k => { k with k := [(0, Row.ofFn fun _ => x)], done := 1 } }

/-- Under `when`, the IOP completes with the effect `next`. -/
def Completes (run : Run) (opc : Nat) (f : Form) (when_ : Ctx → State → Prop) (next : Ctx → State → State) : Prop :=
  ∀ s c, Ready opc f s c → when_ c s → run s = .next (Completed c (next c (prepare c s)))

/-- A row of two slots: the first has written k0, and the second completes with the effect `next` (R103, R124). -/
def CompletesSecond (run : Run) (k0 : Word32) (opc : Nat) (f : Form) (next : Ctx → State → State) : Prop :=
  ∀ s c, Ready opc f (firstSlot k0 s) c → run s = .next (Completed c (next c (prepare c (firstSlot k0 s))))

/-- Under `when`, the control transfer completes with the effect `next`. -/
def Transfers (run : Run) (opc : Nat) (f : Form) (when_ : Ctx → State → Prop) (next : Ctx → State → State) : Prop :=
  ∀ s c, Ready opc f s c → when_ c s → run s = .next (Transferred c (next c (prepare c s)))

/-- Under `when`, the IOP takes the fault with no effect of its own: its path traps in place (R410, R411). -/
def Faults (run : Run) (opc : Nat) (f : Form) (when_ : Ctx → State → Prop) (code : FaultCode) (info : Ctx → State → Word64) : Prop :=
  ∀ s c, Ready opc f s c → when_ c s → run s = .next (faultAt s c code (info c s))

/-- Under `when`, the IOP has the effect `next` and its path waits in place. -/
def Waits (run : Run) (opc : Nat) (f : Form) (when_ : Ctx → State → Prop) (next : Ctx → State → State) (wait : Ctx → State → Wait) : Prop :=
  ∀ s c, Ready opc f s c → when_ c s → run s = .next (finish c s (.wait (next c (prepare c s)) (wait c (prepare c s))))

/-- The number whose bits 0 to 63 are given by `f`. -/
def maskOf64 (f : Nat → Bool) : Nat := ((List.range 64).map fun i => if f i then 2 ^ i else 0).sum

/-- No condition. -/
def always (_ : Ctx) (_ : State) : Prop := True

/-- The lane values of an IOP written to its destination: lanes of a vector, or a uniform from the lowest lane (R173). -/
def lanesTo (value : Ctx → Nat → Word64) (c : Ctx) (s : State) : State :=
  if c.f.u then (if c.guard0 then writeD s c 0 (value c) else s) else writeD s c c.act (value c)

/-- A truth value of each lane written to predicate D (R165, R173). -/
def predTo (value : Ctx → Nat → Bool) (c : Ctx) (s : State) : State :=
  if c.f.u then (if c.guard0 then writePred s c c.f.d.toNat 0xFFFFFFFF (if value c c.lane0 then 0xFFFFFFFF else 0) else s)
  else writePred s c c.f.d.toNat c.act (maskOf (value c))

/-- The patterns and flags of a floating-point IOP: D takes the patterns, GSTAT the flags, SRSTATE the states (R199, R201). -/
def floatTo (f : Ctx → Nat → FLane → Nat × FLane) (c : Ctx) (s : State) : State :=
  let outs := c.floatLanes (f c)
  keepLanes c (lanesTo (fun _ l => BitVec.ofNat 64 (laneValue 0 (outs.map fun o => (o.1, o.2.1)) l)) c s) (outs.map fun o => (o.1, o.2.2))

/-- An integer result under the type of the IOP: 64 bits, or the low 32 extended by the type (R171). -/
def Ctx.typed (c : Ctx) (x : Word64) : Word64 :=
  if c.w64 then x else if c.ty.signed then (x.truncate 32 : Word32).signExtend 64 else (x.truncate 32 : Word32).zeroExtend 64

/-! ### Memory operands -/

/-- What a path's translation of an element gives when a TLB of its core or cluster serves it (R272, R273). -/
def hit (s : State) (c : Ctx) (kind : Access) (e : Access1) : Option Access2 :=
  match lookupVa s c.warp c.path e.va kind with
  | .ok pa x => some { lane := e.lane, va := e.va, pa := pa, exec := x }
  | _ => none

/-- The translated elements. -/
def hits (s : State) (c : Ctx) (kind : Access) (es : List Access1) : List Access2 := es.filterMap (hit s c kind)

/-- The instruction has elements, all are in range and aligned (R264), and a TLB serves each of them. -/
abbrev Reaches (s : State) (c : Ctx) (kind : Access) (align : Nat) (es : List Access1) : Prop :=
  es.isEmpty = false ∧ (eaFault es align).isNone = true ∧ (es.all fun e => (hit s c kind e).isSome) = true

/-- None of the bytes read is poisoned (R292). -/
abbrev Clean (s : State) (n : Nat) (es : List Access2) : Prop := (es.all fun e => !poisoned s e.pa n) = true

/-- The path waits for nothing, none of its reads is in flight, and no store of the package waits to perform. -/
abbrev Quiet (s : State) (c : Ctx) : Prop := c.path.wait = none ∧ pendingReads s c.w c.path.lmask = [] ∧ s.held = []

/-- Lines enter the core's L1. Where its publish buffer has no room the core passes a boundary at `.pod` first; none where the refresh of that
boundary must wait for a read of the path (R259, R300). -/
def entered (c : Ctx) (s : State) (next : Bool) (lines : List Nat) : Option State :=
  match l1FillAll s c.warp.core next lines with
  | (t, false) => some t
  | _ =>
    let s := boundary s c.warp.core .pod
    if pendingReads s c.w c.path.lmask = [] then some (l1FillAll (refresh s c.warp.core .pod) c.warp.core next lines).1 else none

/-- The lines of a weak read enter the caches that its path and its qualifier name (R258, R281, R284). -/
def cached (c : Ctx) (s : State) (q : Chan) (qual : Nat) (pas : List Nat) : Option State :=
  let s := (linesOf pas).foldl (fun s l => llcRead s (dieOf c.warp.core) l) s
  if q = .con then some ((linesOf pas).foldl (fun s l => conFill s (clusterOf c.warp.core) l) s)
  else if qual = 2 then some s
  else entered c s (qual == 1) (l1Lines false pas)

/-- The state after a weak read's lines have entered the caches. -/
def withCached (c : Ctx) (s : State) (q : Chan) (qual : Nat) (pas : List Nat) : State := (cached c s q qual pas).getD s

/-- The state in which an access runs: where its path has waited for its earlier reads, the refresh of the boundary that its core passed comes
first (R259, R300). -/
def begun (c : Ctx) (s : State) : State :=
  match c.path.wait with
  | some (.reads _) => refresh s c.warp.core .pod
  | _ => s

/-- Under `when`, which the state in which the access runs meets, the access completes with the effect `next`. -/
def Accesses (run : Run) (opc : Nat) (f : Form) (when_ : Ctx → State → Prop) (next : Ctx → State → State) : Prop :=
  ∀ s c, Ready opc f s c → when_ c (begun c (prepare c s)) → run s = .next (Completed c (next c (begun c (prepare c s))))

/-- A weak GEN read at issue of `n` bytes within one line that a TLB serves and that are not poisoned: the state after it, and the bytes
(R264, R292). -/
def fetched (c : Ctx) (s : State) (va n : Nat) : Option (State × List Byte) :=
  if 2 ^ 57 ≤ va then none
  else (hit s c .read { lane := c.lane0, va := va }).bind fun x =>
    if poisoned s x.pa n then none
    else (cached c s .gen 0 [x.pa]).map fun t => weakNow t c.warp.core .gen x.pa n

/-- A legal operand descriptor with its codebook, from the format-block cache or from memory, and the state after it (R218, R253). -/
def described (c : Ctx) (s : State) (va : Nat) (t : Option ElemType) : Option (State × (List Byte × List Byte)) :=
  match cachedDesc s c.warp va with
  | some d =>
    if descCheck d.1 t ≠ none ∨ (descFmt d.1 == .cb4 && bookBad d.2) = true then none else some (cacheDesc s c.warp va d, d)
  | none =>
    (fetched c s va 32).bind fun r =>
      if descCheck r.2 t ≠ none then none
      else if descFmt r.2 = .cb4 then
        (fetched c r.1 (descBook r.2) 32).bind fun k =>
          if bookBad k.2 then none else some (fillBlock c k.1 va (r.2, k.2), (r.2, k.2))
      else some (fillBlock c r.1 va (r.2, []), (r.2, []))

/-! ### The engine queue -/

/-- The engine queue of the core has an entry, and the IOP's flag can count one more operation (R226, R338). -/
abbrev Room (c : Ctx) (s : State) : Prop := (s.eng.queue.filter (·.core == c.warp.core)).length < 32 ∧ c.flagFull = none

/-- The operation in the engine queue of its core, under its flag, and in the open batch of its warp if its class has batches (R226, R247,
R338). -/
def enqueued (kind : EngineKind) (batch : Bool) (need : List (Nat × Nat)) (c : Ctx) (s : State) : State :=
  let o : EngineOp :=
    { id := s.nextId, core := c.warp.core, warp := c.w, lanes := c.act, kind := kind, flag := c.setFlag, batch := batch, need := need
      after := c.path.after, issued := s.clock, ready := s.clock }
  let s := attachFlag { s with nextId := s.nextId + 1, eng := { s.eng with queue := s.eng.queue ++ [o] } } c
  if batch then s.modWarp c.w fun x =>
    let b := x.openBatch
    x.setOpen { b with ops := b.ops ++ [o.id], nops := b.nops + 1
                       times := { b.times with tin0 := if need.isEmpty then b.times.tin0 else b.times.tin0.or (some s.clock) } }
  else s

/-- The condition holds of the state in which the IOP has taken its slots into use (R347). -/
def prepared (p : Ctx → State → Prop) (c : Ctx) (s : State) : Prop := p c (prepare c s)

/-- The path waits for nothing, and once its core has published at the scope nothing is left to perform (R300). -/
abbrev Released (c : Ctx) (s : State) (sc : Scope) : Prop :=
  c.path.wait = none ∧ publishedWids (boundary s c.warp.core sc) c.warp.core = []

/-- The slots that an instruction uses beyond its operands have no write outstanding and are in the register cache (R39, R347). -/
abbrev SlotsReady (c : Ctx) (s : State) (slots : List Nat) : Prop :=
  (∀ n ∈ slots, Reg.slot n ∉ busyRegs s c.w) ∧ ((s.warp? c.w).all fun x => (absent x slots).isEmpty) = true

/-! ### Copies, node descriptors and call slots -/

/-- The copy queue of the cluster has an entry for the workgroup, and the IOP's flag can count one more operation (R319, R338). -/
abbrev CopyRoom (c : Ctx) (s : State) : Prop :=
  (s.eng.copies.filter (·.cluster == clusterOf c.warp.core)).length < 128
    ∧ ((s.eng.copies.filter (·.cluster == clusterOf c.warp.core)).filter (·.wg == c.warp.wg)).length < 32 ∧ c.flagFull = none

/-- The copy in the queue of its cluster, under its flag; a copy of no byte is not queued (R319, R324, R338). -/
def copying (kind : CopyKind) (n : Nat) (tb : Option Nat) (c : Ctx) (s : State) : State :=
  let x : Copy := { id := s.nextId, cluster := clusterOf c.warp.core, core := c.warp.core, warp := c.w, wg := c.warp.wg, vf := c.warp.vf
                    asid := c.warp.asid, kind := kind, n := n, tb := tb, flag := c.setFlag }
  if n = 0 then s else attachFlag { s with nextId := s.nextId + 1, eng := { s.eng with copies := s.eng.copies ++ [x] } } c

/-- A legal node descriptor that a TLB serves and that is not poisoned, and the state after its read (R380). -/
def noded (c : Ctx) (s : State) (va : Word64) (push form : Bool) : Option (State × NodeDesc) :=
  let e : Access1 := { lane := c.lane0, va := va.toNat }
  if eaFault [e] 64 = none then
    (hit s c .read e).bind fun x =>
      if poisoned s x.pa 64 then none
      else
        (entered c s false (l1Lines false [x.pa])).bind fun t =>
          let r := weakNow t c.warp.core .gen x.pa 64
          if nodeBad r.1 c.warp (parseNode va.toNat r.2) r.2 push form = none then some (r.1, parseNode va.toNat r.2) else none
  else none

/-- The parts of the warp's call slot, where a TLB serves it (R377). -/
def callParts (c : Ctx) (s : State) : Option (List SlotPart) :=
  let va := callSlotOf s c.warp
  let cut := cutRange 64 4 va 128
  let es : List Access1 := cut.map fun p => { lane := c.lane0, va := p.1 }
  if (es.all fun e => (hit s c .write e).isSome) = true then some ((cut.zip (hits s c .write es)).map fun x => (x.1.1 - va, x.1.2, x.2.pa))
  else none

/-! ### Steps of the machine and inputs -/

/-- Under `when_`, the step or input gives the state `next`. -/
def Happens (run : Run) (when_ : State → Prop) (next : State → State) : Prop := ∀ s, when_ s → run s = .next (next s)

/-- Under `when_`, the step or input gives a state that `post` relates to the one before it. -/
def Occurs (run : Run) (when_ : State → Prop) (post : State → State → Prop) : Prop := ∀ s, when_ s → ∃ t, run s = .next t ∧ post s t

/-- The state after a request of a VF has left its cluster: a limited VF has one token less (R439). -/
def charged (who : Option (Nat × Nat)) (s : State) : State :=
  match who with
  | none => s
  | some (cluster, vf) =>
    if (s.sys.limits.get 0 (limitKey cluster vf)).toNat % 2 ^ 16 = 0 then s
    else
      let n := s.sys.tokens.get 0 (limitKey cluster vf)
      { s with sys := { s.sys with tokens := s.sys.tokens.put 0 (limitKey cluster vf) (n - 1) } }

/-- A request of a VF may leave its cluster: its limiter has a token, or there is no limit (R439). -/
def Granted (who : Option (Nat × Nat)) (s : State) : Prop :=
  ∀ cluster vf, who = some (cluster, vf) →
    (s.sys.limits.get 0 (limitKey cluster vf)).toNat % 2 ^ 16 = 0 ∨ 0 < s.sys.tokens.get 0 (limitKey cluster vf)

/-! ### Services -/

/-- The request has been taken from its ring (R469). -/
def taken (r : SvcReq) (s : State) : State := s.modFunc r.caller fun g => { g with taken := g.taken + 1 }

/-- Firmware applies the request, which it has not answered before, and replies OK with the results (R440, R469). -/
def Serves (run : Run) (svc : Nat) (r : SvcReq) (when_ : State → Prop) (effect : State → State) (res : State → List Word64) : Prop :=
  ∀ s, s.sys.log.find? (logKey r) = none → r.clean = true → (s.pkg.recovery = true → svc = 0xF0) → when_ (taken r s)
    → run s = .next (answer (effect (taken r s)) r svc 0 (res (taken r s)))

/-- Firmware refuses the request with a status, and changes nothing else (R469). -/
def Refuses (run : Run) (svc : Nat) (r : SvcReq) (when_ : State → Prop) (status : Nat) : Prop :=
  ∀ s, s.sys.log.find? (logKey r) = none → r.clean = true → (s.pkg.recovery = true → svc = 0xF0) → when_ (taken r s)
    → run s = .next (answer (taken r s) r svc status [])

end Sys2Proof.Machine
end

