-- ==== Sys2Proof/Certificates/Slice0/Obligations.lean ====
section
/-!
DEFINITION. The statements for the provers.
-/

open Sys2Proof Sys2Proof.Machine

/-- R176, R177: the sums, in 64-bit arithmetic of the operand words, narrowed by the type; `.sat` clamps the exact result. -/
def Obligations.IntegerSums : Prop :=
  let a (c : Ctx) (l : Nat) : Word64 := c.srcA l
  let b (c : Ctx) (l : Nat) : Word64 := c.srcB c.ty.signed l
  let z (c : Ctx) (l : Nat) : Word64 := c.srcC c.ty.signed l
  let sat (e : Ctx → Nat → Int) (x : Ctx → Nat → Word64) : Ctx → Nat → Word64 := fun c l =>
    if c.q = 1 then c.typed (BitVec.ofInt 64 (max c.lo (min c.hi (e c l)))) else c.typed (x c l)
  let sum := sat (fun c l => c.num (a c l) + c.num (b c l)) fun c l => a c l + b c l
  let difference := sat (fun c l => c.num (a c l) - c.num (b c l)) fun c l => a c l - b c l
  let negation := sat (fun c l => -c.num (a c l)) fun c l => -a c l
  let magnitude := sat (fun c l => (c.num (a c l)).natAbs) fun c l => if c.num (a c l) < 0 then -a c l else a c l
  let carry (c : Ctx) (l : Nat) : Int := if c.srcC false l = 1 then 1 else 0
  let total (c : Ctx) (l : Nat) : Int :=
    if c.q = 0 then c.num (a c l) + c.num (c.srcB false l) + carry c l else c.num (a c l) - c.num (c.srcB false l) - carry c l
  let carryOut (c : Ctx) (l : Nat) : Bool := if c.q = 0 then decide (2 ^ c.width ≤ total c l) else decide (total c l < 0)
  let toC (out : Ctx → Nat → Bool) (c : Ctx) (s : State) : State :=
    if c.f.u then (if c.guard0 then writePred s c c.f.fc.toNat 0xFFFFFFFF (if out c c.lane0 then 0xFFFFFFFF else 0) else s)
    else writePred s c c.f.fc.toNat c.act (maskOf (out c))
  (∀ x, Completes (exec (.iadd x)) 0x040 (.r x) always (lanesTo sum))
    ∧ (∀ x, Completes (exec (.isub x)) 0x041 (.r x) always (lanesTo difference))
    ∧ (∀ x, Completes (exec (.isum x)) 0x042 (.r x) always (lanesTo fun c l => c.typed (a c l + b c l + z c l)))
    ∧ (∀ x, Completes (exec (.icadd x)) 0x043 (.r x) always fun c s =>
        toC carryOut c (lanesTo (fun c l => c.typed (BitVec.ofInt 64 (total c l))) c s))
    ∧ (∀ x, Completes (exec (.ineg x)) 0x044 (.r x) always (lanesTo negation))
    ∧ (∀ x, Completes (exec (.iabs x)) 0x045 (.r x) always (lanesTo magnitude))
    ∧ (∀ x, Completes (exec (.imin x)) 0x046 (.r x) always
        (lanesTo fun c l => c.typed (if c.num (a c l) ≤ c.num (b c l) then a c l else b c l)))
    ∧ (∀ x, Completes (exec (.imax x)) 0x047 (.r x) always
        (lanesTo fun c l => c.typed (if c.num (b c l) ≤ c.num (a c l) then a c l else b c l)))
    ∧ (∀ d m n, Completes (exec (.j16Iadd d m n)) 0x040 (.r (j16Op d m n .s32)) always (lanesTo sum))
    ∧ (∀ d m n, Completes (exec (.j16Isub d m n)) 0x041 (.r (j16Op d m n .s32)) always (lanesTo difference))
    ∧ (∀ d m, Completes (exec (.j16Ineg d m)) 0x044 (.r (j16Op d m 0 .s32)) always (lanesTo negation))
    ∧ ∀ g d m i, CompletesSecond (exec (.j32Iaddi g d m i)) (i.signExtend 32) 0x040 (.r (j32ImmOp g d m .s32)) (lanesTo sum)

/-- R178: the products, in 64-bit arithmetic narrowed by the type; the high word is the floor of the exact quotient. -/
def Obligations.IntegerProducts : Prop :=
  let a (c : Ctx) (l : Nat) : Word64 := c.srcA l
  let b (c : Ctx) (l : Nat) : Word64 := c.srcB c.ty.signed l
  let z (c : Ctx) (l : Nat) : Word64 := c.srcC c.ty.signed l
  let word (c : Ctx) (x : Word64) : Word64 := if c.ty.signed then (x.truncate 32 : Word32).signExtend 64 else (x.truncate 32 : Word32).zeroExtend 64
  let byte (c : Ctx) (k : Nat) (x : Word64) (i : Nat) : Word64 :=
    if c.q.testBit k then (x.extractLsb' (8 * i) 8).signExtend 64 else (x.extractLsb' (8 * i) 8).zeroExtend 64
  let term (c : Ctx) (l i : Nat) : Word64 := byte c 0 (a c l) i * byte c 1 (c.srcB true l) i
  let product (c : Ctx) (l : Nat) : Word64 := c.typed (a c l * b c l)
  (∀ x, Completes (exec (.imul x)) 0x048 (.r x) always (lanesTo product))
    ∧ (∀ x, Completes (exec (.imulhi x)) 0x049 (.r x) always
        (lanesTo fun c l => c.typed (BitVec.ofInt 64 (Int.fdiv (c.num (a c l) * c.num (b c l)) (2 ^ c.width)))))
    ∧ (∀ x, Completes (exec (.imad x)) 0x04A (.r x) always (lanesTo fun c l => c.typed (a c l * b c l + z c l)))
    ∧ (∀ x, Completes (exec (.imadw x)) 0x04B (.r x) always (lanesTo fun c l => c.typed (word c (a c l) * word c (b c l) + z c l)))
    ∧ (∀ x, Completes (exec (.sad x)) 0x04C (.r x) always
        (lanesTo fun c l => c.typed ((if c.num (b c l) ≤ c.num (a c l) then a c l - b c l else b c l - a c l) + z c l)))
    ∧ (∀ x, Completes (exec (.idot4 x)) 0x04D (.r x) always
        (lanesTo fun c l => c.typed (c.srcC true l + term c l 0 + term c l 1 + term c l 2 + term c l 3)))
    ∧ ∀ d m, Completes (exec (.j16Imul d m)) 0x048 (.r (j16Op d d m .s32)) always (lanesTo product)

/-- R179, R184, R185. -/
def Obligations.ComparesAndMoves : Prop :=
  let a (c : Ctx) (l : Nat) : Int := c.num (c.srcA l)
  let b (c : Ctx) (l : Nat) : Int := c.num (c.srcB c.ty.signed l)
  let relation (c : Ctx) (l : Nat) : Bool :=
    match c.q with
    | 0 => decide (a c l = b c l) | 1 => decide (a c l ≠ b c l) | 2 => decide (a c l < b c l)
    | 3 => decide (a c l ≤ b c l) | 4 => decide (a c l > b c l) | _ => decide (a c l ≥ b c l)
  let constant (imm : BitVec 24) (c : Ctx) (l : Nat) : Word64 :=
    if c.q = 0 then c.typed (imm.signExtend 64)
    else c.typed (BitVec.ofNat 64 (maskOf64 fun i => if 16 * c.q ≤ i ∧ i < 16 * c.q + 16 then imm.getLsbD (i - 16 * c.q) else (c.oldD l).getLsbD i))
  let address (c : Ctx) (l : Nat) : Word64 :=
    let x : Word64 := if c.ty.signed then ((c.srcA l).truncate 32 : Word32).signExtend 64 else ((c.srcA l).truncate 32 : Word32).zeroExtend 64
    c.val c.sh.b (c.f.km.getLsbD 1) c.f.fb.toNat l + (x <<< c.q) + (if c.sh.ci then c.f.fc.signExtend 64 else 0)
  (∀ x, Completes (exec (.icmp x)) 0x04E (.r x) always (predTo relation))
    ∧ (∀ x, Completes (exec (.sel x)) 0x04F (.r x) always
        (lanesTo fun c l => c.typed (if c.srcC false l = 1 then c.srcA l else c.srcB false l)))
    ∧ (∀ x, Completes (exec (.movi x)) 0x060 (.i x) always (lanesTo (constant x.imm)))
    ∧ (∀ x, Completes (exec (.lea x)) 0x061 (.r x) always (lanesTo address))
    ∧ (∀ g cc p m i, cc.toNat ≤ 5 → CompletesSecond (exec (.j32Icmpi g cc p m i)) (i.signExtend 32) 0x04E
        (.r { g := j32Guard g, d := j32Pred p, a := m.zeroExtend 8, q := cc, t := .s32, km := 2 }) (predTo relation))
    ∧ (∀ m n cc, cc.toNat % 8 ≤ 5 → Completes (exec (.j16Icmp m n cc)) 0x04E (.r (j16IcmpOp m n cc)) always (predTo relation))
    ∧ (∀ g d i, Completes (exec (.j32Movi g d i)) 0x060 (.i (j32MoviOp g d i 0)) always (lanesTo (constant (i.zeroExtend 24))))
    ∧ (∀ g d i, Completes (exec (.j32Movhi g d i)) 0x060 (.i (j32MoviOp g d i 1)) always (lanesTo (constant (i.zeroExtend 24))))
    ∧ (∀ d i, Completes (exec (.j16Movi d i)) 0x060 (.i { d := d.zeroExtend 8, imm := i.signExtend 24, t := .s32 }) always
        (lanesTo (constant (i.signExtend 24))))
    ∧ ∀ s (c : Ctx) mask x w, (writePred s c 15 mask x).warp? w = s.warp? w

/-- R180, R183. -/
def Obligations.LogicAndCounts : Prop :=
  let a (c : Ctx) (l : Nat) : Word64 := c.srcA l
  let b (c : Ctx) (l : Nat) : Word64 := c.srcB false l
  let and_ (c : Ctx) (l : Nat) : Word64 := c.typed (a c l &&& b c l)
  let or_ (c : Ctx) (l : Nat) : Word64 := c.typed (a c l ||| b c l)
  let xor_ (c : Ctx) (l : Nat) : Word64 := c.typed (a c l ^^^ b c l)
  let table (lut : BitVec 8) (c : Ctx) (l : Nat) : Word64 :=
    c.typed (BitVec.ofNat 64 (maskOf64 fun i => lut.getLsbD (4 * bit ((a c l).getLsbD i) + 2 * bit ((b c l).getLsbD i) + bit ((c.oldD l).getLsbD i))))
  let low (c : Ctx) (l : Nat) : Nat := (a c l).toNat % 2 ^ c.width
  let copy (c : Ctx) (l : Nat) : Word64 := c.typed (if c.q = 1 then c.uB else a c l)
  (∀ x, Completes (exec (.and x)) 0x050 (.r x) always (lanesTo and_))
    ∧ (∀ x, Completes (exec (.or x)) 0x051 (.r x) always (lanesTo or_))
    ∧ (∀ x, Completes (exec (.xor x)) 0x052 (.r x) always (lanesTo xor_))
    ∧ (∀ x, Completes (exec (.lop3 x)) 0x053 (.r x) always (lanesTo (table x.c)))
    ∧ (∀ x, Completes (exec (.brev x)) 0x05B (.r x) always (lanesTo fun c l =>
        c.typed (BitVec.ofNat 64 (maskOf64 fun i => decide (i < c.width) && (a c l).getLsbD (c.width - 1 - i)))))
    ∧ (∀ x, Completes (exec (.popc x)) 0x05C (.r x) always (lanesTo fun c l =>
        c.typed (BitVec.ofNat 64 ((List.range c.width).countP fun i => (a c l).getLsbD i))))
    ∧ (∀ x, Completes (exec (.clz x)) 0x05D (.r x) always (lanesTo fun c l =>
        c.typed (BitVec.ofNat 64 (if low c l = 0 then c.width else c.width - 1 - (low c l).log2))))
    ∧ (∀ x, Completes (exec (.ctz x)) 0x05E (.r x) always (lanesTo fun c l =>
        c.typed (BitVec.ofNat 64 (((List.range c.width).find? fun i => (a c l).getLsbD i).getD c.width))))
    ∧ (∀ g d m i, CompletesSecond (exec (.j32Andi g d m i)) (i.zeroExtend 32) 0x050 (.r (j32ImmOp g d m .z32)) (lanesTo and_))
    ∧ (∀ g d m i, CompletesSecond (exec (.j32Ori g d m i)) (i.zeroExtend 32) 0x051 (.r (j32ImmOp g d m .z32)) (lanesTo or_))
    ∧ (∀ g d m i, CompletesSecond (exec (.j32Xori g d m i)) (i.zeroExtend 32) 0x052 (.r (j32ImmOp g d m .z32)) (lanesTo xor_))
    ∧ (∀ d m, Completes (exec (.j16And d m)) 0x050 (.r (j16Op d d m .z32)) always (lanesTo and_))
    ∧ (∀ d m, Completes (exec (.j16Or d m)) 0x051 (.r (j16Op d d m .z32)) always (lanesTo or_))
    ∧ (∀ d m, Completes (exec (.j16Xor d m)) 0x052 (.r (j16Op d d m .z32)) always (lanesTo xor_))
    ∧ (∀ x, Completes (exec (.mov x)) 0x05F (.r x) always (lanesTo copy))
    ∧ ∀ d m, Completes (exec (.j16Mov d m)) 0x05F (.r (j16Op d m 0 .z32)) always (lanesTo copy)

/-- R181, R182. -/
def Obligations.ShiftsAndFields : Prop :=
  let a (c : Ctx) (l : Nat) : Word64 := c.srcA l
  let low (c : Ctx) (x : Word64) : Word64 := if c.w64 then x else (x.truncate 32 : Word32).zeroExtend 64
  let signedLow (c : Ctx) (x : Word64) : Word64 := if c.w64 then x else (x.truncate 32 : Word32).signExtend 64
  let count (c : Ctx) (l : Nat) : Nat := ((c.srcB false l).truncate 8 : BitVec 8).toNat
  let pos (c : Ctx) (l : Nat) : Nat := min (count c l) c.width
  let len (c : Ctx) (l : Nat) : Nat := min ((c.srcB false l).extractLsb' 8 8).toNat c.width
  let shl (c : Ctx) (l : Nat) : Word64 := c.typed (a c l <<< count c l)
  let shr (c : Ctx) (l : Nat) : Word64 := c.typed (low c (a c l) >>> count c l)
  let sar (c : Ctx) (l : Nat) : Word64 := c.typed ((signedLow c (a c l)).sshiftRight (count c l))
  let rot (c : Ctx) (l : Nat) : Word64 :=
    if c.w64 then (a c l).rotateLeft (count c l) else c.typed ((((a c l).truncate 32 : Word32).rotateLeft (count c l)).zeroExtend 64)
  let pair (c : Ctx) (l : Nat) : BitVec 128 :=
    if c.w64 then a c l ++ c.srcB false l
    else (((a c l).truncate 32 : Word32) ++ ((c.srcB false l).truncate 32 : Word32)).zeroExtend 128
  let funnel (left : Bool) (c : Ctx) (l : Nat) : Word64 :=
    let n := min ((c.srcC false l).truncate 8 : BitVec 8).toNat c.width
    c.typed ((if left then (pair c l <<< n) >>> c.width else pair c l >>> n).truncate 64)
  let field (c : Ctx) (l : Nat) : Word64 :=
    let x : Word64 := if c.ty.signed then (signedLow c (a c l)).sshiftRight (pos c l) else low c (a c l) >>> pos c l
    let k := 64 - len c l
    c.typed (if c.ty.signed then (x <<< k).sshiftRight k else (x <<< k) >>> k)
  let insert (c : Ctx) (l : Nat) : Word64 :=
    c.typed (BitVec.ofNat 64 (maskOf64 fun i =>
      if pos c l ≤ i ∧ i < pos c l + len c l then (a c l).getLsbD (i - pos c l) else (c.oldD l).getLsbD i))
  (∀ x, Completes (exec (.shl x)) 0x054 (.r x) always (lanesTo shl))
    ∧ (∀ x, Completes (exec (.shr x)) 0x055 (.r x) always (lanesTo shr))
    ∧ (∀ x, Completes (exec (.sar x)) 0x056 (.r x) always (lanesTo sar))
    ∧ (∀ x, Completes (exec (.rot x)) 0x057 (.r x) always (lanesTo rot))
    ∧ (∀ x, Completes (exec (.fshf x)) 0x058 (.r x) always (lanesTo (funnel (x.q == 1))))
    ∧ (∀ x, Completes (exec (.bfe x)) 0x059 (.r x) always (lanesTo field))
    ∧ (∀ x, Completes (exec (.bfi x)) 0x05A (.r x) always (lanesTo insert))
    ∧ (∀ g d m n, Completes (exec (.j32ShlI g d m n)) 0x054 (.r (j32ShiftOp g d m n)) always (lanesTo shl))
    ∧ (∀ g d m n, Completes (exec (.j32ShrI g d m n)) 0x055 (.r (j32ShiftOp g d m n)) always (lanesTo shr))
    ∧ (∀ g d m n, Completes (exec (.j32SarI g d m n)) 0x056 (.r (j32ShiftOp g d m n)) always (lanesTo sar))
    ∧ (∀ g d m n, Completes (exec (.j32RotI g d m n)) 0x057 (.r (j32ShiftOp g d m n)) always (lanesTo rot))
    ∧ (∀ d m, Completes (exec (.j16Shl d m)) 0x054 (.r (j16Op d d m .z32)) always (lanesTo shl))
    ∧ (∀ d m, Completes (exec (.j16Shr d m)) 0x055 (.r (j16Op d d m .z32)) always (lanesTo shr))
    ∧ ∀ d m, Completes (exec (.j16Sar d m)) 0x056 (.r (j16Op d d m .z32)) always (lanesTo sar)

/-- R187-R193. -/
def Obligations.LaneExchanges : Prop :=
  let source (c : Ctx) (l : Nat) : Option Nat :=
    let n : Word32 := (c.srcB (c.q == 1) l).truncate 32
    let i : Int := if c.q = 0 then n.toNat else if c.q = 1 then l + n.toInt else (Nat.xor l n.toNat : Nat)
    if 0 ≤ i ∧ i ≤ 31 ∧ c.path.lmask.getLsbD i.toNat = true then some i.toNat else none
  let selected (c : Ctx) (l i : Nat) : BitVec 8 :=
    let x : Word64 := ((c.srcB false l).truncate 32 : Word32) ++ ((c.srcA l).truncate 32 : Word32)
    let b := x.extractLsb' (8 * ((c.oldD l).extractLsb' (4 * i) 3).toNat) 8
    if (c.oldD l).getLsbD (4 * i + 3) then (if b.msb then 0xFF else 0) else b
  let sent (c : Ctx) : Word64 :=
    let src := ((c.srcB false c.lane0).truncate 5 : BitVec 5).toNat
    c.typed (if c.path.lmask.getLsbD src then c.srcA src else 0)
  let combine (c : Ctx) (op : Nat) (x y : Word64) : Word64 :=
    match op with
    | 0 => x + y
    | 1 => if c.num x ≤ c.num y then x else y
    | 2 => if c.num x ≤ c.num y then y else x
    | 3 => x &&& y
    | 4 => x ||| y
    | _ => x ^^^ y
  let scanOp (c : Ctx) : Nat := if c.q % 4 = 3 then 4 else c.q % 4
  let identity (c : Ctx) : Word64 := if scanOp c = 1 then BitVec.ofInt 64 c.hi else if scanOp c = 2 then BitVec.ofInt 64 c.lo else 0
  let prefix_ (c : Ctx) (l : Nat) : Word64 :=
    (((lanesOf c.act).filter fun m => if c.q < 4 then decide (m ≤ l) else decide (m < l)).map fun m => c.typed (c.srcA m)).foldl
      (fun x y => c.typed (combine c (scanOp c) x y)) (c.typed (identity c))
  (∀ x, Completes (exec (.lxch x)) 0x062 (.r x) always (lanesTo fun c l => c.srcA ((source c l).getD l)))
    ∧ (∀ x, Completes (exec (.perm x)) 0x063 (.r x) always (lanesTo fun c l =>
        ((selected c l 3 ++ selected c l 2 ++ selected c l 1 ++ selected c l 0 : BitVec 32)).zeroExtend 64))
    ∧ (∀ x, Completes (exec (.bcast x)) 0x064 (.r x) (fun c _ => c.q = 0) (lanesTo fun c _ => sent c))
    ∧ (∀ x, Completes (exec (.bcast x)) 0x064 (.r x) (fun c _ => c.q ≠ 0) fun c s => if c.act = 0 then s else writeUD s c (sent c))
    ∧ (∀ x, Completes (exec (.wred x)) 0x065 (.r x) always fun c s =>
        match (lanesOf c.act).map fun l => c.typed (c.srcA l) with
        | [] => s
        | x :: rest => writeUD s c (rest.foldl (fun x y => c.typed (combine c c.q x y)) x))
    ∧ (∀ x, Completes (exec (.wscan x)) 0x066 (.r x) always (lanesTo prefix_))
    ∧ ∀ x, Completes (exec (.matchLanes x)) 0x067 (.r x) always
        (lanesTo fun c l => BitVec.ofNat 64 (maskOf64 fun m => c.act.getLsbD m && c.typed (c.srcA m) == c.typed (c.srcA l)))

/-- R164-R166. -/
def Obligations.PredicateLogic : Prop :=
  let p (c : Ctx) (n : BitVec 8) (l : Nat) : Bool := n == 15 || (c.warp.regs.p.get 0 n.toNat).getLsbD l
  let a (c : Ctx) (l : Nat) : Bool := p c c.f.fa l
  let b (c : Ctx) (l : Nat) : Bool := p c c.f.fb l
  let k (c : Ctx) (l : Nat) : Bool := p c c.f.fc l
  let inA (c : Ctx) (l : Nat) : Bool := Bool.xor (c.q.testBit 0) (a c l)
  let inB (c : Ctx) (l : Nat) : Bool := Bool.xor (c.q.testBit 1) (b c l)
  let bitsTo (value : Ctx → Nat → Bool) (c : Ctx) (s : State) : State :=
    if c.f.u then (if c.guard0 then writePred s c c.f.d.toNat 0xFFFFFFFF (maskOf (value c)) else s)
    else writePred s c c.f.d.toNat c.act (maskOf (value c))
  let lut (c : Ctx) (l : Nat) : Bool := c.f.fc.getLsbD (4 * bit (a c l) + 2 * bit (b c l) + bit (p c c.f.d l))
  let held (c : Ctx) : List Nat := (lanesOf c.act).filter (a c)
  let verdict (c : Ctx) : Bool :=
    if c.q = 0 then decide (held c ≠ []) else if c.q = 1 then decide (held c = lanesOf c.act)
    else decide (held c = lanesOf c.act) || decide (held c = [])
  (∀ x, Completes (exec (.pand x)) 0x00E (.r x) always (bitsTo fun c l => inA c l && inB c l))
    ∧ (∀ x, Completes (exec (.por x)) 0x00F (.r x) always (bitsTo fun c l => inA c l || inB c l))
    ∧ (∀ x, Completes (exec (.pxor x)) 0x010 (.r x) always (bitsTo fun c l => inA c l != inB c l))
    ∧ (∀ x, Completes (exec (.pnot x)) 0x011 (.r x) always (bitsTo fun c l => !a c l))
    ∧ (∀ x, Completes (exec (.plop3 x)) 0x012 (.r x) always (bitsTo lut))
    ∧ (∀ x, Completes (exec (.pset x)) 0x014 (.r x) always (bitsTo fun c l => if c.q = 1 then decide (c.srcA l = 0) else decide (c.srcA l ≠ 0)))
    ∧ (∀ x, Completes (exec (.psel x)) 0x015 (.r x) always (bitsTo fun c l => if k c l then a c l else b c l))
    ∧ (∀ x, Completes (exec (.pmask x)) 0x013 (.r x) (fun c _ => c.q = 1) (bitsTo fun c l => decide (l < 32) && c.uA.getLsbD l))
    ∧ (∀ x, Completes (exec (.pmask x)) 0x013 (.r x) (fun c _ => c.q ≠ 1) fun c s => if c.guard0 then
        writeUD s c (BitVec.ofNat 64 (maskOf fun l => a c l && (c.f.u || c.path.lmask.getLsbD l)).toNat) else s)
    ∧ (∀ x, Completes (exec (.pcomb x)) 0x00D (.r x) (fun c _ => c.q = 3) fun c s =>
        if c.act = 0 then s else writeUD s c (BitVec.ofNat 64 (maskOf fun l => c.act.getLsbD l && a c l).toNat))
    ∧ ∀ x, Completes (exec (.pcomb x)) 0x00D (.r x) (fun c _ => c.q ≠ 3) fun c s =>
        if c.act = 0 then s else writePred s c c.f.d.toNat c.act (if verdict c then 0xFFFFFFFF else 0)

/-- R207-R209. -/
def Obligations.FloatArithmetic : Prop :=
  let a (c : Ctx) (l : Nat) : FNum := c.fsrc c.ty 0 l
  let b (c : Ctx) (l : Nat) : FNum := c.fsrc c.ty 1 l
  let z (c : Ctx) (l : Nat) : FNum := c.fsrc c.ty 2 l
  let add := floatTo fun c l st => addValue c.fenv c.ty (a c l) (b c l) st
  let sub := floatTo fun c l st => addValue c.fenv c.ty (a c l) (b c l).negate st
  let mul := floatTo fun c l st => mulValue c.fenv c.ty (a c l) (b c l) st
  let fma := floatTo fun c l st => fmaValue c.fenv c.ty (a c l) (b c l) (z c l) st
  let least := floatTo fun c l st => minMaxValue false c.fenv c.ty (a c l) (b c l) st
  let most := floatTo fun c l st => minMaxValue true c.fenv c.ty (a c l) (b c l) st
  let nan (c : Ctx) (l : Nat) : Bool := (a c l).isNan || (b c l).isNan
  let relation (c : Ctx) (l : Nat) : Bool :=
    match c.q with
    | 0 => !nan c l && (a c l).same (b c l)
    | 1 => nan c l || !(a c l).same (b c l)
    | 2 => !nan c l && (a c l).lt (b c l)
    | 3 => !nan c l && ((a c l).lt (b c l) || (a c l).same (b c l))
    | 4 => !nan c l && (b c l).lt (a c l)
    | 5 => !nan c l && ((b c l).lt (a c l) || (a c l).same (b c l))
    | 6 => !nan c l
    | _ => nan c l
  let invalidLane (c : Ctx) (l : Nat) : Bool :=
    (a c l).isSignalling || (b c l).isSignalling || (nan c l && (c.q == 2 || c.q == 3 || c.q == 4 || c.q == 5))
  (∀ x, Completes (exec (.fadd x)) 0x0C0 (.r x) always add)
    ∧ (∀ x, Completes (exec (.fsub x)) 0x0C1 (.r x) always sub)
    ∧ (∀ x, Completes (exec (.fmul x)) 0x0C2 (.r x) always mul)
    ∧ (∀ x, Completes (exec (.ffma x)) 0x0C3 (.r x) always fma)
    ∧ (∀ x, Completes (exec (.fmin x)) 0x0C4 (.r x) always least)
    ∧ (∀ x, Completes (exec (.fmax x)) 0x0C5 (.r x) always most)
    ∧ (∀ x, Completes (exec (.fcmp x)) 0x0C6 (.r x) always fun c s =>
        raiseExc (predTo relation c s) c (if c.runLanes.any (invalidLane c) then Exc.iv else 0))
    ∧ (∀ x, Completes (exec (.fclass x)) 0x0C7 (.r x) always
        (lanesTo fun c l => 1#64 <<< floatClass c.ty ((c.srcA l).toNat % 2 ^ c.ty.bits)))
    ∧ (∀ x, Completes (exec (.frnd x)) 0x0C8 (.r x) always
        (floatTo fun c l st => nanOr c.fenv c.ty [a c l] st (frndValue c.fenv c.ty (a c l))))
    ∧ (∀ x, Completes (exec (.fldexp x)) 0x0C9 (.r x) always (floatTo fun c l st => nanOr c.fenv c.ty [a c l] st fun st =>
        writeFloat c.fenv c.ty false false [a c l] (some ((a c l).scale ((c.srcB true l).truncate 32 : Word32).toInt)) st))
    ∧ (∀ x, Completes (exec (.fgetexp x)) 0x0CA (.r x) always (floatTo fun c l st =>
        match a c l with
        | .fin d => if d.m = 0 then (0xFFFFFFFF80000000, st.raise Exc.iv) else ((BitVec.ofInt 64 (d.e + d.m.log2)).toNat, st)
        | _ => (0x7FFFFFFF, st.raise Exc.iv)))
    ∧ (∀ x, Completes (exec (.fdivs x)) 0x0CB (.r x) always (floatTo fun c l st => divValue c.fenv c.ty (a c l) (b c l) st))
    ∧ (∀ g d m n r, Completes (exec (.j32Ffma g d m n r)) 0x0C3 (.r (j32FfmaOp g d m n r .f32)) always fma)
    ∧ (∀ g d m n r, Completes (exec (.j32Ffma64 g d m n r)) 0x0C3 (.r (j32FfmaOp g d m n r .f64)) always fma)
    ∧ (∀ d m n, Completes (exec (.j16Fadd d m n)) 0x0C0 (.r (j16Op d m n .f32)) always add)
    ∧ (∀ d m n, Completes (exec (.j16Fmul d m n)) 0x0C2 (.r (j16Op d m n .f32)) always mul)
    ∧ (∀ d m n, Completes (exec (.j16Ffma d m n)) 0x0C3 (.r { j16Op d m n .f32 with c := d.zeroExtend 8 }) always fma)
    ∧ (∀ d m, Completes (exec (.j16Fsub d m)) 0x0C1 (.r (j16Op d d m .f32)) always sub)
    ∧ (∀ d m, Completes (exec (.j16Fmin d m)) 0x0C4 (.r (j16Op d d m .f32)) always least)
    ∧ ∀ d m, Completes (exec (.j16Fmax d m)) 0x0C5 (.r (j16Op d d m .f32)) always most

/-- R210: completion, and the table of special cases of the functions. -/
def Obligations.SpecialFunctions : Prop :=
  let unary (f : FEnv → ElemType → FNum → FLane → Nat × FLane) := floatTo fun c l st =>
    nanOr c.fenv c.ty [c.fsrc c.ty 0 l] st fun st => f c.fenv c.ty (c.fsrc c.ty 0 l) st
  let isZero (x : FNum) : Prop := match x with | .fin d => d.m = 0 | _ => False
  let isNegative (x : FNum) : Prop := match x with | .fin d => d.m ≠ 0 ∧ d.neg = true | .inf n => n = true | _ => False
  ((∀ x, Completes (exec (.frcp x)) 0x0CC (.r x) always (unary frcpValue))
    ∧ (∀ x, Completes (exec (.frsq x)) 0x0CD (.r x) always (unary frsqValue))
    ∧ (∀ x, Completes (exec (.fsqrt x)) 0x0CE (.r x) always (unary fsqrtValue))
    ∧ (∀ x, Completes (exec (.fexp2 x)) 0x0CF (.r x) always (unary fexp2Value))
    ∧ (∀ x, Completes (exec (.flog2 x)) 0x0D0 (.r x) always (unary flog2Value))
    ∧ (∀ x, Completes (exec (.fsin x)) 0x0D1 (.r x) always (unary (fsinValue false)))
    ∧ (∀ x, Completes (exec (.fcos x)) 0x0D2 (.r x) always (unary (fsinValue true)))
    ∧ ∀ x, Completes (exec (.ftanh x)) 0x0D3 (.r x) always (unary ftanhValue))
  ∧ ∀ env t x st,
    (isZero x → frcpValue env t x st = (withSign t x.neg (infPattern t), st.raise Exc.dz)
      ∧ frsqValue env t x st = (withSign t x.neg (infPattern t), st.raise Exc.dz)
      ∧ flog2Value env t x st = (withSign t true (infPattern t), st.raise Exc.dz)
      ∧ (fsqrtValue env t x st).1 = withSign t x.neg 0 ∧ (x.neg = true → (fsqrtValue env t x st).2 = st))
    ∧ (isNegative x → frsqValue env t x st = (canonicalNan t, st.raise Exc.iv) ∧ fsqrtValue env t x st = (canonicalNan t, st.raise Exc.iv)
      ∧ flog2Value env t x st = (canonicalNan t, st.raise Exc.iv))
    ∧ ∀ n, x = .inf n → frcpValue env t x st = (withSign t n 0, st)
      ∧ fsinValue false env t x st = (canonicalNan t, st.raise Exc.iv) ∧ fsinValue true env t x st = (canonicalNan t, st.raise Exc.iv)
      ∧ (n = true → fexp2Value env t x st = (0, st))
      ∧ (n = false → frsqValue env t x st = (0, st) ∧ fsqrtValue env t x st = (infPattern t, st) ∧ fexp2Value env t x st = (infPattern t, st)
        ∧ flog2Value env t x st = (infPattern t, st))

/-- R211-R216. -/
def Obligations.PackedAndConversions : Prop :=
  let half (c : Ctx) (x : Word64) (i : Nat) : FNum := element c.fenv c.ty x i
  let packed (f : FEnv → ElemType → FNum → FNum → FNum → FLane → Nat × FLane) := floatTo fun c l st =>
    let one (i : Nat) := f c.fenv c.ty (half c (c.srcA l) i) (half c (c.srcB false l) i) (half c (c.srcC false l) i)
    ((one 0 st).1 + 2 ^ 16 * (one 1 (one 0 st).2).1, (one 1 (one 0 st).2).2)
  let cvt := floatTo fun c l st => convert c.fenv c.ty (convSource c.fenv c.tsrc (c.srcA l)) st
  let single (c : Ctx) (x : Word64) : FNum := readFloat .f32 c.fenv.daz (x.toNat % 2 ^ 32)
  let widened (c : Ctx) (l i : Nat) (st : FLane) : Nat × FLane :=
    let x := element c.fenv c.tsrc (c.srcA l) i
    nanOr c.fenv .f32 [x] st fun st => writeFloat { c.fenv with mode := 2 } .f32 false false [x] (some x) st
  let term (c : Ctx) (l i : Nat) : Option FNum := (half c (c.srcA l) i).mul (half c (c.srcB false l) i)
  let addend (c : Ctx) (l : Nat) : FNum := single c (c.srcC false l)
  let data (c : Ctx) (l : Nat) : List FNum :=
    [half c (c.srcA l) 0, half c (c.srcA l) 1, half c (c.srcB false l) 0, half c (c.srcB false l) 1, addend c l]
  let infinite (n : Bool) (x : Option FNum) : Bool := match x with | some (.inf m) => m == n | _ => false
  let invalidDot (c : Ctx) (l : Nat) : Bool :=
    let terms := [term c l 0, term c l 1, some (addend c l)]
    terms.any (·.isNone) || (terms.any (infinite true) && terms.any (infinite false))
  (∀ x, Completes (exec (.hadd2 x)) 0x0D4 (.r x) always (packed fun env t a b _ st => addValue env t a b st))
    ∧ (∀ x, Completes (exec (.hmul2 x)) 0x0D5 (.r x) always (packed fun env t a b _ st => mulValue env t a b st))
    ∧ (∀ x, Completes (exec (.hfma2 x)) 0x0D6 (.r x) always (packed fun env t a b k st => fmaValue env t a b k st))
    ∧ (∀ x, Completes (exec (.hmin2 x)) 0x0D7 (.r x) always (packed fun env t a b _ st => minMaxValue false env t a b st))
    ∧ (∀ x, Completes (exec (.hmax2 x)) 0x0D8 (.r x) always (packed fun env t a b _ st => minMaxValue true env t a b st))
    ∧ (∀ x, Completes (exec (.hdot2 x)) 0x0D9 (.r x) always (floatTo fun c l st =>
        nanOr c.fenv .f32 (data c l) (if invalidDot c l then st.raise Exc.iv else st) fun st =>
          writeFloat c.fenv .f32 false false (data c l) (addOption c.fenv.down (addOption c.fenv.down (term c l 0) (term c l 1)) (some (addend c l))) st))
    ∧ (∀ x, Completes (exec (.cvt x)) 0x0DA (.r x) always cvt)
    ∧ (∀ x, Completes (exec (.cvti x)) 0x0DB (.r x) always (floatTo fun c l st =>
        convert c.fenv c.ty ((convSource c.fenv c.tsrc (c.srcA l)).scale ((c.srcB true l).truncate 32 : Word32).toInt) st))
    ∧ (∀ x, Completes (exec (.cvtf x)) 0x0DC (.r x) always (floatTo fun c l st =>
        ((widened c l (2 * c.q) st).1 + 2 ^ 32 * (widened c l (2 * c.q + 1) (widened c l (2 * c.q) st).2).1,
          (widened c l (2 * c.q + 1) (widened c l (2 * c.q) st).2).2)))
    ∧ (∀ x, Completes (exec (.cvtp x)) 0x0DD (.r x) always (floatTo fun c l st =>
        let lo := convert c.fenv c.ty (single c (c.srcA l)) st
        let hi := convert c.fenv c.ty (single c (c.srcB false l)) lo.2
        (setElement c.ty (setElement c.ty ((c.oldD l).toNat % 2 ^ 32) (2 * c.q) lo.1) (2 * c.q + 1) hi.1, hi.2)))
    ∧ (∀ d m, Completes (exec (.j16CvtF32S32 d m)) 0x0DA (.r { j16Op d m 0 .f32 with c := 10 }) always cvt)
    ∧ ∀ d m, Completes (exec (.j16CvtS32F32 d m)) 0x0DA (.r { j16Op d m 0 .s32 with c := 1, m := 2 }) always cvt

/-- R136, R140, R142, R156-R159. -/
def Obligations.Branches : Prop :=
  let next (c : Ctx) : BitVec 57 := c.path.pc + BitVec.ofNat 57 c.cur.len
  let fall (c : Ctx) : Goal := { pc := next c, wbase := c.path.wbase, wtop := c.path.wtop, iter := c.path.iter, depth := c.path.depth }
  let aimed (c : Ctx) (pc : BitVec 57) (hi : BitVec 7) : Goal :=
    { fall c with pc := pc, pcHi := hi, iter := if hi = 0 ∧ pc.toNat ≤ c.path.pc.toNat then c.path.iter + 1 else c.path.iter }
  let offset (c : Ctx) : BitVec 57 := match c.f with | .b x => c.path.pc + x.ofs.signExtend 57 + x.ofs.signExtend 57 | _ => c.path.pc
  let none_ (c : Ctx) (_ : State) : Prop := c.act = 0
  let some_ (c : Ctx) (_ : State) : Prop := c.act ≠ 0
  let move (goal : Ctx → Nat → Goal) (stay : Ctx → Goal) (c : Ctx) (s : State) : State :=
    splitPath c s fun l => if c.act.getLsbD l then (goal c l, true) else (stay c, false)
  let target (c : Ctx) (_ : Nat) : Goal := aimed c (offset c) 0
  let held (c : Ctx) (l : Nat) : Goal := aimed c ((c.srcA l).truncate 57) ((c.srcA l).extractLsb' 57 7)
  let parked (c : Ctx) : Goal := { fall c with iter := 0, park := true }
  let passes (c : Ctx) : Prop := if c.q = 0 then c.act ≠ 0 else c.act = c.path.lmask ∧ c.path.lmask ≠ 0
  let all_ (c : Ctx) (s : State) : State := splitPath c s fun l => if c.path.lmask.getLsbD l then (target c l, true) else (fall c, false)
  (∀ x, Transfers (exec (.bra x)) 0x002 (.b x) some_ (move target fall))
    ∧ (∀ x, Completes (exec (.bra x)) 0x002 (.b x) none_ fun _ s => s)
    ∧ (∀ x, Transfers (exec (.brx x)) 0x003 (.b x) some_ (move held fall))
    ∧ (∀ x, Completes (exec (.brx x)) 0x003 (.b x) none_ fun _ s => s)
    ∧ (∀ x, Transfers (exec (.join x)) 0x009 (.b x) some_ (move (fun c _ => { parked c with pc := offset c }) fall))
    ∧ (∀ x, Completes (exec (.join x)) 0x009 (.b x) none_ fun _ s => s)
    ∧ (∀ x, Transfers (exec (.loop x)) 0x00A (.b x) always (move target parked))
    ∧ (∀ x, Transfers (exec (.brau x)) 0x00B (.b x) (fun c _ => passes c) all_)
    ∧ (∀ x, Completes (exec (.brau x)) 0x00B (.b x) (fun c _ => ¬passes c) fun _ s => s)
    ∧ (∀ g o, Transfers (exec (.j32Bra g o)) 0x002 (.b (j32BraOp g o)) some_ (move target fall))
    ∧ (∀ g m, Transfers (exec (.j32Brx g m)) 0x003 (.b { g := j32Guard g, a := m.zeroExtend 8 }) some_ (move held fall))
    ∧ (∀ g o, Transfers (exec (.j32Loop g o)) 0x00A (.b (j32BraOp g o)) always (move target parked))
    ∧ (∀ o, Transfers (exec (.j16Bra o)) 0x002 (.b { ofs := o.signExtend 24 }) some_ (move target fall))
    ∧ ∀ i o, Transfers (exec (.j16Brp i o)) 0x002 (.b { g := { inv := i, pred := 0 }, ofs := o.signExtend 24 }) some_ (move target fall)

/-- R149, R160. -/
def Obligations.CallsWriteLinkRecords : Prop :=
  let slide (c : Ctx) : Nat := c.f.d.toNat
  let frame (c : Ctx) : Nat := if c.f.fa = 0 then 256 else c.f.fa.toNat
  let frameX (c : Ctx) : Nat := if c.q / 4 = 0 then 256 else 8 * (c.q / 4)
  let base (c : Ctx) : Nat := c.path.wbase.toNat
  let return_ (c : Ctx) : BitVec 57 := c.path.pc + BitVec.ofNat 57 c.cur.len
  let link (c : Ctx) : List (Nat × Word32) :=
    [(base c + slide c - 4, (return_ c).truncate 32), (base c + slide c - 3, ((return_ c).extractLsb' 32 25).zeroExtend 32),
     (base c + slide c - 2, BitVec.ofNat 32 ((c.path.wtop.toNat - base c) * 256 + slide c)), (base c + slide c - 1, c.path.iter)]
  let fits (frame : Ctx → Nat) (c : Ctx) (s : State) : Prop :=
    c.act ≠ 0 ∧ slide c ≤ c.path.wtop.toNat - base c ∧ base c + slide c + frame c ≤ c.warp.regs.stackSize
      ∧ 4 ≤ base c + slide c ∧ SlotsReady c (prepare c s) ((link c).map (·.1))
  let enter (frame : Ctx → Nat) (target : Ctx → Nat → BitVec 57 × BitVec 7) (c : Ctx) (s : State) : State :=
    let s := (link c).foldl (fun s n => s.modWarp c.w fun x => x.setRow n.1 c.act (Row.ofFn fun _ => n.2)) s
    let stay : Goal := { pc := return_ c, wbase := c.path.wbase, wtop := c.path.wtop, iter := c.path.iter, depth := c.path.depth }
    let s := splitPath c s fun l =>
      if c.act.getLsbD l then ({ pc := (target c l).1, pcHi := (target c l).2, wbase := BitVec.ofNat 16 (base c + slide c)
                                 wtop := BitVec.ofNat 17 (base c + slide c + frame c), iter := 0, depth := c.path.depth + 1 }, true)
      else (stay, false)
    allocateFrame s c.w (base c + slide c) (base c + slide c + frame c)
  let offset (c : Ctx) (_ : Nat) : BitVec 57 × BitVec 7 :=
    (match c.f with | .b x => c.path.pc + x.ofs.signExtend 57 + x.ofs.signExtend 57 | _ => c.path.pc, 0)
  let held (c : Ctx) (l : Nat) : BitVec 57 × BitVec 7 := ((c.srcA l).truncate 57, (c.srcA l).extractLsb' 57 7)
  let wide (c : Ctx) (_ : State) : Prop := c.act ≠ 0 ∧ c.path.wtop.toNat - base c < slide c
  let deep (frame : Ctx → Nat) (c : Ctx) (_ : State) : Prop :=
    c.act ≠ 0 ∧ slide c ≤ c.path.wtop.toNat - base c ∧ c.warp.regs.stackSize < base c + slide c + frame c
  (∀ x, Transfers (exec (.call x)) 0x004 (.b x) (fits frame) (enter frame offset))
    ∧ (∀ x, Transfers (exec (.callx x)) 0x005 (.b x) (fits frameX) (enter frameX held))
    ∧ (∀ x, Faults (exec (.call x)) 0x004 (.b x) wide .regbound fun c _ => BitVec.ofNat 64 (slide c))
    ∧ (∀ x, Faults (exec (.callx x)) 0x005 (.b x) wide .regbound fun c _ => BitVec.ofNat 64 (slide c))
    ∧ (∀ x, Faults (exec (.call x)) 0x004 (.b x) (deep frame) .winovf fun c _ => BitVec.ofNat 64 (base c + slide c + frame c))
    ∧ (∀ x, Faults (exec (.callx x)) 0x005 (.b x) (deep frameX) .winovf fun c _ => BitVec.ofNat 64 (base c + slide c + frameX c))
    ∧ ∀ g a f o, Transfers (exec (.j32Call g a f o)) 0x004 (.b (j32CallOp g a f o)) (fits frame) (enter frame offset)

/-- R161. -/
def Obligations.ReturnsRestoreCallers : Prop :=
  let word (c : Ctx) (k l : Nat) : Word32 := (c.warp.regs.row (c.path.wbase.toNat - k)).lane l
  let fall (c : Ctx) : Goal :=
    { pc := c.path.pc + BitVec.ofNat 57 c.cur.len, wbase := c.path.wbase, wtop := c.path.wtop, iter := c.path.iter, depth := c.path.depth }
  let caller (c : Ctx) (l : Nat) : Goal :=
    let wb : BitVec 16 := c.path.wbase - BitVec.ofNat 16 ((word c 2 l).toNat % 256)
    { pc := BitVec.ofNat 57 ((word c 3 l).toNat % 2 ^ 25 * 2 ^ 32 + (word c 4 l).toNat), wbase := wb
      wtop := BitVec.ofNat 17 (wb.toNat + (word c 2 l).toNat / 256 % 512), iter := word c 1 l, depth := c.path.depth - 1 }
  let linked (c : Ctx) (s : State) : Prop :=
    c.act ≠ 0 ∧ c.path.depth ≠ 0 ∧ SlotsReady c (prepare c s) ((List.range 4).map fun k => c.path.wbase.toNat - 4 + k)
      ∧ (lanesOf c.act).all fun l => decide ((word c 2 l).toNat % 256 ≠ 0)
  let leave (c : Ctx) (s : State) : State :=
    let s := splitPath c s fun l => if c.act.getLsbD l then (caller c l, true) else (fall c, false)
    (NSet.insertAll [] ((lanesOf c.act).map fun l => (caller c l).wbase.toNat * 2 ^ 17 + (caller c l).wtop.toNat)).foldl
      (fun s k => refillWindow s c.w (k / 2 ^ 17) (k % 2 ^ 17)) s
  let outermost (c : Ctx) (_ : State) : Prop := c.act ≠ 0 ∧ c.path.depth = 0
  (∀ x, Transfers (exec (.ret x)) 0x006 (.b x) linked leave)
    ∧ (∀ x, Faults (exec (.ret x)) 0x006 (.b x) outermost .winovf fun _ _ => 1)
    ∧ (∀ g, Transfers (exec (.j32Ret g)) 0x006 (.b { g := j32Guard g }) linked leave)
    ∧ Transfers (exec .j16Ret) 0x006 (.b {}) linked leave

/-- R162, R163. -/
def Obligations.ExitYieldWaitNop : Prop :=
  let noted (c : Ctx) (s : State) : State :=
    (traceRecord s c.warp.core (traceHead c.warp c.p c.path) 6 false 0 [c.path.bearing.toNat, c.act.toNat]).modWarp c.w fun x =>
      { x with uiLanes := x.uiLanes &&& ~~~c.act }
  let left (c : Ctx) : BitVec 32 := c.path.lmask &&& ~~~c.act
  let some_ (c : Ctx) (_ : State) : Prop := c.act ≠ 0
  let none_ (c : Ctx) (_ : State) : Prop := c.act = 0
  let thinned (c : Ctx) (s : State) : State := (noted c s).modPath c.w c.p fun q => { q with lmask := left c }
  let gone (c : Ctx) (s : State) : State :=
    let s := (noted c s).modRegs c.w fun r =>
      let rest := r.paths.erase c.p
      if c.path.emu then { r with paths := rest.map fun q => (q.1, { q.2 with emu := false }), stack := r.stack.map fun q => { q with emu := false } }
      else { r with paths := rest }
    if c.warp.regs.paths.length = 1 ∧ c.warp.regs.stack = [] then publishOwn s c.w else s
  let someLeft (c : Ctx) (_ : State) : Prop := c.act ≠ 0 ∧ left c ≠ 0
  let noneLeft (c : Ctx) (_ : State) : Prop := c.act ≠ 0 ∧ left c = 0
  let named (c : Ctx) : List Nat :=
    (if c.q.testBit 0 then [c.f.fa.toNat] else []) ++ (if c.q.testBit 1 then [c.f.fb.toNat] else []) ++ if c.q.testBit 2 then [c.f.fc.toNat] else []
  let mask (c : Ctx) : BitVec 12 := (named c).foldl (fun m n => m ||| (1#12 <<< n)) 0
  let clear (c : Ctx) (_ : State) : Prop := c.act = 0 ∨ c.warp.regs.flagsClear (mask c) = true
  let unclear (c : Ctx) (_ : State) : Prop := c.act ≠ 0 ∧ c.warp.regs.flagsClear (mask c) = false
  let yields (c : Ctx) (s : State) : State := s.modPath c.w c.p fun q => { q with age := some s.clock, yielded := true }
  (∀ x, Completes (exec (.exit x)) 0x007 (.r x) someLeft thinned)
    ∧ (∀ x, Transfers (exec (.exit x)) 0x007 (.r x) noneLeft gone)
    ∧ (∀ x, Completes (exec (.exit x)) 0x007 (.r x) none_ fun _ s => s)
    ∧ (∀ x, Completes (exec (.yield x)) 0x008 (.r x) some_ yields)
    ∧ (∀ x, Completes (exec (.yield x)) 0x008 (.r x) none_ fun _ s => s)
    ∧ (∀ x, Completes (exec (.waitf x)) 0x00C (.r x) clear fun _ s => s)
    ∧ (∀ x, Waits (exec (.waitf x)) 0x00C (.r x) unclear (fun _ s => s) fun c _ => .flags (mask c))
    ∧ (∀ x, Completes (exec (.nop x)) 0x001 (.r x) always fun _ s => s)
    ∧ (∀ g, Completes (exec (.j32Nop g)) 0x001 (.r { g := j32Guard g }) always fun _ s => s)
    ∧ (∀ g, Transfers (exec (.j32Exit g)) 0x007 (.r { g := j32Guard g }) noneLeft gone)
    ∧ (∀ g, Completes (exec (.j32Yield g)) 0x008 (.r { g := j32Guard g }) some_ yields)
    ∧ (Completes (exec .j16Nop) 0x001 (.r {}) always fun _ s => s)
    ∧ Transfers (exec .j16Exit) 0x007 (.r {}) noneLeft gone
    ∧ Completes (exec .j16Yield) 0x008 (.r {}) some_ yields

/-- R281-R285, R279. The wait for earlier reads before the refresh of a boundary that the core passes of its own accord is the model's
reading of R259 and R300. -/
def Obligations.LoadsIssueReads : Prop :=
  let lanes (c : Ctx) := c.elems false
  let path (c : Ctx) := c.elems true
  let at_ (es : Ctx → List Access1) (c : Ctx) (s : State) : List Nat := (hits s c .read (es c)).map (·.pa)
  let ready (q : Chan) (qual : Ctx → Nat) (es : Ctx → List Access1) (c : Ctx) (s : State) : Prop :=
    Reaches s c .read c.esize (es c) ∧ Clean s c.esize (hits s c .read (es c)) ∧ (cached c s q (qual c) (at_ es c s)).isSome = true
  let plain (_ : Ctx) : Nat := 0
  let vector (q : Chan) (c : Ctx) (s : State) : State :=
    let xs := hits s c .read (lanes c)
    issueRead (withCached c s q c.qa (xs.map (·.pa))) c (.weak q) c.esize (lanesMask xs) (xs.map fun x => (0, x))
      (.vector (c.slot c.f.d.toNat) c.eslots c.ty) (c.destRegs c.eslots)
  let uniform (q : Chan) (dest : Ctx → Dest) (busy : Ctx → List Reg) (c : Ctx) (s : State) : State :=
    let xs := hits s c .read (path c)
    issueRead (withCached c s q 0 (xs.map (·.pa))) c (.weak q) c.esize c.path.lmask (xs.map fun x => (0, x)) (dest c) (busy c)
  let toUniform (c : Ctx) : Dest := .uniform c.f.d.toNat c.ty
  let words (c : Ctx) : Nat := if c.qa = 0 then 4 else 8
  let wide (c : Ctx) (s : State) : State :=
    let xs := hits s c .read (lanes c)
    issueRead (withCached c s .gen 0 (xs.map (·.pa))) c (.weak .gen) 4 (lanesMask xs)
      (xs.flatMap fun x => (List.range (words c)).map fun i => (i, { x with pa := x.pa + 4 * i, va := x.va + 4 * i }))
      (.vector (c.slot c.f.d.toNat) 1 .z32) (c.destRegs (words c))
  let looked (c : Ctx) (s : State) : Prop :=
    (lanes c).isEmpty = false ∧ (eaFault (lanes c) c.esize).isNone = true ∧ Clean s c.esize (hits s c .read (lanes c))
      ∧ ((lanes c).all fun e => match lookupVa s c.warp c.path e.va .read with | .walk | .flip _ => false | _ => true) = true
      ∧ (cached c s .gen 0 (at_ lanes c s)).isSome = true
  let noFault (c : Ctx) (s : State) : State :=
    let xs := hits s c .read (lanes c)
    let p := 2 * c.qa + bit c.qb
    issueRead (withCached c s .gen 0 (xs.map (·.pa))) c (.weak .gen) c.esize c.act (xs.map fun x => (0, x))
      (.noFault (c.slot c.f.d.toNat) c.eslots c.ty (c.act &&& ~~~(lanesMask xs)) p)
      (c.destRegs c.eslots ++ (if p = 15 then [] else [.pred p]))
  let samplable (c : Ctx) (s : State) : Prop :=
    Reaches s c .read c.esize (lanes c) ∧ Clean s (2 * c.esize) (hits s c .read (lanes c))
      ∧ ((lanes c).all fun e => decide (e.va % 4096 + 2 * c.esize ≤ 4096)) = true
  let sample (c : Ctx) (s : State) : State :=
    let xs := (hits s c .read (lanes c)).flatMap fun x => [(0, x), (1, { x with pa := x.pa + c.esize, va := x.va + c.esize })]
    issueRead (withCached c s .con 0 (xs.map (·.2.pa))) c (.weak .con) c.esize (lanesMask (hits s c .read (lanes c))) xs
      (.sample (c.slot c.f.d.toNat) c.ty (c.vrow (c.f.km.getLsbD 3) c.f.d.toNat) c.warp.regs.gmode) (c.destRegs 1)
  let gathers (c : Ctx) (s : State) : Prop := restartMask c = 0 ∧ ready .gen (·.qa) lanes c s
  let gathered (c : Ctx) (s : State) : State :=
    if progressive true c then (vector .gen c s).modPath c.w c.p fun q => { q with rst := q.rst &&& ~~~1#64 } else vector .gen c s
  let full (c : Ctx) (s : State) : Prop :=
    c.path.wait = none ∧ c.qa < 2 ∧ Reaches s c .read c.esize (lanes c) ∧ Clean s c.esize (hits s c .read (lanes c))
      ∧ cached c s .gen c.qa (at_ lanes c s) = none
  let passed (c : Ctx) (s : State) : State :=
    boundary ((linesOf (at_ lanes c s)).foldl (fun s l => llcRead s (dieOf c.warp.core) l) s) c.warp.core .pod
  (∀ x, Accesses (exec (.ld x)) 0x180 (.m x) (ready .gen (·.qa) lanes) (vector .gen))
    ∧ (∀ x, Accesses (exec (.ldv x)) 0x182 (.m x)
        (fun c s => Reaches s c .read (4 * words c) (lanes c) ∧ Clean s (4 * words c) (hits s c .read (lanes c))
          ∧ (cached c s .gen 0 (at_ lanes c s)).isSome = true) wide)
    ∧ (∀ x, Accesses (exec (.ldu x)) 0x186 (.m x) (ready .gen plain path) (uniform .gen toUniform fun c => [.uni c.f.d.toNat]))
    ∧ (∀ x, Accesses (exec (.ldp x)) 0x184 (.m x) (ready .gen plain path)
        (uniform .gen (fun c => .predicate c.f.d.toNat) fun c => if c.f.d.toNat = 15 then [] else [.pred c.f.d.toNat]))
    ∧ (∀ x, Completes (exec (.cld x)) 0x190 (.m x) (prepared (ready .con (·.qa) lanes)) (vector .con))
    ∧ (∀ x, Completes (exec (.cldu x)) 0x191 (.m x) (prepared (ready .con plain path)) (uniform .con toUniform fun c => [.uni c.f.d.toNat]))
    ∧ (∀ x, Accesses (exec (.ldnf x)) 0x18A (.m x) looked noFault)
    ∧ (∀ x, Completes (exec (.smpl x)) 0x192 (.m x) (prepared samplable) sample)
    ∧ (∀ x, Accesses (exec (.gath x)) 0x188 (.m x) gathers gathered)
    ∧ (∀ x, Waits (exec (.ld x)) 0x180 (.m x) (prepared full) passed fun c s => .reads (pendingReads s c.w c.path.lmask))
    ∧ (∀ g d m z o, Accesses (exec (.j32Ld g d m z o)) 0x180 (.m (j32Mem g d m z o)) (ready .gen (·.qa) lanes) (vector .gen))
    ∧ (∀ g d m i z o, Accesses (exec (.j32Ldx g d m i z o)) 0x180 (.m (j32MemX g d m i z o)) (ready .gen (·.qa) lanes) (vector .gen))
    ∧ (∀ g d m z o, d.toNat < 32 → Accesses (exec (.j32Ldu g d m z o)) 0x186 (.m (j32Mem g d m z o)) (ready .gen plain path)
        (uniform .gen toUniform fun c => [.uni c.f.d.toNat]))
    ∧ (∀ d m o, Accesses (exec (.j16Ld d m o)) 0x180 (.m (j16Mem d m o)) (ready .gen (·.qa) lanes) (vector .gen))
    ∧ ∀ d m i, Accesses (exec (.j16Ldx d m i)) 0x180 (.m (j16MemX d m i)) (ready .gen (·.qa) lanes) (vector .gen)

/-- R281, R283, R279, R298. -/
def Obligations.StoresAreHeld : Prop :=
  let lanes (c : Ctx) := c.elems false
  let path (c : Ctx) := c.elems true
  let page (c : Ctx) (x : Access2) : Option (Nat × Nat × Nat) := if x.exec then some (c.warp.vf, c.warp.asid, x.va) else none
  let stored (c : Ctx) (l : Nat) : List Byte := leBytes c.esize (c.oldD l).toNat
  let words (c : Ctx) : Nat := if c.qa = 0 then 4 else 8
  let vector (c : Ctx) (s : State) : List StoreElem := (hits s c .write (lanes c)).map fun x =>
    { lanes := 1#32 <<< x.lane, va := x.va, pa := x.pa, bytes := stored c x.lane, exec := page c x }
  let uniform (value : Ctx → Nat) (c : Ctx) (s : State) : List StoreElem := (hits s c .write (path c)).map fun x =>
    { lanes := c.path.lmask, va := x.va, pa := x.pa, bytes := leBytes c.esize (value c), exec := page c x }
  let wide (c : Ctx) (s : State) : List StoreElem := (hits s c .write (lanes c)).flatMap fun x => (List.range (words c)).map fun i =>
    { lanes := 1#32 <<< x.lane, va := x.va + 4 * i, pa := x.pa + 4 * i, exec := page c x
      bytes := leBytes 4 ((c.warp.regs.row (c.slot c.f.d.toNat + i)).lane x.lane).toNat }
  let strm (c : Ctx) : Bool := c.qa == 1
  let plain (_ : Ctx) : Bool := false
  let place (next : Ctx → Bool) (elems : Ctx → State → List StoreElem) (c : Ctx) (s : State) : Option State :=
    entered c s (next c) (linesOf ((elems c s).map (·.pa)))
  let held (next : Ctx → Bool) (elems : Ctx → State → List StoreElem) (c : Ctx) (s : State) : State :=
    holdStores ((place next elems c s).getD s) c (elems c s)
  let ready (n : Ctx → Nat) (es : Ctx → List Access1) (next : Ctx → Bool) (elems : Ctx → State → List StoreElem) (c : Ctx) (s : State) : Prop :=
    Reaches s c .write (n c) (es c) ∧ (place next elems c s).isSome = true
  let size (c : Ctx) : Nat := c.esize
  let pred (c : Ctx) : Nat := (c.warp.regs.pred c.f.d.toNat &&& c.path.lmask).toNat
  let uni (c : Ctx) : Nat := c.uD.toNat
  let scattered (c : Ctx) (s : State) : State := (held strm vector c s).modPath c.w c.p fun q => { q with rst := q.rst &&& ~~~1#64 }
  (∀ x, Accesses (exec (.st x)) 0x181 (.m x) (ready size lanes strm vector) (held strm vector))
    ∧ (∀ x, Accesses (exec (.stv x)) 0x183 (.m x) (ready (fun c => 4 * words c) lanes plain wide) (held plain wide))
    ∧ (∀ x, Accesses (exec (.stu x)) 0x187 (.m x) (ready size path plain (uniform uni)) (held plain (uniform uni)))
    ∧ (∀ x, Accesses (exec (.stp x)) 0x185 (.m x) (ready size path plain (uniform pred)) (held plain (uniform pred)))
    ∧ (∀ x, Accesses (exec (.scat x)) 0x189 (.m x) (fun c s => restartMask c = 0 ∧ ready size lanes strm vector c s) scattered)
    ∧ (∀ g d m z o, Accesses (exec (.j32St g d m z o)) 0x181 (.m (j32Mem g d m z o)) (ready size lanes strm vector) (held strm vector))
    ∧ (∀ g d m i z o, Accesses (exec (.j32Stx g d m i z o)) 0x181 (.m (j32MemX g d m i z o)) (ready size lanes strm vector) (held strm vector))
    ∧ (∀ g d m z o, d.toNat < 32 → Accesses (exec (.j32Stu g d m z o)) 0x187 (.m (j32Mem g d m z o)) (ready size path plain (uniform uni))
        (held plain (uniform uni)))
    ∧ (∀ d m o, Accesses (exec (.j16St d m o)) 0x181 (.m (j16Mem d m o)) (ready size lanes strm vector) (held strm vector))
    ∧ ∀ d m i, Accesses (exec (.j16Stx d m i)) 0x181 (.m (j16MemX d m i)) (ready size lanes strm vector) (held strm vector)

/-- R264: bits [63:57] before alignment, the lowest lane first. -/
def Obligations.AddressFaults : Prop :=
  let high (es : Ctx → List Access1) (c : Ctx) (_ : State) : Prop := ((es c).any fun e => decide (2 ^ 57 ≤ e.va)) = true
  let odd (es : Ctx → List Access1) (n : Ctx → Nat) (c : Ctx) (_ : State) : Prop :=
    ((es c).all fun e => decide (e.va < 2 ^ 57)) = true ∧ ((es c).any fun e => decide (e.va % n c ≠ 0)) = true
  let first (es : Ctx → List Access1) (p : Ctx → Access1 → Bool) (c : Ctx) (_ : State) : Word64 :=
    BitVec.ofNat 64 ((((es c).find? (p c)).map (·.va)).getD 0)
  let beyond (_ : Ctx) (e : Access1) : Bool := decide (2 ^ 57 ≤ e.va)
  let off (n : Ctx → Nat) (c : Ctx) (e : Access1) : Bool := decide (e.va % n c ≠ 0)
  let checkedIf (free : Ctx → Prop) (mk : MForm → Instr) (opc : Nat) (uniform : Bool) (n : Ctx → Nat) : Prop :=
    (∀ x, Faults (exec (mk x)) opc (.m x) (fun c s => free c ∧ high (·.elems uniform) c s) .pfault (first (·.elems uniform) beyond))
      ∧ ∀ x, Faults (exec (mk x)) opc (.m x) (fun c s => free c ∧ odd (·.elems uniform) n c s) .align (first (·.elems uniform) (off n))
  let checked := checkedIf fun c => ∀ r, c.path.wait ≠ some (.reads r)
  let always_ := checkedIf fun _ => True
  let size (c : Ctx) : Nat := c.ty.bytes
  let words (c : Ctx) : Nat := if c.qa = 0 then 16 else 32
  checked .ld 0x180 false size ∧ checked .st 0x181 false size ∧ checked .ldv 0x182 false words ∧ checked .stv 0x183 false words
    ∧ checked .ldp 0x184 true size ∧ checked .stp 0x185 true size ∧ checked .ldu 0x186 true size ∧ checked .stu 0x187 true size
    ∧ checked .ldnf 0x18A false size ∧ always_ .cld 0x190 false size ∧ always_ .cldu 0x191 true size ∧ always_ .smpl 0x192 false size
    ∧ always_ .atom 0x1E6 false size ∧ always_ .atomu 0x1E7 true size ∧ always_ .cas 0x1E8 false size ∧ always_ .red 0x1E9 false size
    ∧ always_ .sts 0x1E5 false size ∧ checkedIf (fun c => ∀ r, c.path.wait ≠ some (.loaded r)) .lds 0x1E4 false size

/-- R286. -/
def Obligations.CacheMaintenance : Prop :=
  let line (e : Access1) : Access1 := { e with va := e.va / 64 * 64 }
  let into (s : State) (core : Nat) (lines : List Nat) : State :=
    lines.foldl (fun s l => match l1Fill s core l false with | (t, false) => t | (_, true) => s) s
  let fetched (uniform : Bool) (c : Ctx) (s : State) : State :=
    let pas := prefetchable c s ((c.elems uniform).map line)
    let s := (linesOf pas).foldl (fun s l => llcRead s (dieOf c.warp.core) l) s
    if c.qa = 0 then into s c.warp.core (l1Lines false pas) else s
  let back (c : Ctx) (s : State) : State :=
    let lines := linesOf ((hits s c .write ((c.elems false).map line)).map (·.pa))
    if c.qa = 1 then { s with llc := s.llc.filter fun l => !lines.contains l.line, copies := s.copies.filter fun x => !lines.contains x.1 } else s
  let later (s : State) (lines : List Nat) : List BoundTerm :=
    lines.flatMap fun l => (List.range 64).map fun i => .byte (64 * l + i) (latestPos s (64 * l + i) fun _ => true)
  let dropped (c : Ctx) (s : State) : State :=
    let core := c.warp.core
    let kept := heldLines s core
    let one := (linesOf (prefetchable c s [{ lane := c.lane0, va := c.uA.toNat }])).filter fun l => !kept.contains l
    if c.act = 0 then s
    else if c.q = 0 then
      raiseBound { s with l1 := s.l1.filter fun l => l.owner != core || kept.contains l.line } (boundKey core .gen)
        [.reread s.performed.length kept]
    else if c.q = 1 then
      raiseBound { s with con := s.con.filter (·.owner != clusterOf core) } (boundKey core .con) [.reread s.performed.length []]
    else
      raiseBound { s with l1 := s.l1.filter fun l => !(l.owner == core && one.contains l.line) } (boundKey core .gen) (later s one)
  let data (s t : State) : Prop := t.mem = s.mem ∧ t.held = s.held ∧ t.performed = s.performed
  ((∀ x, Completes (exec (.pref x)) 0x193 (.m x) always (fetched false))
    ∧ (∀ x, Completes (exec (.prefu x)) 0x194 (.m x) always (fetched true))
    ∧ (∀ x, Completes (exec (.cwb x)) 0x195 (.m x) (fun c s => Reaches s c .write 1 ((c.elems false).map line)) back)
    ∧ ∀ x, Completes (exec (.cinv x)) 0x196 (.r x) always dropped)
  ∧ ∀ c s, data s (fetched false c s) ∧ data s (fetched true c s) ∧ data s (back c s) ∧ data s (dropped c s)

/-- R287, R288. -/
def Obligations.NearStoreSteps : Prop :=
  let elems (u : Bool) (op : NearOp) (c : Ctx) : List NearElem := c.nearElems u op
  let near (c : Ctx) (s : State) : Workgroup := (s.wg? c.warp.wg).getD { handle := 0 }
  let fits (u : Bool) (op : Ctx → NearOp) (c : Ctx) (s : State) : Prop :=
    (elems u (op c) c).isEmpty = false ∧ (s.wg? c.warp.wg).isSome = true ∧ (nearFault (op c) (near c s) (elems u (op c) c)).isNone = true
      ∧ Quiet s c ∧ ((elems u (op c) c).all fun e => (op c).ready ((near c s).full.contains (e.off / 16))) = true
  let walk (op : NearOp) (es : List NearElem) (g : Workgroup) : Workgroup × List (Nat × List Byte) :=
    (granulesOf es).foldl (fun acc n =>
      let r := granuleStep op n (es.filter fun e => e.off / 16 == n) acc.1
      (r.1, acc.2 ++ r.2)) (g, [])
  let effect (u : Bool) (op : Ctx → NearOp) (c : Ctx) (s : State) : State :=
    let s := if op c = .writeFull ∨ op c = .writeEmpty then boundary s c.warp.core .clus else s
    let r := walk (op c) (elems u (op c) c) (near c s)
    let s : State := { s with wgs := s.wgs.insert c.warp.wg r.1 }
    let s := if (op c).writes then s else nearLand u c s r.2
    if op c = .readFull ∨ op c = .readEmpty then refresh s c.warp.core .clus else s
  let setOp (c : Ctx) : NearOp := if c.qa = 0 then .setEmpty else .setFull
  let bad (u : Bool) (op : Ctx → NearOp) (p : Ctx → State → NearElem → Bool) (c : Ctx) (s : State) : Prop :=
    (s.wg? c.warp.wg).isSome = true ∧ c.path.wait = none ∧ ((elems u (op c) c).any (p c s)) = true
  let odd (_ : Ctx) (_ : State) (e : NearElem) : Bool := decide (e.off % e.size ≠ 0)
  let far (c : Ctx) (s : State) (e : NearElem) : Bool := decide ((near c s).nearSize ≤ e.off)
  let live (c : Ctx) (s : State) (e : NearElem) : Bool := (near c s).tbGranule (e.off / 16)
  let none_ (u : Bool) (op : Ctx → NearOp) (p : Ctx → State → NearElem → Bool) (c : Ctx) (s : State) : Prop := ((elems u (op c) c).any (p c s)) = false
  let first (u : Bool) (op : Ctx → NearOp) (p : Ctx → State → NearElem → Bool) (c : Ctx) (s : State) : Word64 :=
    BitVec.ofNat 64 ((((elems u (op c) c).find? (p c s)).map (·.off)).getD 0)
  (∀ x, Completes (exec (.nld x)) 0x18B (.m x) (fits false (·.nearLoadOp)) (effect false (·.nearLoadOp)))
    ∧ (∀ x, Completes (exec (.nst x)) 0x18C (.m x) (fits false (·.nearStoreOp)) (effect false (·.nearStoreOp)))
    ∧ (∀ x, Completes (exec (.nldu x)) 0x18D (.m x) (fits true (·.nearLoadOp)) (effect true (·.nearLoadOp)))
    ∧ (∀ x, Completes (exec (.nstu x)) 0x18E (.m x) (fits true (·.nearStoreOp)) (effect true (·.nearStoreOp)))
    ∧ (∀ x, Completes (exec (.nsetf x)) 0x18F (.m x) (fits false setOp) (effect false setOp))
    ∧ (∀ g d m z o, Completes (exec (.j32Nld g d m z o)) 0x18B (.m (j32Mem g d m z o)) (fits false (·.nearLoadOp)) (effect false (·.nearLoadOp)))
    ∧ (∀ g d m z o, Completes (exec (.j32Nst g d m z o)) 0x18C (.m (j32Mem g d m z o)) (fits false (·.nearStoreOp)) (effect false (·.nearStoreOp)))
    ∧ (∀ x, Faults (exec (.nld x)) 0x18B (.m x) (bad false (·.nearLoadOp) odd) .align (first false (·.nearLoadOp) odd))
    ∧ (∀ x, Faults (exec (.nst x)) 0x18C (.m x) (bad false (·.nearStoreOp) odd) .align (first false (·.nearStoreOp) odd))
    ∧ (∀ x, Faults (exec (.nld x)) 0x18B (.m x) (fun c s => none_ false (·.nearLoadOp) odd c s ∧ bad false (·.nearLoadOp) far c s) .nsbound
        (first false (·.nearLoadOp) far))
    ∧ (∀ x, Faults (exec (.nst x)) 0x18C (.m x) (fun c s => none_ false (·.nearStoreOp) odd c s ∧ bad false (·.nearStoreOp) far c s) .nsbound
        (first false (·.nearStoreOp) far))
    ∧ ∀ x, Faults (exec (.nst x)) 0x18C (.m x) (fun c s => none_ false (·.nearStoreOp) odd c s ∧ none_ false (·.nearStoreOp) far c s
        ∧ bad false (·.nearStoreOp) live c s) .tbstate fun _ _ => 5

/-- R298-R304. -/
def Obligations.PhasesAndFences : Prop :=
  let on (c : Ctx) (s : State) : Prop := c.guard0 = true ∧ Quiet s c
  let off (c : Ctx) (_ : State) : Prop := c.guard0 = false
  let core (c : Ctx) : Nat := c.warp.core
  let kind (n : Nat) (c : Ctx) (s : State) : Prop := on c s ∧ c.f.fc.toNat = n
  let later (c : Ctx) (s : State) : State := s.modPath c.w c.p fun q => { q with after := NSet.insertAll q.after (publishedWids s (core c)) }
  let from_ (c : Ctx) : Chan := Chan.ofCode (c.f.fc.toNat % 16)
  let to_ (c : Ctx) : Chan := Chan.ofCode (c.f.fc.toNat / 16)
  let crossed (c : Ctx) (s : State) : State :=
    let s := refresh (boundary s (core c) (if from_ c = .gen ∧ c.scope = .core then .quad else c.scope)) (core c) c.scope
    raiseBound s (boundKey (core c) (to_ c))
      (s.bounds.get [] (boundKey (core c) (from_ c)) ++ [.warpWrites c.w (from_ c) s.performed.length] ++ (completedOps s c.w).map .op)
  let alone (c : Ctx) (s : State) : Prop := on c s ∧ (from_ c = .gen → atomicsOf s (fun r => r.warp == c.w) = [])
  (∀ x, Completes (exec (.phase x)) 0x1E0 (.r x) on fun c s => refresh (boundary s (core c) c.scope) (core c) c.scope)
    ∧ (∀ x, Completes (exec (.fence x)) 0x1E1 (.r x) (kind 0) fun c s => refresh (boundary s (core c) c.scope) (core c) c.scope)
    ∧ (∀ x, Completes (exec (.fence x)) 0x1E1 (.r x) (kind 1) fun c s => refresh s (core c) c.scope)
    ∧ (∀ x, Completes (exec (.fence x)) 0x1E1 (.r x) (kind 2) fun c s => later c (boundary s (core c) c.scope))
    ∧ (∀ x, Completes (exec (.fence x)) 0x1E1 (.r x) (kind 3) fun c s => later c (refresh (boundary s (core c) c.scope) (core c) c.scope))
    ∧ (∀ x, Completes (exec (.xfence x)) 0x1E2 (.r x) alone crossed)
    ∧ (∀ x, Completes (exec (.fwait x)) 0x1E3 (.r x) on fun _ s => s)
    ∧ (∀ x, Completes (exec (.phase x)) 0x1E0 (.r x) off fun _ s => s)
    ∧ (∀ x, Completes (exec (.fence x)) 0x1E1 (.r x) off fun _ s => s)
    ∧ (∀ x, Completes (exec (.xfence x)) 0x1E2 (.r x) off fun _ s => s)
    ∧ ∀ x, Completes (exec (.fwait x)) 0x1E3 (.r x) off fun _ s => s

/-- R301, R307-R309. -/
def Obligations.StrongAccessesAndAtomics : Prop :=
  let lanes (c : Ctx) := c.elems false
  let path (c : Ctx) := c.elems true
  let strongRead (c : Ctx) (s : State) : State :=
    let xs := hits s c .read (lanes c)
    let o := openStrong c s xs
    lastAfter (issueRead o.1 c (.strong c.scope (c.qa != 0)) c.esize (lanesMask xs) (xs.map fun x => (0, x))
      (.vector (c.slot c.f.d.toNat) c.eslots c.ty) (c.destRegs c.eslots)) o.2 []
  let readable (c : Ctx) (s : State) : Prop := Reaches s c .read c.esize (lanes c) ∧ Clean s c.esize (hits s c .read (lanes c)) ∧ Quiet s c
  let returned (c : Ctx) (s : State) : Prop :=
    (match c.path.wait with | some (.loaded _) => (pendingReads s c.w c.path.lmask).isEmpty | _ => false) = true
  let strongStore (c : Ctx) (s : State) : State :=
    let xs := hits s c .write (lanes c)
    let s := if c.qa = 2 then refresh (boundary s c.warp.core c.scope) c.warp.core c.scope else s
    let o := openStrong c (if c.qa = 0 then s else boundary s c.warp.core c.scope) xs
    let follow := NSet.insertAll c.path.after (o.2 ++ if c.qa = 0 then [] else publishedWids o.1 c.warp.core)
    holdStrong c (nextSeq o.1) follow xs
  let writable (c : Ctx) (s : State) : Prop := Reaches s c .write c.esize (lanes c) ∧ Quiet s c
  let old (u : Bool) (c : Ctx) (l : Nat) : Word64 :=
    let word (i : Nat) := (c.warp.regs.row (c.slot (c.f.d.toNat + i))).lane l
    if u then c.uD else if c.eslots = 2 then word 1 ++ word 0 else (word 0).zeroExtend 64
  let new (c : Ctx) (l : Nat) : Word64 :=
    let word (i : Nat) := (c.warp.regs.row (c.slot (c.f.d.toNat + i))).lane l
    if c.eslots = 2 then word 3 ++ word 2 else (word 1).zeroExtend 64
  let atomic (es : Ctx → List Access1) (u cas : Bool) (dest : Ctx → Dest) (busy : Ctx → List Reg) (c : Ctx) (s : State) : State :=
    let xs := hits s c .write (es c)
    let o := openStrong c s xs
    lastAfter (issueRead o.1 c (.atomic c.atomOp cas c.ty c.scope (xs.map fun x => (x.lane, old u c x.lane, if cas then new c x.lane else 0))) c.esize
      (if u then c.path.lmask else lanesMask xs) (xs.map fun x => (0, x)) (dest c) (busy c)) o.2 xs
  let able (es : Ctx → List Access1) (c : Ctx) (s : State) : Prop := Reaches s c .write c.esize (es c) ∧ Clean s c.esize (hits s c .write (es c))
  let toVector (c : Ctx) : Dest := .vector (c.slot c.f.d.toNat) c.eslots c.ty
  let busyVector (c : Ctx) : List Reg := c.destRegs c.eslots
  (∀ x, Completes (exec (.lds x)) 0x1E4 (.m x) (fun c s => c.qa = 0 ∧ readable c s) strongRead)
    ∧ (∀ x, Waits (exec (.lds x)) 0x1E4 (.m x) (fun c s => c.qa = 1 ∧ readable c s) strongRead fun c s => .loaded ((strongRead c s).nextId - 1))
    ∧ (∀ x, Completes (exec (.lds x)) 0x1E4 (.m x) returned fun c s => refresh s c.warp.core c.scope)
    ∧ (∀ x, Completes (exec (.sts x)) 0x1E5 (.m x) writable strongStore)
    ∧ (∀ x, Completes (exec (.atom x)) 0x1E6 (.m x) (able lanes) (atomic lanes false false toVector busyVector))
    ∧ (∀ x, Completes (exec (.atomu x)) 0x1E7 (.m x) (able path)
        (atomic path true false (fun c => .uniform c.f.d.toNat c.ty) fun c => [.uni c.f.d.toNat]))
    ∧ (∀ x, Completes (exec (.cas x)) 0x1E8 (.m x) (able lanes) (atomic lanes false true toVector busyVector))
    ∧ (∀ x, Completes (exec (.red x)) 0x1E9 (.m x) (able lanes) (atomic lanes false false (fun _ => .none) fun _ => []))
    ∧ ∀ g d m z o, z.toNat ≤ 1 → Completes (exec (.j32Atom g d m z o)) 0x1E6 (.m { j32Mem g d m z o with sc := 5 }) (able lanes)
        (atomic lanes false false toVector busyVector)

/-- R310, R311. -/
def Obligations.BarrierArrivals : Prop :=
  let key (c : Ctx) : BarrierKey := barrierKey c.warp c.scope (c.f.fc.toNat % 16)
  let core (c : Ctx) : Nat := c.warp.core
  let allowed (c : Ctx) : Prop := c.warp.node = none ∨ c.scope.code < 3
  let arrives (c : Ctx) (s : State) : Prop := c.guard0 = true ∧ allowed c ∧ Quiet s c
  let arrival (c : Ctx) (s : State) : Barrier × Word32 := (((boundary s (core c) c.scope).barrier (key c))).arrive c.w c.path.lmask
  let arrived (c : Ctx) (s : State) : State := (boundary s (core c) c.scope).setBarrier (arrival c s).1
  let past (s : State) (k : BarrierKey) (m : Word32) : Bool :=
    let d := (((s.barriers.find? (·.key == k)).map (·.phases)).getD 0 - m).toNat
    decide (1 ≤ d ∧ d < 2 ^ 31)
  let ended (c : Ctx) (s : State) : Prop :=
    c.guard0 = true ∧ pendingReads s c.w c.path.lmask = [] ∧ (match c.path.wait with | some (.barrier k m) => past s k m | _ => false) = true
  let scopeOf (c : Ctx) : Scope := match c.path.wait with | some (.barrier k _) => k.scope | _ => c.scope
  let narrow (c : Ctx) (_ : State) : Prop := c.guard0 = true ∧ c.path.wait = none ∧ c.warp.node ≠ none ∧ 3 ≤ c.scope.code
  let code (c : Ctx) (_ : State) : Word64 := BitVec.ofNat 64 c.scope.code
  (∀ x, Waits (exec (.bar x)) 0x1EA (.r x) arrives arrived fun c s => .barrier (key c) (arrival c s).2)
    ∧ (∀ x, Completes (exec (.bar x)) 0x1EA (.r x) ended fun c s => refresh s (core c) (scopeOf c))
    ∧ (∀ x, Completes (exec (.bara x)) 0x1EB (.r x) arrives fun c s => writeUD (arrived c s) c ((arrival c s).2.zeroExtend 64))
    ∧ (∀ x, Completes (exec (.barw x)) 0x1EC (.r x) (fun c s => c.guard0 = true ∧ allowed c ∧ pendingReads s c.w c.path.lmask = [] ∧ past s (key c) (c.uA.truncate 32) = true)
        fun c s => refresh s (core c) c.scope)
    ∧ (∀ x, Faults (exec (.bar x)) 0x1EA (.r x) narrow .barscope code)
    ∧ (∀ x, Faults (exec (.bara x)) 0x1EB (.r x) narrow .barscope code)
    ∧ (∀ x, Faults (exec (.barw x)) 0x1EC (.r x) narrow .barscope code)
    ∧ (∀ q, Waits (exec (.j16Bar q)) 0x1EA (.r { q := q, ci := true }) arrives arrived fun c s => .barrier (key c) (arrival c s).2)
    ∧ ∀ q, Completes (exec (.j16Bar q)) 0x1EA (.r { q := q, ci := true }) ended fun c s => refresh s (core c) (scopeOf c)

/-- R313-R317. -/
def Obligations.TransactionBarriers : Prop :=
  let near (c : Ctx) (s : State) : Workgroup := (s.wg? c.warp.wg).getD { handle := 0 }
  let ofs (c : Ctx) : Nat := c.uA.toNat
  let there (c : Ctx) (s : State) : Prop := c.guard0 = true ∧ (s.wg? c.warp.wg).isSome = true
  let placed (c : Ctx) (s : State) : Prop := there c s ∧ ofs c % 32 = 0 ∧ ofs c + 32 ≤ (near c s).nearSize
  let live (c : Ctx) (s : State) : Prop := placed c s ∧ (near c s).liveTb (ofs c) = true
  let own (c : Ctx) (s : State) (g : Workgroup) : State := { s with wgs := s.wgs.insert c.warp.wg g }
  let fresh (c : Ctx) (s : State) : Prop :=
    placed c s ∧ c.q ≠ 1 ∧ 1 ≤ c.uB.toNat ∧ c.uB.toNat ≤ 65535
      ∧ (if (near c s).liveTb (ofs c) then (near c s).arrp (ofs c) = (near c s).arrx (ofs c) ∧ (near c s).txp (ofs c) = 0 else (near c s).tbs.length < 64)
  let started (c : Ctx) (s : State) : State :=
    let bytes := List.replicate 18 0 ++ leBytes 2 c.uB.toNat ++ leBytes 2 c.uB.toNat ++ [1] ++ List.replicate 9 0
    let g := (near c s).setNear (ofs c) bytes
    own c s { g with tbs := g.tbs.filter (·.ofs != ofs c) ++ [{ ofs := ofs c }] }
  let zeroed (c : Ctx) (s : State) : State :=
    let g := (near c s).setNear (ofs c) (List.replicate 32 0)
    expireTb (own c s { g with tbs := g.tbs.filter (·.ofs != ofs c) }) c.warp.wg (ofs c)
  let more (g : Workgroup) (c : Ctx) : Workgroup := g.setNear (ofs c) (leBytes 8 (leNat (g.nearBytes (ofs c) 8) + c.uB.toNat))
  let roomy (c : Ctx) (s : State) : Prop := live c s ∧ leNat ((near c s).nearBytes (ofs c) 8) + c.uB.toNat < 2 ^ 63
  let phase (c : Ctx) (s : State) : Nat := leNat ((near c s).nearBytes (ofs c + 12) 4)
  let published (c : Ctx) (s : State) : State := boundary s c.warp.core .clus
  let behind (c : Ctx) (s : State) : Nat := (BitVec.ofNat 32 (phase c s) - (c.uB.truncate 32 : Word32)).toNat
  let root (c : Ctx) (s : State) : TbRoot := ((near c s).tbs.find? (·.ofs == ofs c)).getD { ofs := ofs c }
  let just (c : Ctx) (s : State) : Prop := live c s ∧ c.path.wait = none ∧ pendingReads s c.w c.path.lmask = [] ∧ behind c s = 1
  let past (c : Ctx) (s : State) : Prop :=
    live c s ∧ c.path.wait = none ∧ pendingReads s c.w c.path.lmask = [] ∧ 2 ≤ behind c s ∧ behind c s < 2 ^ 31
  let current (c : Ctx) (s : State) : Prop := live c s ∧ c.path.wait = none ∧ (behind c s = 0 ∨ 2 ^ 31 ≤ behind c s)
  let status (g : Workgroup) (o : Nat) : Nat := if g.eph o then 1 + 32 * g.ecode o + 2 ^ 13 * (g.eva o / 64) else 0
  let found (c : Ctx) (s : State) : State := writeUD (tbAcquire s c (root c s).last) c (BitVec.ofNat 64 (status (near c s) (ofs c)))
  let expired (c : Ctx) (s : State) : State := writeUD (tbAcquire s c (root c s).past) c 2
  let quietLive (c : Ctx) (s : State) : Prop := live c s ∧ Quiet s c
  let misaligned (c : Ctx) (s : State) : Prop := there c s ∧ c.path.wait = none ∧ ofs c % 32 ≠ 0
  let beyond (c : Ctx) (s : State) : Prop := there c s ∧ c.path.wait = none ∧ ofs c % 32 = 0 ∧ (near c s).nearSize < ofs c + 32
  let dead (c : Ctx) (s : State) : Prop := placed c s ∧ c.path.wait = none ∧ (near c s).liveTb (ofs c) = false
  let info (c : Ctx) (_ : State) : Word64 := c.uA
  (∀ x, Completes (exec (.tbinit x)) 0x1ED (.r x) fresh started)
    ∧ (∀ x, Completes (exec (.tbinit x)) 0x1ED (.r x) (fun c s => placed c s ∧ c.q = 1) zeroed)
    ∧ (∀ x, Completes (exec (.tbexp x)) 0x1EE (.r x) (fun c s => roomy c s ∧ c.q = 0) fun c s => own c s (more (near c s) c))
    ∧ (∀ x, Completes (exec (.tbexp x)) 0x1EE (.r x) (fun c s => roomy c s ∧ c.q ≠ 0 ∧ Quiet s c) fun c s =>
        writeUD (own c (published c s) ((more (near c s) c).arriveTb (ofs c))) c (BitVec.ofNat 64 (phase c s)))
    ∧ (∀ x, Completes (exec (.tbarr x)) 0x1EF (.r x) quietLive fun c s =>
        writeUD (own c (published c s) ((near c s).arriveMany (ofs c) (if c.q = 1 then c.uB.toNat % 65536 else 1))) c (BitVec.ofNat 64 (phase c s)))
    ∧ (∀ x, Completes (exec (.tbwait x)) 0x1F0 (.r x) just found)
    ∧ (∀ x, Completes (exec (.tbwait x)) 0x1F0 (.r x) past expired)
    ∧ (∀ x, Waits (exec (.tbwait x)) 0x1F0 (.r x) current (fun _ s => s) fun c _ => .tb (ofs c) (c.uB.truncate 32))
    ∧ (∀ x, Completes (exec (.tbq x)) 0x1F1 (.r x) just found)
    ∧ (∀ x, Completes (exec (.tbq x)) 0x1F1 (.r x) past expired)
    ∧ (∀ x, Completes (exec (.tbq x)) 0x1F1 (.r x) current fun c s => writeUD s c 4)
    ∧ (∀ x, Faults (exec (.tbinit x)) 0x1ED (.r x) (fun c s => placed c s ∧ c.q ≠ 1 ∧ (c.uB.toNat = 0 ∨ 65535 < c.uB.toNat)) .tbstate fun _ _ => 2)
    ∧ (∀ x, Faults (exec (.tbinit x)) 0x1ED (.r x) misaligned .align info)
    ∧ (∀ x, Faults (exec (.tbexp x)) 0x1EE (.r x) misaligned .align info)
    ∧ (∀ x, Faults (exec (.tbarr x)) 0x1EF (.r x) misaligned .align info)
    ∧ (∀ x, Faults (exec (.tbwait x)) 0x1F0 (.r x) misaligned .align info)
    ∧ (∀ x, Faults (exec (.tbq x)) 0x1F1 (.r x) misaligned .align info)
    ∧ (∀ x, Faults (exec (.tbinit x)) 0x1ED (.r x) beyond .nsbound info)
    ∧ (∀ x, Faults (exec (.tbexp x)) 0x1EE (.r x) dead .tbstate fun _ _ => 1)
    ∧ (∀ x, Faults (exec (.tbarr x)) 0x1EF (.r x) dead .tbstate fun _ _ => 1)
    ∧ (∀ x, Faults (exec (.tbwait x)) 0x1F0 (.r x) dead .tbstate fun _ _ => 1)
    ∧ ∀ x, Faults (exec (.tbq x)) 0x1F1 (.r x) dead .tbstate fun _ _ => 1

/-- R219-R224. -/
def Obligations.QuantisedElements : Prop :=
  let at_ (c : Ctx) : Nat := c.uB.toNat
  let read (t : Ctx → ElemType) (c : Ctx) (s : State) : Option (State × (List Byte × List Byte)) := described c s (at_ c) (some (t c))
  let ready (t : Ctx → ElemType) (c : Ctx) (s : State) : Prop := c.act ≠ 0 ∧ at_ c % 32 = 0 ∧ (read t c s).isSome = true
  let under (t : Ctx → ElemType) (f : List Byte → List Byte → Ctx → State → State) (c : Ctx) (s : State) : State :=
    match read t c s with
    | some (s, d, book) => f d book c s
    | none => s
  let idle (c : Ctx) (_ : State) : Prop := c.act = 0
  let odd (c : Ctx) (_ : State) : Prop := c.act ≠ 0 ∧ at_ c % 32 ≠ 0 ∧ ∀ r, c.path.wait ≠ some (.reads r)
  let place (c : Ctx) (_ : State) : Word64 := BitVec.ofNat 64 (at_ c)
  let st (c : Ctx) (l : Nat) : FLane := { sr := c.warp.regs.srst.lane l }
  let words (c : Ctx) (outs : List (Nat × Nat × FLane)) (s : State) : State :=
    keepLanes c (writeVec s c (c.f.km.getLsbD 3) c.f.d.toNat 1 c.act fun l => BitVec.ofNat 64 (laneValue (0, ({} : FLane)) outs l).1)
      (outs.map fun o => (o.1, o.2.2))
  let block (transform : Bool) (nb : Nat) (c : Ctx) (k : Nat) : List FNum :=
    let xs := (blockLanes nb k).map c.quantSource
    if !transform then xs
    else if xs.any FNum.isNan then xs.map fun _ => .nan false false (2 ^ 22) 23
    else hadamardAll c.quantEnv.down (if nb = 16 then 2 else 3) xs
  let scale (transform : Bool) (d book : List Byte) (c : Ctx) (k : Nat) : Nat × Scale × Exc :=
    blockScale c.ty (descSfmt d) book (((List.range (descBlk d)).zip (block transform (descBlk d) c k)).filterMap fun y =>
      if c.path.lmask.getLsbD (descBlk d * k + y.1) then some y.2 else none)
  let codes (transform : Bool) (d book : List Byte) (c : Ctx) (k : Nat) : List (Nat × Nat × FLane) :=
    ((List.range (descBlk d)).zip (block transform (descBlk d) c k)).filterMap fun y =>
      let l := descBlk d * k + y.1
      if c.act.getLsbD l then some (l, quantElement c.quantEnv c.ty book (scale transform d book c k).2.1 y.2 (st c l)) else none
  let quantised (transform : Bool) (d book : List Byte) (c : Ctx) (s : State) : State :=
    let ks := blocksOf (descBlk d) c.act
    let s := writeElements c s (ks.flatMap (codes transform d book c)) (ks.foldl (fun x k => x ||| (scale transform d book c k).2.2) 0)
    if c.hasC = true ∧ descSfmt d ≠ 0 then
      writeUni s c c.f.fc.toNat (ks.foldl (fun (w : Word64) k =>
        (w &&& ~~~((0xFF : Word64) <<< (8 * k))) ||| (BitVec.ofNat 64 (scale transform d book c k).1 <<< (8 * k))) c.uC)
    else s
  let scaled (d book : List Byte) (c : Ctx) (s : State) : State :=
    writeElements c s ((lanesOf c.act).map fun l =>
      (l, quantElement c.quantEnv c.ty book (c.givenScale (descSfmt d) (l / descBlk d)) (c.quantSource l) (st c l))) 0
  let dequantised (d book : List Byte) (c : Ctx) : State → State :=
    words c ((lanesOf c.act).map fun l =>
      let x := decodeElement c.ty book ((c.srcA l).toNat / 2 ^ (c.ty.bits * c.q))
      let code := c.uC.toNat / 2 ^ (8 * (l / descBlk d)) % 256
      let z : FNum := match c.givenScale (descSfmt d) (l / descBlk d) with
        | .nan => if descSfmt d = 2 then readFloat .e4m3 false code else .nan false false (2 ^ 22) 23
        | .val d => .fin d
      (l, nanOr c.quantEnv .f32 [x, z] (st c l) fun t => writeFloat c.quantEnv .f32 false true [x, z] (x.mul z) t))
  let transformed (c : Ctx) : State → State :=
    let nb := if c.q % 2 = 0 then 16 else 32
    words c ((lanesOf c.act).map fun l =>
      let xs := (blockLanes nb (l / nb)).map c.quantSource
      (l, nanOr c.quantEnv .f32 xs (st c l) fun t =>
        writeFloat c.quantEnv .f32 false true [] (hadamard c.quantEnv.down (if c.q = 1 then 3 else 2) xs (l % nb)) t))
  let entries (_ book : List Byte) (c : Ctx) (s : State) : State :=
    writeVec s c (c.f.km.getLsbD 3) c.f.d.toNat 1 c.act fun l =>
      let a := (c.srcA l).toNat / 2 ^ (8 * c.q)
      BitVec.ofNat 64 (bookWord book (a / 16 % 16) * 2 ^ 16 + bookWord book (a % 16))
  let cb4 (_ : Ctx) : ElemType := .cb4
  (∀ x, Accesses (exec (.qnt x)) 0x0DE (.r x) (ready (·.ty)) (under (·.ty) (quantised false)))
    ∧ (∀ x, Accesses (exec (.qnth x)) 0x0DF (.r x) (ready (·.ty)) (under (·.ty) (quantised true)))
    ∧ (∀ x, Accesses (exec (.dqnt x)) 0x0E0 (.r x) (ready (·.ty)) (under (·.ty) dequantised))
    ∧ (∀ x, Accesses (exec (.qscale x)) 0x0E1 (.r x) (ready (·.ty)) (under (·.ty) scaled))
    ∧ (∀ x, Completes (exec (.hadt x)) 0x0E2 (.r x) always transformed)
    ∧ (∀ x, Accesses (exec (.cbld x)) 0x0E3 (.r x) (ready cb4) (under cb4 entries))
    ∧ (∀ x, Accesses (exec (.qnt x)) 0x0DE (.r x) idle fun _ s => s)
    ∧ (∀ x, Accesses (exec (.qnth x)) 0x0DF (.r x) idle fun _ s => s)
    ∧ (∀ x, Accesses (exec (.dqnt x)) 0x0E0 (.r x) idle fun _ s => s)
    ∧ (∀ x, Accesses (exec (.qscale x)) 0x0E1 (.r x) idle fun _ s => s)
    ∧ (∀ x, Accesses (exec (.cbld x)) 0x0E3 (.r x) idle fun _ s => s)
    ∧ (∀ x, Faults (exec (.qnt x)) 0x0DE (.r x) odd .align place)
    ∧ ∀ x, Faults (exec (.dqnt x)) 0x0E0 (.r x) odd .align place

/-- R226-R229, R239, R241, R244-R247, R254. -/
def Obligations.MatrixOperationsQueue : Prop :=
  let free (c : Ctx) (s : State) : Prop := c.act ≠ 0 ∧ Room c s
  let idle (c : Ctx) (s : State) : Prop := c.act = 0 ∧ Room c s
  let tensor (n : BitVec 8) (c : Ctx) : BitVec 512 := c.warp.regs.tensor n.toNat
  let bound (wide : Bool) (j : Nat) (c : Ctx) : Prop := (accBound c wide j).isNone = true
  let d (c : Ctx) : Nat := c.f.d.toNat
  let a (c : Ctx) : Nat := c.f.fa.toNat
  let ta (c : Ctx) := tensor c.f.fa c
  let tb (c : Ctx) := tensor c.f.fb c
  let td (c : Ctx) := tensor c.f.d c
  let mma (fb : List Byte) (prods : List Nat) (c : Ctx) : EngineKind := .mma (d c) (ta c) (tb c) fb c.ty (c.qa6 == 1) prods
  let pair (c : Ctx) (s : State) : Option (State × (List Byte × List Byte) × (List Byte × List Byte)) :=
    (described c s c.uC.toNat (some c.ty)).bind fun r =>
      (described c r.1 (c.uC.toNat + 32) (some (tFmt (tb c)))).map fun q => (q.1, r.2, q.2)
  let lines (c : Ctx) (x y : List Byte) : List (Nat × Nat) :=
    fetchLines (boxRows (ta c) (List.range 64) 0 ++ boxRows (tb c) (List.range (tBoxc (ta c))) 1
      ++ scaleBytes x (tBoxc (ta c)) (scaleIndexA (ta c) (descBlk x)) ++ scaleBytes y (tBoxc (ta c)) (scaleIndexB (tb c) (descBlk y)))
  let policy (c : Ctx) : Nat := c.warp.regs.gmode.toNat / 2 ^ 10 % 4
  let table (c : Ctx) (s : State) (x y : List Byte × List Byte) : Option ProductTable :=
    let mine := s.eng.tables.reverse.filter (·.is c.warp.core c.warp.vf c.warp.asid (descBook x.1) (descBook y.1))
    if policy c = 1 then mine.find? (·.mptb) else mine.head?
  let shapes (c : Ctx) : Prop :=
    bound (c.ty == .f64) (d c) c ∧ (shapeFault (ta c)).isNone = true ∧ (shapeFault (tb c)).isNone = true ∧ c.uC.toNat % 64 = 0
      ∧ tFmt (ta c) = c.ty ∧ mmaShape (ta c) (tb c) = true
  let plain (c : Ctx) (s : State) : Prop :=
    free c s ∧ shapes c ∧ c.ty ≠ .cb4
      ∧ ((pair c s).any fun r => pairLegal c.ty (tFmt (tb c)) (descSfmt r.2.1.1 != 0 || descSfmt r.2.2.1 != 0)) = true
  let multiply (c : Ctx) (s : State) : State :=
    match pair c s with
    | some (s, x, y) => enqueued (mma (x.1 ++ y.1) [] c) true (lines c x.1 y.1) c s
    | none => s
  let booked (c : Ctx) (s : State) : Prop :=
    free c s ∧ shapes c ∧ c.ty = .cb4 ∧ policy c ≠ 2
      ∧ ((pair c s).any fun r => pairLegal c.ty (tFmt (tb c)) (descSfmt r.2.1.1 != 0 || descSfmt r.2.2.1 != 0)
        && (table c r.1 r.2.1 r.2.2).isSome) = true
  let lookUp (c : Ctx) (s : State) : State :=
    match pair c s with
    | some (s, x, y) =>
      (match table c s x y with
        | some t => enqueued (mma (x.1 ++ y.1) t.prods c) true (lines c x.1 y.1) c (touchTable s t)
        | none => s)
    | none => s
  let unbooked (c : Ctx) (s : State) : Option (State × (List Byte × List Byte) × (List Byte × List Byte) × List Nat) :=
    (pair c s).bind fun r =>
      if policy c = 2 then
        (fetched c r.1 (descBook r.2.1.1) 32).bind fun x => (fetched c x.1 (descBook r.2.2.1) 32).bind fun y =>
          (products x.2 y.2).map fun ps => (y.1, r.2.1, r.2.2, ps)
      else if policy c = 1 ∨ (table c r.1 r.2.1 r.2.2).isSome = true then none
      else (products r.2.1.2 r.2.2.2).map fun ps => (r.1, r.2.1, r.2.2, ps)
  let builds (c : Ctx) (s : State) : Prop :=
    free c s ∧ shapes c ∧ c.ty = .cb4
      ∧ ((unbooked c s).any fun r => pairLegal c.ty (tFmt (tb c)) (descSfmt r.2.1.1 != 0 || descSfmt r.2.2.1.1 != 0)) = true
  let build (c : Ctx) (s : State) : State :=
    match unbooked c s with
    | some (s, x, y, ps) =>
      enqueued (mma (x.1 ++ y.1) ps c) true (lines c x.1 y.1) c
        (newTable s { core := c.warp.core, vf := c.warp.vf, asid := c.warp.asid, cbA := descBook x.1, cbB := descBook y.1, prods := ps, mptb := false })
    | none => s
  let setr (c : Ctx) : EngineKind := .msetr (d c) c.f.fc.toNat ((List.range 8).map fun i => c.vrow false (a c + i))
  let mrow (c : Ctx) : EngineKind := .mrow (a c) c.f.fc.toNat (c.slot (d c))
  let mcvt (c : Ctx) : EngineKind := .mcvt (d c) (a c) c.ty c.f.fc.toInt c.roundM c.warp.regs.gmode
  let msta (c : Ctx) : EngineKind := .msta (a c) (td c) c.ty c.roundM c.warp.regs.gmode
  let mlda (c : Ctx) : EngineKind := .mlda (d c) (ta c) c.ty c.warp.regs.gmode
  let queue (kind : Ctx → EngineKind) (batch : Bool) (c : Ctx) (s : State) : State := enqueued (kind c) batch [] c s
  let full (c : Ctx) (s : State) : Prop := c.act = 0 ∧ 32 ≤ (s.eng.queue.filter (·.core == c.warp.core)).length
  let books (c : Ctx) (s : State) : Option (State × List Byte × List Byte) :=
    let one (s : State) (va : Nat) : Option (State × List Byte) :=
      match cachedDesc s c.warp va with
      | some x => if descCheck x.1 (some .cb4) = none then some (cacheDesc s c.warp va x, x.1) else none
      | none =>
        ((fetched c s va 32).filter fun r => descCheck r.2 (some .cb4) == none).map fun r =>
          match peekBytes c r.1 (descBook r.2) 32 with
          | (t, some book) => (fillBlock c t va (r.2, book), r.2)
          | (t, none) => (t, r.2)
    (one s c.uC.toNat).bind fun r => (one r.1 (c.uC.toNat + 32)).map fun q => (q.1, r.2, q.2)
  let tables (c : Ctx) (s : State) : State :=
    match books c s with
    | some (s, x, y) => enqueued (.mptb (descBook x) (descBook y)) true ((descBook x, 2) :: if descBook x = descBook y then [] else [(descBook y, 2)]) c s
    | none => s
  (∀ x, Accesses (exec (.mma x)) 0x140 (.a x) plain multiply)
    ∧ (∀ x, Accesses (exec (.mma x)) 0x140 (.a x) booked lookUp)
    ∧ (∀ x, Accesses (exec (.mma x)) 0x140 (.a x) builds build)
    ∧ (∀ x, Completes (exec (.mzero x)) 0x143 (.r x) (fun c s => free c s ∧ bound false (d c) c) (queue (fun c => .mzero (d c)) false))
    ∧ (∀ x, Completes (exec (.mlda x)) 0x144 (.a x)
        (fun c s => free c s ∧ bound (c.ty == .f64) (d c) c ∧ (boxFault (ta c) c.ty).isNone = true)
        fun c => enqueued (mlda c) true (fetchLines (boxRows (ta c) (rowsOf c.act) 0)) c)
    ∧ (∀ x, Completes (exec (.msta x)) 0x145 (.a x)
        (fun c s => free c s ∧ bound (c.ty == .f64) (a c) c ∧ (boxFault (td c) c.ty).isNone = true) (queue msta true))
    ∧ (∀ x, Completes (exec (.mrow x)) 0x146 (.r x) (fun c s => free c s ∧ bound false (a c) c) (queue mrow false))
    ∧ (∀ x, Completes (exec (.msetr x)) 0x147 (.r x) (fun c s => free c s ∧ bound false (d c) c) (queue setr false))
    ∧ (∀ x, Completes (exec (.mcvt x)) 0x148 (.r x) (fun c s => free c s ∧ bound false (d c) c ∧ bound false (a c) c) (queue mcvt false))
    ∧ (∀ x, Accesses (exec (.mptb x)) 0x149 (.a x) (fun c s => free c s ∧ c.uC.toNat % 64 = 0 ∧ (books c s).isSome = true) tables)
    ∧ (∀ x, Accesses (exec (.mma x)) 0x140 (.a x) idle (queue (mma [] []) true))
    ∧ (∀ x, Completes (exec (.mzero x)) 0x143 (.r x) idle (queue (fun c => .mzero (d c)) false))
    ∧ (∀ x, Completes (exec (.mlda x)) 0x144 (.a x) idle (queue mlda true))
    ∧ (∀ x, Completes (exec (.msta x)) 0x145 (.a x) idle (queue msta true))
    ∧ (∀ x, Completes (exec (.mrow x)) 0x146 (.r x) idle (queue mrow false))
    ∧ (∀ x, Completes (exec (.msetr x)) 0x147 (.r x) idle (queue setr false))
    ∧ (∀ x, Completes (exec (.mcvt x)) 0x148 (.r x) idle (queue mcvt false))
    ∧ (∀ x, Accesses (exec (.mptb x)) 0x149 (.a x) (fun c _ => c.act = 0) fun _ s => s)
    ∧ ∀ x, Waits (exec (.mzero x)) 0x143 (.r x) full (fun _ s => s) fun _ _ => .engineRoom

/-- R233, R247-R253. -/
def Obligations.BatchesAndTensorRecords : Prop :=
  let on (c : Ctx) : Prop := c.act ≠ 0
  let loaded (n : BitVec 8) (c : Ctx) : Bool := tStatus (c.warp.regs.tensor n.toNat) != 0
  let off (c : Ctx) (_ : State) : Prop := c.act = 0
  let closed (c : Ctx) (s : State) : Batch :=
    { c.warp.openBatch with closed := true, tb := if c.q % 2 = 1 then some c.uA.toNat else none
                            cart := if 2 ≤ c.q then some c.uC.toNat else none
                            pidx := c.p, core := c.warp.core, times := { c.warp.openBatch.times with tclose := s.clock } }
  let close (c : Ctx) (s : State) : State :=
    let t := writeUD (s.modWarp c.w fun x => { x.setOpen (closed c s) with regs := { x.regs with blast := (closed c s).b } }) c
      ((closed c s).b.zeroExtend 64)
    match c.warp.openBatch.ops, t.warp? c.w with
    | [], some x => completeBatch t c.w x (closed c s)
    | _, _ => t
  let few (c : Ctx) (s : State) : Prop :=
    s.flips = [] ∧ on c ∧ (2 ≤ c.q → c.uC.toNat % 64 = 0) ∧ (c.warp.batches.filter fun b => b.closed && !b.ops.isEmpty).length < 16
  let pending (c : Ctx) (s : State) : List Nat := (c.warp.batches.filter (·.pending s)).map (·.b.toNat)
  let n (c : Ctx) : BitVec 16 := c.uA.truncate 16
  let age (c : Ctx) : Nat := (c.warp.regs.blast - n c).toNat
  let status (c : Ctx) (i : BitVec 16) : Word64 := c.warp.regs.bring.get 0 (i.toNat % 16)
  let oldest (c : Ctx) : Word64 :=
    (((List.range 16).map fun i => c.warp.regs.bring.get 0 ((c.warp.regs.blast.toNat + i + 1) % 16)).find? fun x => x.getLsbD 0).getD 0
  let drop (f : Ctx → FormatEntry → Bool) (c : Ctx) (s : State) : State :=
    { s with eng := { s.eng with blocks := s.eng.blocks.filter fun e => !f c e } }
  let fresh (c : Ctx) (s : State) (va : Nat) : Option (State × (List Byte × List Byte)) :=
    (fetched c s va 32).bind fun r =>
      if descCheck r.2 none ≠ none then none
      else if descFmt r.2 = .cb4 then
        (fetched c r.1 (descBook r.2) 32).bind fun k => if bookBad k.2 then none else some (k.1, (r.2, k.2))
      else some (r.1, (r.2, []))
  let both (c : Ctx) (s : State) : Option (State × (List Byte × List Byte) × (List Byte × List Byte)) :=
    (fresh c s c.uC.toNat).bind fun r => (fresh c r.1 (c.uC.toNat + 32)).map fun q => (q.1, r.2, q.2)
  let refill (c : Ctx) (s : State) : State :=
    match both c s with
    | some (s, x, y) => cacheDesc (cacheDesc (drop (fun c e => e.for_ c.warp c.uC.toNat) c s) c.warp c.uC.toNat x) c.warp (c.uC.toNat + 32) y
    | none => s
  let words (xs : List Access2) : List (Nat × Access2) :=
    xs.flatMap fun x => (List.range 8).map fun i => (i, { x with pa := x.pa + 8 * i, va := x.va + 8 * i })
  let load (c : Ctx) (s : State) : State :=
    let xs := hits s c .read (tensorElem c)
    issueRead (withCached c s .gen 0 (xs.map (·.pa))) c (.weak .gen) 8 c.path.lmask (words xs)
      (.tensor c.f.d.toNat) [.tensor c.f.d.toNat]
  let record (c : Ctx) (s : State) : List StoreElem := (hits s c .write (tensorElem c)).map fun x =>
    { lanes := c.path.lmask, va := x.va, pa := x.pa, exec := x.execPage c, bytes := leBytes 64 (c.warp.regs.tensor c.f.d.toNat).toNat }
  let place (c : Ctx) (s : State) : Option State := entered c s false (linesOf ((record c s).map (·.pa)))
  let store (c : Ctx) (s : State) : State := holdStores ((place c s).getD s) c (record c s)
  (∀ x, Completes (exec (.mfence x)) 0x141 (.r x) few close)
    ∧ (∀ x, Completes (exec (.mwait x)) 0x142 (.r x) (fun c s => on c ∧ c.q = 1 ∧ pending c (prepare c s) = [])
        fun c s => writeUD (pruneBatches s c.w) c (oldest c))
    ∧ (∀ x, Completes (exec (.mwait x)) 0x142 (.r x) (fun c _ => on c ∧ c.q ≠ 1 ∧ 15 < age c) fun c s => writeUD s c 2)
    ∧ (∀ x, Completes (exec (.mwait x)) 0x142 (.r x) (fun c s => on c ∧ c.q ≠ 1 ∧ age c ≤ 15 ∧ (n c).toNat ∉ pending c (prepare c s))
        fun c s => writeUD s c (status c (n c)))
    ∧ (∀ x, Waits (exec (.mwait x)) 0x142 (.r x) (fun c s => on c ∧ c.q ≠ 1 ∧ age c ≤ 15 ∧ (n c).toNat ∈ pending c (prepare c s))
        (fun _ s => s) fun c _ => .batch [(n c).toNat])
    ∧ (∀ x, Accesses (exec (.mfmt x)) 0x14A (.a x) (fun c _ => on c ∧ c.qa6 = 2)
        (drop fun c e => e.core == c.warp.core && e.half == c.warp.half))
    ∧ (∀ x, Accesses (exec (.mfmt x)) 0x14A (.a x) (fun c _ => on c ∧ c.qa6 = 1) (drop fun c e => e.for_ c.warp c.uC.toNat))
    ∧ (∀ x, Accesses (exec (.mfmt x)) 0x14A (.a x)
        (fun c s => on c ∧ c.qa6 ≠ 1 ∧ c.qa6 ≠ 2 ∧ c.uC.toNat % 64 = 0 ∧ (both c s).isSome = true) refill)
    ∧ (∀ x, Accesses (exec (.tld x)) 0x14B (.m x) (fun c s => on c ∧ Reaches s c .read 64 (tensorElem c)
        ∧ Clean s 64 (hits s c .read (tensorElem c)) ∧ (cached c s .gen 0 ((hits s c .read (tensorElem c)).map (·.pa))).isSome = true) load)
    ∧ (∀ x, Accesses (exec (.tst x)) 0x14C (.m x)
        (fun c s => on c ∧ loaded c.f.d c = true ∧ Reaches s c .write 64 (tensorElem c) ∧ (place c s).isSome = true) store)
    ∧ (∀ x, Faults (exec (.tst x)) 0x14C (.m x) (fun c _ => on c ∧ (∀ r, c.path.wait ≠ some (.reads r)) ∧ loaded c.f.d c = false) .tshape fun _ _ => 0)
    ∧ (∀ x, Faults (exec (.tmod x)) 0x14D (.r x) (fun c _ => on c ∧ loaded c.f.fa c = false) .tshape fun _ _ => 0)
    ∧ (∀ x, Completes (exec (.tmod x)) 0x14D (.r x) (fun c _ => on c ∧ loaded c.f.fa c = true) fun c s =>
        s.modRegs c.w fun r => { r with t := r.t.put 0 c.f.d.toNat (tmodValue (c.q == 0) (r.tensor c.f.fa.toNat) c.uB) })
    ∧ (∀ x, Completes (exec (.mfence x)) 0x141 (.r x) (fun c s => s.flips = [] ∧ off c s) fun _ s => s)
    ∧ (∀ x, Completes (exec (.mwait x)) 0x142 (.r x) off fun _ s => s)
    ∧ (∀ x, Accesses (exec (.mfmt x)) 0x14A (.a x) off fun _ s => s)
    ∧ (∀ x, Accesses (exec (.tld x)) 0x14B (.m x) off fun _ s => s)
    ∧ (∀ x, Accesses (exec (.tst x)) 0x14C (.m x) off fun _ s => s)
    ∧ ∀ x, Completes (exec (.tmod x)) 0x14D (.r x) off fun _ s => s

/-- R319, R323-R328, R333. -/
def Obligations.CopiesQueue : Prop :=
  let on (c : Ctx) : Prop := c.guard0 = true
  let off (c : Ctx) (_ : State) : Prop := c.guard0 = false
  let free (s : State) (c : Ctx) (n : Nat) : Prop := n = 0 ∨ CopyRoom c s
  let ok (xs : List (Option (FaultCode × Word64))) : Prop := (firstFault xs).isNone = true
  let d (c : Ctx) : Nat := c.uD.toNat
  let a (c : Ctx) : Nat := c.uA.toNat
  let n (c : Ctx) : Nat := c.uB.toNat % 2 ^ 32
  let tb (c : Ctx) : Option Nat := if c.qa6 = 1 then none else some c.uC.toNat
  let tbBox (c : Ctx) : Option Nat := if 2 ≤ c.qa6 then none else some c.uC.toNat
  let box (c : Ctx) : BitVec 512 := c.warp.regs.tensor c.f.fa.toNat
  let sources (c : Ctx) : List Nat :=
    (lanesOf c.act).map fun l => (c.srcA l).toNat
  let size (c : Ctx) : Nat := n c * (lanesOf c.act).length
  let bytes (c : Ctx) : Nat := tBoxr (box c) * packedPitch (elemBytes (tFmt (box c)) (tBoxc (box c)))
  let linear (c : Ctx) (s : State) : Prop :=
    on c ∧ ok [rights c, aligned16 [a c, d c, n c], addresses s c [(a c, n c), (d c, n c)], barrierChecks s c (tb c).toList] ∧ free s c (n c)
  let gathers (c : Ctx) (s : State) : Prop :=
    lanesOf c.act ≠ [] ∧ 16 ≤ n c ∧ n c ≤ 4096
      ∧ ok [rights c, aligned16 (sources c ++ [d c]), aligned16 [n c], addresses s c ((sources c).map (·, n c) ++ [(d c, size c)]),
          barrierChecks s c (tb c).toList]
      ∧ free s c (size c)
  let boxes (c : Ctx) (s : State) : Prop :=
    on c ∧ ok [rights c, shapeFault (box c), aligned16 [d c], addresses s c ((d c, bytes c) :: boxRanges (box c)),
        barrierChecks s c (tbBox c).toList]
      ∧ free s c (bytes c)
  let desc (c : Ctx) (s : State) : Option (State × (List Byte × List Byte)) := described c s c.uB.toNat (some c.ty)
  let codes (c : Ctx) : Nat := tBoxr (box c) * quantPitch (box c) c.ty
  let scales (c : Ctx) (x : List Byte) : Nat := if descSfmt x = 0 then 0 else tBoxr (box c) * (tBoxc (box c) / descBlk x)
  let quantises (c : Ctx) (s : State) : Prop :=
    on c ∧ ok [rights c, shapeFault (box c)] ∧ (tFmt (box c) = .f32 ∨ tFmt (box c) = .bf16) ∧ c.uB.toNat % 64 = 0
      ∧ match desc c s with
        | some (s, x, _) =>
          tBoxc (box c) % descBlk x = 0 ∧ tBcol (box c) % descBlk x = 0
            ∧ ok [aligned16 [d c], addresses s c ((d c, codes c) :: boxRanges (box c) ++ scaleRanges (box c) x), barrierChecks s c (tbBox c).toList]
            ∧ CopyRoom c s
        | none => False
  let draw (c : Ctx) : Word32 := c.warp.regs.srst.lane c.lane0
  let quantise (c : Ctx) (s : State) : State :=
    match desc c s with
    | some (s, x, book) =>
      let t := copying (.quantise (box c) (d c) x book c.ty c.roundM (c.qa6 % 2 == 1) c.warp.regs.gmode (draw c)) (codes c + scales c x)
        (tbBox c) c s
      if c.fenv.mode = 6 ∧ c.ty ≠ .cb4 then t.modRegs c.w fun r => { r with srst := r.srst.set c.lane0 (xorshift (draw c)) } else t
    | none => s
  let views (c : Ctx) : List Nat := (List.range 16).filter (c.uB.toNat / 2 ^ 32 % 2 ^ 16).testBit
  let pitch (c : Ctx) : Nat := c.uC.toNat / 2 ^ 32
  let o (c : Ctx) : Nat := c.uC.toNat % 2 ^ 32
  let inWindow (c : Ctx) (s : State) (v : Nat) : Prop := (windowOfs s c.warp.vf c.warp.asid (d c + v * pitch c)).isSome = true
  let casts (c : Ctx) (s : State) : Prop :=
    on c ∧ views c ≠ [] ∧ c.uB.toNat / 2 ^ 32 % 2 ^ 16 ≠ 0 ∧ ((views c).length ≤ 1 ∨ n c ≤ pitch c) ∧ (∀ v ∈ views c, inWindow c s v)
      ∧ ok [rights c, aligned16 [a c, d c, n c, pitch c], addresses s c ((a c, n c) :: (d c, 0) :: (views c).map fun v => (d c + v * pitch c, n c)),
          if c.qa6 = 1 then none else barrierChecks s c ((views c).map fun v => o c + 32 * v)]
      ∧ free s c (n c)
  let gone (c : Ctx) (s : State) : List Copy := s.eng.copies.filter fun x => x.warp == c.w && !x.wrote
  let cancel (c : Ctx) (s : State) : State :=
    let t : State := { s with eng := { s.eng with copies := s.eng.copies.filter fun x => !(x.warp == c.w && !x.wrote) } }
    writeUD ((gone c s).foldl (fun t x => t.modWarp c.w (·.flagDone x.flag)) t) c (BitVec.ofNat 64 (gone c s).length)
  let counts (c : Ctx) (s : State) : State :=
    let used := (s.eng.copies.filter (·.cluster == clusterOf c.warp.core)).length
    writeUD s c (BitVec.ofNat 64 (bit c.warp.producer * 2 ^ 16 + (128 - used) * 2 ^ 8 + (s.eng.copies.filter (·.wg == c.warp.wg)).length))
  let trapped (c : Ctx) (_ : State) : Prop := on c ∧ c.warp.producer = false
  (∀ x, Completes (exec (.cpy x)) 0x220 (.a x) (prepared linear) fun c => copying (.linear (a c) (d c)) (n c) (tb c) c)
    ∧ (∀ x, Completes (exec (.cpyo x)) 0x221 (.a x) (prepared gathers) fun c => copying (.gather (sources c) (n c) (d c)) (size c) (tb c) c)
    ∧ (∀ x, Completes (exec (.cpyt x)) 0x222 (.a x) (prepared boxes) fun c =>
        copying (if c.qa6 % 2 = 0 then .boxLoad (box c) (d c) else .boxStore (box c) (d c)) (bytes c) (tbBox c) c)
    ∧ (∀ x, Accesses (exec (.cpyq x)) 0x223 (.a x) quantises quantise)
    ∧ (∀ x, Completes (exec (.cpymc x)) 0x224 (.a x) (prepared casts) fun c =>
        copying (.multicast (a c) (d c) (pitch c) (views c)) (n c) (if c.qa6 = 1 then none else some (o c)) c)
    ∧ (∀ x, Completes (exec (.cpys x)) 0x225 (.r x) (fun c _ => on c) counts)
    ∧ (∀ x, Completes (exec (.cpyc x)) 0x226 (.r x) (fun c _ => on c ∧ c.warp.producer = true) cancel)
    ∧ (∀ x, Completes (exec (.cpyw x)) 0x227 (.r x)
        (fun c s => on c ∧ c.path.wait = none ∧ c.warp.producer = true ∧ s.eng.copies.filter (·.warp == c.w) = [])
        fun c s => (writeUD s c c.warp.copyFault).modWarp c.w fun x => { x with copyFault := 0 })
    ∧ (∀ x, Faults (exec (.cpy x)) 0x220 (.a x) trapped .nocpyright fun _ _ => 0)
    ∧ (∀ x, Faults (exec (.cpyo x)) 0x221 (.a x) (fun c _ => c.warp.producer = false) .nocpyright fun _ _ => 0)
    ∧ (∀ x, Faults (exec (.cpyt x)) 0x222 (.a x) trapped .nocpyright fun _ _ => 0)
    ∧ (∀ x, Faults (exec (.cpymc x)) 0x224 (.a x) trapped .nocpyright fun _ _ => 0)
    ∧ (∀ x, Faults (exec (.cpyc x)) 0x226 (.r x) trapped .nocpyright fun _ _ => 0)
    ∧ (∀ x, Completes (exec (.cpy x)) 0x220 (.a x) off fun _ s => s)
    ∧ (∀ x, Completes (exec (.cpyt x)) 0x222 (.a x) off fun _ s => s)
    ∧ (∀ x, Accesses (exec (.cpyq x)) 0x223 (.a x) off fun _ s => s)
    ∧ (∀ x, Completes (exec (.cpymc x)) 0x224 (.a x) off fun _ s => s)
    ∧ (∀ x, Completes (exec (.cpys x)) 0x225 (.r x) off fun _ s => s)
    ∧ (∀ x, Completes (exec (.cpyc x)) 0x226 (.r x) off fun _ s => s)
    ∧ ∀ x, Completes (exec (.cpyw x)) 0x227 (.r x) off fun _ s => s

/-- R351-R361. -/
def Obligations.PeersAndResidency : Prop :=
  let on (c : Ctx) : Prop := c.guard0 = true
  let off (c : Ctx) (_ : State) : Prop := c.guard0 = false
  let peer (sel : Ctx → Word64) (c : Ctx) (s : State) : Option Nat :=
    match selected s c.warp (sel c) with
    | .ok n => if savedWg s n = none then some n else none
    | .error _ => none
  let owner (c : Ctx) (s : State) : Option Nat :=
    match c.path.wait with
    | some (.remote n _) => if (s.warp? n).isSome = true then some n else peer (·.uB) c s
    | _ => peer (·.uB) c s
  let still (s : State) : Prop := s.flips = []
  let slot (c : Ctx) : Nat := c.uB.toNat / 2 ^ 16 % 2 ^ 16
  let cnt (c : Ctx) : Nat := if c.ty.bytes = 8 then 2 else 1
  let row (c : Ctx) (s : State) (n i : Nat) : State × Option Row := if i < cnt c then remoteRow s n (slot c + i) else (s, some zeroRow)
  let rows (c : Ctx) (s : State) : Option (State × Row × Row) :=
    (owner c s).bind fun n =>
      let r0 := row c s n 0
      let r1 := row c r0.1 n 1
      r0.2.bind fun x => r1.2.map fun y => (r1.1, x, y)
  let idle (r : Nat → Reg) (k : Nat) (n : Nat) (s : State) : Bool := (List.range k).all fun i => !(busyRegs s n).contains (r i)
  let near (c : Ctx) (s : State) : Prop :=
    still s ∧ c.act ≠ 0 ∧ (rows c s).isSome = true
      ∧ ((owner c s).any fun n => (s.warp? n).any fun x => decide (slot c + cnt c ≤ x.regs.stackSize)
        && idle (fun i => .slot (slot c + i)) (cnt c) n s) = true
  let lane (c : Ctx) (l : Nat) : Nat := if c.q = 1 then l else (c.srcA l).toNat % 32
  let remote (c : Ctx) (s : State) : State :=
    match rows c s with
    | some (s, x, y) => writeVec s c (c.f.km.getLsbD 3) c.f.d.toNat (cnt c) c.act fun l => y.lane (lane c l) ++ x.lane (lane c l)
    | none => s
  let uniform (c : Ctx) (s : State) : Option (State × Word64) :=
    (owner c s).bind fun n => (remoteUniform s n (slot c)).2.map fun x => ((remoteUniform s n (slot c)).1, x)
  let nearU (c : Ctx) (s : State) : Prop :=
    still s ∧ on c ∧ slot c < 64 ∧ (uniform c s).isSome = true
      ∧ ((owner c s).any fun n => !(busyRegs s n).contains (.uni (slot c))) = true
  let own (c : Ctx) : Nat := c.warp.wg
  let g (c : Ctx) (s : State) : Workgroup := (s.wg? (own c)).getD { handle := 0 }
  let other (c : Ctx) (s : State) : Nat := (peerWg s c.warp (c.uA.toNat % 2 ^ 32)).getD 0
  let gp (c : Ctx) (s : State) : Workgroup := (s.wg? (other c s)).getD (g c s)
  let found (c : Ctx) (s : State) : Prop :=
    on c ∧ c.q ≠ 2 ∧ (s.wg? (own c)).isSome = true ∧ (peerWg s c.warp (c.uA.toNat % 2 ^ 32)).isSome = true
  let fresh (c : Ctx) (s : State) : Prop := found c s ∧ (g c s).pair ≠ some (other c s)
  let apart (c : Ctx) (s : State) : Prop := fresh c s ∧ (g c s).die = (gp c s).die ∧ (g c s).cluster ≠ (gp c s).cluster
  let taken (c : Ctx) (s : State) : Bool :=
    (g c s).pair.isSome || ((g c s).asks.isSome && (g c s).asks != some (other c s)) || (gp c s).pair.isSome
      || ((gp c s).asks.isSome && (gp c s).asks != some (own c))
  let answer (x : Word64) (c : Ctx) (s : State) : State := writeUD s c x
  let join (c : Ctx) (s : State) : State :=
    let t := s.modWg (own c) fun g => { g with pair := some (other c s), asks := none }
    writeUD (t.modWg (other c s) fun g => { g with pair := some (own c), asks := none }) c 0
  let ask (c : Ctx) (s : State) : State := s.modWg (own c) fun g => { g with asks := some (other c s) }
  let query (c : Ctx) (s : State) : Word64 :=
    if c.q = 0 then c.warp.record.zeroExtend 64 else if c.q = 1 then peerWord s c.warp c.uA
    else if c.q = 2 then c.warp.regs.decl else c.warp.regs.misscnt.zeroExtend 64
  let waiting (c : Ctx) (s : State) : Option Shuf :=
    match shufPeer s c.warp c.uB with
    | .ok n => if savedWg s n = none then s.eng.shufs.find? fun o => o.w == n && o.peer == c.w && !o.bad else none
    | .error _ => none
  let common (c : Ctx) (o : Shuf) : BitVec 32 := o.lanes &&& c.act
  let mine (c : Ctx) (i : Nat) : Row := c.vrow (c.f.km.getLsbD 2) (c.f.fa.toNat + i)
  let parts (o : Shuf) : List Nat := List.range (if o.wide then 2 else 1)
  let given (c : Ctx) (o : Shuf) (x : Warp) : Warp := (parts o).foldl (fun x i => x.setRow (o.d + i) (common c o) (mine c i)) x
  let theirs (t : State) (o : Shuf) (i : Nat) : Row :=
    match o.krows with
    | some ks => ks.getD i zeroRow
    | none => ((remoteRow t o.w (o.a + i)).2).getD zeroRow
  let meets (c : Ctx) (s : State) : Prop :=
    still s ∧ c.act ≠ 0 ∧ (match c.path.wait with | some (.shuf _) => False | _ => True)
      ∧ match waiting c s with
        | some o => o.wide = decide (c.ty.bytes = 8) ∧ (match o.krows with | some ks => ks.length = (parts o).length | none => True)
            ∧ (match updateSlots s o.w o.slots id with | .ok _ => True | .error _ => False)
            ∧ (match updateSlots s o.w o.slots (given c o) with | .ok _ => True | .error _ => False)
        | none => False
  let swap (c : Ctx) (s : State) : State :=
    match waiting c s with
    | some o =>
      (match updateSlots s o.w o.slots id, updateSlots s o.w o.slots (given c o) with
        | .ok t, .ok u =>
          dropShuf ((parts o).foldl (fun s i =>
            writeRow s c false (c.f.d.toNat + i) (common c o) fun l => (theirs t o i).lane l) u) o.k
        | _, _ => s)
    | none => s
  let awake (c : Ctx) (s : State) : State :=
    writeUD (refresh (s.modWarp c.w fun x => { x with wakeDie := false, regs := { x.regs with wakep := false } }) c.warp.core
      (if c.warp.wakeDie then .die else .clus)) c 0
  let sleeper (c : Ctx) : Prop := match c.path.wait with | some (.sleep _ _ _) => False | _ => True
  let scope (c : Ctx) : Scope := if c.uA.getLsbD 6 then .die else .clus
  let woken (c : Ctx) (s : State) : Option State :=
    (peer (·.uA) c s).bind fun n =>
      match updateSaved (boundary s c.warp.core (scope c)) n (wakeWarp (c.uA.getLsbD 6)) with
      | .ok t => some t
      | .error _ => none
  let hot (c : Ctx) : Nat := (min (max (c.uA.toNat % 2 ^ 32) 8) 2048 + 7) / 8 - 1
  let hotset (c : Ctx) (s : State) : State :=
    s.modWarp c.w fun x =>
      let y := { x with regs := { x.regs with decl := (x.regs.decl &&& ~~~((0xFF : Word64) <<< 48)) ||| (BitVec.ofNat 64 (hot c) <<< 48) } }
      y.makeRoom 0 (y.victims (pendingSlots s c.w))
  (∀ x, Completes (exec (.rld x)) 0x230 (.r x) (prepared near) remote)
    ∧ (∀ x, Completes (exec (.rldu x)) 0x231 (.r x) (prepared nearU) fun c s =>
        match uniform c s with | some (s, y) => writeUD s c y | none => s)
    ∧ (∀ x, Completes (exec (.xshuf x)) 0x232 (.r x) (prepared meets) swap)
    ∧ (∀ x, Completes (exec (.xpair x)) 0x233 (.r x) (fun c _ => on c ∧ c.q = 2) fun c s => writeUD (unpair s (own c)) c 0)
    ∧ (∀ x, Completes (exec (.xpair x)) 0x233 (.r x) (prepared fun c s => found c s ∧ (g c s).pair = some (other c s)) (answer 0))
    ∧ (∀ x, Completes (exec (.xpair x)) 0x233 (.r x) (prepared fun c s => fresh c s ∧ (g c s).die ≠ (gp c s).die) (answer 3))
    ∧ (∀ x, Completes (exec (.xpair x)) 0x233 (.r x)
        (prepared fun c s => fresh c s ∧ (g c s).die = (gp c s).die ∧ (g c s).cluster = (gp c s).cluster) (answer 2))
    ∧ (∀ x, Completes (exec (.xpair x)) 0x233 (.r x) (prepared fun c s => apart c s ∧ taken c s = true) (answer 4))
    ∧ (∀ x, Completes (exec (.xpair x)) 0x233 (.r x) (prepared fun c s => apart c s ∧ taken c s = false ∧ (gp c s).asks = some (own c)) join)
    ∧ (∀ x, Completes (exec (.xpair x)) 0x233 (.r x)
        (prepared fun c s => apart c s ∧ taken c s = false ∧ (gp c s).asks ≠ some (own c) ∧ c.q = 1) fun c s => writeUD (ask c s) c 1)
    ∧ (∀ x, Waits (exec (.xpair x)) 0x233 (.r x)
        (prepared fun c s => apart c s ∧ taken c s = false ∧ (gp c s).asks ≠ some (own c) ∧ c.q ≠ 1) ask fun c s => .pair (other c s))
    ∧ (∀ x, Completes (exec (.xpair x)) 0x233 (.r x)
        (prepared fun c s => on c ∧ c.q ≠ 2 ∧ peerWg s c.warp (c.uA.toNat % 2 ^ 32) = none) (answer 5))
    ∧ (∀ x, Completes (exec (.ctxq x)) 0x234 (.r x) (fun c _ => on c ∧ c.q < 4) fun c s => writeUD s c (query c s))
    ∧ (∀ x, Completes (exec (.sleep x)) 0x235 (.r x) (fun c s => on c ∧ sleeper c ∧ c.warp.regs.wakep = true ∧ pendingReads s c.w c.path.lmask = []) awake)
    ∧ (∀ x, Waits (exec (.sleep x)) 0x235 (.r x) (fun c _ => on c ∧ sleeper c ∧ c.warp.regs.wakep = false) (fun _ s => s)
        fun c s => .sleep s.clock (c.uA.toNat % 2 ^ 32) none)
    ∧ (∀ x, Completes (exec (.wake x)) 0x236 (.r x)
        (prepared fun c s => still s ∧ on c ∧ Released c s (scope c) ∧ (woken c s).isSome = true) fun c s => (woken c s).getD s)
    ∧ (∀ x, Completes (exec (.hotset x)) 0x237 (.r x) (fun c _ => on c) hotset)
    ∧ (∀ x, Completes (exec (.rld x)) 0x230 (.r x) (fun c s => still s ∧ c.act = 0) fun _ s => s)
    ∧ (∀ x, Completes (exec (.xshuf x)) 0x232 (.r x) (fun c s => still s ∧ c.act = 0) fun _ s => s)
    ∧ (∀ x, Completes (exec (.rldu x)) 0x231 (.r x) (fun c s => still s ∧ off c s) fun _ s => s)
    ∧ (∀ x, Completes (exec (.xpair x)) 0x233 (.r x) off fun _ s => s)
    ∧ (∀ x, Completes (exec (.ctxq x)) 0x234 (.r x) off fun _ s => s)
    ∧ (∀ x, Completes (exec (.sleep x)) 0x235 (.r x) off fun _ s => s)
    ∧ (∀ x, Completes (exec (.wake x)) 0x236 (.r x) (fun c s => still s ∧ off c s) fun _ s => s)
    ∧ ∀ x, Completes (exec (.hotset x)) 0x237 (.r x) off fun _ s => s

/-- R67-R70, R117-R120, R128-R133. -/
def Obligations.PersonalitiesAndRowsOfTheGuest : Prop :=
  let on (c : Ctx) : Prop := c.guard0 = true
  let off (c : Ctx) (_ : State) : Prop := c.guard0 = false
  let n (c : Ctx) : Nat := c.f.fc.toNat
  let old (c : Ctx) (s : State) : Personality := s.personalities.get {} (n c)
  let claiming (c : Ctx) : Prop := match c.path.wait with | some (.installing _) => True | _ => False
  let still (s : State) : Prop := s.flips = []
  let fresh (c : Ctx) : Prop := on c ∧ ¬claiming c ∧ c.uA.toNat % 64 = 0
  let installed (c : Ctx) (s : State) : State :=
    let r := install s { vf := c.warp.vf, asid := c.warp.asid } (n c) c.uA.toNat
    writeUD r.1 c (BitVec.ofNat 64 r.2)
  let evicted (c : Ctx) (s : State) : State :=
    let t := s.modPersonality (n c) fun p => { p with resident := false, tables := none, digest := [] }
    writeUD (dropGazetteer t fun pid _ _ => pid == n c) c 0
  let bound (c : Ctx) (s : State) : State :=
    { s with spaces := s.spaces.adjust (State.spaceKey c.warp.vf c.warp.asid) fun a => { a with bind := a.bind.put 0 (n c) c.uA } }
  let query (c : Ctx) (s : State) : Word64 :=
    BitVec.ofNat 64 ((if binding s c.warp.vf c.warp.asid (n c) = 0 then 0 else 2) + if (old c s).resident then personalityWord (n c) (old c s) else 0)
  let dropped (c : Ctx) (s : State) : State :=
    dropGazetteer s fun pid asid line =>
      if c.q = 0 then true
      else if c.q = 1 then asid == c.uA.toNat % 2 ^ 16
      else if c.q = 2 then asid == c.uA.toNat % 2 ^ 16 && line / 64 == c.uB.toNat / 4096
      else pid == c.uA.toNat % 16
  let goal (c : Ctx) : Word64 :=
    if c.q = 1 then c.uA else c.warp.regs.empc + BitVec.ofNat 64 (c.warp.regs.eminfo.toNat / 16 % 2 ^ 12 / 8)
  let back (c : Ctx) (s : State) : State :=
    (s.modRegs c.w fun r => { r with prog := r.prog + 1, paths := r.paths.map fun q => (q.1, { q.2 with emu := false })
                                     stack := r.stack.map fun q => { q with emu := false } }).modPath c.w c.p
      fun q => { q with pc := (goal c).truncate 57, pcHi := (goal c).extractLsb' 57 7, clause := none, wait := none, notes := [] }
  let opens (i : Instr) (h : Header) (len word : Nat) : Prop := ∀ s k x q,
    s.cur = some k → s.warp? k.w = some x → s.path? k.w k.p = some q → q.clause.isSome = false → headerBad h x = false
      → x.regs.flagsClear h.waits = true
      → exec i s = .next (
          let t := traceClause s k.w k.p (if len = 8 then some h.len else none) word
          let clause := beginClause t x q (addPc q.pc len).toNat (headerClause h)
          { t.modPath k.w k.p (fun q =>
              { q with pc := addPc q.pc len, clause := some clause, wait := none, yielded := h.yld, urgent := false, passed := 0 }) with
            cur := some { w := k.w, p := k.p } })
  let emulates (i : Instr) (e : EmuWord) : Prop := ∀ s k x q,
    s.cur = some k → s.warp? k.w = some x → s.path? k.w k.p = some q → (∀ j < 8, Reg.uni (56 + j) ∉ busyRegs s k.w)
      → binding s x.vf x.asid e.pid.toNat ≠ 0 → q.emu = false → (x.regs.paths.any fun p => p.1 != k.p && p.2.emu) = false
      → (x.regs.stack.any (·.emu)) = false
      → exec i s = .next (
          let to_ := binding s x.vf x.asid e.pid.toNat + BitVec.ofNat 64 (64 * e.eclass.toNat)
          let t := s.modRegs k.w fun r =>
            { (List.range 8).foldl (fun (r : Regs) i => r.setUni (56 + i) (e.ef.getD i 0)) r with
              empc := q.pc.zeroExtend 64, emword := e.word, eminfo := BitVec.ofNat 32 (e.eclass.toNat + 16 * e.bits + 2 ^ 16 * e.pid.toNat) }
          clauseBoundary { t.modPath k.w k.p (fun q =>
            { q with emu := true, pc := to_.truncate 57, pcHi := to_.extractLsb' 57 7, clause := none, wait := none, notes := [] }) with
            cur := none } k.w)
  (∀ x, Waits (exec (.pinstall x)) 0x240 (.r x)
      (prepared fun c s => still s ∧ fresh c ∧ (old c s).resident = false ∧ (old c s).installing = false)
      (fun c s => s.modPersonality (n c) fun p => { p with installing := true }) fun c _ => .installing (n c))
    ∧ (∀ x, Completes (exec (.pinstall x)) 0x240 (.r x) (fun c s => still s ∧ on c ∧ claiming c) installed)
    ∧ (∀ x, Completes (exec (.pinstall x)) 0x240 (.r x)
        (prepared fun c s => still s ∧ fresh c ∧ ((old c s).resident = true ∨ (old c s).installing = true)) fun c s => writeUD s c 1)
    ∧ (∀ x, Completes (exec (.pevict x)) 0x244 (.r x)
        (prepared fun c s => on c ∧ (old c s).installing = false ∧ (old c s).resident = true) evicted)
    ∧ (∀ x, Completes (exec (.pevict x)) 0x244 (.r x)
        (prepared fun c s => on c ∧ (old c s).installing = false ∧ (old c s).resident = false) fun c s => writeUD s c 2)
    ∧ (∀ x, Completes (exec (.pevict x)) 0x244 (.r x) (prepared fun c s => on c ∧ (old c s).installing = true) fun c s => writeUD s c 5)
    ∧ (∀ x, Completes (exec (.pbind x)) 0x241 (.r x) (fun c _ => on c ∧ c.uA.toNat % 4096 = 0) bound)
    ∧ (∀ x, Completes (exec (.pquery x)) 0x243 (.r x) (fun c _ => on c) fun c s => writeUD s c (query c s))
    ∧ (∀ x, Completes (exec (.gzinv x)) 0x245 (.r x) (fun c _ => on c ∧ c.q < 4) dropped)
    ∧ (∀ x, Transfers (exec (.emret x)) 0x242 (.r x) (fun c _ => on c ∧ c.path.emu = true) back)
    ∧ (∀ x, Faults (exec (.emret x)) 0x242 (.r x) (fun c _ => on c ∧ c.path.emu = false) .emul fun _ _ => 2)
    ∧ (∀ glen waits sf1 sf2 rlx, j32HeaderOk glen.toNat sf1.toNat sf2.toNat = true →
        opens (.j32Header glen waits sf1 sf2 rlx) (j32HeaderOf glen waits sf1 sf2 rlx) 4
          (0xFC000000 + glen.toNat * 2 ^ 21 + waits.toNat * 2 ^ 9 + sf1.toNat * 2 ^ 5 + sf2.toNat * 2 + if rlx then 1 else 0))
    ∧ (∀ e, emulates (.emulationTrap e) e)
    ∧ (∀ k pay, emulates (.j32Emu k pay) { eclass := k, ef := List.replicate 8 (pay.zeroExtend 64)
                                           word := BitVec.ofNat 64 (0xF8000000 + k.toNat * 2 ^ 22 + pay.toNat), bits := 32, pid := 1 })
    ∧ (∀ pay, emulates (.j16Emu pay) { eclass := 0, ef := List.replicate 8 (pay.zeroExtend 64)
                                       word := BitVec.ofNat 64 (0xF500 + pay.toNat), bits := 16, pid := 2 })
    ∧ (∀ x, Completes (exec (.pinstall x)) 0x240 (.r x) (fun c s => still s ∧ off c s) fun _ s => s)
    ∧ (∀ x, Completes (exec (.pevict x)) 0x244 (.r x) off fun _ s => s)
    ∧ (∀ x, Completes (exec (.pbind x)) 0x241 (.r x) off fun _ s => s)
    ∧ (∀ x, Completes (exec (.pquery x)) 0x243 (.r x) off fun _ s => s)
    ∧ (∀ x, Completes (exec (.gzinv x)) 0x245 (.r x) off fun _ s => s)
    ∧ ∀ x, Completes (exec (.emret x)) 0x242 (.r x) off fun _ s => s

/-- R373, R374, R377-R385. -/
def Obligations.NodesLaunchesAndHostCalls : Prop :=
  let on (c : Ctx) : Prop := c.guard0 = true
  let off (c : Ctx) (_ : State) : Prop := c.guard0 = false
  let idle (c : Ctx) : Prop := c.path.wait = none
  let node (va : Ctx → Word64) (push form : Bool) (c : Ctx) (s : State) : Option (State × NodeDesc) := noded c s (va c) push form
  let pushing (c : Ctx) (s : State) : Option (State × NodeDesc) := node (·.uB) true true c s
  let span (c : Ctx) (d : NodeDesc) : List Nat := (List.range (d.recsz / 4)).map (c.f.fa.toNat + ·)
  let queue (c : Ctx) (s : State) (d : NodeDesc) : Nat × NodeQueue :=
    (findNode s (clusterOf c.warp.core) c.warp.grid d.addr).getD
      (s.nextId, { cluster := clusterOf c.warp.core, grid := c.warp.grid, desc := d })
  let sent (c : Ctx) (s : State) : State := boundary s c.warp.core .clus
  let counted (s : State) (k : Nat) : State := if k = s.nextId then { s with nextId := k + 1 } else s
  let room (c : Ctx) (s : State) (q : NodeQueue) : Prop := popcount c.act ≤ q.openChip s + (q.desc.capacity - q.share.length)
  let takes (c : Ctx) (s : State) (d : NodeDesc) : Prop :=
    (∀ n ∈ span c d, c.slot n < c.path.wtop.toNat) ∧ SlotsReady c s ((span c d).map c.slot) ∧ Released c s .clus
      ∧ ((sent c s).grid? c.warp.grid).any (fun g => !g.cut) = true
  let usable (c : Ctx) (s : State) (d : NodeDesc) : Prop :=
    (queue c (sent c s) d).2.hasBuffer (sent c s) = true ∨ (queue c (sent c s) d).2.desc.capacity ≠ 0
  let records (c : Ctx) (s : State) (q : NodeQueue) : List NodeRec :=
    (lanesOf c.act).map fun l => { bytes := laneRecord c q.desc l, at_ := s.clock, w := c.warp.regs.wgid }
  let onChip (c : Ctx) (s : State) (d : NodeDesc) : Prop :=
    takes c s d ∧ usable c s d ∧ popcount c.act ≤ (queue c (sent c s) d).2.openChip (sent c s)
  let pushed (c : Ctx) (s : State) : State :=
    match pushing c s with
    | some (s, d) =>
      let k := (queue c (sent c s) d).1
      let q := (queue c (sent c s) d).2
      let t := (counted (sent c s) k).setNode k { q with chip := q.chip ++ records c (sent c s) q, share := q.share, count := q.count }
      if c.q = 1 then writeUD t c 0 else t
    | none => s
  let refused (c : Ctx) (s : State) (d : NodeDesc) : Prop :=
    takes c s d ∧ ¬(usable c s d ∧ room c (sent c s) (queue c (sent c s) d).2)
  let forms (q : NodeQueue) : List (Nat × Nat) :=
    let n := q.all.length - (q.forms.map (·.1)).sum
    List.replicate (n / 32) (32, 0x80) ++ if n % 32 = 0 then [] else [(n % 32, 0x80)]
  let flushed (c : Ctx) (s : State) : State :=
    match node (·.uA) false true c s with
    | some (s, d) =>
      (match findNode s (clusterOf c.warp.core) c.warp.grid d.addr with
        | some (k, q) => runForms k (q.forms ++ forms q).length (s.setNode k { q with forms := q.forms ++ forms q })
        | none => s)
    | none => s
  let lengths (c : Ctx) (s : State) : State :=
    match node (·.uA) false false c s with
    | some (s, d) =>
      let n := ((findNode s (clusterOf c.warp.core) c.warp.grid d.addr).map fun q => (q.2.chip.length, q.2.share.length)).getD (0, 0)
      writeUD s c (BitVec.ofNat 64 (n.1 % 2 ^ 16 + n.2 % 2 ^ 16 * 2 ^ 16))
    | none => s
  let va (c : Ctx) : Nat := c.uA.toNat
  let packet (c : Ctx) (s : State) : Option Access2 := hit s c .read { lane := c.lane0, va := va c }
  let launches (c : Ctx) (s : State) : Prop :=
    on c ∧ va c % 64 = 0 ∧ va c < 2 ^ 57 ∧ (packet c s).isSome = true ∧ (freeLaunch c.warp).isSome = true ∧ Released c s .pkg
  let slot (c : Ctx) : Nat := (freeLaunch c.warp).getD 0
  let launched (c : Ctx) (s : State) : State :=
    let t := boundary s c.warp.core .pkg
    let l := c.warp.launches.get {} (slot c)
    let u := t.modWarp c.w fun x => { x with launches := x.launches.insert (slot c) { l with done := none, grid := some 0 } }
    writeUD (startGrid u c.warp.qid (va c) ((packet c s).map fun x => parsePacket (t.bytes x.pa 64)) none (some (c.w, slot c)) none) c
      (BitVec.ofNat 64 (l.gen.toNat * 16 + slot c))
  let entry (c : Ctx) := c.warp.launches.get {} (va c % 16)
  let stale (c : Ctx) : Prop := (entry c).gen.toNat ≠ va c / 16 % 2 ^ 12 ∨ ((entry c).grid.isNone = true ∧ (entry c).done.isNone = true)
  let ended (c : Ctx) (s : State) : State :=
    writeUD (s.modWarp c.w fun x => { x with launches := x.launches.insert (va c % 16) { gen := (entry c).gen + 1 } }) c (((entry c).done).getD 0)
  let running (c : Ctx) (s : State) : Nat := (((entry c).grid.bind s.grid?).map (·.lcnts.sum)).getD 0
  let slots (c : Ctx) (s : State) : List SlotPart := (callParts c s).getD []
  let state (c : Ctx) (s : State) : Nat := slotState (slotBytes s (slots c s))
  let posts (c : Ctx) (s : State) : Prop := on c ∧ (callParts c s).isSome = true ∧ state c s = 0 ∧ Released c s .pod
  let post (nb : Bool) (c : Ctx) (s : State) : State × Word32 := postCall c (boundary s c.warp.core .pod) (slots c s) nb
  let cleared (c : Ctx) (s : State) (st : Nat) : State := setSlotState s c (slots c s) (slotSeq (slotBytes s (slots c s))) st
  let reply (c : Ctx) : Option Word64 := match c.path.wait with | some (.callReply (some (false, x))) => some x | _ => none
  let result (c : Ctx) (s : State) : Word64 := BitVec.ofNat 64 (numAt (slotBytes s (slots c s)) 48 8)
  (∀ x, Accesses (exec (.npush x)) 0x250 (.r x)
      (fun c s => c.act ≠ 0 ∧ match pushing c s with | some (s, d) => onChip c s d | none => False) pushed)
    ∧ (∀ x, Accesses (exec (.npush x)) 0x250 (.r x)
        (fun c s => c.act ≠ 0 ∧ c.q = 1 ∧ match pushing c s with | some (s, d) => refused c s d | none => False)
        fun c s => match pushing c s with | some (s, d) => writeUD (counted (sent c s) (queue c (sent c s) d).1) c 1 | none => s)
    ∧ (∀ x, Accesses (exec (.npush x)) 0x250 (.r x) (fun c _ => c.act = 0) fun c s => if c.q = 1 then writeUD s c 0 else s)
    ∧ (∀ x, Accesses (exec (.nflush x)) 0x251 (.r x) (fun c s => s.flips = [] ∧ on c ∧ (node (·.uA) false true c s).isSome = true) flushed)
    ∧ (∀ x, Accesses (exec (.nqry x)) 0x252 (.r x) (fun c s => on c ∧ (node (·.uA) false false c s).isSome = true) lengths)
    ∧ (∀ x, Completes (exec (.nrecv x)) 0x253 (.r x) (fun c _ => on c) fun c s => writeUD s c (c.warp.node.getD 0))
    ∧ (∀ x, Completes (exec (.nlaunch x)) 0x254 (.r x) (prepared launches) launched)
    ∧ (∀ x, Completes (exec (.nlwait x)) 0x255 (.r x) (fun c _ => on c ∧ stale c) fun c s => writeUD s c 5)
    ∧ (∀ x, Completes (exec (.nlwait x)) 0x255 (.r x) (fun c _ => on c ∧ ¬stale c ∧ (entry c).done.isSome = true) ended)
    ∧ (∀ x, Completes (exec (.nlwait x)) 0x255 (.r x) (fun c _ => on c ∧ ¬stale c ∧ (entry c).done = none ∧ c.q = 1)
        fun c s => writeUD s c (BitVec.ofNat 64 (running c s * 2 ^ 32 + 0x100)))
    ∧ (∀ x, Completes (exec (.syscall x)) 0x256 (.r x) (prepared fun c s => posts c s ∧ c.q = 1)
        fun c s => writeUD (post true c s).1 c ((post true c s).2.zeroExtend 64))
    ∧ (∀ x, Waits (exec (.syscall x)) 0x256 (.r x) (prepared fun c s => posts c s ∧ c.q ≠ 1) (fun c s => (post false c s).1)
        fun _ _ => .callReply none)
    ∧ (∀ x, Completes (exec (.syscall x)) 0x256 (.r x) (prepared fun c s => on c ∧ (callParts c s).isSome = true ∧ (reply c).isSome = true)
        fun c s => writeUD (refresh (cleared c s 0) c.warp.core .pod) c ((reply c).getD 0))
    ∧ (∀ x, Completes (exec (.sysrd x)) 0x257 (.r x) (prepared fun c s => on c ∧ (callParts c s).isSome = true ∧ 2 ≤ state c s)
        fun c s => writeUD (refresh (dropCalls (cleared c s 0) c.w) c.warp.core .pod) c (if state c s = 2 then result c s else 0))
    ∧ (∀ x, Completes (exec (.syscan x)) 0x258 (.r x) (prepared fun c s => on c ∧ (callParts c s).isSome = true ∧ state c s = 0)
        fun c s => writeUD s c 0)
    ∧ (∀ x, Completes (exec (.syscan x)) 0x258 (.r x) (prepared fun c s => on c ∧ (callParts c s).isSome = true ∧ state c s = 1)
        fun c s => writeUD (dropCalls (cleared c s 4) c.w) c 1)
    ∧ (∀ x, Completes (exec (.syscan x)) 0x258 (.r x) (prepared fun c s => on c ∧ (callParts c s).isSome = true ∧ 2 ≤ state c s)
        fun c s => writeUD s c 2)
    ∧ (∀ x, Faults (exec (.nlaunch x)) 0x254 (.r x) (fun c _ => on c ∧ idle c ∧ va c % 64 ≠ 0) .align fun c _ => c.uA)
    ∧ (∀ x, Accesses (exec (.nflush x)) 0x251 (.r x) (fun c s => s.flips = [] ∧ off c s) fun _ s => s)
    ∧ (∀ x, Accesses (exec (.nqry x)) 0x252 (.r x) off fun _ s => s)
    ∧ (∀ x, Completes (exec (.nrecv x)) 0x253 (.r x) off fun _ s => s)
    ∧ (∀ x, Completes (exec (.nlaunch x)) 0x254 (.r x) off fun _ s => s)
    ∧ (∀ x, Completes (exec (.nlwait x)) 0x255 (.r x) off fun _ s => s)
    ∧ (∀ x, Completes (exec (.syscall x)) 0x256 (.r x) off fun _ s => s)
    ∧ (∀ x, Completes (exec (.sysrd x)) 0x257 (.r x) off fun _ s => s)
    ∧ ∀ x, Completes (exec (.syscan x)) 0x258 (.r x) off fun _ s => s

/-- R395-R407. -/
def Obligations.InterruptInstructions : Prop :=
  let on (c : Ctx) : Prop := c.guard0 = true
  let off (c : Ctx) (_ : State) : Prop := c.guard0 = false
  let answer (x : Word64) (c : Ctx) (s : State) : State := writeUD s c x
  let scope (c : Ctx) : Scope := if c.uA.getLsbD 41 then .pod else .pkg
  let target (c : Ctx) : Nat := c.uA.toNat / 2 ^ 16 % 2 ^ 16
  let send (c : Ctx) (s : State) : State :=
    queueSend (boundary s c.warp.core (scope c))
      { k := 0, vf := c.warp.vf, asid := if target c = 0xFFFF then c.warp.asid else target c, v := c.uA.toNat % 64, pay := c.uB
        src := .kernel c.warp.asid, pkg := if c.uA.getLsbD 41 then some (c.uA.toNat / 2 ^ 32 % 512) else none
        warp := some (c.w, c.path.lmask, c.f.d.toNat) }
  let a (c : Ctx) : Nat := c.uA.toNat
  let port (c : Ctx) (s : State) : Option Port := s.port? c.warp.vf c.warp.asid
  let vec (c : Ctx) (s : State) : Vec := (((port c s).getD {}).vecs).get {} (a c % 64)
  let malformed (c : Ctx) : Prop := a c / 2 ^ 6 % 4 = 3 ∨ 2 ^ 57 ≤ c.uB.toNat
  let held (c : Ctx) (s : State) : Bool := (vec c s).v && (vec c s).hrec != c.warp.record
  let register (c : Ctx) (s : State) : State :=
    writeUD (s.modVec c.warp.vf c.warp.asid (a c % 64) fun e =>
      { e with hrec := c.warp.record, v := true, entry := c.uB.truncate 57, mode := a c / 2 ^ 6 % 4, prio := a c / 2 ^ 8 % 16
               frame := a c / 2 ^ 16 % 32 }) c 0
  let masked (c : Ctx) : Word64 :=
    if c.q = 0 then c.uA else if c.q = 1 then c.warp.regs.uimask ||| c.uA else c.warp.regs.uimask &&& ~~~c.uA
  let mask (c : Ctx) (s : State) : State := writeUD (s.modRegs c.w fun r => { r with uimask := masked c }) c c.warp.regs.uimask
  let awake (c : Ctx) : Prop := match c.path.wait with | some (.uiwait _ _ _) => False | _ => True
  let outcome (c : Ctx) : Option Nat := match c.path.wait with | some (.uiwait _ _ x) => x | _ => none
  let base (c : Ctx) : Nat := c.path.wbase.toNat
  let handler (c : Ctx) (s : State) : Prop :=
    on c ∧ c.path.depth ≠ 0 ∧ SlotsReady c s ((List.range 4).map fun i => base c - 4 + i) ∧ (c.linkWord 2 c.lane0).toNat % 256 = 0
  let wb (c : Ctx) (l : Nat) : BitVec 16 := c.path.wbase - ((c.linkWord 2 l).extractLsb' 8 9).zeroExtend 16 - 4
  let goal (c : Ctx) (l : Nat) : Goal :=
    { pc := ((c.linkWord 3 l).truncate 25) ++ (c.linkWord 4 l), wbase := wb c l, wtop := (c.path.wbase - 4).zeroExtend 17
      iter := c.linkWord 1 l, depth := c.path.depth - 1, park := (c.linkWord 2 l).getLsbD 22 }
  let depth (c : Ctx) : Nat := c.path.depth.toNat
  let frame (c : Ctx) (q : Path) : Option UiFrame := q.frames.find? (·.depth == depth c)
  let kept (c : Ctx) (q : Path) : Bool := (c.linkWord 2 ((lowLane q.lmask).getD 0)).getLsbD 23
  let waits (c : Ctx) (q : Path) : Path :=
    { q with wait := if kept c q then ((frame c q).bind (·.wait)).map resumed else none, frames := q.frames.filter (·.depth != depth c) }
  let ended (c : Ctx) (s : State) : State :=
    let t := splitPath c s (fun l => (goal c l, false)) (waits c)
    let t := if (c.linkWord 2 c.lane0).getLsbD 25 then t else t.modWarp c.w fun x => { x with uiLanes := 0 }
    (NSet.insertAll [] ((lanesOf c.path.lmask).map fun l => (goal c l).wbase.toNat * 2 ^ 17 + (goal c l).wtop.toNat)).foldl
      (fun t k => refillWindow t c.w (k / 2 ^ 17) (k % 2 ^ 17)) t
  let row (c : Ctx) : Row := c.warp.regs.row (base c - 2)
  let info (c : Ctx) : Word32 := (row c).lane c.lane0
  let framed (c : Ctx) (s : State) : Prop := on c ∧ c.path.depth ≠ 0 ∧ SlotsReady c s [base c - 2] ∧ (info c).toNat % 256 = 0
  let acked (c : Ctx) (s : State) : State :=
    if (info c).getLsbD 25 then s
    else s.modWarp c.w fun x => { x.setRow (base c - 2) c.path.lmask (Row.ofFn fun l => (row c).lane l ||| 0x2000000) with uiLanes := 0 }
  let v (c : Ctx) : Nat := a c % 64
  let pending (c : Ctx) : Bool := c.warp.regs.uipend.getLsbD (v c)
  let take (c : Ctx) (s : State) : State :=
    let t := writePred s c c.f.fc.toNat 0xFFFFFFFF (if pending c then 0xFFFFFFFF else 0)
    let t := writeUD t c (if pending c then c.warp.regs.pay.get 0 (v c) else 0)
    if pending c then refresh (t.modRegs c.w fun r => { r with uipend := r.uipend &&& ~~~(1#64 <<< v c) }) c.warp.core .pod else t
  (∀ x, Completes (exec (.uisend x)) 0x260 (.r x) (prepared fun c s => on c ∧ Released c s (scope c)) send)
    ∧ (∀ x, Completes (exec (.uireg x)) 0x261 (.r x) (prepared fun c s => on c ∧ port c s = none) (answer 3))
    ∧ (∀ x, Completes (exec (.uireg x)) 0x261 (.r x) (prepared fun c s => on c ∧ (port c s).isSome = true ∧ malformed c) (answer 2))
    ∧ (∀ x, Completes (exec (.uireg x)) 0x261 (.r x)
        (prepared fun c s => on c ∧ (port c s).isSome = true ∧ ¬malformed c ∧ held c s = true) (answer 1))
    ∧ (∀ x, Completes (exec (.uireg x)) 0x261 (.r x)
        (prepared fun c s => on c ∧ (port c s).isSome = true ∧ ¬malformed c ∧ held c s = false) register)
    ∧ (∀ x, Completes (exec (.uiunreg x)) 0x262 (.r x) (prepared fun c s => on c ∧ holdsVector s c.warp (v c) = true)
        fun c s => writeUD (unregister s c.w c.warp (v c)) c 0)
    ∧ (∀ x, Completes (exec (.uiunreg x)) 0x262 (.r x) (prepared fun c s => on c ∧ holdsVector s c.warp (v c) = false) (answer 1))
    ∧ (∀ x, Completes (exec (.uimaskOp x)) 0x263 (.r x) (fun c _ => on c) mask)
    ∧ (∀ x, Waits (exec (.uiwait x)) 0x264 (.r x) (fun c _ => on c ∧ awake c) (fun _ s => s) fun c s => .uiwait s.clock (a c % 2 ^ 32) none)
    ∧ (∀ x, Completes (exec (.uiwait x)) 0x264 (.r x) (fun c _ => on c ∧ (outcome c).isSome = true)
        fun c s => writeUD s c (BitVec.ofNat 64 ((outcome c).getD 0)))
    ∧ (∀ x, Transfers (exec (.uiend x)) 0x265 (.r x) (prepared handler) ended)
    ∧ (∀ x, Faults (exec (.uiend x)) 0x265 (.r x) (fun c _ => on c ∧ c.path.depth = 0) .uistate fun _ _ => 2)
    ∧ (∀ x, Completes (exec (.uiack x)) 0x266 (.r x) (prepared framed) acked)
    ∧ (∀ x, Faults (exec (.uiack x)) 0x266 (.r x) (fun c _ => on c ∧ c.path.depth = 0) .uistate fun _ _ => 3)
    ∧ (∀ x, Completes (exec (.uipoll x)) 0x267 (.r x) (fun c _ => on c ∧ c.q = 0)
        fun c s => writeUD s c (c.warp.regs.uipend &&& ~~~c.warp.regs.uimask))
    ∧ (∀ x, Completes (exec (.uipoll x)) 0x267 (.r x) (fun c s => on c ∧ c.q ≠ 0 ∧ (pending c = true → pendingReads s c.w c.path.lmask = [])) take)
    ∧ (∀ x, Completes (exec (.uisend x)) 0x260 (.r x) off fun _ s => s)
    ∧ (∀ x, Completes (exec (.uireg x)) 0x261 (.r x) off fun _ s => s)
    ∧ (∀ x, Completes (exec (.uiunreg x)) 0x262 (.r x) off fun _ s => s)
    ∧ (∀ x, Completes (exec (.uimaskOp x)) 0x263 (.r x) off fun _ s => s)
    ∧ (∀ x, Completes (exec (.uiwait x)) 0x264 (.r x) off fun _ s => s)
    ∧ (∀ x, Completes (exec (.uiend x)) 0x265 (.r x) off fun _ s => s)
    ∧ (∀ x, Completes (exec (.uiack x)) 0x266 (.r x) off fun _ s => s)
    ∧ ∀ x, Completes (exec (.uipoll x)) 0x267 (.r x) off fun _ s => s

/-- R200, R201, R413-R420. -/
def Obligations.SpecialRegisters : Prop :=
  let on (c : Ctx) : Prop := c.guard0 = true
  let off (c : Ctx) (_ : State) : Prop := c.guard0 = false
  let sel (n : Nat) (c : Ctx) : Prop := c.sel = n
  let allowed (c : Ctx) : Prop := 0x8000 ≤ c.sel → c.warp.privileged = true
  let die (c : Ctx) : Nat := dieOf c.warp.core
  let table : List (Nat × (Ctx → State → Word64)) :=
    [(0x0001, fun c _ => c.warp.regs.gmode), (0x0010, fun c _ => c.path.wbase.zeroExtend 64), (0x0011, fun c _ => c.path.wtop.zeroExtend 64),
     (0x0012, fun c _ => c.path.iter.zeroExtend 64), (0x0013, fun c _ => BitVec.ofNat 64 c.p), (0x0015, fun c _ => BitVec.ofNat 64 c.warp.regs.warpId),
     (0x0016, fun c _ => BitVec.ofNat 64 c.warp.regs.wgid), (0x0020, fun _ s => BitVec.ofNat 64 s.clock), (0x0030, fun c _ => c.warp.regs.uimask),
     (0x0031, fun c _ => c.warp.regs.uipend), (0x0038, fun c _ => c.warp.regs.empc), (0x0039, fun c _ => c.warp.regs.emword),
     (0x003A, fun c _ => c.warp.regs.eminfo.zeroExtend 64),
     (0x0041, fun c s => ((s.space? c.warp.vf c.warp.asid).map fun a => a.nsbase.zeroExtend 64).getD 0),
     (0x8010, fun c s => BitVec.ofNat 64 (s.sys.tvec.get 0 (die c))), (0x8011, fun c s => BitVec.ofNat 64 ((s.sys.fwcore.find? (die c)).getD 0)),
     (0x8020, fun _ s => BitVec.ofNat 64 s.sys.grace), (0x8021, fun _ s => s.sys.fostat.zeroExtend 64)]
  let read (f : Ctx → State → Word64) (c : Ctx) (s : State) : State := { writeUD s c (f c s) with fresh := s.fresh + 1 }
  let lanes (f : Ctx → Nat → Word32) (c : Ctx) (s : State) : State := writeRow s c (c.f.km.getLsbD 3) c.f.d.toNat c.act (f c)
  let draws (c : Ctx) (s : State) : State :=
    s.modRegs c.w fun r => { r with srst := Row.merge c.act (Row.ofFn fun l => (c.srcA l).truncate 32) r.srst }
  let idle (c : Ctx) (s : State) : Prop :=
    on c ∧ openOps s c.w = [] ∧ match c.path.wait with | some (.gstatRead _ _ _) | some (.gstatWrite _) => False | _ => True
  let firmware (c : Ctx) (n : Nat) : Prop := c.warp.kind = .firmware n
  let lane (c : Ctx) (s : State) : Option (Nat × Trap × Warp) :=
    c.trapped.bind fun w => (s.warp? w).bind fun x => x.trap.map fun t => (w, t, x)
  let leave (f : Nat → Trap → Warp → Ctx → State → State) (c : Ctx) (s : State) : State :=
    match lane c s with | some (w, t, x) => f w t x c { s with cur := none } | none => s
  (∀ p ∈ table, ∀ x, Completes (exec (.mfsr x)) 0x270 (.s x) (fun c _ => on c ∧ sel p.1 c ∧ allowed c) (read p.2))
    ∧ (∀ x, Completes (exec (.mfsr x)) 0x270 (.s x) (fun c _ => sel 0x0014 c) (lanes fun _ l => BitVec.ofNat 32 l))
    ∧ (∀ x, Completes (exec (.mfsr x)) 0x270 (.s x) (fun c _ => sel 0x0003 c) (lanes fun c l => c.warp.regs.srst.lane l))
    ∧ (∀ x, Completes (exec (.mfsr x)) 0x270 (.s x) (prepared fun c s => sel 0x0002 c ∧ idle c s) fun c s => writeUD s c c.warp.regs.gstat)
    ∧ (∀ x, Completes (exec (.mfsr x)) 0x270 (.s x)
        (prepared fun c s => on c ∧ 0x8000 ≤ c.sel ∧ c.sel < 0x8008 ∧ c.warp.privileged = true ∧ (lane c s).isSome = true)
        fun c s => read (fun c s => match lane c s with | some (_, t, x) => trapSelector t x c.sel | none => 0) c s)
    ∧ (∀ x, Faults (exec (.mfsr x)) 0x270 (.s x) (fun c _ => 0x8000 ≤ c.sel ∧ c.warp.privileged = false) .illpriv
        fun c _ => BitVec.ofNat 64 c.sel)
    ∧ (∀ x, Completes (exec (.mtsr x)) 0x271 (.s x) (fun c _ => sel 0x0003 c) draws)
    ∧ (∀ x, Completes (exec (.mtsr x)) 0x271 (.s x) (fun c _ => sel 0x0001 c ∧ on c)
        fun c s => s.modRegs c.w fun r => { r with gmode := gmodeStored c.uA })
    ∧ (∀ x, Completes (exec (.mtsr x)) 0x271 (.s x) (prepared fun c s => sel 0x0002 c ∧ idle c s)
        fun c s => s.modRegs c.w fun r => { r with gstat := gstatStored c.uA })
    ∧ (∀ x n, Completes (exec (.mtsr x)) 0x271 (.s x) (fun c _ => sel 0x8010 c ∧ on c ∧ firmware c n)
        fun c s => { s with sys := { s.sys with tvec := s.sys.tvec.put 0 n (c.uA.toNat / 4096 * 4096) } })
    ∧ (∀ x, Completes (exec (.mtsr x)) 0x271 (.s x) (fun c _ => sel 0x8020 c ∧ on c ∧ c.warp.privileged = true)
        fun c s => { s with sys := { s.sys with grace := min c.uA.toNat 60000 } })
    ∧ (∀ x, Faults (exec (.mtsr x)) 0x271 (.s x) (fun c _ => 0x8000 ≤ c.sel ∧ c.warp.privileged = false) .illpriv
        fun c _ => BitVec.ofNat 64 c.sel)
    ∧ (∀ x, Faults (exec (.trap x)) 0x272 (.r x) (fun c _ => on c) .trapi fun c _ => c.f.fc.zeroExtend 64)
    ∧ (∀ x, Transfers (exec (.tret x)) 0x273 (.r x) (prepared fun c s => on c ∧ c.q = 0 ∧ (lane c s).isSome = true)
        (leave fun w _ _ c s => leaveTrap s w c.w none))
    ∧ (∀ x, Transfers (exec (.tret x)) 0x273 (.r x) (prepared fun c s => on c ∧ c.q = 1 ∧ (lane c s).isSome = true)
        (leave fun w t x c s => leaveTrap { s with fresh := s.fresh + 1 } w c.w (some (skipPc s x t))))
    ∧ (∀ x, Transfers (exec (.tret x)) 0x273 (.r x) (prepared fun c s => on c ∧ 2 ≤ c.q ∧ (lane c s).isSome = true)
        (leave fun w _ _ c s => holdTrap s w c.w))
    ∧ (∀ x, Completes (exec (.tret x)) 0x273 (.r x) (fun c _ => on c ∧ c.trapped = none) fun _ s => s)
    ∧ (∀ x, Completes (exec (.mfsr x)) 0x270 (.s x) (fun c s => off c s ∧ allowed c ∧ c.sel ≠ 0x0014 ∧ c.sel ≠ 0x0003) fun _ s => s)
    ∧ (∀ x, Completes (exec (.mtsr x)) 0x271 (.s x) (fun c s => off c s ∧ allowed c ∧ c.sel ≠ 0x0003) fun _ s => s)
    ∧ (∀ x, Completes (exec (.trap x)) 0x272 (.r x) off fun _ s => s)
    ∧ ∀ x, Completes (exec (.tret x)) 0x273 (.r x) off fun _ s => s

/-- R421-R434. -/
def Obligations.PrivilegedInstructions : Prop :=
  let on (c : Ctx) : Prop := c.guard0 = true
  let off (c : Ctx) (_ : State) : Prop := c.guard0 = false
  let answer (x : Word64) (c : Ctx) (s : State) : State := writeUD s c x
  let addr (c : Ctx) : Nat := (c.ea c.lane0).toNat
  let key (c : Ctx) (s : State) : Nat := memoryKey s c.warp.vf (addr c)
  let sent (c : Ctx) (s : State) : State := publishLines s c.warp.core .pod [key c s / 64]
  let exists_ (c : Ctx) (s : State) : Prop :=
    on c ∧ addr c % c.esize = 0 ∧ addr c < 2 ^ 52 ∧ regionOk s (addr c) = true ∧ c.path.wait = none
      ∧ publishedOn (sent c s) c.warp.core [key c s / 64] = []
  let stored (c : Ctx) (s : State) : State :=
    let t := sent c s
    perform { t with nextId := t.nextId + 1, seq := t.seq + 1 } t.nextId (some c.warp.core) c.w c.path.lmask (t.seq + 1) .gen .pod
      (key c s) c.esize (cellsAt (key c s) (leBytes c.esize c.uD.toNat))
  let form (c : Ctx) := tlbinvForm c.q c.uA c.uB
  let dropped (c : Ctx) (s : State) : State := invalidate s (form c).1 (form c).2.1 (form c).2.2
  let hits_ (c : Ctx) (s : State) (w va n : Nat) : Bool := ((s.warp? w).any fun x => (form c).1 x.vf) && (form c).2.2 va n
  let publishing (c : Ctx) : Prop := match c.path.wait with | some (.writes _ _) => True | _ => False
  let translated (c : Ctx) (s : State) : Prop :=
    on c ∧ ¬publishing c ∧ (s.held.any fun h => hits_ c s h.warp h.va h.size) = false
      ∧ (s.inflight.any fun r => r.elems.any fun e => hits_ c s r.warp e.va r.size) = false
  let performed (c : Ctx) (s : State) : Prop :=
    on c ∧ match c.path.wait with | some (.writes wids rids) => allDone s wids rids = true | _ => False
  let kind (c : Ctx) : Access := if c.q = 0 then .read else if c.q = 1 then .write else .fetch
  let keyed (c : Ctx) (s : State) : State :=
    let r := keyslot s c.q (c.uA.toNat % 2 ^ 12) (c.uB.toNat % 2 ^ 8)
    writeUD r.1 c r.2
  let h (c : Ctx) : Nat := c.uA.toNat
  let free (c : Ctx) (s : State) : Prop :=
    on c ∧ (match c.path.wait with | some (.saving _ _) => False | _ => True) ∧ s.sys.saves.find? (h c) = none
  let check (c : Ctx) (s : State) : Option Nat := saveCheck s (h c) c.uB.toNat c.uC.toNat
  let saved (c : Ctx) : Option Nat := match c.path.wait with | some (.saving _ x) => x | _ => none
  let restored (c : Ctx) (s : State) : State :=
    let r := restoreAt s c.warp.vf (c.uA.toNat % 32) c.uC.toNat c.uB.toNat
    writeUD r.1 c (restoreWord r.2.1 r.2.2)
  let scans (c : Ctx) (s : State) : Nat := (s.sys.scans.filter (·.die == dieOf c.warp.core)).length
  let scan (c : Ctx) (s : State) : State :=
    let r : ScanReq := { die := dieOf c.warp.core, vf := c.uB.toNat / 2 ^ 16 % 2 ^ 8, asid := c.uB.toNat % 2 ^ 16, va := h c }
    writeUD { s with sys := { s.sys with scans := s.sys.scans ++ [r] } } c 0
  let named (c : Ctx) (s : State) : Option Nat := warpIn s (h c) (c.uB.toNat % 64)
  let halt (c : Ctx) (s : State) : State :=
    match named c s with
    | some w => s.modRegs w (mapNamed c.uB fun q => { q with halted := true })
    | none => s
  let running (c : Ctx) (s : State) : Bool :=
    ((named c s).bind fun w => (halt c s).warp? w).any fun x => x.regs.paths.any fun q => namedPaths c.uB q.1 && q.2.running x.regs.ctxf
  let resumed (c : Ctx) (s : State) : Option State :=
    (named c s).bind fun w => (updateSaved s w fun x => { x with regs := mapNamed c.uB Path.goOn x.regs }).toOption
  let still (s : State) : Prop := s.flips = []
  let slot (c : Ctx) : Nat := c.uB.toNat % 2 ^ 16
  let l (c : Ctx) : Nat := c.uA.toNat % 32
  let target (c : Ctx) (s : State) : Option (Nat × Warp) := c.trapped.bind fun w => (s.warp? w).map fun x => (w, x)
  let readable (c : Ctx) (s : State) : Prop :=
    match target c s with
    | some (w, x) => slot c < x.regs.stackSize ∧ .slot (slot c) ∉ busyRegs s w ∧ (bringSlots s w [slot c]).2 = none
    | none => False
  let laneRead (c : Ctx) (s : State) : State :=
    match target c s with
    | some (w, _) =>
      let t := (bringSlots s w [slot c]).1
      writeUD t c ((((t.warp? w).map fun (y : Warp) => (y.regs.row (slot c)).lane (l c)).getD 0).zeroExtend 64)
    | none => s
  let laneWritten (c : Ctx) (s : State) : State :=
    match target c s with
    | some (w, _) => (bringSlots s w [slot c]).1.modWarp w fun x => x.setRow (slot c) (1#32 <<< l c) (Row.ofFn fun _ => c.uD.truncate 32)
    | none => s
  let mail (c : Ctx) (s : State) : Option State := postMail s (dieOf c.warp.core) c.uA c.uB
  let kill (c : Ctx) (s : State) : State := killWorkgroup s (h c) (c.q == 0)
  let live (c : Ctx) (s : State) : Bool := (s.queue? (h c % 2 ^ 16)).any (·.live)
  (∀ x, Completes (exec (.pld x)) 0x274 (.m x) (prepared fun c s => exists_ c s ∧ poisoned (sent c s) (key c s) c.esize = false)
      fun c s => writeUD (sent c s) c (extended c.ty ((sent c s).bytes (key c s) c.esize)))
    ∧ (∀ x, Completes (exec (.pst x)) 0x275 (.m x) (prepared exists_) stored)
    ∧ (∀ x, Faults (exec (.pld x)) 0x274 (.m x) (fun c _ => on c ∧ addr c % c.esize ≠ 0) .align fun c _ => BitVec.ofNat 64 (addr c))
    ∧ (∀ x, Faults (exec (.pst x)) 0x275 (.m x) (fun c _ => on c ∧ addr c % c.esize = 0 ∧ 2 ^ 52 ≤ addr c) .prot fun c _ => BitVec.ofNat 64 (addr c))
    ∧ (∀ x, Completes (exec (.tlbinv x)) 0x276 (.r x) translated dropped)
    ∧ (∀ x, Completes (exec (.tlbinv x)) 0x276 (.r x) performed fun _ s => s)
    ∧ (∀ x, Completes (exec (.atq x)) 0x277 (.r x) (fun c _ => on c)
        fun c s => writeUD s c (atqWord (probe s (clusterOf c.warp.core) (c.uB.toNat / 2 ^ 16 % 2 ^ 8) (c.uB.toNat % 2 ^ 16) (h c) (kind c))))
    ∧ (∀ x, Completes (exec (.keyslot x)) 0x27A (.r x) (fun c _ => on c) keyed)
    ∧ (∀ x, Waits (exec (.ctxsv x)) 0x278 (.r x) (prepared fun c s => free c s ∧ check c s = none)
        (fun c s => beginSave s (h c) { image := some (memoryKey s c.warp.vf c.uB.toNat), slot := c.uC.toNat }) fun c _ => .saving (h c) none)
    ∧ (∀ x, Completes (exec (.ctxsv x)) 0x278 (.r x) (prepared fun c s => free c s ∧ (check c s).isSome = true)
        fun c s => writeUD s c (BitVec.ofNat 64 ((check c s).getD 0)))
    ∧ (∀ x, Completes (exec (.ctxsv x)) 0x278 (.r x) (fun c _ => on c ∧ (saved c).isSome = true)
        fun c s => writeUD s c (BitVec.ofNat 64 ((saved c).getD 0)))
    ∧ (∀ x, Completes (exec (.ctxrs x)) 0x279 (.r x) (fun c s => still s ∧ on c) restored)
    ∧ (∀ x, Completes (exec (.scanrq x)) 0x27B (.r x) (prepared fun c s => on c ∧ scans c s < 64) scan)
    ∧ (∀ x, Completes (exec (.scanrq x)) 0x27B (.r x) (prepared fun c s => on c ∧ 64 ≤ scans c s) (answer 1))
    ∧ (∀ x, Completes (exec (.halt x)) 0x27C (.r x) (prepared fun c s => on c ∧ named c s = none) (answer 1))
    ∧ (∀ x, Completes (exec (.halt x)) 0x27C (.r x)
        (prepared fun c s => on c ∧ (named c s).isSome = true ∧ (running c s = false ∨ named c s = some c.w)) fun c s => writeUD (halt c s) c 0)
    ∧ (∀ x, Waits (exec (.halt x)) 0x27C (.r x)
        (prepared fun c s => on c ∧ (named c s).isSome = true ∧ running c s = true ∧ named c s ≠ some c.w) halt
        fun c s => .halting (h c) ((named c s).getD 0) (c.uB.extractLsb' 32 32))
    ∧ (∀ x, Completes (exec (.resume x)) 0x27D (.r x) (prepared fun c s => still s ∧ on c ∧ named c s = none) (answer 1))
    ∧ (∀ x, Completes (exec (.resume x)) 0x27D (.r x) (prepared fun c s => still s ∧ on c ∧ (resumed c s).isSome = true)
        fun c s => writeUD ((resumed c s).getD s) c 0)
    ∧ (∀ x, Completes (exec (.lanesel x)) 0x27E (.r x) (prepared fun c s => still s ∧ on c ∧ c.q = 0 ∧ readable c s) laneRead)
    ∧ (∀ x, Completes (exec (.lanesel x)) 0x27E (.r x) (prepared fun c s => still s ∧ on c ∧ c.q ≠ 0 ∧ readable c s) laneWritten)
    ∧ (∀ x, Completes (exec (.ipifw x)) 0x27F (.r x) (prepared fun c s => on c ∧ (mail c s).isSome = true)
        fun c s => writeUD ((mail c s).getD s) c 0)
    ∧ (∀ x, Completes (exec (.ipifw x)) 0x27F (.r x) (prepared fun c s => on c ∧ mail c s = none) (answer 1))
    ∧ (∀ x, Completes (exec (.wgkill x)) 0x280 (.r x) (prepared fun c s => on c ∧ s.wg? (h c) = none) (answer 1))
    ∧ (∀ x, Completes (exec (.wgkill x)) 0x280 (.r x)
        (prepared fun c s => on c ∧ (s.wg? (h c)).isSome = true ∧ ((kill c s).warp? c.w).isSome = true) fun c s => writeUD (kill c s) c 0)
    ∧ (∀ x, Transfers (exec (.wgkill x)) 0x280 (.r x)
        (prepared fun c s => on c ∧ (s.wg? (h c)).isSome = true ∧ (kill c s).warp? c.w = none) kill)
    ∧ (∀ x, Completes (exec (.qkill x)) 0x281 (.r x) (prepared fun c s => still s ∧ on c ∧ live c s = true)
        fun c s => writeUD (destroyQueue s (h c % 2 ^ 16)) c 0)
    ∧ (∀ x, Completes (exec (.qkill x)) 0x281 (.r x) (prepared fun c s => still s ∧ on c ∧ live c s = false) (answer 1))
    ∧ (∀ x, Completes (exec (.pld x)) 0x274 (.m x) off fun _ s => s)
    ∧ (∀ x, Completes (exec (.pst x)) 0x275 (.m x) off fun _ s => s)
    ∧ (∀ x, Completes (exec (.tlbinv x)) 0x276 (.r x) off fun _ s => s)
    ∧ (∀ x, Completes (exec (.halt x)) 0x27C (.r x) off fun _ s => s)
    ∧ (∀ x, Completes (exec (.wgkill x)) 0x280 (.r x) off fun _ s => s)
    ∧ ∀ x, Completes (exec (.qkill x)) 0x281 (.r x) (fun c s => still s ∧ off c s) fun _ s => s

/-- R446-R452. -/
def Obligations.DebugInstructions : Prop :=
  let on (c : Ctx) : Prop := c.guard0 = true
  let off (c : Ctx) (_ : State) : Prop := c.guard0 = false
  let stamp (c : Ctx) (s : State) : State :=
    writeUD (traceRecord s c.warp.core (traceHead c.warp c.p c.path) 7 false 0 [c.uA.toNat]) c (BitVec.ofNat 64 s.clock)
  let bearing (c : Ctx) (s : State) : State := writeUD s c c.path.bearing
  let peer (c : Ctx) (s : State) : Option (Nat × Warp) :=
    match selected s c.warp c.uA with
    | .ok n => ((s.warp? n).filter fun x => !x.exited).map fun x => (n, x)
    | .error _ => none
  let count (c : Ctx) (s : State) : Option (State × Word64) :=
    match peer c s with
    | none => some (s, BitVec.allOnes 64)
    | some (_, x) =>
      if x.inRecord = false then some (s, x.regs.prog)
      else match recordRead s x (x.regs.vofs - 192) 1 with
        | (t, .ok bs) => some (t, BitVec.ofNat 64 (numAt bs 0 8))
        | (_, .error _) => none
  let still (s : State) : Prop := s.flips = []
  let stop (c : Ctx) (s : State) : State :=
    stopPath (s.modPath c.w c.p fun q => { q with pc := c.fallPc, notes := [], wait := none }) c.w c.p c.f.fc.toNat
  let with_ (f : Ctx → State → State × Word64) (c : Ctx) (s : State) : State := writeUD (f c s).1 c (f c s).2
  let core (c : Ctx) : Nat := c.uB.toNat % 2 ^ 9
  let log (c : Ctx) : Nat := c.uB.toNat / 2 ^ 16 % 2 ^ 5
  let wellFormed (c : Ctx) : Prop :=
    core c + log c * 2 ^ 16 + (if c.uB.getLsbD 24 then 2 ^ 24 else 0) + c.uB.toNat / 2 ^ 28 % 16 * 2 ^ 28 = c.uB.toNat
      ∧ 12 ≤ log c ∧ log c ≤ 30 ∧ c.uA.toNat % 2 ^ log c = 0 ∧ c.uA.toNat < 2 ^ 52
  let ring (c : Ctx) (s : State) : TraceRing :=
    { base := c.uA.toNat, log := log c, wrap := c.uB.getLsbD 24, sper := c.uB.toNat / 2 ^ 28 % 16, sampled := s.clock }
  let enabled (c : Ctx) (s : State) : State := writeUD { s with dbg := { s.dbg with rings := s.dbg.rings.insert (core c) (ring c s) } } c 0
  let k (c : Ctx) : Nat := 4 * (c.uA.toNat / 2 ^ 16 % 512) + c.uA.toNat % 4
  let bad (c : Ctx) : Prop :=
    if c.q = 1 then c.uB.toNat / 2 ^ 57 % 2 ^ 6 ≠ 0 else 4 < c.uB.toNat / 2 ^ 4 % 8
  let selectWord (c : Ctx) (s : State) : State :=
    let old := s.dbg.comps.get {} (k c)
    let new := if c.q = 1 then { old with pc := c.uB } else { old with id := BitVec.ofNat 64 (c.uB.toNat / 16 * 16) }
    writeUD { s with dbg := { s.dbg with comps := s.dbg.comps.put {} (k c) new } } c 0
  (∀ x, Completes (exec (.stamp x)) 0x291 (.r x) (fun c _ => on c) stamp)
    ∧ (∀ x, Completes (exec (.bearq x)) 0x292 (.r x) (fun c _ => on c ∧ c.q ≠ 1) bearing)
    ∧ (∀ x, Completes (exec (.bearq x)) 0x292 (.r x) (fun c _ => on c ∧ c.q = 1)
        fun c s => (bearing c s).modPath c.w c.p fun q => { q with bearing := 0 })
    ∧ (∀ x, Completes (exec (.progq x)) 0x293 (.r x) (fun c s => still s ∧ on c ∧ c.q = 0) fun c s => writeUD s c c.warp.regs.prog)
    ∧ (∀ x, Completes (exec (.progq x)) 0x293 (.r x)
        (prepared fun c s => still s ∧ on c ∧ c.q ≠ 0 ∧ (count c s).isSome = true ∧ (peer c s).all (fun x => 448 ≤ x.2.regs.vofs) = true)
        fun c s => match count c s with | some (t, n) => writeUD t c n | none => s)
    ∧ (∀ x, Completes (exec (.trcon x)) 0x294 (.r x) (prepared fun c s => on c ∧ wellFormed c ∧ s.dbg.rings.find? (core c) = none) enabled)
    ∧ (∀ x, Completes (exec (.trcon x)) 0x294 (.r x) (prepared fun c s => on c ∧ wellFormed c ∧ (s.dbg.rings.find? (core c)).isSome = true)
        fun c s => writeUD s c 2)
    ∧ (∀ x, Completes (exec (.trcon x)) 0x294 (.r x) (fun c _ => on c ∧ ¬wellFormed c) fun c s => writeUD s c 1)
    ∧ (∀ x, Completes (exec (.trcoff x)) 0x295 (.r x) (fun c _ => on c) (with_ fun c s => disableRing s (c.uA.toNat % 512)))
    ∧ (∀ x, Completes (exec (.trcsel x)) 0x296 (.r x) (fun c _ => on c ∧ ¬bad c) selectWord)
    ∧ (∀ x, Completes (exec (.trcsel x)) 0x296 (.r x) (fun c _ => on c ∧ bad c) fun c s => writeUD s c 1)
    ∧ (∀ x, Faults (exec (.bkpt x)) 0x290 (.r x) (fun c _ => on c ∧ c.q = 0) .breakpoint fun c _ => BitVec.ofNat 64 c.f.fc.toNat)
    ∧ (∀ x, Transfers (exec (.bkpt x)) 0x290 (.r x) (fun c _ => on c ∧ c.q ≠ 0) stop)
    ∧ (∀ x, Completes (exec (.bkpt x)) 0x290 (.r x) off fun _ s => s)
    ∧ (∀ x, Completes (exec (.stamp x)) 0x291 (.r x) off fun _ s => s)
    ∧ (∀ x, Completes (exec (.bearq x)) 0x292 (.r x) off fun _ s => s)
    ∧ (∀ x, Completes (exec (.progq x)) 0x293 (.r x) (fun c s => still s ∧ off c s) fun _ s => s)
    ∧ (∀ x, Completes (exec (.trcon x)) 0x294 (.r x) off fun _ s => s)
    ∧ (∀ x, Completes (exec (.trcoff x)) 0x295 (.r x) off fun _ s => s)
    ∧ ∀ x, Completes (exec (.trcsel x)) 0x296 (.r x) off fun _ s => s

/-- R143, R144, R141, R359, R406, R279, R481, R118. -/
def Obligations.ClausesStartAndResume : Prop :=
  let passed (w p : Nat) (x : Warp) (s : State) : State :=
    let pl := x.place.getD { core := 0, half := 0, slot := 0 }
    (halfCandidates { s with cur := none } pl.core pl.half).foldl
      (fun s c => if c.w = w ∧ c.p = p then s else s.modPath c.w c.p fun q => { q with passed := q.passed + 1 }) { s with cur := none }
  let opened (w p : Nat) (x : Warp) (r : Path) (s : State) : State :=
    { (traceClause (passed w p x s) w p none 0).modPath w p (fun q =>
        { q with clause := some (beginClause (traceClause (passed w p x s) w p none 0) x r r.pc.toNat implicitClause), passed := 0
                 urgent := false, yielded := false }) with
      cur := some { w := w, p := p } }
  let first (w p : Nat) (x : Warp) (q : Path) (f : Fetch) (s : State) : Prop :=
    s.warp? w = some x ∧ s.path? w p = some q ∧ mayStartClause s w p x = true ∧ fetchAt s w p x q = f
  (∀ w p x q g w8 h n, headerOf g = some (h, n) →
      Happens (exec (.clauseStart w p)) (first w p x q (.word g w8)) fun s => applyHeader (passed w p x s) w p h n w8)
    ∧ (∀ w p x q g w8, headerOf g = none → Happens (exec (.clauseStart w p)) (first w p x q (.word g w8)) (opened w p x q))
    ∧ (∀ w p x q code info, Happens (exec (.clauseStart w p)) (first w p x q (.bad code info))
        fun s => raiseFault { s with cur := none } w p code info)
    ∧ (∀ w p q, Happens (exec (.pathUrgent w p)) (fun s => s.path? w p = some q ∧ 64 ≤ q.passed ∧ q.urgent = false)
        fun s => s.modPath w p fun q => { q with urgent := true })
    ∧ (∀ w p q, Happens (exec (.parkReleaseTimeout w p)) (fun s => s.path? w p = some q ∧ q.park = true ∧ q.parkedAt + 1024 ≤ s.clock)
        fun s => clauseBoundary (s.modPath w p fun q => { q with park := false }) w)
    ∧ (∀ w p q since t, Happens (exec (.sleepTimeout w p))
        (fun s => s.path? w p = some q ∧ q.wait = some (.sleep since t none) ∧ 0 < t ∧ since + t ≤ s.clock)
        fun s => s.modPath w p fun q => { q with wait := some (.sleep since t (some (1, false))) })
    ∧ (∀ w p q since t, Happens (exec (.uiwaitTimeout w p))
        (fun s => s.path? w p = some q ∧ q.wait = some (.uiwait since t none) ∧ 0 < t ∧ since + t ≤ s.clock
          ∧ ((s.warp? w).bind (pendingDelivery s)).map (·.2) ≠ some p)
        fun s => s.modPath w p fun q => { q with wait := some (.uiwait since t (some 1)) })
    ∧ (∀ w p x q vf, Happens (exec (.progressiveReplay w p))
        (fun s => s.cur = none ∧ s.warp? w = some x ∧ s.path? w p = some q ∧ q.wait = some (.requests vf []) ∧ q.rst.getLsbD 0 = true
          ∧ q.rst.extractLsb' 1 31 = q.pc.extractLsb' 1 31 ∧ q.clause.isSome = true ∧ x.trap = none ∧ x.place.isSome = true
          ∧ x.arriving = false ∧ x.released = false)
        fun s => { s.modPath w p (fun q => { q with wait := none }) with cur := some { w := w, p := p } })
    ∧ (∀ e k x q, Happens (exec (.emulationTrap e))
        (fun s => s.cur = some k ∧ s.warp? k.w = some x ∧ s.path? k.w k.p = some q ∧ (∀ j < 8, Reg.uni (56 + j) ∉ busyRegs s k.w)
          ∧ (binding s x.vf x.asid e.pid.toNat = 0 ∨ q.emu = true))
        fun s => raiseFault (s.modPath k.w k.p fun q => { q with wait := none }) k.w k.p .emul
          (if binding s x.vf x.asid e.pid.toNat = 0 then 0 else 1))

/-- R47, R151-R153, R342-R348. -/
def Obligations.FoehnAndResidency : Prop :=
  let quiet (s : State) : Prop := s.flips = []
  let moved (x : Warp) : Warp := { x with foehn := x.foehn.tail }
  let retried (x : Warp) : Warp :=
    { x with faultVa := none, faultSlot := none, waitingSince := none, regs := { x.regs with ctxf := false } }
  let dormant (w : Nat) (x : Warp) (va : Nat) (s : State) : Prop := s.warp? w = some x ∧ x.faultVa = some va ∧ x.place = none
    ∧ x.trap.bind (·.reply) = none
  let zeroed (x : Warp) (s : State) : State × Option Nat := if x.fresh then zeroRecord s x else (s, none)
  let active (r : Regs) : Regs := { r with dorm := 0 }
  let resident (w : Nat) (x : Warp) (r : Regs) (s : State) : State :=
    let want := (activationSlots (active r)).filter fun n => (r.v.find? n).isNone
    let y := { x with arriving := false, residentAt := s.clock, fresh := false, accDirty := false, regs := active r }
    let s := s.setWarp w (y.addRefills want)
    applyHeld (if x.fresh then refresh s x.core (if x.node.isSome then .clus else .pod) else s) w
  let line (f : GazFill) (s : State) (pa : Nat) : GazEntry :=
    { cluster := f.cluster, pid := f.pid, vf := f.vf, asid := f.asid, line := f.line
      bytes := s.bytes pa 64 ++ if f.line % 64 = 63 then List.replicate 64 0 else s.bytes (pa + 64) 64 }
  let taken (k : Nat) (s : State) : State := { s with fills := s.fills.filter (·.k != k) }
  (∀ w p x q slots, Happens (exec (.registerCacheMiss w p))
      (fun s => s.warp? w = some x ∧ s.path? w p = some q ∧ q.wait = some (.miss slots) ∧ x.nextMove = some (.miss p))
      fun s =>
        let y := (moved x).startRefill slots (slotsOf (busyRegs s w))
        (s.setWarp w { y with foehn := y.foehn.drop x.foehn.tail.length ++ x.foehn.tail }).modPath w p fun q =>
          { q with wait := some (.refill slots) })
    ∧ (∀ w slot x, Happens (exec (.refillArrive w slot))
        (fun s => quiet s ∧ s.warp? w = some x ∧ x.nextMove = some (.refill slot) ∧ (x.regs.v.find? slot).isSome = true)
        fun s => s.setWarp w (moved x))
    ∧ (∀ w slot x row, Happens (exec (.refillArrive w slot))
        (fun s => quiet s ∧ s.warp? w = some x ∧ x.nextMove = some (.refill slot) ∧ x.regs.v.find? slot = none
          ∧ (readSlot (s.setWarp w (moved x)) (moved x) slot).2 = .ok row)
        fun s => ((readSlot (s.setWarp w (moved x)) (moved x) slot).1).setWarp w
          { moved x with lru := x.lru.filter (· != slot) ++ [slot], regs := { x.regs with v := x.regs.v.insert slot row } })
    ∧ (∀ w slot x, Happens (exec (.foehnSpillComplete w slot))
        (fun s => quiet s ∧ s.warp? w = some x ∧ x.nextMove = some (.spill slot)
          ∧ (recordWrite s x (slotPieces x.regs slot (x.regs.row slot))).2 = none)
        fun s => ((recordWrite s x (slotPieces x.regs slot (x.regs.row slot))).1).setWarp w
          { moved x with dirty := x.dirty.filter (· != slot), regs := { x.regs with v := x.regs.v.erase slot } })
    ∧ (∀ w x va pa, Happens (exec (.ctxfaultRetry w))
        (fun s => quiet s ∧ dormant w x va s ∧ x.unsaved = false ∧ (xlateNow s x.vf x.asid va .write true).2 = .ok pa)
        fun s => (markRecord (xlateNow s x.vf x.asid va .write true).1 (retried x) 9 false).setWarp w (retried x))
    ∧ (∀ w x va pa, Happens (exec (.ctxfaultRetry w))
        (fun s => quiet s ∧ dormant w x va s ∧ x.unsaved = true ∧ (xlateNow s x.vf x.asid va .write true).2 = .ok pa
          ∧ (zeroed x (xlateNow s x.vf x.asid va .write true).1).2 = none
          ∧ (writeRecord (zeroed x (xlateNow s x.vf x.asid va .write true).1).1 (retried x) true).2.2 = none)
        fun s => ((writeRecord (zeroed x (xlateNow s x.vf x.asid va .write true).1).1 (retried x) true).1).setWarp w
          { (retried x).emptied [] with unsaved := false })
    ∧ (∀ cluster w x core half, Happens (exec (.activation cluster))
        (fun s => firstRanked s cluster = some (w, x) ∧ halfFor s cluster x (fun _ => true) = some (core, half))
        fun s => s.setWarp w
          { x with place := some { core := core, half := half, slot := freeSlot s core half }, arriving := true, leaving := false
                   waitingSince := none, placedHot := x.regs.hotSet, regs := { x.regs with dorm := 0 } })
    ∧ (∀ w x r acc, Happens (exec (.activationComplete w))
        (fun s => quiet s ∧ s.warp? w = some x ∧ x.arriving = true ∧ (readRegs s x).2 = .ok r
          ∧ (recordRead (readRegs s x).1 x 3648 (256 * r.nacc)).2 = .ok acc)
        fun s => resident w x (parseAcc r acc) (recordRead (readRegs s x).1 x 3648 (256 * r.nacc)).1)
    ∧ (∀ cluster w x v, Happens (exec (.evictionStart cluster))
        (fun s => firstRanked s cluster = some (w, x) ∧ halfFor s cluster x (fun _ => true) = none
          ∧ halfFor s cluster x (fun y => !y.leaving) = none ∧ firstVictim (victims s cluster x) = some v)
        fun s => s.modWarp v fun y => { y with leaving := true })
    ∧ (∀ w x, Happens (exec (.evictionCommit w)) (fun s => quiet s ∧ s.warp? w = some x ∧ x.leaving = true ∧ evictable s w x = true)
        fun s => commitEviction s w)
    ∧ (∀ w x, Occurs (exec (.evictionCommit w)) (fun s => quiet s ∧ s.warp? w = some x ∧ x.leaving = true ∧ evictable s w x = true)
        fun _s t => ∃ y, t.warp? w = some y ∧ y.place = none)
    ∧ (∀ k f pa, Happens (exec (.gazetteerFill k))
        (fun s => quiet s ∧ s.fills.find? (·.k == k) = some f ∧ (linePa (taken k s) f.vf f.asid f.line).2 = some pa)
        fun s => let t := (linePa (taken k s) f.vf f.asid f.line).1
          { t with gaz := addGaz (t.gaz.filter fun g =>
              !(g.cluster == f.cluster && g.pid == f.pid && g.vf == f.vf && g.asid == f.asid && g.line == f.line)) (line f t pa) })

/-- R446-R449, R454. -/
def Obligations.DebugEvents : Prop :=
  let core (w : Nat) (s : State) : Nat := ((s.warp? w).map (·.core)).getD 0
  let breaks (w p k : Nat) (s : State) : Prop :=
    ∃ c q, s.cur = some c ∧ c.w = w ∧ c.p = p ∧ s.path? w p = some q ∧ q.skip = false ∧ breakingComparator s = some k
  let clear (w p : Nat) (s : State) : State := s.modPath w p fun q => { q with wait := none, notes := [] }
  (∀ w p k, Happens (exec (.comparatorMatch w p k)) (fun s => breaks w p k s ∧ (s.comparator (core w s) k).act = 3)
      fun s => raiseFault (clear w p s) w p .breakpoint (BitVec.ofNat 64 (256 + k)))
    ∧ (∀ w p k, Happens (exec (.comparatorMatch w p k)) (fun s => breaks w p k s ∧ (s.comparator (core w s) k).act ≠ 3)
        fun s => clauseBoundary (stopPath { clear w p s with cur := none } w p (256 + k)) w)
    ∧ (∀ n r, Happens (exec (.traceSample n))
        (fun s => s.dbg.rings.find? n = some r ∧ r.sper ≠ 0 ∧ r.sampled + 2 ^ (r.sper + 8) ≤ s.clock)
        fun s => r.last.foldl (fun s h => traceRecord s n h.2 9 false h.1 [])
          { s with dbg := { s.dbg with rings := s.dbg.rings.insert n { r with last := [], sampled := s.clock } } })
    ∧ ∀ die, Occurs (exec (.isobarSample die))
        (fun s => (s.sys.fwcore.find? die).isSome = true ∧ s.dbg.sampledAt.get 0 die + s.dbg.interval ≤ s.clock)
        fun s t => t.warps = s.warps ∧ t.wgs = s.wgs ∧ t.mem = s.mem ∧ t.dbg.rings = s.dbg.rings
          ∧ t.dbg.sampledAt.find? die = some s.clock
          ∧ t.dbg.seen.find? die = some ((s.warps.filter fun x =>
              x.2.kind == .ordinary && !x.2.released && dieOf x.2.core == die && x.2.isoWaiting).map fun x => (x.1, x.2.regs.prog))

/-- R297-R302, R111, R439. -/
def Obligations.ReadsReturnAndWritesPerform : Prop :=
  let own (rid : Nat) (r : Inflight) (s : State) : Prop :=
    s.flips = [] ∧ s.inflight.find? (·.rid == rid) = some r ∧ ∀ y ∈ s.inflight, y.rid = rid → y = r
  let reads (rid : Nat) (r : Inflight) (s : State) : Prop :=
    own rid r s ∧ r.next.isSome = true ∧ Granted (requester s r.core r.warp) s
  let sent (r : Inflight) (s : State) : State := charged (requester s r.core r.warp) s
  let isWeak (r : Inflight) : Prop := match r.op with | .weak _ => True | _ => False
  let all (r : Inflight) (s : State) : State × List Elem :=
    r.elems.foldl (fun acc e => ((performElem acc.1 r e).1, acc.2 ++ [(performElem acc.1 r e).2])) (s, [])
  let with_ (r : Inflight) (e e' : Elem) : Inflight :=
    { r with elems := r.elems.map fun x => if x.lane == e.lane && x.idx == e.idx then e' else x }
  let writes (wid : Nat) (h : Held) (s : State) : Prop := s.held.find? (·.wid == wid) = some h ∧ mayPerform s h = true
  let stored (h : Held) (a : Nat) (old : Byte) : Byte := ((h.cells.reverse.find? (·.1 == a)).map (·.2)).getD old
  (∀ rid r, Happens (exec (.memoryReadReturn rid)) (fun s => reads rid r s ∧ isWeak r)
      fun s => finishRead (all r (sent r s)).1 { r with elems := (all r (sent r s)).2 })
    ∧ (∀ rid r e, Happens (exec (.memoryReadReturn rid))
        (fun s => reads rid r s ∧ ¬isWeak r ∧ r.next = some e ∧ readEnabled (sent r s) r e = true)
        fun s =>
          let r' := with_ r e (performElem (sent r s) r e).2
          let t := (performElem (sent r s) r e).1
          if r'.next.isNone then finishRead t r' else { t with inflight := t.inflight.map fun x => if x.rid == rid then r' else x })
    ∧ (∀ rid r, Happens (exec (.memoryReadReturn rid))
        (fun s => own rid r s ∧ r.next = none ∧ ((s.warp? r.warp).any (·.stuck)) = false)
        fun s => finishRead s r)
    ∧ (∀ wid h, Occurs (exec (.writePerform wid))
        (fun s => writes wid h s ∧ h.exec = none ∧ Granted (requester s h.core h.warp) s)
        fun s t => (∀ a, t.byte a = stored h a (s.byte a)) ∧ t.held = s.held.filter (·.wid != h.wid)
          ∧ ∃ w, t.performed = s.performed ++ [w] ∧ w.pos = s.performed.length + 1 ∧ w.cells = h.cells ∧ w.wid = h.wid ∧ w.core = some h.core)
    ∧ (∀ wid h, Occurs (exec (.writePerform wid))
        (fun s => writes wid h s ∧ h.exec = none ∧ Granted (requester s h.core h.warp) s)
        fun s t => t.wgs = s.wgs ∧ t.tlb = s.tlb ∧ t.inflight = s.inflight ∧ t.rings = s.rings ∧ t.work = s.work ∧ t.ui = s.ui ∧ t.eng = s.eng
          ∧ ∀ w x y, s.warp? w = some x → t.warp? w = some y → y.regs.u = x.regs.u ∧ y.regs.v = x.regs.v ∧ y.regs.p = x.regs.p ∧ y.regs.t = x.regs.t)
    ∧ ∀ wid h vf asid va, Happens (exec (.execPageStore wid)) (fun s => writes wid h s ∧ h.exec = some (vf, asid, va))
        fun s => performHeld (clearExec s vf asid va) h

/-- R272-R277, R288. -/
def Obligations.WalksAnswersAndGranules : Prop :=
  let walks (k : Nat) (w : Walk) (s : State) : Prop := s.walks.find? (·.k == k) = some w ∧ Granted (some (clusterOf w.core, w.vf)) s
  let left (k : Nat) (w : Walk) (s : State) : State :=
    { charged (some (clusterOf w.core, w.vf)) s with walks := s.walks.filter (·.k != k) }
  let wr (w : Walk) : Bool := w.kind == .write
  let cached (w : Walk) (c : Combined) (s : State) : State :=
    let t := cacheWalk (markUsed s c (wr w)) (clusterOf w.core) w.vf c
    { t with tlb := addTlb (addTlb t.tlb (c.entry (.core w.core) w.vf w.asid w.va (wr w)) 64)
                      (c.entry (.cluster (clusterOf w.core)) w.vf w.asid w.va (wr w)) 4096 }
  let answer (k : Nat) (w : Walk) (s : State) : WalkRes Combined :=
    combine (left k w s) (some (clusterOf w.core)) w.vf w.asid w.va w.kind false
  let freed (vf rid : Nat) (r : PageRequest) (ok : Bool) (s : State) : State :=
    { s with requests := s.requests.filter fun x => !(x.vf == vf && x.rid == rid)
             warps := s.warps.map fun y => (y.1, { y.2 with regs := { y.2.regs with
               paths := y.2.regs.paths.map fun z => (z.1, z.2.answered vf r ok) } }) }
  let outstanding (vf rid : Nat) (r : PageRequest) (s : State) : Prop :=
    s.requests.find? (fun r => r.vf == vf && r.rid == rid) = some r
  let silent (vf rid : Nat) (s : State) : Prop := s.requests.find? (fun r => r.vf == vf && r.rid == rid) = none
  (∀ k w c, Happens (exec (.walkComplete k)) (fun s => walks k w s ∧ answer k w s = .ok c)
      fun s => cached w c (left k w s))
    ∧ (∀ k w f, Happens (exec (.walkComplete k)) (fun s => walks k w s ∧ answer k w s = .fail f)
        fun s => (left k w s).modPath w.warp w.path fun q => { q with notes := q.notes ++ [{ va := w.va, kind := w.kind, fail := f }] })
    ∧ (∀ vf rid r, Happens (exec (.prqrspSuccess vf rid)) (outstanding vf rid r) (freed vf rid r true))
    ∧ (∀ vf rid r, Happens (exec (.prqrspInvalid vf rid)) (outstanding vf rid r) (freed vf rid r false))
    ∧ (∀ vf rid, Happens (exec (.prqrspSuccess vf rid)) (silent vf rid) fun s => s)
    ∧ (∀ vf rid, Happens (exec (.prqrspInvalid vf rid)) (silent vf rid) fun s => s)
    ∧ ∀ w p n x q g op todo got, Happens (exec (.nearstoreGranuleStep w p n))
        (fun s => s.warp? w = some x ∧ s.path? w p = some q ∧ q.wait = some (.granules op todo got) ∧ s.wg? x.wg = some g
          ∧ (todo.any fun e => e.off / 16 == n) = true ∧ op.ready (g.full.contains n) = true ∧ (op.writes && g.tbGranule n) = false)
        fun s =>
          let r := granuleStep op n (todo.filter fun e => e.off / 16 == n) g
          ({ s with wgs := s.wgs.insert x.wg r.1 }).modPath w p fun q =>
            { q with wait := some (.granules op (todo.filter fun e => e.off / 16 != n) (got ++ r.2)) }

/-- R311, R315, R319, R329-R335, R226, R234. -/
def Obligations.BarriersCopiesAndEngines : Prop :=
  let nextPhase (b : Barrier) : Barrier :=
    { b with arrived := b.later.foldl (fun m x => m.put 0 x.1 (x.2.headD 0)) [], later := b.later.foldl (fun m x => m.put [] x.1 x.2.tail) []
             phases := b.phases + 1 }
  let credit (k : Nat) (x : Credit) (s : State) : Prop := s.eng.credits.find? (·.k == k) = some x
  let gone (k : Nat) (s : State) : State := { s with eng := { s.eng with credits := s.eng.credits.filter (·.k != k) } }
  let noted (x : Credit) (g : Workgroup) : Workgroup :=
    let g := g.modTb x.ofs fun t => { t with now := NSet.insertAll t.now x.ops }
    match x.err with | some (code, va) => g.markTb x.ofs code va | none => g
  let lost (w : Warp) : Warp := if w.copyFault = 0 then { w with copyFault := BitVec.ofNat 64 (1 + faultNumber .tbstate * 2 ^ 5) } else w
  let moving (id : Nat) (x : Copy) (s : State) : Prop :=
    s.eng.copies.find? (·.id == id) = some x ∧ x.started = true ∧ x.moved = false ∧ inTurn s x.cluster = some x.wg
      ∧ Granted (some (x.cluster, x.vf)) s
  let plain (x : Copy) : Prop := match x.kind with | .quantise .. => False | _ => True
  let chunk (x : Copy) (s : State) : Moved :=
    moveChunk x.agent x.kind (x.kind.total x.n) (x.off + 512) 8192 { s := charged (some (x.cluster, x.vf)) s, off := x.off }
  let error (x : Copy) (m : Moved) : Option (Nat × Nat) := m.err.or (if m.drop then some (faultNumber .tbstate, 5) else x.err)
  let turned (x : Copy) (s : State) : State := { s with eng := { s.eng with turn := s.eng.turn.insert x.cluster x.wg } }
  let done (id : Nat) (s : State) : State := { s with eng := { s.eng with copies := s.eng.copies.filter (·.id != id) } }
  let stuck (w : Nat) (s : State) : Bool := ((s.warp? w).map (·.stuck)).getD false
  let offsets (x : Copy) : List Nat := match x.kind with | .multicast _ _ _ vs => vs | _ => [0]
  let credits (x : Copy) (s : State) : State :=
    match x.tb with
    | none => s
    | some o => (offsets x).foldl (fun s v => { s with nextId := s.nextId + 1, eng := { s.eng with credits := s.eng.credits ++
        [{ k := s.nextId, wg := x.wg, warp := x.warp, ofs := o + 32 * v, bytes := x.n, arrive := false, ops := [x.id], err := x.err }] } }) s
  let fetches (id line : Nat) (o : EngineOp) (x : Warp) (n : Nat × Nat) (s : State) : Prop :=
    s.eng.queue.find? (·.id == id) = some o ∧ o.need.find? (·.1 == line) = some n ∧ s.warp? o.warp = some x
      ∧ Granted (some (clusterOf o.core, x.vf)) s
  let sent (o : EngineOp) (x : Warp) (s : State) : State := charged (some (clusterOf o.core, x.vf)) s
  let table (o : EngineOp) : Bool := match o.kind with | .mptb _ _ => true | _ => false
  let agent (o : EngineOp) (x : Warp) : Agent := { o.agent x with chan := if table o then .gen else .mat }
  let window (o : EngineOp) (x : Warp) (line : Nat) (s : State) : Bool := !table o && (windowOfs (sent o x s) x.vf x.asid line).isSome
  let address (o : EngineOp) (x : Warp) (line : Nat) (s : State) : EngineRes Nat := engineAddr (sent o x s) (agent o x) line false
  let bad (o : EngineOp) (n : Nat × Nat) (code : FaultCode) (va : Nat) (t : State) : State :=
    setOp t { o with need := [], ready := t.clock, err := some (faultNumber code, n.2, va) }
  let drawn (o : EngineOp) (pa : Nat) (t : State) : State := llcRead t (dieOf o.core) (pa / 64)
  let shared (o : EngineOp) (x : Warp) (line pa : Nat) (t : State) : State :=
    let ops := quadOps t o x line
    let r := sharedRead t (ops.map (·.core)) pa 64
    let u := if pinRoom t (dieOf o.core) (pa / 64) then pinLine r.1 (dieOf o.core) (pa / 64) (ops.map (·.id)) else r.1
    ops.foldl (fun s p => arrive s line r.2 p) u
  let head (core : Nat) (o : EngineOp) (s : State) : Prop :=
    s.flips = [] ∧ s.eng.queue.find? (·.core == core) = some o ∧ opReady s o = true
  let popped (core : Nat) (o : EngineOp) (s : State) : State :=
    unpin { s with eng := { s.eng with queue := s.eng.queue.filter (·.id != o.id), free := s.eng.free.put 0 core s.clock } } o.id
  let left (core : Nat) (o : EngineOp) (s t : State) (e : Option (Nat × Nat × Nat)) : State :=
    let t := t.modWarp o.warp (·.flagDone o.flag)
    if o.batch then leaveBatch t o (s.eng.free.get 0 core) e else t
  (∀ key b, Happens (exec (.barrierPhaseComplete key)) (fun s => s.barriers.find? (·.key == key) = some b ∧ barrierReady s b = true)
      fun s => s.setBarrier (nextPhase b))
    ∧ (∀ k x g r, Happens (exec (.tbCredit k))
        (fun s => credit k x s ∧ s.wg? x.wg = some g ∧ g.tbRoot? x.ofs = some r)
        fun s => (gone k s).modWg x.wg fun _ => if x.arrive then (noted x g).arriveTb x.ofs else (noted x g).creditTb x.ofs x.bytes)
    ∧ (∀ k x, Happens (exec (.tbCredit k)) (fun s => credit k x s ∧ s.wg? x.wg = none) (gone k))
    ∧ (∀ k x g, Happens (exec (.tbCredit k)) (fun s => credit k x s ∧ s.wg? x.wg = some g ∧ g.tbRoot? x.ofs = none)
        fun s => if x.arrive then gone k s else (gone k s).modWarp x.warp lost)
    ∧ (∀ n x, Happens (exec (.copyStart n)) (fun s => nextStart s n = some x) fun s => setCopy s { x with started := true })
    ∧ (∀ id x m, Happens (exec (.copyChunk id)) (fun s => moving id x s ∧ plain x ∧ x.late = [] ∧ chunk x s = m ∧ m.flip = false)
        fun _ => turned x (setCopy m.s
          { x with off := if m.err.isSome then x.kind.total x.n else m.off, wrote := true, exc := x.exc ||| 0, err := error x m }))
    ∧ (∀ id x t, Happens (exec (.copyComplete id))
        (fun s => s.flips = [] ∧ s.eng.copies.find? (·.id == id) = some x ∧ x.started = true ∧ x.moved = true ∧ x.exc = 0 ∧ x.err = none
          ∧ stuck x.warp s = false ∧ flagDone s x.warp x.flag = .ok t)
        fun _ => credits x (done id t))
    ∧ (∀ id line o x n t bs, Happens (exec (.tileFetchArrive id line))
        (fun s => fetches id line o x n s ∧ window o x line s = true ∧ engineReadPiece (sent o x s) (agent o x) line 64 = .ok t bs)
        fun _ => arrive t line bs o)
    ∧ (∀ id line o x n t pa, Happens (exec (.tileFetchArrive id line))
        (fun s => fetches id line o x n s ∧ window o x line s = false ∧ address o x line s = .ok t pa ∧ table o = true
          ∧ poisoned t pa 32 = false)
        fun _ => let r := weakNow (drawn o pa t) o.core .gen pa 32; arrive r.1 line r.2 o)
    ∧ (∀ id line o x n t pa, Happens (exec (.tileFetchArrive id line))
        (fun s => fetches id line o x n s ∧ window o x line s = false ∧ address o x line s = .ok t pa ∧ table o = false
          ∧ poisoned t pa 64 = false ∧ (pinRoom (drawn o pa t) (dieOf o.core) (pa / 64) = true
            ∨ ((drawn o pa t).eng.queue.find? (·.core == o.core)).map (·.id) = some id))
        fun _ => shared o x line pa (drawn o pa t))
    ∧ (∀ id line o x n t code va, Happens (exec (.tileFetchArrive id line))
        (fun s => fetches id line o x n s ∧ window o x line s = false ∧ address o x line s = .fault t code va)
        fun _ => bad o n code va t)
    ∧ (∀ core o x r, Happens (exec (.engineOpComplete core))
        (fun s => head core o s ∧ s.warp? o.warp = some x ∧ o.err = none ∧ o.lanes ≠ 0 ∧ performOp (popped core o s) o x = some r)
        fun s => left core o s r.1 r.2)
    ∧ ∀ core o x e, Happens (exec (.engineOpComplete core)) (fun s => head core o s ∧ s.warp? o.warp = some x ∧ o.err = some e)
        fun s => left core o s (popped core o s) (some e)

/-- R162, R365-R376, R465. -/
def Obligations.DispatchPlacementAndRelease : Prop :=
  let qid (v : Word64) : Nat := v.toNat / 2 ^ 32 % 2 ^ 16
  let tail (v : Word64) : Word32 := v.truncate 32
  let kicked (v : Word64) (q : Queue) (s : State) : Prop := s.queue? (qid v) = some q ∧ s.pkg.ready = true
  let ahead (v : Word64) (q : Queue) : Prop := q.live = true ∧ (tail v - q.tail).toNat < 2 ^ 31 ∧ (tail v - q.head).toNat ≤ 2 ^ q.rlog
  let ready (n : Nat) (q : Queue) (s : State) : Prop := s.flips = [] ∧ s.queue? n = some q ∧ q.live = true ∧ q.stuck = false
  let entryVa (q : Queue) : Nat := q.ring.toNat + 16 * (q.head.toNat % 2 ^ q.rlog)
  let packetOf (r : State × Except (FaultCode × Nat) (List Byte)) : Option Packet := match r.2 with | .ok bs => some (parsePacket bs) | .error _ => none
  let moved (n : Nat) (s : State) : State := s.modQueue n fun q => { q with head := q.head + 1 }
  let launches (g die w o cluster : Nat) (x : Grid) (again : Bool) (s : State) : Prop :=
    s.flips = [] ∧ s.grid? g = some x ∧ x.cut = false ∧ x.reject = none
      ∧ (s.work.grids.any fun h => decide (h.1 < g) && h.2.qid == x.qid && !h.2.cut && !h.2.launchedOn die) = false
      ∧ nextWorkgroup x die = some (w, o, again)
      ∧ (let q := (s.queue? x.qid).getD {}
         let rs := recordSpan x.pk.accs x.pk.stack
         recordsMeet s x.qid (q.arena.toNat + die * q.arenasz + o % (q.wpart / (x.pk.wgw * rs)) * x.pk.wgw * rs) (x.pk.wgw * rs)) = false
      ∧ (((List.range 8).map fun i => 8 * die + (s.work.lastCluster.get 7 die + 1 + i) % 8).find? fun c =>
          x.pk.near * 4096 ≤ nearFree s c) = some cluster
  let gone (w : Nat) (x : Warp) (s : State) : Prop := s.warp? w = some x ∧ mayRelease s w x = true
  let last (w : Nat) (g : Workgroup) (s : State) : Bool := g.warps.all fun n => ((endWarp s w).warp? n).isNone
  let n (bs : List Byte) : Nat := numAt bs 0 2
  let refused (src : BitVec 128) (bs : List Byte) (s : State) : Prop := s.flips = [] ∧ n bs < 256 ∧ datagramOk s src bs (s.work.tenants.get {} (n bs)) = false
  let accepted (src : BitVec 128) (bs : List Byte) (s : State) : Prop := s.flips = [] ∧ n bs < 256 ∧ datagramOk s src bs (s.work.tenants.get {} (n bs)) = true
  let seq (bs : List Byte) : Word32 := BitVec.ofNat 32 (numAt bs 4 4)
  (∀ v q, Happens (exec (.kick (.vf q.vf) v)) (fun s => kicked v q s ∧ ahead v q)
      fun s => { s with work := { s.work with queues := s.work.queues.insert (qid v) { q with tail := tail v, stuck := false } } })
    ∧ (∀ f v q, Happens (exec (.kick f v)) (fun s => s.queue? (qid v) = some q ∧ f ≠ .vf q.vf) fun s => s)
    ∧ (∀ n q t bs, Happens (exec (.dispatchPacket n))
        (fun s => ready n q s ∧ q.landed = [] ∧ q.head ≠ q.tail ∧ queueRead s q (entryVa q) 16 = (t, .ok bs))
        fun _ =>
          let r := queueRead (moved n t) q (numAt bs 0 8) 64
          startGrid r.1 n (numAt bs 0 8) (packetOf r) (some (numAt bs 8 8)) none none)
    ∧ (∀ n q t code va, Happens (exec (.dispatchPacket n))
        (fun s => ready n q s ∧ q.landed = [] ∧ q.head ≠ q.tail ∧ queueRead s q (entryVa q) 16 = (t, .error (code, va)))
        fun _ => addReport (t.modQueue n fun q => { q with stuck := true }) q.vf .trap
          [dispatchReport va q.head.toNat n q.asid (faultNumber code)] none)
    ∧ (∀ n q k rest, Happens (exec (.dispatchPacket n)) (fun s => ready n q s ∧ q.landed = (k, q.head) :: rest)
        fun s =>
          let base := q.land_.toNat + 2048 * k
          let r := queueRead (s.modQueue n fun q => { q with landed := rest }) q base 64
          startGrid r.1 n base (packetOf r) (some (base + 64)) none (some k))
    ∧ (∀ g die w o cluster x again, Occurs (exec (.workgroupPlace g die)) (launches g die w o cluster x again)
        fun s t => ∃ y z, t.wg? (freeHandle s die) = some y ∧ y.wgid = BitVec.ofNat 32 w ∧ y.grid = g ∧ y.die = die ∧ y.cluster = cluster
          ∧ y.vf = x.vf ∧ y.asid = x.asid ∧ y.nearSize = x.pk.near * 4096 ∧ y.near = [] ∧ y.full = []
          ∧ y.warps = (List.range x.pk.wgw).map (s.nextId + ·) ∧ t.grid? g = some z
          ∧ z.lcnt.get 0 die = (if again then x.lcnt.get 0 die else x.lcnt.get 0 die + 1))
    ∧ (∀ g x, Happens (exec (.gridComplete g)) (fun s => s.flips = [] ∧ s.grid? g = some x ∧ gridFinished s g x = true) fun s => completeGrid s g x)
    ∧ (∀ w x g, Happens (exec (.warpRelease w)) (fun s => gone w x s ∧ (endWarp s w).wg? x.wg = some g)
        fun s => if last w g s then dropWorkgroup (endWarp s w) x.wg else endWarp s w)
    ∧ (∀ w x, Occurs (exec (.warpRelease w)) (gone w x) fun s t => t.warps.find? w = none ∧ t.mem = s.mem)
    ∧ (∀ src bs, Happens (exec (.launchDatagram src bs)) (refused src bs)
        fun s => let d := s.work.drops.get 0 (n bs)
          { s with work := { s.work with drops := s.work.drops.put 0 (n bs) (if d = 0xFFFFFFFF then d else d + 1) } })
    ∧ ∀ src bs, Occurs (exec (.launchDatagram src bs)) (accepted src bs)
        fun s t =>
          let x := s.work.tenants.get {} (n bs)
          (t.work.tenants.get {} (n bs)).lastseq = seq bs ∧ t.work.grids = s.work.grids
            ∧ ∀ q, s.queue? x.qid = some q → ∃ r, t.queue? x.qid = some r ∧ r.landed = q.landed ++ [((seq bs).toNat % 64, q.tail)]
              ∧ (seq bs).toNat % 64 ∈ r.busy ∧ r.head = q.head ∧ r.tail = q.tail

/-- R378, R383, R384, R396-R401. -/
def Obligations.NodesCallsAndInterrupts : Prop :=
  let nodes (k : Nat) (q : NodeQueue) (s : State) : Prop := s.flips = [] ∧ s.work.nodes.find? k = some q
  let call (v : Word64) (q : Queue) (s : State) : Prop :=
    s.flips = [] ∧ s.queue? (v.toNat / 2 ^ 32 % 2 ^ 16) = some q ∧ s.pkg.ready = true
  let slot (v : Word64) (q : Queue) (s : State) : Option Nat :=
    warpOfSlot s (v.toNat / 2 ^ 32 % 2 ^ 16) q (v.toNat / 2 ^ 30 % 4) (v.toNat % 2 ^ 30)
  let send (vf : Nat) (p : BitVec 20) (v : BitVec 128) (s : State) : Send :=
    { k := 0, vf := vf, asid := v.toNat / 2 ^ 16 % 2 ^ 16, v := v.toNat % 64, pay := v.extractLsb' 64 64
      src := .host p (s.deviceOf (.vf vf)), func := some (.vf vf) }
  let first (k : Nat) (x : Send) (s : State) : Prop := s.flips = [] ∧ s.ui.sends.find? (·.k == k) = some x ∧ (s.ui.sends.any x.behind) = false
  let free (x : Send) (s : State) : Prop := ((x.warp.bind fun y => (s.warp? y.1).map (·.stuck)).getD false) = false
  let entryOf (x : Send) (s : State) : Vec := ((s.port? x.vf x.asid).map (·.vecs.get {} x.v)).getD {}
  let gone (k : Nat) (x : Send) (st : Nat) (s : State) : State :=
    let s := { s with fresh := s.fresh + 1, ui := { s.ui with sends := s.ui.sends.filter (·.k != k) } }
    let s := match x.src with | .peer _ _ => s.emit (.value (BitVec.ofNat 64 st)) | _ => s
    match x.func with | some f => if st = 0 then s else countRefusal s f | none => s
  let port (x : Warp) (s : State) : Port := (s.port? x.vf x.asid).getD {}
  let vec (x : Warp) (v : Nat) (s : State) : Vec := (port x s).vecs.get {} v
  let frame (e : Vec) : Nat := if e.frame = 0 then 256 else 8 * e.frame
  let delivers (w v p : Nat) (x : Warp) (q : Path) (s : State) : Prop :=
    s.flips = [] ∧ s.warp? w = some x ∧ x.place.isSome = true ∧ x.arriving = false ∧ x.trap = none ∧ x.faultVa = none ∧ x.kind = .ordinary
      ∧ (s.port? x.vf x.asid).bind (chosenVector · x) = some v ∧ chosenPath x.regs = some p ∧ s.path? w p = some q
      ∧ pendingReads s w q.lmask = []
  let kept (q : Path) : Option Wait := q.wait.filter (·.eligible)
  let written (v : Nat) (x : Warp) (q : Path) (e : Vec) (y : Warp) : Warp :=
    let ws := frameWords q v e.tag (x.regs.pay.get 0 v) (kept q).isSome
    (List.range 8).foldl (fun y i => y.setRow (q.wtop.toNat + i) q.lmask (Row.ofFn fun _ => ws.getD i 0)) y
  let masked (v : Nat) (q : Path) (y : Warp) : Warp :=
    { y with uiLanes := q.lmask, leaving := false, regs := { y.regs with uipend := y.regs.uipend &&& ~~~(1#64 <<< v) } }
  let entered (w v p : Nat) (x : Warp) (q : Path) (e : Vec) (s : State) : State :=
    (s.modWarp w fun y => masked v q (written v x q e y)).modPath w p fun r =>
      { r with pc := e.entry, pcHi := 0, wbase := BitVec.ofNat 16 (r.wtop.toNat + 4), wtop := BitVec.ofNat 17 (r.wtop.toNat + 4 + frame e)
               iter := 0, depth := r.depth + 1, park := false, clause := none, wait := none, notes := [], age := none
               frames := { depth := (r.depth + 1).toNat, lanes := r.lmask, prio := e.prio, wait := kept r } :: r.frames }
  (∀ k q, Happens (exec (.nodeWarpFormCount k)) (fun s => nodes k q s ∧ q.forms = [] ∧ 32 ≤ q.all.length) fun s => formOrWait s k 32 0)
    ∧ (∀ k q r rest, Happens (exec (.nodeTimer k)) (fun s => nodes k q s ∧ q.forms = [] ∧ q.all = r :: rest ∧ r.at_ + q.desc.tmr ≤ s.clock)
        fun s => formOrWait s k (min 32 (rest.length + 1)) 0x40)
    ∧ (∀ k q n bits rest t, Happens (exec (.nodePartRetry k))
        (fun s => nodes k q s ∧ q.forms = (n, bits) :: rest ∧ formNode (s.setNode k { q with forms := rest }) k n bits = some t) fun _ => t)
    ∧ (∀ v q w, Happens (exec (.callDoorbell (.vf q.vf) v)) (fun s => call v q s ∧ slot v q s = some w) fun s => readReply s w)
    ∧ (∀ f v q, Happens (exec (.callDoorbell f v)) (fun s => call v q s ∧ f ≠ .vf q.vf) fun s => s)
    ∧ (∀ vf p v, Happens (exec (.uisendr (.vf vf) (some p) v)) (fun s => s.pkg.ready = true)
        fun s => { s with nextId := s.nextId + 1, ui := { s.ui with sends := s.ui.sends ++ [{ send vf p v s with k := s.nextId }] } })
    ∧ (∀ f v, Happens (exec (.uisendr f none v)) (fun s => s.pkg.ready = true) fun s => countRefusal s f)
    ∧ (∀ k x t u tag, Happens (exec (.uiSendArrive k))
        (fun s => first k x s ∧ free x s ∧ x.goal s = .here ∧ portStatus s x.vf x.asid x.v x.src = (0, tag)
          ∧ handlerStuck s x.vf x.asid (entryOf x s) = false ∧ answerSend s x 0 = .ok t ∧ acceptSend t x.vf x.asid x.v tag x.pay = .ok u)
        fun _ => gone k x 0 u)
    ∧ (∀ k x t st, Happens (exec (.uiSendArrive k))
        (fun s => first k x s ∧ free x s ∧ x.goal s = .here ∧ (portStatus s x.vf x.asid x.v x.src).1 = st ∧ st ≠ 0
          ∧ answerSend s x st = .ok t)
        fun _ => gone k x st t)
    ∧ (∀ k x t, Happens (exec (.uiSendArrive k)) (fun s => first k x s ∧ free x s ∧ x.goal s = .unreachable ∧ answerSend s x 4 = .ok t)
        fun _ => gone k x 4 t)
    ∧ (∀ k x t, Happens (exec (.uiSendArrive k))
        (fun s => first k x s ∧ free x s ∧ x.goal s = .peer ∧ answerSend s x (Config.peerStatus s.fresh).val = .ok t)
        fun s => gone k x (Config.peerStatus s.fresh).val t)
    ∧ (∀ w v p x q, Happens (exec (.uiDelivery w))
        (fun s => delivers w v p x q s ∧ x.regs.stackSize < q.wtop.toNat + 4 + frame (vec x v s))
        fun s => raiseFault s w p .winovf (BitVec.ofNat 64 (q.wtop.toNat + 4 + frame (vec x v s))))
    ∧ ∀ w v p x q t, Happens (exec (.uiDelivery w))
        (fun s => delivers w v p x q s ∧ q.wtop.toNat + 4 + frame (vec x v s) ≤ x.regs.stackSize
          ∧ bringSlots s w ((List.range 8).map (q.wtop.toNat + ·)) = (t, none))
        fun s => allocateFrame (refresh (entered w v p x q (vec x v s) t) x.core .pod) w (q.wtop.toNat + 4)
          (q.wtop.toNat + 4 + frame (vec x v s))

/-- R411-R414, R420, R464, R468. -/
def Obligations.TrapsRepliesAndReports : Prop :=
  let enters (w : Nat) (x : Warp) (t : Trap) (l : Nat) (s : State) : Prop :=
    s.warp? w = some x ∧ x.trap = some t ∧ t.held = false ∧ t.lane = none ∧ x.place.isSome = true
      ∧ halfPrivileged s x = false ∧ (x.regs.paths.any (·.2.running x.regs.ctxf)) = false ∧ s.cur.map (·.w) ≠ some w ∧ lowLane t.lmask = some l
      ∧ s.warp? s.nextId = none
  let lanePath (s : State) (x : Warp) (l : Nat) : Path :=
    { pc := BitVec.ofNat 57 (s.sys.tvec.get 0 (dieOf x.core)), lmask := 1#32 <<< l, wtop := 0 }
  let held (slot vf w : Nat) (x : Warp) (t : Trap) (s : State) : Prop :=
    s.flips = [] ∧ s.pkg.ready = true ∧ reportedWarp s vf slot = some w ∧ s.warp? w = some x ∧ x.trap = some t ∧ x.faultVa = none
  let back (w : Nat) (t : Trap) (f : Path → Path) (s : State) : Except State State :=
    updateSaved { s with fresh := s.fresh + 1 } w fun x =>
      { x with trap := none, waitingSince := none, regs := { x.regs with paths := x.regs.paths.adjust t.path f } }
  let skipped (x : Warp) (t : Trap) (s : State) (q : Path) : Path := { q with pc := skipPc s x t, wait := none, notes := [], rst := 0 }
  let kept (w resp : Nat) (s : State) : State := s.modWarp w fun x => { x with trap := x.trap.map fun t => { t with reply := some resp } }
  let silent (vf slot : Nat) (s : State) : Prop := s.flips = [] ∧ (s.pkg.ready = false ∨ reportedWarp s vf slot = none)
  let posts (vf : Nat) (ring : RingKind) (r : Report) (g : Ring) (s : State) : Prop :=
    s.reports.find? (fun r => r.vf == vf && r.ring == ring) = some r ∧ s.ring? vf ring = some g
      ∧ (g.p - g.c).toNat + r.slots.length ≤ 2 ^ g.log
  let ready (s : State) : Prop := s.pkg.ready = true
  let ringOf (vf : Nat) (k : RingKind) (ci : Word32) (s : State) : State :=
    { s with rings := s.rings.adjust (ringKey vf k) fun g => { g with c := ci } }
  let trapHeld (f : Func) (ci : Word32) (s : State) : State := s.modFunc f fun g => { g with trapCi := ci }
  let scanHeld (f : Func) (ci : Word32) (s : State) : State := s.modFunc f fun g => { g with scanCi := ci }
  (∀ w x t l, Occurs (exec (.trapEntry w)) (enters w x t l)
      fun s u => u.warp? w = some { x with trap := some { t with lane := some s.nextId } } ∧ u.mem = s.mem ∧ u.cur = s.cur
        ∧ (∀ n, n ≠ w → n ≠ s.nextId → u.warp? n = s.warp? n)
        ∧ ∃ y, u.warp? s.nextId = some y ∧ y.kind = .trapLane w ∧ y.place = x.place ∧ y.regs.paths = [(0, lanePath s x l)]
          ∧ y.regs.u = [] ∧ y.regs.p = [] ∧ y.regs.gstat = 0 ∧ y.regs.fcnt = [])
    ∧ (∀ w x t lane code info, Occurs (exec (.trapnest w code info))
        (fun s => s.warp? w = some x ∧ x.trap = some t ∧ t.lane = some lane ∧ t.inner = some code ∧ lane ≠ w)
        fun _ u => u.warp? lane = none
          ∧ u.warp? w = some { x with leaving := true, trap := some { t with nest := true, inner := none, lane := none, held := true } })
    ∧ (∀ vf slot w x t u, Happens (exec (.traprspRetry vf slot))
        (fun s => held slot vf w x t s ∧ x.regs.dorm ≠ 12 ∧ back w t (fun q => q) s = .ok u) fun _ => u)
    ∧ (∀ vf slot w x t u, Happens (exec (.traprspSkip vf slot))
        (fun s => held slot vf w x t s ∧ x.regs.dorm ≠ 12 ∧ back w t (skipped x t s) s = .ok u) fun _ => u)
    ∧ (∀ vf slot w x t, Happens (exec (.traprspKill vf slot)) (fun s => held slot vf w x t s ∧ x.regs.dorm ≠ 12)
        fun s => killWorkgroup s x.wg true)
    ∧ (∀ vf slot w x t, Happens (exec (.traprspRetry vf slot)) (fun s => held slot vf w x t s ∧ x.regs.dorm = 12) (kept w 0))
    ∧ (∀ vf slot w x t, Happens (exec (.traprspSkip vf slot)) (fun s => held slot vf w x t s ∧ x.regs.dorm = 12) (kept w 1))
    ∧ (∀ vf slot w x t, Happens (exec (.traprspKill vf slot)) (fun s => held slot vf w x t s ∧ x.regs.dorm = 12) (kept w 2))
    ∧ (∀ vf slot, Happens (exec (.traprspRetry vf slot)) (silent vf slot) fun s => s)
    ∧ (∀ vf slot, Happens (exec (.traprspSkip vf slot)) (silent vf slot) fun s => s)
    ∧ (∀ vf slot, Happens (exec (.traprspKill vf slot)) (silent vf slot) fun s => s)
    ∧ (∀ vf ring r g, Occurs (exec (.ringReportPost vf ring)) (posts vf ring r g)
        fun s u => u.rings = s.rings.insert (ringKey vf ring) { g with p := g.p + BitVec.ofNat 32 r.slots.length }
          ∧ u.reports = s.reports.erase r ∧ u.out = s.out ++ [.msix (.vf vf) g.vec])
    ∧ (∀ vf ci, Happens (exec (.trapci (.vf vf) ci)) ready fun s => ringOf vf .trap ci (trapHeld (.vf vf) ci s))
    ∧ (∀ vf ci, Happens (exec (.scanci (.vf vf) ci)) ready fun s => ringOf vf .scan ci (scanHeld (.vf vf) ci s))
    ∧ (∀ n ci, Happens (exec (.trapci (.pf n) ci)) ready (trapHeld (.pf n) ci))
    ∧ (∀ n ci, Happens (exec (.scanci (.pf n) ci)) ready (scanHeld (.pf n) ci))
    ∧ ∀ f ci, Happens (exec (.trapci f ci)) (fun s => s.pkg.ready = false) fun s => s

/-- R107-R109, R430, R437. -/
def Obligations.ScansSavesAndRestarts : Prop :=
  let page (r : ScanReq) : Nat := r.va / 4096 * 4096
  let begun (r : ScanReq) (s : State) : State :=
    { s with sys := { s.sys with scans := s.sys.scans.erase r
                                 starts := s.sys.starts.filter fun x => !(x.vf == r.vf && x.asid == r.asid && x.page == page r) } }
  let said (r : ScanReq) (pid reason off slot word : Nat) (s : State) : State :=
    addReport s r.vf .scan [scanReport (page r) pid reason off slot word] none
  let scans (die : Nat) (r : ScanReq) (s : State) : Prop := s.sys.scans.find? (·.die == die) = some r
  let key (r : ScanReq) (l2 : Leaf2) (s : State) : Nat := memoryKey (begun r s) r.vf l2.out
  let reaches (r : ScanReq) (l : Leaf1) (l2 : Leaf2) (s : State) : Prop :=
    walk1 (begun r s) none r.vf r.asid (page r) = .ok l ∧ walk2 (begun r s) none r.vf l.out = .ok l2 ∧ key r l2 s / 4096 ∉ s.flips
  let text (r : ScanReq) (l2 : Leaf2) (s : State) : List Byte := (begun r s).bytes (key r l2 s) 4096
  let verdict (r : ScanReq) (l : Leaf1) (l2 : Leaf2) (s : State) : Verdict := scanPage (begun r s) (l.e / 2 ^ 60) (text r l2 s)
  let saves (h : Nat) (g : Workgroup) (r : SaveReq) (s : State) : Prop :=
    s.flips = [] ∧ s.wg? h = some g ∧ s.sys.saves.find? h = some r ∧ drained s h g = true
  let stored (g : Workgroup) (s : State) : State :=
    g.warps.foldl (fun s w => if ((s.warp? w).bind (·.place)).isSome then commitEviction s w else s) s
  let prior (g : Workgroup) (s : State) : SMap (BitVec 4) :=
    g.warps.foldl (fun (m : SMap (BitVec 4)) w => match s.warp? w with
      | some x => m.put 0 w (if x.regs.dorm = 12 then g.priorDorm.get 0 w else x.regs.dorm)
      | none => m) []
  let noted (g : Workgroup) (s : State) : Workgroup := { g with priorDorm := prior g (stored g s) }
  let marked (h : Nat) (g : Workgroup) (s : State) : Except State State :=
    updateEach ((stored g s).modWg h fun _ => noted g s) g.warps fun x => { x with regs := { x.regs with dorm := 12 } }
  let faulted (g : Workgroup) (s : State) : Bool := g.warps.any fun w => ((s.warp? w).bind (·.faultVa)).isSome
  let complete (h : Nat) (g : Workgroup) (r : SaveReq) (u : State) (s : State) : Prop :=
    saves h g r s ∧ faulted g (stored g s) = false ∧ marked h g s = .ok u
  let revoked (r : SaveReq) (s : State) : Bool := (r.image.map (revokedKey s)).getD false
  (∀ die r f, Happens (exec (.scanComplete die)) (fun s => scans die r s ∧ walk1 (begun r s) none r.vf r.asid (page r) = .fail f)
      fun s => said r 0 (Config.scanReason s.fresh).toNat 0 0 0 { begun r s with fresh := s.fresh + 1 })
    ∧ (∀ die r l l2 starts, Occurs (exec (.scanComplete die)) (fun s => scans die r s ∧ reaches r l l2 s ∧ verdict r l l2 s = .pass starts)
        fun s t => t.reports = (said r (l.e / 2 ^ 60) 0 0 0 0 s).reports ∧ t.sys.scans = s.sys.scans.erase r ∧ t.warps = s.warps
          ∧ (l.e.testBit 59 = true → t.mem = s.mem) ∧ (l.e.testBit 59 = false → t.bytes l.epa 8 = leBytes 8 (l.e + 2 ^ 59)))
    ∧ (∀ die r l l2 reason off slot len, Occurs (exec (.scanComplete die))
        (fun s => scans die r s ∧ reaches r l l2 s ∧ verdict r l l2 s = .fail reason off slot len)
        fun s t => t.reports = (said r (l.e / 2 ^ 60) reason off slot (leNat (((text r l2 s).drop off).take len)) s).reports
          ∧ t.sys.scans = s.sys.scans.erase r ∧ t.warps = s.warps
          ∧ (l.e.testBit 7 = false → t.mem = s.mem) ∧ (l.e.testBit 7 = true → t.bytes l.epa 8 = leBytes 8 (l.e - 2 ^ 7)))
    ∧ (∀ h r, Happens (exec (.ctxsvSave h)) (fun s => s.flips = [] ∧ s.wg? h = none ∧ s.sys.saves.find? h = some r) fun s => finishSave s h 1 r)
    ∧ (∀ h g r u, Happens (exec (.ctxsvSave h)) (complete h g r u) fun s => sealImage u h (noted g s) r)
    ∧ (∀ h g r u v records, Happens (exec (.ctxsvSave h))
        (fun s => complete h g r u s ∧ r.slot = 0 ∧ readRecords u g.warps = (v, .ok records) ∧ revoked r v = true) fun _ => finishSave v h 6 r)
    ∧ (∀ h g r u v records, Happens (exec (.ctxsvSave h))
        (fun s => complete h g r u s ∧ r.slot = 0 ∧ readRecords u g.warps = (v, .ok records) ∧ revoked r v = false)
        fun s => keepImage v h (noted g s) r 0 (imageBytes v (noted g s) 0 0 0 records))
    ∧ (∀ ld, Occurs (exec (.hostWarmRestart ld)) (fun s => s.flips = [])
        fun _ t => ld ∉ t.pkg.sessions ∧ ld ∈ t.revoked ∧ (t.sys.graceEnd.find? ld).isSome = true)
    ∧ ∀ ld e, Occurs (exec (.graceExpiry ld)) (fun s => s.flips = [] ∧ s.sys.graceEnd.find? ld = some e ∧ e ≤ s.clock)
        fun _ t => t.sys.graceEnd.find? ld = none ∧ ∀ i ∈ t.sys.images, i.ld ≠ ld

/-- R262, R290, R291, R457, R464, R466. -/
def Obligations.HostRegistersAndAccesses : Prop :=
  let quiet (s : State) : Prop := s.flips = []
  let flipped (ld : Nat) (x : Flip) (s : State) : State := { s with pkg := { s.pkg with flips := s.pkg.flips.insert ld x } }
  let idle (ld : Nat) (s : State) : Prop := s.pkg.ready = true ∧ (s.pkg.flips.get {} ld).busy = false
  let flips (ld page : Nat) (to_ : Bool) (s : State) : State :=
    flipped ld { page := page, toHost := to_, busy := true } (dropPhysical { s with flips := s.flips ++ [page] } page)
  let failed (ld page : Nat) (to_ : Bool) (s : State) : State :=
    flipped ld { s.pkg.flips.get {} ld with page := page, toHost := to_, err := true } s
  let stands (ld page : Nat) (host : Bool) (s : State) : Prop := s.pkg.exposed.find? page = some (ld, host)
  let at_ (a : Nat) (bs : List Byte) (s t : State) : Prop :=
    (∀ i < bs.length, t.byte (a + i) = bs.getD i 0) ∧ ∀ b, (b < a ∨ a + bs.length ≤ b) → t.byte b = s.byte b
  let drops (n : Nat) (s : State) : State := { s with work := { s.work with drops := s.work.drops.put 0 n 0 } }
  let owner (n : Nat) (s : State) : Option Nat := (s.queue? (s.work.tenants.get {} n).qid).map fun q => (s.vfs.get {} q.vf).dev
  (∀ f ofs n v, Happens (exec (.registerWrite f ofs n v)) (fun s => quiet s ∧ s.pkg.ready = true ∧ registerAt f ofs = some (ofs, n))
      (writeRegister f ofs v))
    ∧ (∀ f ofs n v a k, Happens (exec (.registerWrite f ofs n v))
        (fun s => quiet s ∧ s.pkg.ready = true ∧ registerAt f ofs = some (a, k) ∧ (ofs ≠ a ∨ n ≠ k)) fun s => countRefusal s f)
    ∧ (∀ f ofs n v, Happens (exec (.registerWrite f ofs n v)) (fun s => quiet s ∧ (s.takesWrites f = false ∨ registerAt f ofs = none)) fun s => s)
    ∧ (∀ f v, Occurs (exec (.registerWrite f 0x060 8 v)) (fun s => quiet s ∧ s.takesWrites f = true)
        fun s t => (t.func f).svcBase = v &&& ~~~0xFFF ∧ t.mem = s.mem ∧ t.warps = s.warps ∧ t.work = s.work)
    ∧ (∀ f, Happens (exec (.uirefuseRead ⟨f, 0x030⟩)) (fun s => s.pkg.ready = true)
        fun s => (s.modFunc f fun g => { g with refuse := 0 }).emit (.value ((s.func f).refuse.zeroExtend 64)))
    ∧ (∀ f, Happens (exec (.uirefuseRead ⟨f, 0x050⟩)) (fun s => s.pkg.ready = true) fun s => s.emit (.value ((s.func f).trapCi.zeroExtend 64)))
    ∧ (∀ f, Happens (exec (.uirefuseRead ⟨f, 0x058⟩)) (fun s => s.pkg.ready = true) fun s => s.emit (.value ((s.func f).scanCi.zeroExtend 64)))
    ∧ (∀ f, Happens (exec (.uirefuseRead ⟨f, 0x060⟩)) (fun s => s.pkg.ready = true) fun s => s.emit (.value (s.func f).svcBase))
    ∧ (∀ ld, Happens (exec (.uirefuseRead ⟨.pf ld, 0x040⟩)) (fun s => s.pkg.ready = true)
        fun s => let x := s.pkg.flips.get {} ld
          s.emit (.value (BitVec.ofNat 64 (x.page * 2 ^ 12 + bit x.err * 4 + bit x.done * 2 + bit x.busy))))
    ∧ (∀ f ofs, Happens (exec (.uirefuseRead ⟨f, ofs⟩)) (fun s => s.pkg.ready = true ∧ ofs ∈ [0x000, 0x008, 0x010, 0x018, 0x020, 0x038, 0x048])
        fun s => s.emit (.value 0))
    ∧ (∀ ld, Happens (exec (.uirefuseRead ⟨.pf ld, 0x1000⟩)) (fun s => s.pkg.recovery = false ∨ ld = 0)
        fun s => s.emit (.value (BitVec.ofNat 64 (s.pkg.svn.toNat * 2 ^ 32 + s.pkg.code * 2 ^ 8 + s.pkg.dieOk.toNat * 2 ^ 4
          + bit s.pkg.recovery * 2 + bit s.pkg.ready))))
    ∧ (∀ ld, Happens (exec (.uirefuseRead ⟨.pf ld, 0x1008⟩)) (fun s => s.pkg.recovery = false ∨ ld = 0)
        fun s => s.emit (.value (BitVec.ofNat 64 s.pkg.number)))
    ∧ (∀ ld, Happens (exec (.uirefuseRead ⟨.pf ld, 0x1010⟩)) (fun s => s.pkg.recovery = false ∨ ld = 0)
        fun s => s.emit (.value (BitVec.ofNat 64 (s.pkg.watts % 2 ^ 16 * 2 ^ 16 + s.pkg.limit))))
    ∧ (∀ ld n, Happens (exec (.tdropRead ld n)) (fun s => s.pkg.ready = true ∧ owner n s = some ld)
        fun s => (drops n s).emit (.value ((s.work.drops.get 0 n).zeroExtend 64)))
    ∧ (∀ ld n, Happens (exec (.tdropRead ld n)) (fun s => s.pkg.ready = false ∨ owner n s ≠ some ld) fun s => s.emit (.value 0))
    ∧ (∀ l, Happens (exec (.pwrcapWrite 0 l)) (fun s => s.pkg.ready = true)
        fun s => { s with pkg := { s.pkg with limit := if l.toNat < 1200 then 1200 else if 2800 < l.toNat then 2800 else l.toNat } })
    ∧ (∀ ld l, Happens (exec (.pwrcapWrite ld l)) (fun _ => ld ≠ 0) fun s => s)
    ∧ (∀ ld p, Happens (exec (.flipreqToHost ld p)) (fun s => idle ld s ∧ stands ld p false s) (flips ld p true))
    ∧ (∀ ld p, Happens (exec (.flipreqToDevice ld p)) (fun s => idle ld s ∧ stands ld p true s) (flips ld p false))
    ∧ (∀ ld p, Happens (exec (.flipreqToHost ld p)) (fun s => idle ld s ∧ ¬stands ld p false s) (failed ld p true))
    ∧ (∀ ld p, Happens (exec (.flipreqToDevice ld p)) (fun s => idle ld s ∧ ¬stands ld p true s) (failed ld p false))
    ∧ (∀ ld, Occurs (exec (.flipComplete ld)) (fun s => (s.pkg.flips.get {} ld).busy = true ∧ pageBusy s (s.pkg.flips.get {} ld).page = false)
        fun s t =>
          let x := s.pkg.flips.get {} ld
          t.pkg.exposed.find? x.page = some (ld, x.toHost) ∧ t.pkg.flips.find? ld = some { x with busy := false, done := true }
            ∧ x.page ∉ t.flips ∧ t.mem = s.mem ∧ t.warps = s.warps)
    ∧ (∀ ld a bs, Occurs (exec (.hostSnoop ld a bs)) (fun _ => True) (at_ (hostKey ld a) bs))
    ∧ (∀ ld a bs, Occurs (exec (.hostCxlMemAccess ld a (.write bs))) (fun s => exposedTo s ld (a / 4096) = true) (at_ a bs))
    ∧ (∀ ld a n, Happens (exec (.hostCxlMemAccess ld a (.read n))) (fun s => exposedTo s ld (a / 4096) = true)
        fun s => s.emit (.bytes (s.bytes a n)))
    ∧ (∀ ld a x, Happens (exec (.hostCxlMemAccess ld a x)) (fun s => exposedTo s ld (a / 4096) = false) fun s => s)
    ∧ (∀ p a bs, Occurs (exec (.peerRequest p a (.access (.write bs)))) (fun _ => a < 2 ^ 38) (at_ a bs))
    ∧ (∀ p a n, Happens (exec (.peerRequest p a (.access (.read n)))) (fun _ => a < 2 ^ 38) fun s => s.emit (.bytes (s.bytes a n)))
    ∧ (∀ p asid vf target v pay, Happens (exec (.peerRequest p asid (.send vf target v pay))) (fun _ => True)
        fun s => { s with nextId := s.nextId + 1, ui := { s.ui with sends := s.ui.sends ++
          [{ k := s.nextId, vf := vf, asid := target, v := v, pay := pay, src := .peer asid p }] } })
    ∧ (∀ qp vf asid va n t bs, Happens (exec (.rdmaAccess qp vf asid va (.read n)))
        (fun s => quiet s ∧ qp ∉ s.pkg.errorQps ∧ qp < 65536 ∧ queueRead s { vf := vf, asid := asid } va n = (t, .ok bs)) fun _ => t.emit (.bytes bs))
    ∧ (∀ qp vf asid va n t e, Happens (exec (.rdmaAccess qp vf asid va (.read n)))
        (fun s => quiet s ∧ qp ∉ s.pkg.errorQps ∧ qp < 65536 ∧ queueRead s { vf := vf, asid := asid } va n = (t, .error e))
        fun _ => { t with pkg := { t.pkg with errorQps := NSet.insert t.pkg.errorQps qp } }.emit (.nak qp))
    ∧ ∀ qp vf asid va x, Happens (exec (.rdmaAccess qp vf asid va x)) (fun s => quiet s ∧ qp ∈ s.pkg.errorQps) fun s => s

/-- R28, R29, R256, R292, R435-R440, R458-R463. -/
def Obligations.ErrorsLinksPowerAndSecurity : Prop :=
  let quiet (s : State) : Prop := s.flips = []
  let loses (w : Nat) (x : Warp) (s : State) : Prop := s.flips = [] ∧ s.warp? w = some x
  let lanes (p n : Nat) (s : State) : State := { s with pkg := { s.pkg with lanes := s.pkg.lanes.put 4 p n } }
  let clocked (w mhz : Nat) (s : State) : State := { s with pkg := { s.pkg with watts := w, mhz := mhz } }
  let rate (c v : Nat) (s : State) : Nat := (s.sys.limits.get 0 (limitKey c v)).toNat % 2 ^ 16
  let burst (c v : Nat) (s : State) : Nat := (s.sys.limits.get 0 (limitKey c v)).toNat / 2 ^ 24 % 2 ^ 16
  let filled (c v : Nat) (s : State) : Nat :=
    let n := s.sys.tokens.get 0 (limitKey c v) + rate c v s
    if n ≤ burst c v s then n else burst c v s
  let inUse (c : Nat) (s : State) : Bool := s.wgs.any fun g => g.2.cluster == c && !g.2.saved
  let fine (d st n r : Nat) : Prop := d < 4 ∧ st < 64 ∧ n ≤ 8 ∧ r ≤ 8 ∧ n + r ≤ 12
  let is (f : Func) (x : TdispState) (s : State) : Prop := s.flips = [] ∧ (s.func f).tdisp = x
  let image (b : BootInput) (s : State) : FirmwareImage := firmwareImage (s.pkg.staged.getD b.image)
  let ok (b : BootInput) (s : State) : BitVec 4 :=
    BitVec.ofNat 4 ((List.range 4).foldl (fun n d => n + bit (dieCode b (image b s) d == 0) * 2 ^ d) 0)
  (∀ a, Happens (exec (.uncorrectableError (.cleanRegisterLine a))) quiet fun s => s)
    ∧ (∀ a, Happens (exec (.uncorrectableError (.cleanCacheLine a))) quiet fun s => s)
    ∧ (∀ w x, Happens (exec (.uncorrectableError (.dirtyRegisterLine w))) (loses w x) fun s => killWorkgroup s x.wg true)
    ∧ (∀ w x, Happens (exec (.uncorrectableError (.accumulators w))) (loses w x) fun s => killWorkgroup s x.wg true)
    ∧ (∀ h, Happens (exec (.uncorrectableError (.nearStore h))) quiet fun s => killWorkgroup s h true)
    ∧ (∀ a, Occurs (exec (.uncorrectableError (.dirtyLlcOrDram a))) quiet
        fun s t => t.mem = s.mem ∧ t.warps = s.warps ∧ ∀ g, g ∈ t.poison ↔ g ∈ s.poison ∨ g / 4 = a / 64)
    ∧ (∀ p, Happens (exec (.linkLaneLoss p 1)) (fun s => p < 36 ∧ s.pkg.lanes.get 4 p = 4) (lanes p 2))
    ∧ (∀ p, Happens (exec (.linkLaneLoss p 1)) (fun s => p < 36 ∧ s.pkg.lanes.get 4 p ≠ 4) (lanes p 0))
    ∧ (∀ p, Happens (exec (.flitRetry p)) (fun _ => True) fun s => s)
    ∧ (∀ w, Happens (exec (.powerLimitStep w)) (fun s => s.pkg.limit < w ∧ 900 ≤ s.pkg.mhz) fun s => clocked w (s.pkg.mhz - 100) s)
    ∧ (∀ w, Happens (exec (.powerLimitStep w)) (fun s => w ≤ s.pkg.limit ∧ s.pkg.mhz ≤ 1600) fun s => clocked w (s.pkg.mhz + 100) s)
    ∧ (∀ w, Happens (exec (.powerLimitStep w)) (fun s => s.pkg.limit < w ∧ s.pkg.mhz < 900) (clocked w 800))
    ∧ (∀ w, Happens (exec (.powerLimitStep w)) (fun s => w ≤ s.pkg.limit ∧ 1600 < s.pkg.mhz) (clocked w 1700))
    ∧ (∀ c v, Happens (exec (.rateLimiterRefill c v)) (fun _ => True)
        fun s => { s with sys := { s.sys with tokens := s.sys.tokens.put 0 (limitKey c v) (filled c v s) } })
    ∧ (∀ d st n r, Happens (exec (.remoteLineWaysSet d st n r)) (fun s => fine d st n r ∧ inUse (8 * d + st / 8) s = false)
        fun s => trimSlice { s with nearWays := s.nearWays.put 0 (64 * d + st) n, remoteWays := s.remoteWays.put 0 (64 * d + st) r } (64 * d + st))
    ∧ (∀ d st n r, Happens (exec (.remoteLineWaysSet d st n r)) (fun s => ¬fine d st n r ∨ inUse (8 * d + st / 8) s = true) fun s => s)
    ∧ Happens (exec .firmwareFailover) (fun _ => True)
        (fun s => { s with sys := { s.sys with fostat := s.sys.fostat ||| (if s.pkg.dieOk.getLsbD 1 then 1 else 2) } })
    ∧ (∀ f, Occurs (exec (.tdispRequest f .lock)) (is f .unlocked) fun s t => (t.func f).tdisp = .locked ∧ t.mem = s.mem ∧ t.warps = s.warps)
    ∧ (∀ f, Occurs (exec (.tdispRequest f .start)) (is f .locked) fun s t => (t.func f).tdisp = .run ∧ t.mem = s.mem ∧ t.warps = s.warps)
    ∧ (∀ f, Happens (exec (.tdispRequest f .stop)) (fun s => is f .run s ∨ is f .locked s ∨ is f .error s) fun s => moveInterface s f .unlocked)
    ∧ (∀ f, Happens (exec (.tdispRequest f .lock)) (fun s => is f .locked s ∨ is f .run s ∨ is f .error s) fun s => s)
    ∧ (∀ f n v, Happens (exec (.msixTableWrite f n v)) (fun s => is f .locked s ∨ is f .run s) fun s => moveInterface s f .error)
    ∧ (∀ f n v, Happens (exec (.msixTableWrite f n v)) (fun s => is f .unlocked s ∨ is f .error s)
        fun s => s.modFunc f fun g => { g with msix := g.msix.put 0 n v })
    ∧ (∀ ld i m, Happens (exec (.spdmRequest ld (.getMeasurements i))) (fun s => measurement s i = some m)
        fun s => s.emit (.report (m ++ Config.falconSign m)))
    ∧ (∀ ld, Occurs (exec (.spdmRequest ld .establish)) (fun _ => True) fun s t => ld ∈ t.pkg.sessions ∧ ld ∉ t.revoked ∧ t.mem = s.mem)
    ∧ (∀ b, Occurs (exec (.packageReset b)) (fun s => (ok b s).getLsbD 0 = true)
        fun s t => t.pkg.ready = true ∧ t.pkg.recovery = false ∧ t.pkg.svn = (image b s).svn ∧ t.wgs = [] ∧ t.work = {} ∧ t.cur = none
          ∧ t.sys.grace = b.grace.toNat ∧ ∀ n < 16, (t.personalities.get {} n).resident = decide (n < 3))
    ∧ ∀ b, Occurs (exec (.packageReset b)) (fun s => (ok b s).getLsbD 0 = false)
        fun s t => t.pkg.ready = false ∧ t.pkg.recovery = true ∧ t.pkg.code = dieCode b (image b s) 0 ∧ t.pkg.dieOk = 0 ∧ t.warps = []

/-- R469, R470 and the rules of the objects. -/
def Obligations.ServicesOfQueuesPortsAndTables : Prop :=
  let none_ (_ : State) : List Word64 := []
  let open_ (s : State) (vf : Nat) : Prop := s.configLocked vf = false
  let qArgs (r : SvcReq) : Prop :=
    onlyFields r.a5 [(0, 16), (16, 8), (24, 4), (32, 4), (40, 5), (48, 2)] = true ∧ argBits r.a5 40 5 ≤ 16 ∧ r.a0.toNat % 4096 = 0
      ∧ r.a1.toNat % 4096 = 0 ∧ r.a2.toNat % 4096 = 0 ∧ r.a4.toNat % 4096 = 0
  let qVf (r : SvcReq) : Nat := vfArg r (argBits r.a5 16 8)
  let queue (r : SvcReq) : Queue :=
    { ring := r.a0, arena := r.a1, arenasz := r.a2.toNat, call := r.a3, land_ := r.a4, nodeq := argBits r.a5 48 2, asid := argBits r.a5 0 16
      vf := qVf r, davail := BitVec.ofNat 4 (argBits r.a5 24 4), live := true, rlog := argBits r.a5 40 5, priocap := argBits r.a5 32 4 }
  let onPort (r : SvcReq) (n vf asid : Nat) (s : State) : Prop := argsEndAt r n = true ∧ vfOfAsid r s asid = some vf ∧ open_ s vf
  let ports (f : SMap Port → SMap Port) (s : State) : State := { s with ui := { s.ui with ports := f s.ui.ports } }
  let unpended (r : SvcReq) (vf : Nat) (s : State) : Except State State :=
    (s.warps.filter fun x => x.2.kind == .ordinary && x.2.vf == vf && x.2.asid == r.a0.toNat).foldl
      (fun (a : Except State State) x => match a with | .ok s => dropPending s x.1 x.2 | .error s => .error s) (.ok s)
  let reached (e : Except State State) : State := match e with | .ok s => s | .error s => s
  let perm (r : SvcReq) : Perm := { vmask := r.a1, cls := BitVec.ofNat 8 (argBits r.a2 0 8), id := BitVec.ofNat 48 (argBits r.a2 16 48) }
  let permArgs (r : SvcReq) : Prop :=
    onlyFields r.a0 [(0, 16), (16, 6)] = true ∧ onlyFields r.a2 [(0, 2), (7, 1), (16, 48)] = true
      ∧ (argBits r.a2 0 2 = 1 → argBits r.a2 16 48 < 2 ^ 24) ∧ (argBits r.a2 0 2 = 2 → argBits r.a2 16 48 < 2 ^ 25)
      ∧ (argBits r.a2 0 2 = 3 → argBits r.a2 16 48 < 2 ^ 16)
  let table (r : SvcReq) (s : State) : List Byte := s.bytes (hostKey (s.deviceOf r.caller) r.a1.toNat) 64
  let tenant (r : SvcReq) (s : State) : Tenant := parseTenant (table r s) (s.work.tenants.get {} r.a0.toNat).lastseq
  let rVf (r : SvcReq) : Nat := vfArg r (argBits r.a0 8 8)
  let ringArgs (r : SvcReq) : Prop :=
    argsEndAt r 3 = true ∧ onlyFields r.a0 [(0, 2), (8, 8)] = true ∧ argBits r.a0 0 2 ≠ 3 ∧ r.a1.toNat % 4096 = 0
      ∧ onlyFields r.a2 [(0, 4), (8, 8)] = true
      ∧ (r.a1 = 0 ∨ if argBits r.a0 0 2 = 0 then argBits r.a2 0 4 = 0 else 4 ≤ argBits r.a2 0 4 ∧ argBits r.a2 0 4 ≤ 12)
  let ringKeyOf (r : SvcReq) : Nat := 4 * rVf r + argBits r.a0 0 2
  let rings (r : SvcReq) (s : State) : State :=
    { s with rings := if r.a1 = 0 then s.rings.erase (ringKeyOf r)
        else s.rings.insert (ringKeyOf r) { base := r.a1.toNat, log := argBits r.a2 0 4, vec := argBits r.a2 8 8 } }
  let aVf (r : SvcReq) : Nat := vfArg r (argBits r.a0 16 8)
  let space (r : SvcReq) (s : State) : State :=
    let k := State.spaceKey (aVf r) (argBits r.a0 0 16)
    let old := (s.spaces.find? k).getD { vf := aVf r, asid := argBits r.a0 0 16, root := 0 }
    invalidate { s with spaces := if r.a1 = 0 then s.spaces.erase k else s.spaces.insert k { old with root := r.a1.truncate 52 } }
      (· == aVf r) (· == argBits r.a0 0 16) fun _ _ => true
  let vfOf (r : SvcReq) : Nat := argBits r.a0 0 8
  let stage2 (r : SvcReq) (s : State) : State :=
    invalidate { s with vfs := s.vfs.insert (vfOf r) { s.vfs.get {} (vfOf r) with s2en := r.a0.getLsbD 8, s2root := r.a1.truncate 52 } }
      (· == vfOf r) (fun _ => true) fun _ _ => true
  let isPf (r : SvcReq) : Prop := fromPf r = true
  (∀ r n, Serves (exec (.qcreate r)) 0x01 r (fun s => qArgs r ∧ mayUse r s (qVf r) = true ∧ open_ s (qVf r) ∧ freeQueue s = some n)
      (fun s => { s with work := { s.work with queues := s.work.queues.insert n (queue r) } }) fun _ => [BitVec.ofNat 64 n])
    ∧ (∀ r, Refuses (exec (.qcreate r)) 0x01 r (fun s => qArgs r ∧ mayUse r s (qVf r) = false) 4)
    ∧ (∀ r q, Serves (exec (.qdestroy r)) 0x02 r
        (fun s => s.flips = [] ∧ argsEndAt r 1 = true ∧ r.a0.toNat < 65536 ∧ s.queue? r.a0.toNat = some q ∧ q.live = true ∧ mayUse r s q.vf = true ∧ open_ s q.vf)
        (fun s => destroyQueue s r.a0.toNat) none_)
    ∧ (∀ r vf, Serves (exec (.portcreate r)) 0x03 r
        (fun s => onPort r 1 vf r.a0.toNat s ∧ onlyFields r.a0 [(0, 16)] = true ∧ s.port? vf r.a0.toNat = none)
        (ports fun m => m.insert (State.spaceKey vf r.a0.toNat) {}) none_)
    ∧ (∀ r vf p, Serves (exec (.portdestroy r)) 0x04 r
        (fun s => s.flips = [] ∧ onPort r 1 vf r.a0.toNat s ∧ onlyFields r.a0 [(0, 16)] = true ∧ s.port? vf r.a0.toNat = some p
          ∧ ∃ t, unpended r vf s = .ok t)
        (fun s => ports (fun m => m.erase (State.spaceKey vf r.a0.toNat)) (reached (unpended r vf s))) none_)
    ∧ (∀ r vf p, Serves (exec (.permwrite r)) 0x05 r
        (fun s => onPort r 3 vf (argBits r.a0 0 16) s ∧ permArgs r ∧ s.port? vf (argBits r.a0 0 16) = some p)
        (fun s => s.modPort vf (argBits r.a0 0 16) fun p => { p with perms := p.perms.insert (argBits r.a0 16 6) (perm r) }) none_)
    ∧ (∀ r q, Serves (exec (.tenantwrite r)) 0x06 r
        (fun s => argsEndAt r 2 = true ∧ onlyFields r.a0 [(0, 8)] = true ∧ numAt (table r s) 18 1 < 2
          ∧ (((table r s).drop 46).all fun b => b == 0) = true ∧ isPf r ∧ s.queue? (tenant r s).qid = some q ∧ mayUse r s q.vf = true
          ∧ open_ s q.vf ∧ (s.work.tenants.get {} r.a0.toNat).flags.getLsbD 0 = false)
        (fun s => { s with work := { s.work with tenants := s.work.tenants.insert r.a0.toNat (tenant r s) } }) none_)
    ∧ (∀ r, Serves (exec (.ringcfg r)) 0x07 r (fun s => ringArgs r ∧ mayUse r s (rVf r) = true ∧ open_ s (rVf r)) (rings r) none_)
    ∧ (∀ r, Refuses (exec (.ringcfg r)) 0x07 r (fun s => ringArgs r ∧ mayUse r s (rVf r) = false) 4)
    ∧ (∀ r, Serves (exec (.asidset r)) 0x08 r
        (fun s => argsEndAt r 2 = true ∧ onlyFields r.a0 [(0, 16), (16, 8)] = true ∧ rootOk r.a1 = true ∧ argBits r.a0 0 16 ≠ 0xFFFF
          ∧ mayUse r s (aVf r) = true)
        (space r) none_)
    ∧ (∀ r, Serves (exec (.s2set r)) 0x09 r
        (fun s => argsEndAt r 2 = true ∧ onlyFields r.a0 [(0, 9)] = true ∧ rootOk r.a1 = true ∧ isPf r ∧ mayUse r s (vfOf r) = true)
        (stage2 r) none_)
    ∧ (∀ r, Serves (exec (.vfassign r)) 0x0A r
        (fun s => argsEndAt r 1 = true ∧ onlyFields r.a0 [(0, 12)] = true ∧ r.caller = .pf 0 ∧ open_ s (vfOf r))
        (fun s => { s with vfs := s.vfs.insert (vfOf r) { s.vfs.get {} (vfOf r) with dev := argBits r.a0 8 4 } }) none_)
    ∧ ∀ r, Serves (exec (.rateset r)) 0x0B r
        (fun s => argsEndAt r 2 = true ∧ onlyFields r.a0 [(0, 5), (8, 8)] = true ∧ onlyFields r.a1 [(0, 16), (24, 16)] = true ∧ isPf r
          ∧ mayUse r s (argBits r.a0 8 8) = true)
        (fun s => { s with sys := { s.sys with limits := s.sys.limits.put 0 (limitKey (argBits r.a0 3 2 * 8 + argBits r.a0 0 3) (argBits r.a0 8 8)) r.a1 } })
        none_

/-- R469, R470, R440 and the rules of the services. -/
def Obligations.ServicesOfWorkAndPackage : Prop :=
  let none_ (_ : State) : List Word64 := []
  let word (n : Nat) : Word64 := BitVec.ofNat 64 n
  let isPf (r : SvcReq) : Prop := fromPf r = true
  let op (r : SvcReq) : Nat := argBits r.a0 0 2
  let slot (r : SvcReq) : Nat := argBits r.a0 16 12
  let kvf (r : SvcReq) : Nat := argBits r.a0 32 8
  let keys (r : SvcReq) (s : State) : Prop :=
    argsEndAt r 1 = true ∧ onlyFields r.a0 [(0, 2), (16, 12), (32, 8)] = true ∧ op r ≠ 3 ∧ isPf r ∧ (s.sys.keys.get {} (slot r)).vf = none
      ∧ (op r = 2 → mayUse r s (kvf r) = true ∧ s.configLocked (kvf r) = false) ∧ (op r ≠ 2 → kvf r = 0)
  let keyed (r : SvcReq) (s : State) : State × Word64 := keyslot s (if op r = 2 then 3 else op r) (slot r) (kvf r)
  let saves (r : SvcReq) (g : Workgroup) (s : State) : Prop :=
    argsEndAt r 3 = true ∧ r.a2.toNat < 4096 ∧ s.wg? r.a0.toNat = some g ∧ mayUse r s g.vf = true ∧ s.sys.saves.find? r.a0.toNat = none
  let restores (r : SvcReq) (s : State) : Prop :=
    s.flips = [] ∧ argsEndAt r 3 = true ∧ onlyFields r.a0 [(0, 5)] = true ∧ r.a2.toNat < 4096 ∧ imageAddrBad s r.a1.toNat = none
      ∧ mayUse r s (numAt (s.bytes (imageKey r s r.a1.toNat + 42) 1) 0 1) = true
  let restored (r : SvcReq) (s : State) : State × Nat × Nat :=
    restoreImage s r.a0.toNat r.a2.toNat (.memory (imageKey r s r.a1.toNat)) (imageKey r s r.a1.toNat)
  let device (r : SvcReq) : Nat := argBits r.a0 0 4
  let home (s : State) (i : HeldImage) : Nat := ((s.wg? i.wg).map (·.cluster)).getD 0
  let back (s : State) (i : HeldImage) : State × Nat × Nat := restoreImage s (home s i) i.slot (.held i.bytes) (2 ^ 52 + i.wg)
  let brought (r : SvcReq) (s : State) : State × Nat :=
    (s.sys.images.filter (·.ld == device r)).foldl (fun (a : State × Nat) i =>
      let t := (back a.1 i).1
      if (back a.1 i).2.1 = 0 then ({ t with sys := { t.sys with images := t.sys.images.erase i } }, a.2 + 1) else a) (s, 0)
  let cluster (r : SvcReq) : Nat := argBits r.a0 0 5
  let inPart (r : SvcReq) (s : State) (c : Nat) : Bool := s.sys.partition.get 0 c == argBits r.a0 0 4
  let killed (r : SvcReq) (s : State) : State :=
    (s.wgs.filter fun g => inPart r s g.2.cluster && !g.2.saved).foldl (fun s g => killWorkgroup s g.1 false) s
  let held (p : Nat → Bool) (e : TlbEntry) : Bool := match e.home with | .core n => p (clusterOf n) | .cluster n => p n
  let cleared (p : Nat → Bool) (s : State) : State :=
    { s with tlb := s.tlb.filter (fun e => !held p e), walkCache := s.walkCache.filter (fun e => !p e.cluster)
             llc := s.llc.filter (fun l => !p (l.slice / 8))
             copies := (s.llc.filter fun l => l.remote && p (l.slice / 8)).foldl
               (fun m l => m.put 0 l.line (m.get 0 l.line &&& ~~~(1#4 <<< (l.slice / 64)))) s.copies }
  let traces (r : SvcReq) (k : Nat) : Prop := argsEndAt r 3 = true ∧ onlyFields r.a0 [(0, 2)] = true ∧ isPf r ∧ op r = k
  let bytes (r : SvcReq) (s : State) : List Byte := s.bytes (hostKey (s.deviceOf r.caller) r.a0.toNat) r.a1.toNat
  let accepted (r : SvcReq) (s : State) : Prop :=
    (firmwareImage (bytes r s)).good = true ∧ (bytes r s).length = 4096 + (firmwareImage (bytes r s)).body.length
      ∧ ∀ d < 4, imageCode (firmwareImage (bytes r s)) (s.pkg.fuseKeys.getD d 0) (s.pkg.fuseSvns.getD d 0) = 0
  (∀ r, Serves (exec (.keyop r)) 0x0C r (keys r) (fun s => (keyed r s).1) fun s => [(keyed r s).2])
    ∧ (∀ r g, ∀ s, s.sys.log.find? (logKey r) = none → r.clean = true → s.pkg.recovery = false → saves r g (taken r s)
        → saveCheck (taken r s) r.a0.toNat r.a1.toNat r.a2.toNat = none
        → exec (.preempt r) s = .next (beginSave (taken r s) r.a0.toNat
            { image := some (memoryKey (taken r s) g.vf r.a1.toNat), slot := r.a2.toNat, svc := some r }))
    ∧ (∀ r g n, Serves (exec (.preempt r)) 0x0D r (fun s => saves r g s ∧ saveCheck s r.a0.toNat r.a1.toNat r.a2.toNat = some n)
        (fun s => s) fun _ => [word n])
    ∧ (∀ r, Serves (exec (.restore r)) 0x0E r (restores r) (fun s => (restored r s).1)
        fun s => [restoreWord (restored r s).2.1 (restored r s).2.2])
    ∧ (∀ r, Serves (exec (.heldrestore r)) 0x0F r
        (fun s => s.flips = [] ∧ argsEndAt r 1 = true ∧ onlyFields r.a0 [(0, 4)] = true ∧ r.caller = .pf (device r) ∧ device r ∈ s.pkg.sessions)
        (fun s => let t := (brought r s).1
          if t.sys.images.any (·.ld == device r) then t else { t with sys := { t.sys with graceEnd := t.sys.graceEnd.erase (device r) } })
        fun s => [word (brought r s).2])
    ∧ (∀ r, Refuses (exec (.heldrestore r)) 0x0F r
        (fun s => s.flips = [] ∧ argsEndAt r 1 = true ∧ onlyFields r.a0 [(0, 4)] = true ∧ (r.caller ≠ .pf (device r) ∨ device r ∉ s.pkg.sessions)) 4)
    ∧ (∀ r g, Serves (exec (.svcWgkill r)) 0x10 r
        (fun s => s.flips = [] ∧ argsEndAt r 2 = true ∧ onlyFields r.a1 [(0, 1)] = true ∧ s.wg? r.a0.toNat = some g ∧ mayUse r s g.vf = true)
        (fun s => killWorkgroup s r.a0.toNat (!r.a1.getLsbD 0)) none_)
    ∧ (∀ r i, Serves (exec (.isobari r)) 0x11 r (fun _ => argsEndAt r 1 = true ∧ i < 15 ∧ r.a0.toNat = 2 ^ (16 + i) ∧ isPf r)
        (fun s => { s with dbg := { s.dbg with interval := r.a0.toNat } }) none_)
    ∧ (∀ r, Serves (exec (.graceset r)) 0x12 r (fun _ => argsEndAt r 1 = true ∧ r.a0.toNat ≤ 60000 ∧ r.caller = .pf 0)
        (fun s => { s with sys := { s.sys with grace := r.a0.toNat } }) none_)
    ∧ (∀ r, Refuses (exec (.graceset r)) 0x12 r (fun _ => argsEndAt r 1 = true ∧ r.a0.toNat ≤ 60000 ∧ r.caller ≠ .pf 0) 4)
    ∧ (∀ r, Serves (exec (.partset r)) 0x13 r
        (fun s => argsEndAt r 1 = true ∧ onlyFields r.a0 [(0, 5), (8, 4)] = true ∧ r.caller = .pf 0 ∧ clusterInUse s (cluster r) = false)
        (fun s => { s with sys := { s.sys with partition := s.sys.partition.put 0 (cluster r) (argBits r.a0 8 4) } }) none_)
    ∧ (∀ r, Occurs (exec (.partreset r))
        (fun s => s.flips = [] ∧ s.sys.log.find? (logKey r) = none ∧ r.clean = true ∧ s.pkg.recovery = false ∧ argsEndAt r 1 = true
          ∧ onlyFields r.a0 [(0, 4)] = true ∧ r.caller = .pf 0)
        fun s t => t = answer (cleared (inPart r s) (killed r (taken r s))) r 0x14 0 [])
    ∧ (∀ r, Serves (exec (.svcTrace r)) 0x15 r (fun _ => traces r 0) (fun s => (enableRing s r.a1.toNat r.a2).1)
        fun s => [word (enableRing s r.a1.toNat r.a2).2])
    ∧ (∀ r, Serves (exec (.svcTrace r)) 0x15 r (fun _ => traces r 1) (fun s => (disableRing s (r.a1.toNat % 512)).1)
        fun s => [(disableRing s (r.a1.toNat % 512)).2])
    ∧ (∀ r, Serves (exec (.svcTrace r)) 0x15 r (fun _ => traces r 2 ∨ traces r 3) (fun s => (selectComparator s (op r == 3) r.a1 r.a2).1)
        fun s => [word (selectComparator s (op r == 3) r.a1 r.a2).2])
    ∧ (∀ r, Serves (exec (.fwupdate r)) 0xF0 r (fun s => argsEndAt r 2 = true ∧ r.caller = .pf 0 ∧ accepted r s)
        (fun s => { s with pkg := { s.pkg with staged := some (bytes r s) } }) none_)
    ∧ ∀ r bs, Happens (exec (.graceset r)) (fun s => s.sys.log.find? (logKey r) = some bs) fun s => sendReply (taken r s) r.caller r.index bs

/-- R12, R174: the effect that an entry states is the whole of its effect. A vector slot that stays in the register cache keeps its words; one
that room was made for is kept by its record (R347). -/
def Obligations.RegisterFrame : Prop :=
  let written (c : Ctx) : List Reg :=
    operandRegs c.path c.f.u (c.f.km.getLsbD 3) c.sh.d c.f.d.toNat
      ++ if c.opc = 0x043 then operandRegs c.path c.f.u (c.f.km.getLsbD 0) c.sh.c c.f.fc.toNat else []
  let floats (c : Ctx) : Prop := 0x0C0 ≤ c.opc ∧ c.opc ≠ 0x0C7
  let warpFrame (c : Ctx) (x : Warp) : Prop :=
    x = { c.warp with regs := x.regs, dirty := x.dirty, lru := x.lru, foehn := x.foehn, issuedAt := x.issuedAt }
      ∧ x.regs = { c.warp.regs with u := x.regs.u, p := x.regs.p, v := x.regs.v, gstat := x.regs.gstat, srst := x.regs.srst
                                    prog := x.regs.prog, paths := x.regs.paths, stack := x.regs.stack }
      ∧ x.regs.prog = c.warp.regs.prog + (if c.f.e then 1 else 0)
      ∧ (¬floats c → x.regs.srst = c.warp.regs.srst ∧ x.regs.gstat = if c.f.e then c.warp.regs.gstat ||| c.cur.held else c.warp.regs.gstat)
      ∧ (∀ n, Reg.uni n ∉ written c → x.regs.uni n = c.warp.regs.uni n)
      ∧ (∀ n, Reg.pred n ∉ written c → x.regs.pred n = c.warp.regs.pred n)
      ∧ (∀ n row, Reg.slot n ∉ written c → x.regs.v.find? n = some row → c.warp.regs.v.find? n = some row)
      ∧ ∀ n row l, l < 32 → c.act.getLsbD l = false → x.regs.v.find? n = some row → row.lane l = (c.warp.regs.row n).lane l
  let frame (c : Ctx) (s t : State) : Prop :=
    t = { s with warps := t.warps, cur := t.cur } ∧ (∀ a, t.byte a = s.byte a) ∧ (∀ w, w ≠ c.w → t.warp? w = s.warp? w)
      ∧ ∃ x, t.warp? c.w = some x ∧ warpFrame c x
  let keeps (run : Run) (opc : Nat) (f : Form) : Prop :=
    ∀ s c t, Ready opc f s c → s.dbg.rings.find? c.warp.core = none → run s = .next t → frame c s t
  let keepsSecond (run : Run) (k0 : Word32) (opc : Nat) (f : Form) : Prop :=
    ∀ s c t, Ready opc f (firstSlot k0 s) c → s.dbg.rings.find? c.warp.core = none → run s = .next t → frame c s t
  let predicates : List (Nat × (RForm → Instr)) :=
    [(0x00D, .pcomb), (0x00E, .pand), (0x00F, .por), (0x010, .pxor), (0x011, .pnot), (0x012, .plop3), (0x013, .pmask), (0x014, .pset), (0x015, .psel)]
  let integers : List (Nat × (RForm → Instr)) :=
    [(0x040, .iadd), (0x041, .isub), (0x042, .isum), (0x043, .icadd), (0x044, .ineg), (0x045, .iabs), (0x046, .imin), (0x047, .imax), (0x048, .imul),
     (0x049, .imulhi), (0x04A, .imad), (0x04B, .imadw), (0x04C, .sad), (0x04D, .idot4), (0x04E, .icmp), (0x04F, .sel), (0x050, .and), (0x051, .or),
     (0x052, .xor), (0x053, .lop3), (0x054, .shl), (0x055, .shr), (0x056, .sar), (0x057, .rot), (0x058, .fshf), (0x059, .bfe), (0x05A, .bfi)]
  let others : List (Nat × (RForm → Instr)) :=
    [(0x05B, .brev), (0x05C, .popc), (0x05D, .clz), (0x05E, .ctz), (0x05F, .mov), (0x061, .lea), (0x062, .lxch), (0x063, .perm), (0x064, .bcast),
     (0x065, .wred), (0x066, .wscan), (0x067, .matchLanes)]
  let floating : List (Nat × (RForm → Instr)) :=
    [(0x0C0, .fadd), (0x0C1, .fsub), (0x0C2, .fmul), (0x0C3, .ffma), (0x0C4, .fmin), (0x0C5, .fmax), (0x0C6, .fcmp), (0x0C7, .fclass), (0x0C8, .frnd),
     (0x0C9, .fldexp), (0x0CA, .fgetexp), (0x0CB, .fdivs), (0x0CC, .frcp), (0x0CD, .frsq), (0x0CE, .fsqrt), (0x0CF, .fexp2), (0x0D0, .flog2),
     (0x0D1, .fsin), (0x0D2, .fcos), (0x0D3, .ftanh), (0x0D4, .hadd2), (0x0D5, .hmul2), (0x0D6, .hfma2), (0x0D7, .hmin2), (0x0D8, .hmax2),
     (0x0D9, .hdot2), (0x0DA, .cvt), (0x0DB, .cvti), (0x0DC, .cvtf), (0x0DD, .cvtp)]
  (∀ x : RForm, (∀ i ∈ predicates, keeps (exec (i.2 x)) i.1 (.r x)) ∧ (∀ i ∈ integers, keeps (exec (i.2 x)) i.1 (.r x))
      ∧ (∀ i ∈ others, keeps (exec (i.2 x)) i.1 (.r x)) ∧ ∀ i ∈ floating, keeps (exec (i.2 x)) i.1 (.r x))
    ∧ (∀ x, keeps (exec (.movi x)) 0x060 (.i x))
    ∧ (∀ g d m i, keepsSecond (exec (.j32Iaddi g d m i)) (i.signExtend 32) 0x040 (.r (j32ImmOp g d m .s32)))
    ∧ (∀ g d m i, keepsSecond (exec (.j32Andi g d m i)) (i.zeroExtend 32) 0x050 (.r (j32ImmOp g d m .z32)))
    ∧ (∀ g d i, keeps (exec (.j32Movi g d i)) 0x060 (.i (j32MoviOp g d i 0)))
    ∧ (∀ g d m n r, keeps (exec (.j32Ffma g d m n r)) 0x0C3 (.r (j32FfmaOp g d m n r .f32)))
    ∧ (∀ d m n, keeps (exec (.j16Iadd d m n)) 0x040 (.r (j16Op d m n .s32)))
    ∧ (∀ d m n, keeps (exec (.j16Fadd d m n)) 0x0C0 (.r (j16Op d m n .f32)))
    ∧ ∀ d m, keeps (exec (.j16Mov d m)) 0x05F (.r (j16Op d m 0 .z32))

/-- R12, R298: at issue a load only reads, and a store is only held. The addresses held are those of the elements' translations; a store that
lies in the publish buffer already stays there. -/
def Obligations.MemoryIssueFrame : Prop :=
  let same (c : Ctx) (x : Warp) : Prop :=
    x.regs = { c.warp.regs with v := x.regs.v, prog := x.regs.prog, paths := x.regs.paths, stack := x.regs.stack, gstat := x.regs.gstat }
      ∧ x.regs.gstat = (if c.f.e then c.warp.regs.gstat ||| c.cur.held else c.warp.regs.gstat)
      ∧ ∀ n row, x.regs.v.find? n = some row → c.warp.regs.v.find? n = some row
  let touched (c : Ctx) (s : State) (uniform : Bool) (n : Nat) : List Nat :=
    (hits s c .write (c.elems uniform)).flatMap fun e => (List.range n).map fun i => e.pa + 4 * i
  let frame (c : Ctx) (s t : State) : Prop :=
    (∀ a, t.byte a = s.byte a) ∧ (∀ w, w ≠ c.w → t.warp? w = s.warp? w) ∧ (∃ x, t.warp? c.w = some x ∧ same c x)
      ∧ t.wgs = s.wgs ∧ t.performed = s.performed ∧ t.sys = s.sys ∧ t.rings = s.rings
  let loads (mk : MForm → Instr) (opc : Nat) (uniform : Bool) (q : Chan) (qual : Ctx → Nat) (align size : Ctx → Nat) : Prop :=
    ∀ x s c, Ready opc (.m x) s c → Reaches s c .read (align c) (c.elems uniform) → Clean s (size c) (hits s c .read (c.elems uniform))
      → (cached c (begun c (prepare c s)) q (qual c) ((hits s c .read (c.elems uniform)).map (·.pa))).isSome = true
      → s.dbg.rings.find? c.warp.core = none
      → ∃ t r, exec (mk x) s = .next t ∧ frame c s t ∧ (t.held.map fun h => (h.wid, h.cells)) = (s.held.map fun h => (h.wid, h.cells)) ∧ t.inflight = s.inflight ++ [r] ∧ r.warp = c.w
          ∧ (∀ e ∈ r.elems, ∃ h ∈ hits s c .read (c.elems uniform), h.lane = e.lane ∧ h.pa ≤ e.pa ∧ e.pa < h.pa + size c)
  let stores (mk : MForm → Instr) (opc : Nat) (uniform : Bool) (next : Ctx → Bool) (count size : Ctx → Nat) (when_ : Ctx → Prop) : Prop :=
    ∀ x s c, Ready opc (.m x) s c → Reaches s c .write (size c) (c.elems uniform) → when_ c → s.dbg.rings.find? c.warp.core = none
      → (entered c (begun c (prepare c s)) (next c) (linesOf (touched c s uniform (count c)))).isSome = true
      → ∃ t, exec (mk x) s = .next t ∧ frame c s t ∧ t.inflight = s.inflight
          ∧ (∀ h ∈ s.held, ∀ b ∈ h.cells, (∃ g ∈ t.held, g.wid = h.wid ∧ b ∈ g.cells)
              ∨ (h.heldBy c.warp.core = true ∧ ∃ e ∈ hits s c .write (c.elems uniform), e.pa ≤ b.1 ∧ b.1 < e.pa + size c))
          ∧ (∀ a, (∃ g ∈ t.held, (∀ h ∈ s.held, h.wid ≠ g.wid) ∧ a ∈ g.cells.map (·.1))
              → ∃ e ∈ hits s c .write (c.elems uniform), e.pa ≤ a ∧ a < e.pa + size c)
  let one (c : Ctx) : Nat := c.esize
  let words (c : Ctx) : Nat := 4 * if c.qa = 0 then 4 else 8
  let plain (_ : Ctx) : Nat := 0
  let keep (_ : Ctx) : Bool := false
  let single (_ : Ctx) : Nat := 1
  let strm (c : Ctx) : Bool := c.qa == 1
  loads .ld 0x180 false .gen (·.qa) one one ∧ loads .ldv 0x182 false .gen plain words words ∧ loads .ldp 0x184 true .gen plain one one
    ∧ loads .ldu 0x186 true .gen plain one one ∧ loads .cld 0x190 false .con (·.qa) one one ∧ loads .cldu 0x191 true .con plain one one
    ∧ stores .st 0x181 false strm single one (fun _ => True) ∧ stores .stv 0x183 false keep (fun c => words c / 4) words (fun _ => True)
    ∧ stores .stp 0x185 true keep single one (fun _ => True) ∧ stores .stu 0x187 true keep single one (fun _ => True)
    ∧ stores .scat 0x189 false strm single one (fun c => restartMask c = 0)

/-- R148, R410, R411, R413, R416: the faults that precede an IOP's own checks, and what a fault saves. -/
def Obligations.FaultsBeforeTheEffect : Prop :=
  let traps (i : Instr) (c : Ctx) (s : State) (code : FaultCode) (info : Word64) : Prop := exec i s = .next (faultAt s c code info)
  let at_ (opc : Nat) (f : Form) (s : State) (c : Ctx) : Prop :=
    s.cur = some c.cur ∧ c.w = c.cur.w ∧ c.p = c.cur.p ∧ s.warp? c.w = some c.warp ∧ c.warp.regs.paths.find? c.p = some c.path
      ∧ c.opc = opc ∧ c.f = f ∧ c.sh = (shape opc f).getD {}
  let pc (c : Ctx) : Word64 := c.path.pc.zeroExtend 64
  let undone (c : Ctx) (r : Regs) : Regs := match c.cur.undo with | none => r | some (p, srst) => { r with p := p, srst := srst }
  let saved (c : Ctx) (code : FaultCode) (info : Word64) : Trap :=
    { code := faultNumber code, info := info, pc := c.path.pc, path := c.p, lmask := c.path.lmask, len := some c.cur.len }
  (∀ i opc f, i.parts = some (opc, f) → ∀ s c, at_ opc f s c →
    (legal opc f = false → traps i c s .illop (pc c))
      ∧ (legal opc f = true → isPrivileged opc = true → c.warp.privileged = false → traps i c s .illpriv 0)
      ∧ (legal opc f = true → c.warp.privileged = true → privilegedSubset opc f c.sh = false → traps i c s .illop (pc c))
      ∧ (legal opc f = true → (isPrivileged opc = true → c.warp.privileged = true) → (c.warp.privileged = true → privilegedSubset opc f c.sh = true)
          → c.act ≠ 0 → ∀ n, beyondWindow c.path (iopRegs c.path f c.sh) = some n →
            if opc = 0x221 ∧ c.warp.producer = false then traps i c s .nocpyright 0 else traps i c s .regbound (BitVec.ofNat 64 n)))
  ∧ ∀ opc f s c code info, at_ opc f s c → c.warp.kind = .ordinary → c.warp.trap = none → s.dbg.rings.find? c.warp.core = none →
      (faultAt s c code info) = { s with warps := (faultAt s c code info).warps, cur := none }
      ∧ (∀ w, w ≠ c.w → (faultAt s c code info).warp? w = s.warp? w)
      ∧ ∃ q, (faultAt s c code info).warp? c.w = some { c.warp with trap := some (saved c code info), leaving := c.warp.faultVa.isSome, regs := { undone c c.warp.regs with paths := q } }
          ∧ q.find? c.p = some { c.path with clause := none, wait := none, notes := [] } ∧ ∀ p, p ≠ c.p → q.find? p = c.warp.regs.paths.find? p

/-- R74. -/
def Obligations.ScalarBitOnlyWhereListed : Prop :=
  let listed (opc : Nat) : Prop :=
    (0x040 ≤ opc ∧ opc ≤ 0x061) ∨ (0x0C0 ≤ opc ∧ opc ≤ 0x0D3) ∨ (0x0DA ≤ opc ∧ opc ≤ 0x0DD) ∨ (0x00E ≤ opc ∧ opc ≤ 0x015)
  (∀ opc f, legal opc f = true → f.u = true → listed opc) ∧ ∀ opc, listed opc → ∃ f : Form, f.u = true ∧ legal opc f = true

/-- R10 and the Reset columns of the register tables; R92. -/
def Obligations.AfterPackageReset : Prop :=
  let s := State.reset
  s.warps = [] ∧ s.wgs = [] ∧ s.work.queues = [] ∧ s.work.grids = [] ∧ s.ui.ports = [] ∧ s.reports = [] ∧ s.dbg.rings = [] ∧ s.cur = none
    ∧ s.pkg.ready = false ∧ s.pkg.recovery = false ∧ s.pkg.code = 0 ∧ s.pkg.dieOk = 0 ∧ s.pkg.svn = 0 ∧ s.pkg.number = 0 ∧ s.pkg.watts = 0
    ∧ s.pkg.limit = 2800
    ∧ (∀ f, s.func f = {}) ∧ (∀ core n, s.comparator core n = {}) ∧ (∀ k, s.sys.limits.get 0 k = 0)
    ∧ (∀ n, (s.personalities.get {} n).resident = decide (n = 0))
    ∧ Memory.wf s.mem = true
    ∧ ({} : Regs).gmode = 1 ∧ ({} : Regs).gstat = 0

/-- R39, R92, R108: what a step runs. How withFetchWord places the word is the model's own (notes/assumptions/8.md). -/
def Obligations.StepRunsTheDecodedInstruction : Prop :=
  let slot (s : State) (k : Cur) (x : Warp) (n : Nat) : State :=
    { s.modPath k.w k.p (learn s x) with cur := some { k with due := false, len := n } }
  (∀ s k x q g w8, s.cur = some k → k.due = true → k.rest = [] → s.warp? k.w = some x → s.path? k.w k.p = some q → breakingComparator s = none
      → fetchAt s k.w k.p x q = .word g w8 → overfull q g = false →
    (∀ i n, g = .row i n → step s = onNext tick (exec i (slot s k x n)))
      ∧ (∀ opc f n i, g = .slots [(opc, f)] n → ofParts opc f = some i → step s = onNext tick (exec i (slot s k x n)))
      ∧ (∀ e, g = .emu e → step s = onNext tick (execEmulationTrap e (slot s k x (e.bits / 8))))
      ∧ ∀ h n, g = .header h n → step s = onNext tick (header h n (w8 % 2 ^ (8 * n)) (s.modPath k.w k.p (learn s x))))
  ∧ ∀ (s : State) nbits w i, decodeTableWord nbits w = some i → breakingComparator (s.withFetchWord nbits w) = none
      → ∃ k x, (s.withFetchWord nbits w).cur = some k ∧ (s.withFetchWord nbits w).warp? k.w = some x
          ∧ step (s.withFetchWord nbits w) = onNext tick (exec i (slot (s.withFetchWord nbits w) k x (nbits / 8)))

/-- The words stand in R57, R160, R166, R193, R279, R239, R418 and chapter 17. -/
def Obligations.SpecWordsDecode : Prop :=
  decodeTableWord 64 0x30E40401020348A1
      = some (.ffma { g := { inv := true, pred := 2 }, d := 4, a := 1, b := 2, c := 3, h := 1, m := 1, t := .f32, cs := true, e := true })
    ∧ decodeTableWord 64 0x189E050300010713 = some (.lxch { d := 5, a := 3, c := 1, t := .z32, ci := true, q := 1, e := true })
    ∧ decodeTableWord 64 0x1984040300000501 = some (.wscan { g := { inv := false, pred := 2 }, d := 4, a := 3, t := .s32, e := true })
    ∧ decodeTableWord 64 0x051E010000000001 = some (.pset { d := 1, e := true })
    ∧ decodeTableWord 64 0x02820000FFFFF001 = some (.loop { g := { inv := false, pred := 1 }, ofs := 0xFFFFF0, e := true })
    ∧ decodeTableWord 64 0x011E101800002001 = some (.call { d := 16, a := 24, ofs := 0x20, e := true })
    ∧ decodeTableWord 64 0x621E0A0603000055 = some (.gath { d := 10, a := 6, b := 3, t := .s32, iv := true, e := true })
    ∧ decodeTableWord 64 0x501E020001064101 = some (.mma { d := 2, a := 0, b := 1, c := 6, sfs := 1, t := .bf16, e := true })
    ∧ decodeTableWord 64 0x9C1E060000410001 = some (.mfsr { d := 6, sel := 0x0041, e := true })
    ∧ decodeTableWord 32 0x69C12000 = some (.j32Ldx 7 1 4 0 0 0)
    ∧ decodeTableWord 32 0x89C00002 = some (.j32Exit 7)
    ∧ decodeTableWord 16 0xA140 = some (.j16Ldx 1 4 0)
    ∧ decodeTableWord 64 0x0000000000000001 = none ∧ decodeTableWord 64 0x051E010000000000 = none

/-- R52-R63, R77-R82, R124, R126: no bit of an encoding is dropped. -/
def Obligations.EncodeThenDecode : Prop :=
  (∀ i nbits w, i.wf = true → encode i = some (nbits, w) → w < 2 ^ nbits ∧ decodeTableWord nbits w = some i)
    ∧ (∀ i opc f, i.parts = some (opc, f) → ∃ w, encode i = some (64, w))
    ∧ ∀ i j p, i.wf = true → j.wf = true → encode i = some p → encode j = some p → i = j

/-- R143, R342: oldest first is decided on ages that are current. That ages are kept in this form is the model's choice (notes/assumptions/2.md). -/
def Obligations.NotesAreCurrentAfterEveryStep : Prop :=
  let current (s : State) : Prop :=
    ∀ n ∈ s.warps, (activatable s n.1 n.2 = n.2.waitingSince.isSome)
      ∧ ∀ p ∈ n.2.regs.paths, competes s n.1 p.1 n.2 p.2 = p.2.age.isSome
  ∀ s t, step s = .next t → ∃ u, current u ∧ t = { u with clock := t.clock, fresh := u.fresh + 1 } ∧ u.clock < t.clock

/-- The invariant of NotesAreCurrentAfterEveryStep at reset. -/
def Obligations.NotesAreCurrentAtReset : Prop :=
  let s := State.reset
  ∀ n ∈ s.warps, (activatable s n.1 n.2 = n.2.waitingSince.isSome) ∧ ∀ p ∈ n.2.regs.paths, competes s n.1 p.1 n.2 p.2 = p.2.age.isSome
end

