-- ==== Sys2Proof/Laws/Issue.lean ====
section
/-!
SUPPORT. What the frame of every IOP does, said once: a ready IOP issues, and its run is its body on the prepared state.
-/

namespace Sys2Proof.Machine

/-- A ready IOP issues. -/
theorem issue_of_ready {opc : Nat} {f : Form} {s : State} {c : Ctx} (h : Ready opc f s c) : issue opc f s = some (.go c) := by
  obtain ⟨hcur, hw, hp, hwarp, hpath, hopc, hf, hsh, hlegal, hpriv, hsub, hwin, hbusy, hheld⟩ := h
  obtain ⟨w, p, warp, path, cur, opc', f', sh⟩ := c
  simp only at hcur hw hp hwarp hpath hopc hf hsh hlegal hpriv hsub hwin hbusy hheld
  subst hopc hf hsh hw hp
  have h1 : (if Ctx.act ⟨cur.w, cur.p, warp, path, cur, opc', f', (shape opc' f').getD {}⟩ = 0 then none
      else beyondWindow path (iopRegs path f' ((shape opc' f').getD {}))) = none := by
    split
    · rfl
    · exact hwin ‹_›
  have h2 : (iopRegs path f' ((shape opc' f').getD {})).filter (busyRegs s cur.w).contains = [] := by
    rw [List.filter_eq_nil_iff]
    intro r hr
    simpa using hbusy r hr
  have h3 : (if Ctx.act ⟨cur.w, cur.p, warp, path, cur, opc', f', (shape opc' f').getD {}⟩ = 0 then []
      else (neededSlots path f' ((shape opc' f').getD {})).filter fun n => !warp.holds n) = [] := by
    split
    · rfl
    · rw [List.filter_eq_nil_iff]
      intro n hn
      simp [hheld ‹_› n hn]
  simp only [issue, hcur, hwarp, hpath, hlegal, h1, h2, h3]
  by_cases hp' : warp.privileged = true
  · simp [hp', hsub hp']
  · have : isPrivileged opc' = false := by
      cases h : isPrivileged opc' <;> simp_all
    simp [hp', this]

/-- A ready IOP runs its body on the prepared state. -/
theorem runIop_ready {opc : Nat} {f : Form} {body : Ctx → State → Res} {s : State} {c : Ctx} (h : Ready opc f s c) :
    runIop opc f body s = .next (finish c s (body c (prepare c s))) := by
  simp only [runIop, issue_of_ready h]

/-- An IOP whose body is done with the effect completes with it. -/
theorem completes_of_body {opc : Nat} {f : Form} {body : Ctx → State → Res} {when_ : Ctx → State → Prop} {next : Ctx → State → State}
    (h : ∀ s c, Ready opc f s c → when_ c s → body c (prepare c s) = .done (next c (prepare c s))) :
    Completes (runIop opc f body) opc f when_ next := by
  intro s c hr hw
  rw [runIop_ready hr, h s c hr hw]
  rfl

/-- An IOP whose body has placed its paths completes with the transfer. -/
theorem transfers_of_body {opc : Nat} {f : Form} {body : Ctx → State → Res} {when_ : Ctx → State → Prop} {next : Ctx → State → State}
    (h : ∀ s c, Ready opc f s c → when_ c s → body c (prepare c s) = .moved (next c (prepare c s))) :
    Transfers (runIop opc f body) opc f when_ next := by
  intro s c hr hw
  rw [runIop_ready hr, h s c hr hw]
  rfl

/-- An IOP whose body waits has its effect and leaves its path waiting. -/
theorem waits_of_body {opc : Nat} {f : Form} {body : Ctx → State → Res} {when_ : Ctx → State → Prop} {next : Ctx → State → State}
    {wait : Ctx → State → Wait}
    (h : ∀ s c, Ready opc f s c → when_ c s → body c (prepare c s) = .wait (next c (prepare c s)) (wait c (prepare c s))) :
    Waits (runIop opc f body) opc f when_ next wait := by
  intro s c hr hw
  rw [runIop_ready hr, h s c hr hw]

/-- An IOP whose body traps takes the fault on the state before it. -/
theorem faults_of_body {opc : Nat} {f : Form} {body : Ctx → State → Res} {when_ : Ctx → State → Prop} {code : FaultCode}
    {info : Ctx → State → Word64}
    (h : ∀ s c, Ready opc f s c → when_ c s → body c (prepare c s) = .trap code (info c s)) :
    Faults (runIop opc f body) opc f when_ code info := by
  intro s c hr hw
  rw [runIop_ready hr, h s c hr hw]
  rfl

end Sys2Proof.Machine
end

