-- ==== Sys2Proof/Laws/Access.lean ====
section
/-!
SUPPORT. What the shared operations of memory operands, descriptors and the engine queue answer where nothing stands in their way.
-/

namespace Sys2Proof.Machine

/-- Preparing an IOP changes only warps. -/
theorem prepare_eq (c : Ctx) (s : State) : prepare c s = { s with warps := (prepare c s).warps } := by
  simp only [prepare, State.modWarp]

/-- An element that a TLB serves is translated. -/
theorem scanElem_of_hit {s : State} {c : Ctx} {kind : Access} {d : List Access2} {e : Access1} {x : Access2} (h : hit s c kind e = some x) :
    scanElem s c kind { done := d } e = { done := d ++ [x] } := by
  unfold hit at h
  split at h
  · rename_i heq
    cases h
    simp [scanElem, heq]
  · cases h

/-- Elements that a TLB serves are all translated. -/
theorem scanElems_of_hits {s : State} {c : Ctx} {kind : Access} (es : List Access1) (h : (es.all fun e => (hit s c kind e).isSome) = true) :
    scanElems s c kind es = { done := hits s c kind es } := by
  have all : ∀ (es : List Access1) (d : List Access2), (es.all fun e => (hit s c kind e).isSome) = true →
      es.foldl (scanElem s c kind) { done := d } = { done := d ++ hits s c kind es } := by
    intro es
    induction es with
    | nil => simp [hits]
    | cons e xs ih =>
      intro d h
      simp only [List.all_cons, Bool.and_eq_true] at h
      obtain ⟨x, hx⟩ := Option.isSome_iff_exists.1 h.1
      rw [List.foldl_cons, scanElem_of_hit hx, ih _ h.2]
      simp [hits, hx]
  simpa [scanElems] using all es [] h

/-- Elements that a TLB serves reach the rest of the instruction. -/
theorem translateAll_of_hits {s : State} {c : Ctx} {kind : Access} {request : Bool} {es : List Access1} {f : List Access2 → Res}
    (h : (es.all fun e => (hit s c kind e).isSome) = true) : translateAll s c kind request es f = f (hits s c kind es) := by
  simp [translateAll, scanElems_of_hits es h]

/-- Lines that enter L1 let the access go on. -/
theorem withL1_of_entered {c : Ctx} {s t : State} {next : Bool} {lines : List Nat} {f : State → Res} (h : entered c s next lines = some t) :
    withL1 c s next lines f = f t := by
  unfold entered at h
  unfold withL1
  split at h
  · rename_i t' ht
    cases h
    simp only [ht]
  · rename_i hne
    rcases hr : l1FillAll s c.warp.core next lines with ⟨t', _ | _⟩
    · exact absurd hr (hne t')
    · simp only [hr]
      dsimp only at h
      split at h
      · rename_i hp
        cases h
        simp only [hp]
      · cases h

/-- Lines that enter the caches let a weak read go on. -/
theorem withLines_of_cached {c : Ctx} {s t : State} {q : Chan} {qual : Nat} {pas : List Nat} {f : State → Res}
    (h : cached c s q qual pas = some t) : withLines c s q qual pas f = f t := by
  unfold cached at h
  unfold withLines
  cases q <;> simp at h ⊢ <;> first
    | (cases h; rfl)
    | (split at h
       · rename_i hq
         cases h
         simp [hq]
       · rename_i hq
         simp only [if_neg hq]
         exact withL1_of_entered h)

/-- An access whose body is done with the effect completes with it. -/
theorem accesses_of_body {opc : Nat} {f : Form} {body : Ctx → State → Res} {when_ : Ctx → State → Prop} {next : Ctx → State → State}
    (h : ∀ s c, when_ c s → body c s = .done (next c s)) : Accesses (runIop opc f (afterOverflow body)) opc f when_ next := by
  intro s c hr hw
  rw [runIop_ready hr]
  unfold begun at hw
  unfold begun afterOverflow
  split at hw <;> simp only [*] at hw ⊢ <;> simp [Completed, finish]

/-- A descriptor's bytes reach the rest of the instruction. -/
theorem fetchBytes_of_fetched {c : Ctx} {s : State} {va n : Nat} {f : State → List Byte → Res} {r : State × List Byte}
    (h : fetched c s va n = some r) : fetchBytes c s va n f = f r.1 r.2 := by
  unfold fetched at h
  split at h
  · cases h
  · rename_i hva
    simp only [Option.bind_eq_some_iff] at h
    obtain ⟨x, hx, h⟩ := h
    split at h
    · cases h
    · rename_i hp
      simp only [Option.map_eq_some_iff] at h
      obtain ⟨t, ht, rfl⟩ := h
      have hall : (([{ lane := c.lane0, va := va }] : List Access1).all fun e => (hit s c .read e).isSome) = true := by simp [hx]
      have hh : hits s c .read [{ lane := c.lane0, va := va }] = [x] := by simp [hits, hx]
      simp only [fetchBytes, if_neg hva, translateAll_of_hits hall, hh, List.head?_cons]
      simp [hp, withLines_of_cached ht]

/-- A legal descriptor reaches the rest of the instruction. -/
theorem loadDesc_of_described {c : Ctx} {s : State} {va : Nat} {t : Option ElemType} {f : State → List Byte × List Byte → Res}
    {r : State × (List Byte × List Byte)} (h : described c s va t = some r) : loadDesc c s va t f = f r.1 r.2 := by
  unfold described at h
  unfold loadDesc
  split at h
  · rename_i d hd
    split at h
    · cases h
    · rename_i hc
      cases h
      simp only [not_or, Bool.not_eq_true, Ne, Decidable.not_not] at hc
      simp [hd, hc.1, hc.2]
  · rename_i hd
    simp only [Option.bind_eq_some_iff] at h
    obtain ⟨b, hb, h⟩ := h
    simp only [hd]
    rw [fetchBytes_of_fetched hb]
    split at h
    · cases h
    · rename_i hc
      have hc' : descCheck b.2 t = none := by simpa using hc
      simp only [hc']
      split at h
      · rename_i h4
        simp only [Option.bind_eq_some_iff] at h
        obtain ⟨k, hk, h⟩ := h
        simp only [h4, beq_self_eq_true, if_true]
        rw [fetchBytes_of_fetched hk]
        split at h
        · cases h
        · rename_i hb'
          cases h
          simp [hb']
      · rename_i h4
        cases h
        simp [h4]

/-- With room for it, an operation enters the engine queue. -/
theorem queueOp_of_room {c : Ctx} {s : State} {kind : EngineKind} {batch : Bool} {need : List (Nat × Nat)} (h : Room c s) :
    queueOp c s kind batch need = .done (enqueued kind batch need c s) := by
  obtain ⟨h1, h2⟩ := h
  simp only [queueOp, if_neg (Nat.not_le.2 h1), h2, enqueued]

/-- With no entry free, an operation waits for one. -/
theorem queueOp_of_full {c : Ctx} {s : State} {kind : EngineKind} {batch : Bool} {need : List (Nat × Nat)}
    (h : 32 ≤ (s.eng.queue.filter (·.core == c.warp.core)).length) : queueOp c s kind batch need = .wait s .engineRoom := by
  simp only [queueOp, if_pos h]

end Sys2Proof.Machine
end

