-- ==== Sys2Proof/Laws/Map.lean ====
section
/-!
SUPPORT. Reading a sparse map after a change, and the canonical form.
-/

namespace Sys2Proof.Machine

namespace SMap

variable {α : Type}

/-! ### Reading after a change -/

@[simp] theorem find?_nil (i : Nat) : find? ([] : SMap α) i = none := rfl

theorem find?_cons (k : Nat) (v : α) (m : SMap α) (i : Nat) : find? ((k, v) :: m) i = if i = k then some v else find? m i := rfl

/-- The entry that was put in, and the others as before. -/
theorem find?_insert (m : SMap α) (i : Nat) (x : α) (j : Nat) : find? (insert m i x) j = if j = i then some x else find? m j := by
  induction m with
  | nil => simp [insert, find?_cons]
  | cons kv m ih =>
    obtain ⟨k, v⟩ := kv
    simp only [insert]
    split
    · simp [find?_cons]
    · split
      · subst_vars
        simp only [find?_cons]
        split <;> rfl
      · simp only [find?_cons, ih]
        split
        · split
          · omega
          · rfl
        · rfl

@[simp] theorem find?_insert_self (m : SMap α) (i : Nat) (x : α) : find? (insert m i x) i = some x := by simp [find?_insert]

theorem find?_insert_of_ne {m : SMap α} {i j : Nat} {x : α} (h : j ≠ i) : find? (insert m i x) j = find? m j := by simp [find?_insert, h]

/-- A filter on keys keeps the entries of the keys that it admits. -/
theorem find?_filter_key (m : SMap α) (p : Nat → Bool) (i : Nat) :
    find? (m.filter fun kv => p kv.1) i = if p i then find? m i else none := by
  induction m with
  | nil => simp
  | cons kv m ih =>
    obtain ⟨k, v⟩ := kv
    simp only [List.filter_cons]
    by_cases hk : p k = true
    · simp only [hk, if_true, find?_cons, ih]
      by_cases hi : i = k
      · simp [hi, hk]
      · simp [hi]
    · rw [if_neg hk, ih, find?_cons]
      by_cases hi : i = k
      · subst hi; simp [hk]
      · simp [hi]

theorem find?_erase (m : SMap α) (i j : Nat) : find? (erase m i) j = if j = i then none else find? m j := by
  have := find?_filter_key m (fun k => k != i) j
  by_cases h : j = i <;> simp_all [erase]

@[simp] theorem find?_erase_self (m : SMap α) (i : Nat) : find? (erase m i) i = none := by simp [find?_erase]

theorem find?_clear (m : SMap α) (lo hi i : Nat) : find? (clear m lo hi) i = if lo ≤ i ∧ i < hi then none else find? m i := by
  have := find?_filter_key m (fun k => decide (k < lo) || decide (hi ≤ k)) i
  rw [clear, this]
  by_cases h : lo ≤ i ∧ i < hi
  · simp [h, Nat.not_lt.mpr h.1]
  · have : i < lo ∨ hi ≤ i := by omega
    simp [this, h]

/-- The value that was put in, and the others as before; the default leaves no entry. -/
theorem get_put [DecidableEq α] (d : α) (m : SMap α) (i : Nat) (x : α) (j : Nat) : get d (put d m i x) j = if j = i then x else get d m j := by
  unfold put get
  split
  · subst_vars; rw [find?_erase]; split <;> rfl
  · rw [find?_insert]; split <;> rfl

@[simp] theorem get_put_self [DecidableEq α] (d : α) (m : SMap α) (i : Nat) (x : α) : get d (put d m i x) i = x := by simp [get_put]

theorem get_put_of_ne [DecidableEq α] {d : α} {m : SMap α} {i j : Nat} {x : α} (h : j ≠ i) : get d (put d m i x) j = get d m j := by
  simp [get_put, h]

theorem get_insert (d : α) (m : SMap α) (i : Nat) (x : α) (j : Nat) : get d (insert m i x) j = if j = i then x else get d m j := by
  unfold get; rw [find?_insert]; split <;> rfl

theorem find?_adjust (m : SMap α) (i : Nat) (f : α → α) (j : Nat) :
    find? (adjust m i f) j = if j = i then (find? m i).map f else find? m j := by
  unfold adjust
  split
  · rename_i v h; rw [find?_insert]; split <;> simp_all
  · rename_i h; split <;> simp_all

@[simp] theorem find?_adjust_self (m : SMap α) (i : Nat) (f : α → α) : find? (adjust m i f) i = (find? m i).map f := by simp [find?_adjust]

theorem find?_adjust_of_ne {m : SMap α} {i j : Nat} {f : α → α} (h : j ≠ i) : find? (adjust m i f) j = find? m j := by simp [find?_adjust, h]

/-! ### The canonical form -/

theorem risingFrom_mono {m : SMap α} {lo lo' : Nat} (h : lo' ≤ lo) (hm : risingFrom lo m = true) : risingFrom lo' m = true := by
  cases m with
  | nil => rfl
  | cons kv m =>
    simp only [risingFrom, Bool.and_eq_true, decide_eq_true_eq] at *
    exact ⟨h.trans hm.1, hm.2⟩

theorem risingFrom_insert {m : SMap α} {lo i : Nat} {x : α} (hi : lo ≤ i) (hm : risingFrom lo m = true) :
    risingFrom lo (insert m i x) = true := by
  induction m generalizing lo with
  | nil => simp [insert, risingFrom, hi]
  | cons kv m ih =>
    obtain ⟨k, v⟩ := kv
    simp only [risingFrom, Bool.and_eq_true, decide_eq_true_eq] at hm
    simp only [insert]
    split
    · simp only [risingFrom, Bool.and_eq_true, decide_eq_true_eq]
      exact ⟨hi, by omega, hm.2⟩
    · split
      · subst_vars; simp only [risingFrom, Bool.and_eq_true, decide_eq_true_eq]; exact ⟨hi, hm.2⟩
      · simp only [risingFrom, Bool.and_eq_true, decide_eq_true_eq]
        exact ⟨hm.1, ih (by omega) hm.2⟩

theorem risingFrom_filter {m : SMap α} {lo : Nat} (p : Nat × α → Bool) (hm : risingFrom lo m = true) : risingFrom lo (m.filter p) = true := by
  induction m generalizing lo with
  | nil => rfl
  | cons kv m ih =>
    obtain ⟨k, v⟩ := kv
    simp only [risingFrom, Bool.and_eq_true, decide_eq_true_eq] at hm
    simp only [List.filter_cons]
    split
    · simp only [risingFrom, Bool.and_eq_true, decide_eq_true_eq]; exact ⟨hm.1, ih hm.2⟩
    · exact risingFrom_mono (by omega) (ih hm.2)

theorem mem_insert {m : SMap α} {i : Nat} {x : α} {kv : Nat × α} (h : kv ∈ insert m i x) : kv = (i, x) ∨ kv ∈ m := by
  induction m with
  | nil => simpa [insert] using h
  | cons a m ih =>
    obtain ⟨k, v⟩ := a
    simp only [insert] at h
    split at h
    · simpa using h
    · split at h
      · rcases List.mem_cons.1 h with h | h
        · exact .inl h
        · exact .inr (List.mem_cons_of_mem _ h)
      · rcases List.mem_cons.1 h with h | h
        · exact .inr (h ▸ List.mem_cons_self)
        · exact (ih h).imp id (List.mem_cons_of_mem _)

theorem wf_filter [DecidableEq α] {d : α} {m : SMap α} (p : Nat × α → Bool) (h : wf d m = true) : wf d (m.filter p) = true := by
  simp only [wf, Bool.and_eq_true, List.all_eq_true] at *
  exact ⟨risingFrom_filter p h.1, fun kv hkv => h.2 kv (List.mem_of_mem_filter hkv)⟩

/-- Writing keeps the canonical form. -/
theorem wf_put [DecidableEq α] {d : α} {m : SMap α} (i : Nat) (x : α) (h : wf d m = true) : wf d (put d m i x) = true := by
  unfold put
  split
  · exact wf_filter _ h
  · rename_i hx
    simp only [wf, Bool.and_eq_true, List.all_eq_true] at *
    refine ⟨risingFrom_insert (Nat.zero_le _) h.1, fun kv hkv => ?_⟩
    rcases mem_insert hkv with rfl | hkv
    · simpa using hx
    · exact h.2 kv hkv

/-- Clearing a range keeps the canonical form. -/
theorem wf_clear [DecidableEq α] {d : α} {m : SMap α} (lo hi : Nat) (h : wf d m = true) : wf d (clear m lo hi) = true := wf_filter _ h

end SMap

namespace NSet

theorem mem_insert (s : NSet) (i j : Nat) : j ∈ insert s i ↔ j = i ∨ j ∈ s := by
  induction s with
  | nil => simp [insert]
  | cons k s ih =>
    simp only [insert]
    split
    · simp
    · split
      · subst_vars; simp
      · simp only [List.mem_cons, ih]; tauto

theorem mem_insertAll (s : NSet) (xs : List Nat) (j : Nat) : j ∈ insertAll s xs ↔ j ∈ s ∨ j ∈ xs := by
  induction xs generalizing s with
  | nil => simp [insertAll]
  | cons x xs ih =>
    have : insertAll s (x :: xs) = insertAll (insert s x) xs := rfl
    rw [this, ih, mem_insert]
    simp only [List.mem_cons]; tauto

theorem mem_erase (s : NSet) (i j : Nat) : j ∈ erase s i ↔ j ∈ s ∧ j ≠ i := by simp [erase]

end NSet

end Sys2Proof.Machine
end

