-- ==== Sys2Proof/Laws/Memory.lean ====
section
/-!
SUPPORT. Physical memory: what a byte reads as after a write, what a write leaves as it was, and the canonical form.
-/

namespace Sys2Proof.Machine

namespace State

/-! ### One byte -/

theorem byte_setByte (s : State) (a : Nat) (b : Byte) (i : Nat) : (s.setByte a b).byte i = if i = a then b else s.byte i :=
  SMap.get_put emptyByte s.mem a b i

@[simp] theorem byte_setByte_self (s : State) (a : Nat) (b : Byte) : (s.setByte a b).byte a = b := by simp [byte_setByte]

/-! ### Cells -/

theorem setCells_cons (s : State) (c : Host.Cell) (cs : List Host.Cell) : s.setCells (c :: cs) = (s.setByte c.1 c.2).setCells cs := rfl

@[simp] theorem setCells_nil (s : State) : s.setCells [] = s := rfl

/-- A byte after cells have been written: the last cell of its address, or what it read before. -/
theorem byte_setCells (s : State) (cs : List Host.Cell) (a : Nat) :
    (s.setCells cs).byte a = ((cs.reverse.find? (·.1 == a)).map (·.2)).getD (s.byte a) := by
  induction cs generalizing s with
  | nil => simp
  | cons c cs ih =>
    rw [setCells_cons, ih, List.reverse_cons, List.find?_append, byte_setByte]
    cases cs.reverse.find? (·.1 == a) with
    | some _ => rfl
    | none =>
      by_cases h : c.1 = a
      · subst h; simp
      · simp [h, Ne.symm h]

theorem byte_setCells_of_not_mem {s : State} {cs : List Host.Cell} {a : Nat} (h : ∀ c ∈ cs, c.1 ≠ a) : (s.setCells cs).byte a = s.byte a := by
  rw [byte_setCells, List.find?_eq_none.2]
  · rfl
  · intro c hc; simpa using h c (List.mem_reverse.1 hc)

/-- A field of the state that writing a byte leaves alone is left alone by writing cells. -/
theorem setCells_keeps {α : Type} (f : State → α) (h : ∀ s a b, f (setByte s a b) = f s) (s : State) (cs : List Host.Cell) :
    f (s.setCells cs) = f s := by
  induction cs generalizing s with
  | nil => rfl
  | cons c cs ih => rw [setCells_cons, ih, h]

/-! ### Runs of bytes -/

/-- The byte at an offset of the bytes that were written. -/
theorem byte_setCells_cellsAt (s : State) (a : Nat) (bs : List Byte) (i : Nat) :
    (s.setCells (cellsAt a bs)).byte i = if a ≤ i ∧ i < a + bs.length then bs.getD (i - a) 0 else s.byte i := by
  have hm : ∀ c : Host.Cell, c ∈ cellsAt a bs ↔ ∃ j, j < bs.length ∧ c = (a + j, bs.getD j 0) := by
    intro c
    simp only [cellsAt, List.mem_map]
    constructor
    · rintro ⟨⟨j, b⟩, hj, rfl⟩
      obtain ⟨k, hk, hk'⟩ := List.mem_iff_getElem.1 hj
      simp only [List.length_zip, List.length_range, min_self] at hk
      simp only [List.getElem_zip, List.getElem_range, Prod.mk.injEq] at hk'
      exact ⟨k, hk, by simp [← hk'.1, ← hk'.2, List.getD_eq_getElem?_getD, hk]⟩
    · rintro ⟨j, hj, rfl⟩
      refine ⟨(j, bs.getD j 0), ?_, rfl⟩
      rw [List.mem_iff_getElem]
      exact ⟨j, by simp [hj], by simp [List.getD_eq_getElem?_getD, hj]⟩
  by_cases h : a ≤ i ∧ i < a + bs.length
  · rw [if_pos h, byte_setCells]
    cases hf : (cellsAt a bs).reverse.find? (·.1 == i) with
    | none =>
      rw [List.find?_eq_none] at hf
      exact absurd (by simp; omega) (hf (a + (i - a), bs.getD (i - a) 0) (List.mem_reverse.2 ((hm _).2 ⟨i - a, by omega, rfl⟩)))
    | some c =>
      have h1 := List.find?_some hf
      obtain ⟨j, hj, rfl⟩ := (hm c).1 (List.mem_reverse.1 (List.mem_of_find?_eq_some hf))
      simp only [beq_iff_eq] at h1
      simp only [Option.map_some, Option.getD_some]
      congr 1; omega
  · rw [if_neg h]
    refine byte_setCells_of_not_mem fun c hc => ?_
    obtain ⟨j, hj, rfl⟩ := (hm c).1 hc
    simp only; omega

theorem setBytes_eq (s : State) (a : Nat) (bs : List Byte) : s.setBytes a bs = s.setCells (cellsAt a bs) := rfl

theorem byte_setBytes (s : State) (a : Nat) (bs : List Byte) (i : Nat) :
    (s.setBytes a bs).byte i = if a ≤ i ∧ i < a + bs.length then bs.getD (i - a) 0 else s.byte i := byte_setCells_cellsAt s a bs i

/-- Bytes that have been written read back. -/
theorem bytes_setBytes (s : State) (a : Nat) (bs : List Byte) : (s.setBytes a bs).bytes a bs.length = bs := by
  apply List.ext_getElem
  · simp [bytes]
  · intro i h1 h2
    simp [bytes, byte_setBytes, h2, List.getD_eq_getElem?_getD]

theorem get_clear (s : State) (pa n i : Nat) :
    SMap.get emptyByte (SMap.clear s.mem pa (pa + n)) i = if pa ≤ i ∧ i < pa + n then emptyByte else s.byte i := by
  unfold SMap.get; rw [SMap.find?_clear]; split <;> rfl

/-! ### The canonical form -/

theorem wf_setByte {s : State} (a : Nat) (b : Byte) (h : Memory.wf s.mem = true) : Memory.wf (s.setByte a b).mem = true := SMap.wf_put a b h

theorem wf_setCells {s : State} (cs : List Host.Cell) (h : Memory.wf s.mem = true) : Memory.wf (s.setCells cs).mem = true := by
  induction cs generalizing s with
  | nil => exact h
  | cons c cs ih => exact ih (wf_setByte _ _ h)

theorem wf_setBytes {s : State} (a : Nat) (bs : List Byte) (h : Memory.wf s.mem = true) : Memory.wf (s.setBytes a bs).mem = true := wf_setCells _ h

theorem wf_writeLe {s : State} (a n x : Nat) (h : Memory.wf s.mem = true) : Memory.wf (s.writeLe a n x).mem = true := wf_setBytes _ _ h

end State

/-! ### Numbers in bytes -/

@[simp] theorem length_leBytes (n x : Nat) : (leBytes n x).length = n := by
  induction n generalizing x with
  | zero => rfl
  | succ n ih => simp [leBytes, ih]

/-- The little-endian bytes of a number give it back. -/
theorem leNat_leBytes (n x : Nat) : leNat (leBytes n x) = x % 256 ^ n := by
  induction n generalizing x with
  | zero => simp [leBytes, leNat, Nat.mod_one]
  | succ n ih =>
    simp only [leBytes, leNat, ih, BitVec.toNat_ofNat]
    rw [show (2 : Nat) ^ 8 = 256 from rfl, Nat.pow_succ, Nat.mul_comm (256 ^ n) 256, Nat.mod_mul]

/-- A number that has been written reads back, modulo its size. -/
theorem readLe_writeLe (s : State) (a n x : Nat) : (s.writeLe a n x).readLe a n = x % 256 ^ n := by
  have := State.bytes_setBytes s a (leBytes n x)
  rw [length_leBytes] at this
  unfold State.readLe State.writeLe
  rw [this, leNat_leBytes]

/-! ### Caches -/

/-- A line that enters a slice changes the LLC's lines and the masks of copies, and nothing else. -/
theorem llcFill_keeps {α : Type} (f : State → α) (h : ∀ s l c, f { s with llc := l, copies := c } = f s) (s : State) (slice line : Nat)
    (remote : Bool) : f (llcFill s slice line remote) = f s := by
  unfold llcFill
  split
  · rfl
  · simp only
    split
    · exact h s _ s.copies
    · split
      · rfl
      · split
        · rfl
        · exact h s _ _

/-- The lines of a store change the LLC's lines and the masks of copies, and nothing else. -/
theorem llcWrite_keeps {α : Type} (f : State → α) (h : ∀ s l c, f { s with llc := l, copies := c } = f s) (s : State) (lines : List Nat) :
    f (llcWrite s lines) = f s := by
  have fill : ∀ (ls : List Nat) (t : State),
      f (ls.foldl (fun s l => if dramLine l then llcFill s (64 * homeDie l + stopIndex l) l false else s) t) = f t := by
    intro ls
    induction ls with
    | nil => intro t; rfl
    | cons l ls ih =>
      intro t
      rw [List.foldl_cons, ih]
      split
      · exact llcFill_keeps f h t _ l false
      · rfl
  exact (fill lines _).trans (h s _ _)

@[simp] theorem mem_llcWrite (s : State) (lines : List Nat) : (llcWrite s lines).mem = s.mem := llcWrite_keeps (·.mem) (fun _ _ _ => rfl) s lines

@[simp] theorem byte_llcWrite (s : State) (lines : List Nat) (a : Nat) : (llcWrite s lines).byte a = s.byte a := by
  simp only [State.byte, mem_llcWrite]

/-! ### Writes that perform -/

/-- A write that performs changes exactly its bytes. -/
theorem byte_perform (s : State) (wid : Nat) (core : Option Nat) (warp : Nat) (lanes : BitVec 32) (seq : Nat) (chan : Chan) (scope : Scope)
    (base size : Nat) (cells : List Host.Cell) (a : Nat) :
    (perform s wid core warp lanes seq chan scope base size cells).byte a = ((cells.reverse.find? (·.1 == a)).map (·.2)).getD (s.byte a) := by
  rw [← byte_llcWrite s (NSet.insertAll [] (cells.map (·.1 / 64))) a]
  exact State.byte_setCells _ cells a

/-- A write that performs changes memory, the coherence orders, poison, the LLC's lines and the masks of copies, and nothing else. -/
theorem perform_keeps {α : Type} (f : State → α)
    (h : ∀ s m p q l c, f { s with mem := m, performed := p, poison := q, llc := l, copies := c } = f s) (s : State) (wid : Nat)
    (core : Option Nat) (warp : Nat) (lanes : BitVec 32) (seq : Nat) (chan : Chan) (scope : Scope) (base size : Nat) (cells : List Host.Cell) :
    f (perform s wid core warp lanes seq chan scope base size cells) = f s := by
  have h1 : ∀ s a b, f (State.setByte s a b) = f s :=
    fun s a b => h s (SMap.put emptyByte s.mem a b) s.performed s.poison s.llc s.copies
  let t := State.setCells (llcWrite s (NSet.insertAll [] (cells.map (·.1 / 64)))) cells
  exact (h t t.mem _ _ t.llc t.copies).trans ((State.setCells_keeps f h1 _ cells).trans
    (llcWrite_keeps f (fun s l c => h s s.mem s.performed s.poison l c) s _))

theorem wf_perform {s : State} (wid : Nat) (core : Option Nat) (warp : Nat) (lanes : BitVec 32) (seq : Nat) (chan : Chan) (scope : Scope)
    (base size : Nat) (cells : List Host.Cell) (h : Memory.wf s.mem = true) :
    Memory.wf (perform s wid core warp lanes seq chan scope base size cells).mem = true :=
  State.wf_setCells (s := llcWrite s _) cells (by rw [mem_llcWrite]; exact h)

/-- An agent's write changes exactly its bytes. -/
theorem byte_agentWrite (s : State) (a : Nat) (bs : List Byte) (warp : Nat) (chan : Chan) (i : Nat) :
    (agentWrite s a bs warp chan).byte i = if a ≤ i ∧ i < a + bs.length then bs.getD (i - a) 0 else s.byte i := by
  have h := State.byte_setCells_cellsAt { s with nextId := s.nextId + 1, seq := s.seq + 1 } a bs i
  rw [State.byte_setCells] at h
  exact (byte_perform _ _ _ _ _ _ _ _ _ _ _ i).trans h

/-- An agent's write changes memory, the coherence orders, poison, the LLC and the numbers of writes, and nothing else. -/
theorem agentWrite_keeps {α : Type} (f : State → α)
    (h : ∀ s m p q l c n k, f { s with mem := m, performed := p, poison := q, llc := l, copies := c, nextId := n, seq := k } = f s) (s : State)
    (a : Nat) (bs : List Byte) (warp : Nat) (chan : Chan) : f (agentWrite s a bs warp chan) = f s := by
  unfold agentWrite
  rw [perform_keeps f fun s m p q l c => h s m p q l c s.nextId s.seq]
  exact h s s.mem s.performed s.poison s.llc s.copies (s.nextId + 1) (s.seq + 1)

end Sys2Proof.Machine
end

