-- ==== Sys2Proof/Laws/State.lean ====
section
/-!
SUPPORT. What each update of the state leaves as it was, field by field, and what a register, path or warp reads as after it has been
written.
-/

namespace Sys2Proof.Machine

/-! ### Replacing a warp -/

@[simp] theorem State.setWarp_clock (s : State) (w : Nat) (x : Warp) : (s.setWarp w x).clock = s.clock := rfl
@[simp] theorem State.setWarp_fresh (s : State) (w : Nat) (x : Warp) : (s.setWarp w x).fresh = s.fresh := rfl
@[simp] theorem State.setWarp_agenda (s : State) (w : Nat) (x : Warp) : (s.setWarp w x).agenda = s.agenda := rfl
@[simp] theorem State.setWarp_cur (s : State) (w : Nat) (x : Warp) : (s.setWarp w x).cur = s.cur := rfl
@[simp] theorem State.setWarp_out (s : State) (w : Nat) (x : Warp) : (s.setWarp w x).out = s.out := rfl
@[simp] theorem State.setWarp_nextId (s : State) (w : Nat) (x : Warp) : (s.setWarp w x).nextId = s.nextId := rfl
@[simp] theorem State.setWarp_seq (s : State) (w : Nat) (x : Warp) : (s.setWarp w x).seq = s.seq := rfl
@[simp] theorem State.setWarp_wgs (s : State) (w : Nat) (x : Warp) : (s.setWarp w x).wgs = s.wgs := rfl
@[simp] theorem State.setWarp_barriers (s : State) (w : Nat) (x : Warp) : (s.setWarp w x).barriers = s.barriers := rfl
@[simp] theorem State.setWarp_mem (s : State) (w : Nat) (x : Warp) : (s.setWarp w x).mem = s.mem := rfl
@[simp] theorem State.setWarp_performed (s : State) (w : Nat) (x : Warp) : (s.setWarp w x).performed = s.performed := rfl
@[simp] theorem State.setWarp_held (s : State) (w : Nat) (x : Warp) : (s.setWarp w x).held = s.held := rfl
@[simp] theorem State.setWarp_bounds (s : State) (w : Nat) (x : Warp) : (s.setWarp w x).bounds = s.bounds := rfl
@[simp] theorem State.setWarp_boundaries (s : State) (w : Nat) (x : Warp) : (s.setWarp w x).boundaries = s.boundaries := rfl
@[simp] theorem State.setWarp_inflight (s : State) (w : Nat) (x : Warp) : (s.setWarp w x).inflight = s.inflight := rfl
@[simp] theorem State.setWarp_poison (s : State) (w : Nat) (x : Warp) : (s.setWarp w x).poison = s.poison := rfl
@[simp] theorem State.setWarp_l1 (s : State) (w : Nat) (x : Warp) : (s.setWarp w x).l1 = s.l1 := rfl
@[simp] theorem State.setWarp_buffer (s : State) (w : Nat) (x : Warp) : (s.setWarp w x).buffer = s.buffer := rfl
@[simp] theorem State.setWarp_con (s : State) (w : Nat) (x : Warp) : (s.setWarp w x).con = s.con := rfl
@[simp] theorem State.setWarp_llc (s : State) (w : Nat) (x : Warp) : (s.setWarp w x).llc = s.llc := rfl
@[simp] theorem State.setWarp_copies (s : State) (w : Nat) (x : Warp) : (s.setWarp w x).copies = s.copies := rfl
@[simp] theorem State.setWarp_nearWays (s : State) (w : Nat) (x : Warp) : (s.setWarp w x).nearWays = s.nearWays := rfl
@[simp] theorem State.setWarp_remoteWays (s : State) (w : Nat) (x : Warp) : (s.setWarp w x).remoteWays = s.remoteWays := rfl
@[simp] theorem State.setWarp_tlb (s : State) (w : Nat) (x : Warp) : (s.setWarp w x).tlb = s.tlb := rfl
@[simp] theorem State.setWarp_walks (s : State) (w : Nat) (x : Warp) : (s.setWarp w x).walks = s.walks := rfl
@[simp] theorem State.setWarp_walkCache (s : State) (w : Nat) (x : Warp) : (s.setWarp w x).walkCache = s.walkCache := rfl
@[simp] theorem State.setWarp_cleared (s : State) (w : Nat) (x : Warp) : (s.setWarp w x).cleared = s.cleared := rfl
@[simp] theorem State.setWarp_requests (s : State) (w : Nat) (x : Warp) : (s.setWarp w x).requests = s.requests := rfl
@[simp] theorem State.setWarp_spaces (s : State) (w : Nat) (x : Warp) : (s.setWarp w x).spaces = s.spaces := rfl
@[simp] theorem State.setWarp_vfs (s : State) (w : Nat) (x : Warp) : (s.setWarp w x).vfs = s.vfs := rfl
@[simp] theorem State.setWarp_flips (s : State) (w : Nat) (x : Warp) : (s.setWarp w x).flips = s.flips := rfl
@[simp] theorem State.setWarp_flipHit (s : State) (w : Nat) (x : Warp) : (s.setWarp w x).flipHit = s.flipHit := rfl
@[simp] theorem State.setWarp_revoked (s : State) (w : Nat) (x : Warp) : (s.setWarp w x).revoked = s.revoked := rfl
@[simp] theorem State.setWarp_rings (s : State) (w : Nat) (x : Warp) : (s.setWarp w x).rings = s.rings := rfl
@[simp] theorem State.setWarp_reports (s : State) (w : Nat) (x : Warp) : (s.setWarp w x).reports = s.reports := rfl
@[simp] theorem State.setWarp_personalities (s : State) (w : Nat) (x : Warp) : (s.setWarp w x).personalities = s.personalities := rfl
@[simp] theorem State.setWarp_gaz (s : State) (w : Nat) (x : Warp) : (s.setWarp w x).gaz = s.gaz := rfl
@[simp] theorem State.setWarp_fills (s : State) (w : Nat) (x : Warp) : (s.setWarp w x).fills = s.fills := rfl
@[simp] theorem State.setWarp_work (s : State) (w : Nat) (x : Warp) : (s.setWarp w x).work = s.work := rfl
@[simp] theorem State.setWarp_ui (s : State) (w : Nat) (x : Warp) : (s.setWarp w x).ui = s.ui := rfl
@[simp] theorem State.setWarp_eng (s : State) (w : Nat) (x : Warp) : (s.setWarp w x).eng = s.eng := rfl
@[simp] theorem State.setWarp_dbg (s : State) (w : Nat) (x : Warp) : (s.setWarp w x).dbg = s.dbg := rfl
@[simp] theorem State.setWarp_sys (s : State) (w : Nat) (x : Warp) : (s.setWarp w x).sys = s.sys := rfl
@[simp] theorem State.setWarp_pkg (s : State) (w : Nat) (x : Warp) : (s.setWarp w x).pkg = s.pkg := rfl

/-! ### Changing a warp -/

@[simp] theorem State.modWarp_clock (s : State) (w : Nat) (f : Warp → Warp) : (s.modWarp w f).clock = s.clock := rfl
@[simp] theorem State.modWarp_fresh (s : State) (w : Nat) (f : Warp → Warp) : (s.modWarp w f).fresh = s.fresh := rfl
@[simp] theorem State.modWarp_agenda (s : State) (w : Nat) (f : Warp → Warp) : (s.modWarp w f).agenda = s.agenda := rfl
@[simp] theorem State.modWarp_cur (s : State) (w : Nat) (f : Warp → Warp) : (s.modWarp w f).cur = s.cur := rfl
@[simp] theorem State.modWarp_out (s : State) (w : Nat) (f : Warp → Warp) : (s.modWarp w f).out = s.out := rfl
@[simp] theorem State.modWarp_nextId (s : State) (w : Nat) (f : Warp → Warp) : (s.modWarp w f).nextId = s.nextId := rfl
@[simp] theorem State.modWarp_seq (s : State) (w : Nat) (f : Warp → Warp) : (s.modWarp w f).seq = s.seq := rfl
@[simp] theorem State.modWarp_wgs (s : State) (w : Nat) (f : Warp → Warp) : (s.modWarp w f).wgs = s.wgs := rfl
@[simp] theorem State.modWarp_barriers (s : State) (w : Nat) (f : Warp → Warp) : (s.modWarp w f).barriers = s.barriers := rfl
@[simp] theorem State.modWarp_mem (s : State) (w : Nat) (f : Warp → Warp) : (s.modWarp w f).mem = s.mem := rfl
@[simp] theorem State.modWarp_performed (s : State) (w : Nat) (f : Warp → Warp) : (s.modWarp w f).performed = s.performed := rfl
@[simp] theorem State.modWarp_held (s : State) (w : Nat) (f : Warp → Warp) : (s.modWarp w f).held = s.held := rfl
@[simp] theorem State.modWarp_bounds (s : State) (w : Nat) (f : Warp → Warp) : (s.modWarp w f).bounds = s.bounds := rfl
@[simp] theorem State.modWarp_boundaries (s : State) (w : Nat) (f : Warp → Warp) : (s.modWarp w f).boundaries = s.boundaries := rfl
@[simp] theorem State.modWarp_inflight (s : State) (w : Nat) (f : Warp → Warp) : (s.modWarp w f).inflight = s.inflight := rfl
@[simp] theorem State.modWarp_poison (s : State) (w : Nat) (f : Warp → Warp) : (s.modWarp w f).poison = s.poison := rfl
@[simp] theorem State.modWarp_l1 (s : State) (w : Nat) (f : Warp → Warp) : (s.modWarp w f).l1 = s.l1 := rfl
@[simp] theorem State.modWarp_buffer (s : State) (w : Nat) (f : Warp → Warp) : (s.modWarp w f).buffer = s.buffer := rfl
@[simp] theorem State.modWarp_con (s : State) (w : Nat) (f : Warp → Warp) : (s.modWarp w f).con = s.con := rfl
@[simp] theorem State.modWarp_llc (s : State) (w : Nat) (f : Warp → Warp) : (s.modWarp w f).llc = s.llc := rfl
@[simp] theorem State.modWarp_copies (s : State) (w : Nat) (f : Warp → Warp) : (s.modWarp w f).copies = s.copies := rfl
@[simp] theorem State.modWarp_nearWays (s : State) (w : Nat) (f : Warp → Warp) : (s.modWarp w f).nearWays = s.nearWays := rfl
@[simp] theorem State.modWarp_remoteWays (s : State) (w : Nat) (f : Warp → Warp) : (s.modWarp w f).remoteWays = s.remoteWays := rfl
@[simp] theorem State.modWarp_tlb (s : State) (w : Nat) (f : Warp → Warp) : (s.modWarp w f).tlb = s.tlb := rfl
@[simp] theorem State.modWarp_walks (s : State) (w : Nat) (f : Warp → Warp) : (s.modWarp w f).walks = s.walks := rfl
@[simp] theorem State.modWarp_walkCache (s : State) (w : Nat) (f : Warp → Warp) : (s.modWarp w f).walkCache = s.walkCache := rfl
@[simp] theorem State.modWarp_cleared (s : State) (w : Nat) (f : Warp → Warp) : (s.modWarp w f).cleared = s.cleared := rfl
@[simp] theorem State.modWarp_requests (s : State) (w : Nat) (f : Warp → Warp) : (s.modWarp w f).requests = s.requests := rfl
@[simp] theorem State.modWarp_spaces (s : State) (w : Nat) (f : Warp → Warp) : (s.modWarp w f).spaces = s.spaces := rfl
@[simp] theorem State.modWarp_vfs (s : State) (w : Nat) (f : Warp → Warp) : (s.modWarp w f).vfs = s.vfs := rfl
@[simp] theorem State.modWarp_flips (s : State) (w : Nat) (f : Warp → Warp) : (s.modWarp w f).flips = s.flips := rfl
@[simp] theorem State.modWarp_flipHit (s : State) (w : Nat) (f : Warp → Warp) : (s.modWarp w f).flipHit = s.flipHit := rfl
@[simp] theorem State.modWarp_revoked (s : State) (w : Nat) (f : Warp → Warp) : (s.modWarp w f).revoked = s.revoked := rfl
@[simp] theorem State.modWarp_rings (s : State) (w : Nat) (f : Warp → Warp) : (s.modWarp w f).rings = s.rings := rfl
@[simp] theorem State.modWarp_reports (s : State) (w : Nat) (f : Warp → Warp) : (s.modWarp w f).reports = s.reports := rfl
@[simp] theorem State.modWarp_personalities (s : State) (w : Nat) (f : Warp → Warp) : (s.modWarp w f).personalities = s.personalities := rfl
@[simp] theorem State.modWarp_gaz (s : State) (w : Nat) (f : Warp → Warp) : (s.modWarp w f).gaz = s.gaz := rfl
@[simp] theorem State.modWarp_fills (s : State) (w : Nat) (f : Warp → Warp) : (s.modWarp w f).fills = s.fills := rfl
@[simp] theorem State.modWarp_work (s : State) (w : Nat) (f : Warp → Warp) : (s.modWarp w f).work = s.work := rfl
@[simp] theorem State.modWarp_ui (s : State) (w : Nat) (f : Warp → Warp) : (s.modWarp w f).ui = s.ui := rfl
@[simp] theorem State.modWarp_eng (s : State) (w : Nat) (f : Warp → Warp) : (s.modWarp w f).eng = s.eng := rfl
@[simp] theorem State.modWarp_dbg (s : State) (w : Nat) (f : Warp → Warp) : (s.modWarp w f).dbg = s.dbg := rfl
@[simp] theorem State.modWarp_sys (s : State) (w : Nat) (f : Warp → Warp) : (s.modWarp w f).sys = s.sys := rfl
@[simp] theorem State.modWarp_pkg (s : State) (w : Nat) (f : Warp → Warp) : (s.modWarp w f).pkg = s.pkg := rfl

/-! ### Changing the registers of a warp -/

@[simp] theorem State.modRegs_clock (s : State) (w : Nat) (f : Regs → Regs) : (s.modRegs w f).clock = s.clock := rfl
@[simp] theorem State.modRegs_fresh (s : State) (w : Nat) (f : Regs → Regs) : (s.modRegs w f).fresh = s.fresh := rfl
@[simp] theorem State.modRegs_agenda (s : State) (w : Nat) (f : Regs → Regs) : (s.modRegs w f).agenda = s.agenda := rfl
@[simp] theorem State.modRegs_cur (s : State) (w : Nat) (f : Regs → Regs) : (s.modRegs w f).cur = s.cur := rfl
@[simp] theorem State.modRegs_out (s : State) (w : Nat) (f : Regs → Regs) : (s.modRegs w f).out = s.out := rfl
@[simp] theorem State.modRegs_nextId (s : State) (w : Nat) (f : Regs → Regs) : (s.modRegs w f).nextId = s.nextId := rfl
@[simp] theorem State.modRegs_seq (s : State) (w : Nat) (f : Regs → Regs) : (s.modRegs w f).seq = s.seq := rfl
@[simp] theorem State.modRegs_wgs (s : State) (w : Nat) (f : Regs → Regs) : (s.modRegs w f).wgs = s.wgs := rfl
@[simp] theorem State.modRegs_barriers (s : State) (w : Nat) (f : Regs → Regs) : (s.modRegs w f).barriers = s.barriers := rfl
@[simp] theorem State.modRegs_mem (s : State) (w : Nat) (f : Regs → Regs) : (s.modRegs w f).mem = s.mem := rfl
@[simp] theorem State.modRegs_performed (s : State) (w : Nat) (f : Regs → Regs) : (s.modRegs w f).performed = s.performed := rfl
@[simp] theorem State.modRegs_held (s : State) (w : Nat) (f : Regs → Regs) : (s.modRegs w f).held = s.held := rfl
@[simp] theorem State.modRegs_bounds (s : State) (w : Nat) (f : Regs → Regs) : (s.modRegs w f).bounds = s.bounds := rfl
@[simp] theorem State.modRegs_boundaries (s : State) (w : Nat) (f : Regs → Regs) : (s.modRegs w f).boundaries = s.boundaries := rfl
@[simp] theorem State.modRegs_inflight (s : State) (w : Nat) (f : Regs → Regs) : (s.modRegs w f).inflight = s.inflight := rfl
@[simp] theorem State.modRegs_poison (s : State) (w : Nat) (f : Regs → Regs) : (s.modRegs w f).poison = s.poison := rfl
@[simp] theorem State.modRegs_l1 (s : State) (w : Nat) (f : Regs → Regs) : (s.modRegs w f).l1 = s.l1 := rfl
@[simp] theorem State.modRegs_buffer (s : State) (w : Nat) (f : Regs → Regs) : (s.modRegs w f).buffer = s.buffer := rfl
@[simp] theorem State.modRegs_con (s : State) (w : Nat) (f : Regs → Regs) : (s.modRegs w f).con = s.con := rfl
@[simp] theorem State.modRegs_llc (s : State) (w : Nat) (f : Regs → Regs) : (s.modRegs w f).llc = s.llc := rfl
@[simp] theorem State.modRegs_copies (s : State) (w : Nat) (f : Regs → Regs) : (s.modRegs w f).copies = s.copies := rfl
@[simp] theorem State.modRegs_nearWays (s : State) (w : Nat) (f : Regs → Regs) : (s.modRegs w f).nearWays = s.nearWays := rfl
@[simp] theorem State.modRegs_remoteWays (s : State) (w : Nat) (f : Regs → Regs) : (s.modRegs w f).remoteWays = s.remoteWays := rfl
@[simp] theorem State.modRegs_tlb (s : State) (w : Nat) (f : Regs → Regs) : (s.modRegs w f).tlb = s.tlb := rfl
@[simp] theorem State.modRegs_walks (s : State) (w : Nat) (f : Regs → Regs) : (s.modRegs w f).walks = s.walks := rfl
@[simp] theorem State.modRegs_walkCache (s : State) (w : Nat) (f : Regs → Regs) : (s.modRegs w f).walkCache = s.walkCache := rfl
@[simp] theorem State.modRegs_cleared (s : State) (w : Nat) (f : Regs → Regs) : (s.modRegs w f).cleared = s.cleared := rfl
@[simp] theorem State.modRegs_requests (s : State) (w : Nat) (f : Regs → Regs) : (s.modRegs w f).requests = s.requests := rfl
@[simp] theorem State.modRegs_spaces (s : State) (w : Nat) (f : Regs → Regs) : (s.modRegs w f).spaces = s.spaces := rfl
@[simp] theorem State.modRegs_vfs (s : State) (w : Nat) (f : Regs → Regs) : (s.modRegs w f).vfs = s.vfs := rfl
@[simp] theorem State.modRegs_flips (s : State) (w : Nat) (f : Regs → Regs) : (s.modRegs w f).flips = s.flips := rfl
@[simp] theorem State.modRegs_flipHit (s : State) (w : Nat) (f : Regs → Regs) : (s.modRegs w f).flipHit = s.flipHit := rfl
@[simp] theorem State.modRegs_revoked (s : State) (w : Nat) (f : Regs → Regs) : (s.modRegs w f).revoked = s.revoked := rfl
@[simp] theorem State.modRegs_rings (s : State) (w : Nat) (f : Regs → Regs) : (s.modRegs w f).rings = s.rings := rfl
@[simp] theorem State.modRegs_reports (s : State) (w : Nat) (f : Regs → Regs) : (s.modRegs w f).reports = s.reports := rfl
@[simp] theorem State.modRegs_personalities (s : State) (w : Nat) (f : Regs → Regs) : (s.modRegs w f).personalities = s.personalities := rfl
@[simp] theorem State.modRegs_gaz (s : State) (w : Nat) (f : Regs → Regs) : (s.modRegs w f).gaz = s.gaz := rfl
@[simp] theorem State.modRegs_fills (s : State) (w : Nat) (f : Regs → Regs) : (s.modRegs w f).fills = s.fills := rfl
@[simp] theorem State.modRegs_work (s : State) (w : Nat) (f : Regs → Regs) : (s.modRegs w f).work = s.work := rfl
@[simp] theorem State.modRegs_ui (s : State) (w : Nat) (f : Regs → Regs) : (s.modRegs w f).ui = s.ui := rfl
@[simp] theorem State.modRegs_eng (s : State) (w : Nat) (f : Regs → Regs) : (s.modRegs w f).eng = s.eng := rfl
@[simp] theorem State.modRegs_dbg (s : State) (w : Nat) (f : Regs → Regs) : (s.modRegs w f).dbg = s.dbg := rfl
@[simp] theorem State.modRegs_sys (s : State) (w : Nat) (f : Regs → Regs) : (s.modRegs w f).sys = s.sys := rfl
@[simp] theorem State.modRegs_pkg (s : State) (w : Nat) (f : Regs → Regs) : (s.modRegs w f).pkg = s.pkg := rfl

/-! ### Changing a path -/

@[simp] theorem State.modPath_clock (s : State) (w p : Nat) (f : Path → Path) : (s.modPath w p f).clock = s.clock := rfl
@[simp] theorem State.modPath_fresh (s : State) (w p : Nat) (f : Path → Path) : (s.modPath w p f).fresh = s.fresh := rfl
@[simp] theorem State.modPath_agenda (s : State) (w p : Nat) (f : Path → Path) : (s.modPath w p f).agenda = s.agenda := rfl
@[simp] theorem State.modPath_cur (s : State) (w p : Nat) (f : Path → Path) : (s.modPath w p f).cur = s.cur := rfl
@[simp] theorem State.modPath_out (s : State) (w p : Nat) (f : Path → Path) : (s.modPath w p f).out = s.out := rfl
@[simp] theorem State.modPath_nextId (s : State) (w p : Nat) (f : Path → Path) : (s.modPath w p f).nextId = s.nextId := rfl
@[simp] theorem State.modPath_seq (s : State) (w p : Nat) (f : Path → Path) : (s.modPath w p f).seq = s.seq := rfl
@[simp] theorem State.modPath_wgs (s : State) (w p : Nat) (f : Path → Path) : (s.modPath w p f).wgs = s.wgs := rfl
@[simp] theorem State.modPath_barriers (s : State) (w p : Nat) (f : Path → Path) : (s.modPath w p f).barriers = s.barriers := rfl
@[simp] theorem State.modPath_mem (s : State) (w p : Nat) (f : Path → Path) : (s.modPath w p f).mem = s.mem := rfl
@[simp] theorem State.modPath_performed (s : State) (w p : Nat) (f : Path → Path) : (s.modPath w p f).performed = s.performed := rfl
@[simp] theorem State.modPath_held (s : State) (w p : Nat) (f : Path → Path) : (s.modPath w p f).held = s.held := rfl
@[simp] theorem State.modPath_bounds (s : State) (w p : Nat) (f : Path → Path) : (s.modPath w p f).bounds = s.bounds := rfl
@[simp] theorem State.modPath_boundaries (s : State) (w p : Nat) (f : Path → Path) : (s.modPath w p f).boundaries = s.boundaries := rfl
@[simp] theorem State.modPath_inflight (s : State) (w p : Nat) (f : Path → Path) : (s.modPath w p f).inflight = s.inflight := rfl
@[simp] theorem State.modPath_poison (s : State) (w p : Nat) (f : Path → Path) : (s.modPath w p f).poison = s.poison := rfl
@[simp] theorem State.modPath_l1 (s : State) (w p : Nat) (f : Path → Path) : (s.modPath w p f).l1 = s.l1 := rfl
@[simp] theorem State.modPath_buffer (s : State) (w p : Nat) (f : Path → Path) : (s.modPath w p f).buffer = s.buffer := rfl
@[simp] theorem State.modPath_con (s : State) (w p : Nat) (f : Path → Path) : (s.modPath w p f).con = s.con := rfl
@[simp] theorem State.modPath_llc (s : State) (w p : Nat) (f : Path → Path) : (s.modPath w p f).llc = s.llc := rfl
@[simp] theorem State.modPath_copies (s : State) (w p : Nat) (f : Path → Path) : (s.modPath w p f).copies = s.copies := rfl
@[simp] theorem State.modPath_nearWays (s : State) (w p : Nat) (f : Path → Path) : (s.modPath w p f).nearWays = s.nearWays := rfl
@[simp] theorem State.modPath_remoteWays (s : State) (w p : Nat) (f : Path → Path) : (s.modPath w p f).remoteWays = s.remoteWays := rfl
@[simp] theorem State.modPath_tlb (s : State) (w p : Nat) (f : Path → Path) : (s.modPath w p f).tlb = s.tlb := rfl
@[simp] theorem State.modPath_walks (s : State) (w p : Nat) (f : Path → Path) : (s.modPath w p f).walks = s.walks := rfl
@[simp] theorem State.modPath_walkCache (s : State) (w p : Nat) (f : Path → Path) : (s.modPath w p f).walkCache = s.walkCache := rfl
@[simp] theorem State.modPath_cleared (s : State) (w p : Nat) (f : Path → Path) : (s.modPath w p f).cleared = s.cleared := rfl
@[simp] theorem State.modPath_requests (s : State) (w p : Nat) (f : Path → Path) : (s.modPath w p f).requests = s.requests := rfl
@[simp] theorem State.modPath_spaces (s : State) (w p : Nat) (f : Path → Path) : (s.modPath w p f).spaces = s.spaces := rfl
@[simp] theorem State.modPath_vfs (s : State) (w p : Nat) (f : Path → Path) : (s.modPath w p f).vfs = s.vfs := rfl
@[simp] theorem State.modPath_flips (s : State) (w p : Nat) (f : Path → Path) : (s.modPath w p f).flips = s.flips := rfl
@[simp] theorem State.modPath_flipHit (s : State) (w p : Nat) (f : Path → Path) : (s.modPath w p f).flipHit = s.flipHit := rfl
@[simp] theorem State.modPath_revoked (s : State) (w p : Nat) (f : Path → Path) : (s.modPath w p f).revoked = s.revoked := rfl
@[simp] theorem State.modPath_rings (s : State) (w p : Nat) (f : Path → Path) : (s.modPath w p f).rings = s.rings := rfl
@[simp] theorem State.modPath_reports (s : State) (w p : Nat) (f : Path → Path) : (s.modPath w p f).reports = s.reports := rfl
@[simp] theorem State.modPath_personalities (s : State) (w p : Nat) (f : Path → Path) : (s.modPath w p f).personalities = s.personalities := rfl
@[simp] theorem State.modPath_gaz (s : State) (w p : Nat) (f : Path → Path) : (s.modPath w p f).gaz = s.gaz := rfl
@[simp] theorem State.modPath_fills (s : State) (w p : Nat) (f : Path → Path) : (s.modPath w p f).fills = s.fills := rfl
@[simp] theorem State.modPath_work (s : State) (w p : Nat) (f : Path → Path) : (s.modPath w p f).work = s.work := rfl
@[simp] theorem State.modPath_ui (s : State) (w p : Nat) (f : Path → Path) : (s.modPath w p f).ui = s.ui := rfl
@[simp] theorem State.modPath_eng (s : State) (w p : Nat) (f : Path → Path) : (s.modPath w p f).eng = s.eng := rfl
@[simp] theorem State.modPath_dbg (s : State) (w p : Nat) (f : Path → Path) : (s.modPath w p f).dbg = s.dbg := rfl
@[simp] theorem State.modPath_sys (s : State) (w p : Nat) (f : Path → Path) : (s.modPath w p f).sys = s.sys := rfl
@[simp] theorem State.modPath_pkg (s : State) (w p : Nat) (f : Path → Path) : (s.modPath w p f).pkg = s.pkg := rfl

/-! ### Changing a workgroup -/

@[simp] theorem State.modWg_clock (s : State) (h : Nat) (f : Workgroup → Workgroup) : (s.modWg h f).clock = s.clock := rfl
@[simp] theorem State.modWg_fresh (s : State) (h : Nat) (f : Workgroup → Workgroup) : (s.modWg h f).fresh = s.fresh := rfl
@[simp] theorem State.modWg_agenda (s : State) (h : Nat) (f : Workgroup → Workgroup) : (s.modWg h f).agenda = s.agenda := rfl
@[simp] theorem State.modWg_cur (s : State) (h : Nat) (f : Workgroup → Workgroup) : (s.modWg h f).cur = s.cur := rfl
@[simp] theorem State.modWg_out (s : State) (h : Nat) (f : Workgroup → Workgroup) : (s.modWg h f).out = s.out := rfl
@[simp] theorem State.modWg_nextId (s : State) (h : Nat) (f : Workgroup → Workgroup) : (s.modWg h f).nextId = s.nextId := rfl
@[simp] theorem State.modWg_seq (s : State) (h : Nat) (f : Workgroup → Workgroup) : (s.modWg h f).seq = s.seq := rfl
@[simp] theorem State.modWg_warps (s : State) (h : Nat) (f : Workgroup → Workgroup) : (s.modWg h f).warps = s.warps := rfl
@[simp] theorem State.modWg_barriers (s : State) (h : Nat) (f : Workgroup → Workgroup) : (s.modWg h f).barriers = s.barriers := rfl
@[simp] theorem State.modWg_mem (s : State) (h : Nat) (f : Workgroup → Workgroup) : (s.modWg h f).mem = s.mem := rfl
@[simp] theorem State.modWg_performed (s : State) (h : Nat) (f : Workgroup → Workgroup) : (s.modWg h f).performed = s.performed := rfl
@[simp] theorem State.modWg_held (s : State) (h : Nat) (f : Workgroup → Workgroup) : (s.modWg h f).held = s.held := rfl
@[simp] theorem State.modWg_bounds (s : State) (h : Nat) (f : Workgroup → Workgroup) : (s.modWg h f).bounds = s.bounds := rfl
@[simp] theorem State.modWg_boundaries (s : State) (h : Nat) (f : Workgroup → Workgroup) : (s.modWg h f).boundaries = s.boundaries := rfl
@[simp] theorem State.modWg_inflight (s : State) (h : Nat) (f : Workgroup → Workgroup) : (s.modWg h f).inflight = s.inflight := rfl
@[simp] theorem State.modWg_poison (s : State) (h : Nat) (f : Workgroup → Workgroup) : (s.modWg h f).poison = s.poison := rfl
@[simp] theorem State.modWg_l1 (s : State) (h : Nat) (f : Workgroup → Workgroup) : (s.modWg h f).l1 = s.l1 := rfl
@[simp] theorem State.modWg_buffer (s : State) (h : Nat) (f : Workgroup → Workgroup) : (s.modWg h f).buffer = s.buffer := rfl
@[simp] theorem State.modWg_con (s : State) (h : Nat) (f : Workgroup → Workgroup) : (s.modWg h f).con = s.con := rfl
@[simp] theorem State.modWg_llc (s : State) (h : Nat) (f : Workgroup → Workgroup) : (s.modWg h f).llc = s.llc := rfl
@[simp] theorem State.modWg_copies (s : State) (h : Nat) (f : Workgroup → Workgroup) : (s.modWg h f).copies = s.copies := rfl
@[simp] theorem State.modWg_nearWays (s : State) (h : Nat) (f : Workgroup → Workgroup) : (s.modWg h f).nearWays = s.nearWays := rfl
@[simp] theorem State.modWg_remoteWays (s : State) (h : Nat) (f : Workgroup → Workgroup) : (s.modWg h f).remoteWays = s.remoteWays := rfl
@[simp] theorem State.modWg_tlb (s : State) (h : Nat) (f : Workgroup → Workgroup) : (s.modWg h f).tlb = s.tlb := rfl
@[simp] theorem State.modWg_walks (s : State) (h : Nat) (f : Workgroup → Workgroup) : (s.modWg h f).walks = s.walks := rfl
@[simp] theorem State.modWg_walkCache (s : State) (h : Nat) (f : Workgroup → Workgroup) : (s.modWg h f).walkCache = s.walkCache := rfl
@[simp] theorem State.modWg_cleared (s : State) (h : Nat) (f : Workgroup → Workgroup) : (s.modWg h f).cleared = s.cleared := rfl
@[simp] theorem State.modWg_requests (s : State) (h : Nat) (f : Workgroup → Workgroup) : (s.modWg h f).requests = s.requests := rfl
@[simp] theorem State.modWg_spaces (s : State) (h : Nat) (f : Workgroup → Workgroup) : (s.modWg h f).spaces = s.spaces := rfl
@[simp] theorem State.modWg_vfs (s : State) (h : Nat) (f : Workgroup → Workgroup) : (s.modWg h f).vfs = s.vfs := rfl
@[simp] theorem State.modWg_flips (s : State) (h : Nat) (f : Workgroup → Workgroup) : (s.modWg h f).flips = s.flips := rfl
@[simp] theorem State.modWg_flipHit (s : State) (h : Nat) (f : Workgroup → Workgroup) : (s.modWg h f).flipHit = s.flipHit := rfl
@[simp] theorem State.modWg_revoked (s : State) (h : Nat) (f : Workgroup → Workgroup) : (s.modWg h f).revoked = s.revoked := rfl
@[simp] theorem State.modWg_rings (s : State) (h : Nat) (f : Workgroup → Workgroup) : (s.modWg h f).rings = s.rings := rfl
@[simp] theorem State.modWg_reports (s : State) (h : Nat) (f : Workgroup → Workgroup) : (s.modWg h f).reports = s.reports := rfl
@[simp] theorem State.modWg_personalities (s : State) (h : Nat) (f : Workgroup → Workgroup) : (s.modWg h f).personalities = s.personalities := rfl
@[simp] theorem State.modWg_gaz (s : State) (h : Nat) (f : Workgroup → Workgroup) : (s.modWg h f).gaz = s.gaz := rfl
@[simp] theorem State.modWg_fills (s : State) (h : Nat) (f : Workgroup → Workgroup) : (s.modWg h f).fills = s.fills := rfl
@[simp] theorem State.modWg_work (s : State) (h : Nat) (f : Workgroup → Workgroup) : (s.modWg h f).work = s.work := rfl
@[simp] theorem State.modWg_ui (s : State) (h : Nat) (f : Workgroup → Workgroup) : (s.modWg h f).ui = s.ui := rfl
@[simp] theorem State.modWg_eng (s : State) (h : Nat) (f : Workgroup → Workgroup) : (s.modWg h f).eng = s.eng := rfl
@[simp] theorem State.modWg_dbg (s : State) (h : Nat) (f : Workgroup → Workgroup) : (s.modWg h f).dbg = s.dbg := rfl
@[simp] theorem State.modWg_sys (s : State) (h : Nat) (f : Workgroup → Workgroup) : (s.modWg h f).sys = s.sys := rfl
@[simp] theorem State.modWg_pkg (s : State) (h : Nat) (f : Workgroup → Workgroup) : (s.modWg h f).pkg = s.pkg := rfl

/-! ### Outputs -/

@[simp] theorem State.emit_clock (s : State) (o : Out) : (s.emit o).clock = s.clock := rfl
@[simp] theorem State.emit_fresh (s : State) (o : Out) : (s.emit o).fresh = s.fresh := rfl
@[simp] theorem State.emit_agenda (s : State) (o : Out) : (s.emit o).agenda = s.agenda := rfl
@[simp] theorem State.emit_cur (s : State) (o : Out) : (s.emit o).cur = s.cur := rfl
@[simp] theorem State.emit_nextId (s : State) (o : Out) : (s.emit o).nextId = s.nextId := rfl
@[simp] theorem State.emit_seq (s : State) (o : Out) : (s.emit o).seq = s.seq := rfl
@[simp] theorem State.emit_warps (s : State) (o : Out) : (s.emit o).warps = s.warps := rfl
@[simp] theorem State.emit_wgs (s : State) (o : Out) : (s.emit o).wgs = s.wgs := rfl
@[simp] theorem State.emit_barriers (s : State) (o : Out) : (s.emit o).barriers = s.barriers := rfl
@[simp] theorem State.emit_mem (s : State) (o : Out) : (s.emit o).mem = s.mem := rfl
@[simp] theorem State.emit_performed (s : State) (o : Out) : (s.emit o).performed = s.performed := rfl
@[simp] theorem State.emit_held (s : State) (o : Out) : (s.emit o).held = s.held := rfl
@[simp] theorem State.emit_bounds (s : State) (o : Out) : (s.emit o).bounds = s.bounds := rfl
@[simp] theorem State.emit_boundaries (s : State) (o : Out) : (s.emit o).boundaries = s.boundaries := rfl
@[simp] theorem State.emit_inflight (s : State) (o : Out) : (s.emit o).inflight = s.inflight := rfl
@[simp] theorem State.emit_poison (s : State) (o : Out) : (s.emit o).poison = s.poison := rfl
@[simp] theorem State.emit_l1 (s : State) (o : Out) : (s.emit o).l1 = s.l1 := rfl
@[simp] theorem State.emit_buffer (s : State) (o : Out) : (s.emit o).buffer = s.buffer := rfl
@[simp] theorem State.emit_con (s : State) (o : Out) : (s.emit o).con = s.con := rfl
@[simp] theorem State.emit_llc (s : State) (o : Out) : (s.emit o).llc = s.llc := rfl
@[simp] theorem State.emit_copies (s : State) (o : Out) : (s.emit o).copies = s.copies := rfl
@[simp] theorem State.emit_nearWays (s : State) (o : Out) : (s.emit o).nearWays = s.nearWays := rfl
@[simp] theorem State.emit_remoteWays (s : State) (o : Out) : (s.emit o).remoteWays = s.remoteWays := rfl
@[simp] theorem State.emit_tlb (s : State) (o : Out) : (s.emit o).tlb = s.tlb := rfl
@[simp] theorem State.emit_walks (s : State) (o : Out) : (s.emit o).walks = s.walks := rfl
@[simp] theorem State.emit_walkCache (s : State) (o : Out) : (s.emit o).walkCache = s.walkCache := rfl
@[simp] theorem State.emit_cleared (s : State) (o : Out) : (s.emit o).cleared = s.cleared := rfl
@[simp] theorem State.emit_requests (s : State) (o : Out) : (s.emit o).requests = s.requests := rfl
@[simp] theorem State.emit_spaces (s : State) (o : Out) : (s.emit o).spaces = s.spaces := rfl
@[simp] theorem State.emit_vfs (s : State) (o : Out) : (s.emit o).vfs = s.vfs := rfl
@[simp] theorem State.emit_flips (s : State) (o : Out) : (s.emit o).flips = s.flips := rfl
@[simp] theorem State.emit_flipHit (s : State) (o : Out) : (s.emit o).flipHit = s.flipHit := rfl
@[simp] theorem State.emit_revoked (s : State) (o : Out) : (s.emit o).revoked = s.revoked := rfl
@[simp] theorem State.emit_rings (s : State) (o : Out) : (s.emit o).rings = s.rings := rfl
@[simp] theorem State.emit_reports (s : State) (o : Out) : (s.emit o).reports = s.reports := rfl
@[simp] theorem State.emit_personalities (s : State) (o : Out) : (s.emit o).personalities = s.personalities := rfl
@[simp] theorem State.emit_gaz (s : State) (o : Out) : (s.emit o).gaz = s.gaz := rfl
@[simp] theorem State.emit_fills (s : State) (o : Out) : (s.emit o).fills = s.fills := rfl
@[simp] theorem State.emit_work (s : State) (o : Out) : (s.emit o).work = s.work := rfl
@[simp] theorem State.emit_ui (s : State) (o : Out) : (s.emit o).ui = s.ui := rfl
@[simp] theorem State.emit_eng (s : State) (o : Out) : (s.emit o).eng = s.eng := rfl
@[simp] theorem State.emit_dbg (s : State) (o : Out) : (s.emit o).dbg = s.dbg := rfl
@[simp] theorem State.emit_sys (s : State) (o : Out) : (s.emit o).sys = s.sys := rfl
@[simp] theorem State.emit_pkg (s : State) (o : Out) : (s.emit o).pkg = s.pkg := rfl

/-! ### Writing a byte -/

@[simp] theorem State.setByte_clock (s : State) (a : Nat) (b : Byte) : (s.setByte a b).clock = s.clock := rfl
@[simp] theorem State.setByte_fresh (s : State) (a : Nat) (b : Byte) : (s.setByte a b).fresh = s.fresh := rfl
@[simp] theorem State.setByte_agenda (s : State) (a : Nat) (b : Byte) : (s.setByte a b).agenda = s.agenda := rfl
@[simp] theorem State.setByte_cur (s : State) (a : Nat) (b : Byte) : (s.setByte a b).cur = s.cur := rfl
@[simp] theorem State.setByte_out (s : State) (a : Nat) (b : Byte) : (s.setByte a b).out = s.out := rfl
@[simp] theorem State.setByte_nextId (s : State) (a : Nat) (b : Byte) : (s.setByte a b).nextId = s.nextId := rfl
@[simp] theorem State.setByte_seq (s : State) (a : Nat) (b : Byte) : (s.setByte a b).seq = s.seq := rfl
@[simp] theorem State.setByte_warps (s : State) (a : Nat) (b : Byte) : (s.setByte a b).warps = s.warps := rfl
@[simp] theorem State.setByte_wgs (s : State) (a : Nat) (b : Byte) : (s.setByte a b).wgs = s.wgs := rfl
@[simp] theorem State.setByte_barriers (s : State) (a : Nat) (b : Byte) : (s.setByte a b).barriers = s.barriers := rfl
@[simp] theorem State.setByte_performed (s : State) (a : Nat) (b : Byte) : (s.setByte a b).performed = s.performed := rfl
@[simp] theorem State.setByte_held (s : State) (a : Nat) (b : Byte) : (s.setByte a b).held = s.held := rfl
@[simp] theorem State.setByte_bounds (s : State) (a : Nat) (b : Byte) : (s.setByte a b).bounds = s.bounds := rfl
@[simp] theorem State.setByte_boundaries (s : State) (a : Nat) (b : Byte) : (s.setByte a b).boundaries = s.boundaries := rfl
@[simp] theorem State.setByte_inflight (s : State) (a : Nat) (b : Byte) : (s.setByte a b).inflight = s.inflight := rfl
@[simp] theorem State.setByte_poison (s : State) (a : Nat) (b : Byte) : (s.setByte a b).poison = s.poison := rfl
@[simp] theorem State.setByte_l1 (s : State) (a : Nat) (b : Byte) : (s.setByte a b).l1 = s.l1 := rfl
@[simp] theorem State.setByte_buffer (s : State) (a : Nat) (b : Byte) : (s.setByte a b).buffer = s.buffer := rfl
@[simp] theorem State.setByte_con (s : State) (a : Nat) (b : Byte) : (s.setByte a b).con = s.con := rfl
@[simp] theorem State.setByte_llc (s : State) (a : Nat) (b : Byte) : (s.setByte a b).llc = s.llc := rfl
@[simp] theorem State.setByte_copies (s : State) (a : Nat) (b : Byte) : (s.setByte a b).copies = s.copies := rfl
@[simp] theorem State.setByte_nearWays (s : State) (a : Nat) (b : Byte) : (s.setByte a b).nearWays = s.nearWays := rfl
@[simp] theorem State.setByte_remoteWays (s : State) (a : Nat) (b : Byte) : (s.setByte a b).remoteWays = s.remoteWays := rfl
@[simp] theorem State.setByte_tlb (s : State) (a : Nat) (b : Byte) : (s.setByte a b).tlb = s.tlb := rfl
@[simp] theorem State.setByte_walks (s : State) (a : Nat) (b : Byte) : (s.setByte a b).walks = s.walks := rfl
@[simp] theorem State.setByte_walkCache (s : State) (a : Nat) (b : Byte) : (s.setByte a b).walkCache = s.walkCache := rfl
@[simp] theorem State.setByte_cleared (s : State) (a : Nat) (b : Byte) : (s.setByte a b).cleared = s.cleared := rfl
@[simp] theorem State.setByte_requests (s : State) (a : Nat) (b : Byte) : (s.setByte a b).requests = s.requests := rfl
@[simp] theorem State.setByte_spaces (s : State) (a : Nat) (b : Byte) : (s.setByte a b).spaces = s.spaces := rfl
@[simp] theorem State.setByte_vfs (s : State) (a : Nat) (b : Byte) : (s.setByte a b).vfs = s.vfs := rfl
@[simp] theorem State.setByte_flips (s : State) (a : Nat) (b : Byte) : (s.setByte a b).flips = s.flips := rfl
@[simp] theorem State.setByte_flipHit (s : State) (a : Nat) (b : Byte) : (s.setByte a b).flipHit = s.flipHit := rfl
@[simp] theorem State.setByte_revoked (s : State) (a : Nat) (b : Byte) : (s.setByte a b).revoked = s.revoked := rfl
@[simp] theorem State.setByte_rings (s : State) (a : Nat) (b : Byte) : (s.setByte a b).rings = s.rings := rfl
@[simp] theorem State.setByte_reports (s : State) (a : Nat) (b : Byte) : (s.setByte a b).reports = s.reports := rfl
@[simp] theorem State.setByte_personalities (s : State) (a : Nat) (b : Byte) : (s.setByte a b).personalities = s.personalities := rfl
@[simp] theorem State.setByte_gaz (s : State) (a : Nat) (b : Byte) : (s.setByte a b).gaz = s.gaz := rfl
@[simp] theorem State.setByte_fills (s : State) (a : Nat) (b : Byte) : (s.setByte a b).fills = s.fills := rfl
@[simp] theorem State.setByte_work (s : State) (a : Nat) (b : Byte) : (s.setByte a b).work = s.work := rfl
@[simp] theorem State.setByte_ui (s : State) (a : Nat) (b : Byte) : (s.setByte a b).ui = s.ui := rfl
@[simp] theorem State.setByte_eng (s : State) (a : Nat) (b : Byte) : (s.setByte a b).eng = s.eng := rfl
@[simp] theorem State.setByte_dbg (s : State) (a : Nat) (b : Byte) : (s.setByte a b).dbg = s.dbg := rfl
@[simp] theorem State.setByte_sys (s : State) (a : Nat) (b : Byte) : (s.setByte a b).sys = s.sys := rfl
@[simp] theorem State.setByte_pkg (s : State) (a : Nat) (b : Byte) : (s.setByte a b).pkg = s.pkg := rfl

/-! ### Changing the registers of a function -/

@[simp] theorem State.modFunc_clock (s : State) (f : Func) (g : FuncRegs → FuncRegs) : (s.modFunc f g).clock = s.clock := rfl
@[simp] theorem State.modFunc_fresh (s : State) (f : Func) (g : FuncRegs → FuncRegs) : (s.modFunc f g).fresh = s.fresh := rfl
@[simp] theorem State.modFunc_agenda (s : State) (f : Func) (g : FuncRegs → FuncRegs) : (s.modFunc f g).agenda = s.agenda := rfl
@[simp] theorem State.modFunc_cur (s : State) (f : Func) (g : FuncRegs → FuncRegs) : (s.modFunc f g).cur = s.cur := rfl
@[simp] theorem State.modFunc_out (s : State) (f : Func) (g : FuncRegs → FuncRegs) : (s.modFunc f g).out = s.out := rfl
@[simp] theorem State.modFunc_nextId (s : State) (f : Func) (g : FuncRegs → FuncRegs) : (s.modFunc f g).nextId = s.nextId := rfl
@[simp] theorem State.modFunc_seq (s : State) (f : Func) (g : FuncRegs → FuncRegs) : (s.modFunc f g).seq = s.seq := rfl
@[simp] theorem State.modFunc_warps (s : State) (f : Func) (g : FuncRegs → FuncRegs) : (s.modFunc f g).warps = s.warps := rfl
@[simp] theorem State.modFunc_wgs (s : State) (f : Func) (g : FuncRegs → FuncRegs) : (s.modFunc f g).wgs = s.wgs := rfl
@[simp] theorem State.modFunc_barriers (s : State) (f : Func) (g : FuncRegs → FuncRegs) : (s.modFunc f g).barriers = s.barriers := rfl
@[simp] theorem State.modFunc_mem (s : State) (f : Func) (g : FuncRegs → FuncRegs) : (s.modFunc f g).mem = s.mem := rfl
@[simp] theorem State.modFunc_performed (s : State) (f : Func) (g : FuncRegs → FuncRegs) : (s.modFunc f g).performed = s.performed := rfl
@[simp] theorem State.modFunc_held (s : State) (f : Func) (g : FuncRegs → FuncRegs) : (s.modFunc f g).held = s.held := rfl
@[simp] theorem State.modFunc_bounds (s : State) (f : Func) (g : FuncRegs → FuncRegs) : (s.modFunc f g).bounds = s.bounds := rfl
@[simp] theorem State.modFunc_boundaries (s : State) (f : Func) (g : FuncRegs → FuncRegs) : (s.modFunc f g).boundaries = s.boundaries := rfl
@[simp] theorem State.modFunc_inflight (s : State) (f : Func) (g : FuncRegs → FuncRegs) : (s.modFunc f g).inflight = s.inflight := rfl
@[simp] theorem State.modFunc_poison (s : State) (f : Func) (g : FuncRegs → FuncRegs) : (s.modFunc f g).poison = s.poison := rfl
@[simp] theorem State.modFunc_l1 (s : State) (f : Func) (g : FuncRegs → FuncRegs) : (s.modFunc f g).l1 = s.l1 := rfl
@[simp] theorem State.modFunc_buffer (s : State) (f : Func) (g : FuncRegs → FuncRegs) : (s.modFunc f g).buffer = s.buffer := rfl
@[simp] theorem State.modFunc_con (s : State) (f : Func) (g : FuncRegs → FuncRegs) : (s.modFunc f g).con = s.con := rfl
@[simp] theorem State.modFunc_llc (s : State) (f : Func) (g : FuncRegs → FuncRegs) : (s.modFunc f g).llc = s.llc := rfl
@[simp] theorem State.modFunc_copies (s : State) (f : Func) (g : FuncRegs → FuncRegs) : (s.modFunc f g).copies = s.copies := rfl
@[simp] theorem State.modFunc_nearWays (s : State) (f : Func) (g : FuncRegs → FuncRegs) : (s.modFunc f g).nearWays = s.nearWays := rfl
@[simp] theorem State.modFunc_remoteWays (s : State) (f : Func) (g : FuncRegs → FuncRegs) : (s.modFunc f g).remoteWays = s.remoteWays := rfl
@[simp] theorem State.modFunc_tlb (s : State) (f : Func) (g : FuncRegs → FuncRegs) : (s.modFunc f g).tlb = s.tlb := rfl
@[simp] theorem State.modFunc_walks (s : State) (f : Func) (g : FuncRegs → FuncRegs) : (s.modFunc f g).walks = s.walks := rfl
@[simp] theorem State.modFunc_walkCache (s : State) (f : Func) (g : FuncRegs → FuncRegs) : (s.modFunc f g).walkCache = s.walkCache := rfl
@[simp] theorem State.modFunc_cleared (s : State) (f : Func) (g : FuncRegs → FuncRegs) : (s.modFunc f g).cleared = s.cleared := rfl
@[simp] theorem State.modFunc_requests (s : State) (f : Func) (g : FuncRegs → FuncRegs) : (s.modFunc f g).requests = s.requests := rfl
@[simp] theorem State.modFunc_spaces (s : State) (f : Func) (g : FuncRegs → FuncRegs) : (s.modFunc f g).spaces = s.spaces := rfl
@[simp] theorem State.modFunc_vfs (s : State) (f : Func) (g : FuncRegs → FuncRegs) : (s.modFunc f g).vfs = s.vfs := rfl
@[simp] theorem State.modFunc_flips (s : State) (f : Func) (g : FuncRegs → FuncRegs) : (s.modFunc f g).flips = s.flips := rfl
@[simp] theorem State.modFunc_flipHit (s : State) (f : Func) (g : FuncRegs → FuncRegs) : (s.modFunc f g).flipHit = s.flipHit := rfl
@[simp] theorem State.modFunc_revoked (s : State) (f : Func) (g : FuncRegs → FuncRegs) : (s.modFunc f g).revoked = s.revoked := rfl
@[simp] theorem State.modFunc_rings (s : State) (f : Func) (g : FuncRegs → FuncRegs) : (s.modFunc f g).rings = s.rings := rfl
@[simp] theorem State.modFunc_reports (s : State) (f : Func) (g : FuncRegs → FuncRegs) : (s.modFunc f g).reports = s.reports := rfl
@[simp] theorem State.modFunc_personalities (s : State) (f : Func) (g : FuncRegs → FuncRegs) : (s.modFunc f g).personalities = s.personalities := rfl
@[simp] theorem State.modFunc_gaz (s : State) (f : Func) (g : FuncRegs → FuncRegs) : (s.modFunc f g).gaz = s.gaz := rfl
@[simp] theorem State.modFunc_fills (s : State) (f : Func) (g : FuncRegs → FuncRegs) : (s.modFunc f g).fills = s.fills := rfl
@[simp] theorem State.modFunc_work (s : State) (f : Func) (g : FuncRegs → FuncRegs) : (s.modFunc f g).work = s.work := rfl
@[simp] theorem State.modFunc_ui (s : State) (f : Func) (g : FuncRegs → FuncRegs) : (s.modFunc f g).ui = s.ui := rfl
@[simp] theorem State.modFunc_eng (s : State) (f : Func) (g : FuncRegs → FuncRegs) : (s.modFunc f g).eng = s.eng := rfl
@[simp] theorem State.modFunc_dbg (s : State) (f : Func) (g : FuncRegs → FuncRegs) : (s.modFunc f g).dbg = s.dbg := rfl
@[simp] theorem State.modFunc_sys (s : State) (f : Func) (g : FuncRegs → FuncRegs) : (s.modFunc f g).sys = s.sys := rfl

/-! ### Writing a uniform -/

@[simp] theorem Regs.setUni_pay (r : Regs) (n : Nat) (x : Word64) : (r.setUni n x).pay = r.pay := rfl
@[simp] theorem Regs.setUni_p (r : Regs) (n : Nat) (x : Word64) : (r.setUni n x).p = r.p := rfl
@[simp] theorem Regs.setUni_t (r : Regs) (n : Nat) (x : Word64) : (r.setUni n x).t = r.t := rfl
@[simp] theorem Regs.setUni_acc (r : Regs) (n : Nat) (x : Word64) : (r.setUni n x).acc = r.acc := rfl
@[simp] theorem Regs.setUni_v (r : Regs) (n : Nat) (x : Word64) : (r.setUni n x).v = r.v := rfl
@[simp] theorem Regs.setUni_gmode (r : Regs) (n : Nat) (x : Word64) : (r.setUni n x).gmode = r.gmode := rfl
@[simp] theorem Regs.setUni_gstat (r : Regs) (n : Nat) (x : Word64) : (r.setUni n x).gstat = r.gstat := rfl
@[simp] theorem Regs.setUni_srst (r : Regs) (n : Nat) (x : Word64) : (r.setUni n x).srst = r.srst := rfl
@[simp] theorem Regs.setUni_fcnt (r : Regs) (n : Nat) (x : Word64) : (r.setUni n x).fcnt = r.fcnt := rfl
@[simp] theorem Regs.setUni_savectr (r : Regs) (n : Nat) (x : Word64) : (r.setUni n x).savectr = r.savectr := rfl
@[simp] theorem Regs.setUni_empc (r : Regs) (n : Nat) (x : Word64) : (r.setUni n x).empc = r.empc := rfl
@[simp] theorem Regs.setUni_emword (r : Regs) (n : Nat) (x : Word64) : (r.setUni n x).emword = r.emword := rfl
@[simp] theorem Regs.setUni_eminfo (r : Regs) (n : Nat) (x : Word64) : (r.setUni n x).eminfo = r.eminfo := rfl
@[simp] theorem Regs.setUni_blast (r : Regs) (n : Nat) (x : Word64) : (r.setUni n x).blast = r.blast := rfl
@[simp] theorem Regs.setUni_dorm (r : Regs) (n : Nat) (x : Word64) : (r.setUni n x).dorm = r.dorm := rfl
@[simp] theorem Regs.setUni_wakep (r : Regs) (n : Nat) (x : Word64) : (r.setUni n x).wakep = r.wakep := rfl
@[simp] theorem Regs.setUni_ctxf (r : Regs) (n : Nat) (x : Word64) : (r.setUni n x).ctxf = r.ctxf := rfl
@[simp] theorem Regs.setUni_decl (r : Regs) (n : Nat) (x : Word64) : (r.setUni n x).decl = r.decl := rfl
@[simp] theorem Regs.setUni_ident (r : Regs) (n : Nat) (x : Word64) : (r.setUni n x).ident = r.ident := rfl
@[simp] theorem Regs.setUni_uimask (r : Regs) (n : Nat) (x : Word64) : (r.setUni n x).uimask = r.uimask := rfl
@[simp] theorem Regs.setUni_uipend (r : Regs) (n : Nat) (x : Word64) : (r.setUni n x).uipend = r.uipend := rfl
@[simp] theorem Regs.setUni_misscnt (r : Regs) (n : Nat) (x : Word64) : (r.setUni n x).misscnt = r.misscnt := rfl
@[simp] theorem Regs.setUni_bring (r : Regs) (n : Nat) (x : Word64) : (r.setUni n x).bring = r.bring := rfl
@[simp] theorem Regs.setUni_prog (r : Regs) (n : Nat) (x : Word64) : (r.setUni n x).prog = r.prog := rfl
@[simp] theorem Regs.setUni_paths (r : Regs) (n : Nat) (x : Word64) : (r.setUni n x).paths = r.paths := rfl
@[simp] theorem Regs.setUni_stack (r : Regs) (n : Nat) (x : Word64) : (r.setUni n x).stack = r.stack := rfl

/-! ### Writing a predicate -/

@[simp] theorem Regs.setPred_u (r : Regs) (n : Nat) (m x : Word32) : (r.setPred n m x).u = r.u := by unfold Regs.setPred; split <;> rfl
@[simp] theorem Regs.setPred_pay (r : Regs) (n : Nat) (m x : Word32) : (r.setPred n m x).pay = r.pay := by unfold Regs.setPred; split <;> rfl
@[simp] theorem Regs.setPred_t (r : Regs) (n : Nat) (m x : Word32) : (r.setPred n m x).t = r.t := by unfold Regs.setPred; split <;> rfl
@[simp] theorem Regs.setPred_acc (r : Regs) (n : Nat) (m x : Word32) : (r.setPred n m x).acc = r.acc := by unfold Regs.setPred; split <;> rfl
@[simp] theorem Regs.setPred_v (r : Regs) (n : Nat) (m x : Word32) : (r.setPred n m x).v = r.v := by unfold Regs.setPred; split <;> rfl
@[simp] theorem Regs.setPred_gmode (r : Regs) (n : Nat) (m x : Word32) : (r.setPred n m x).gmode = r.gmode := by unfold Regs.setPred; split <;> rfl
@[simp] theorem Regs.setPred_gstat (r : Regs) (n : Nat) (m x : Word32) : (r.setPred n m x).gstat = r.gstat := by unfold Regs.setPred; split <;> rfl
@[simp] theorem Regs.setPred_srst (r : Regs) (n : Nat) (m x : Word32) : (r.setPred n m x).srst = r.srst := by unfold Regs.setPred; split <;> rfl
@[simp] theorem Regs.setPred_fcnt (r : Regs) (n : Nat) (m x : Word32) : (r.setPred n m x).fcnt = r.fcnt := by unfold Regs.setPred; split <;> rfl
@[simp] theorem Regs.setPred_savectr (r : Regs) (n : Nat) (m x : Word32) : (r.setPred n m x).savectr = r.savectr := by unfold Regs.setPred; split <;> rfl
@[simp] theorem Regs.setPred_empc (r : Regs) (n : Nat) (m x : Word32) : (r.setPred n m x).empc = r.empc := by unfold Regs.setPred; split <;> rfl
@[simp] theorem Regs.setPred_emword (r : Regs) (n : Nat) (m x : Word32) : (r.setPred n m x).emword = r.emword := by unfold Regs.setPred; split <;> rfl
@[simp] theorem Regs.setPred_eminfo (r : Regs) (n : Nat) (m x : Word32) : (r.setPred n m x).eminfo = r.eminfo := by unfold Regs.setPred; split <;> rfl
@[simp] theorem Regs.setPred_blast (r : Regs) (n : Nat) (m x : Word32) : (r.setPred n m x).blast = r.blast := by unfold Regs.setPred; split <;> rfl
@[simp] theorem Regs.setPred_dorm (r : Regs) (n : Nat) (m x : Word32) : (r.setPred n m x).dorm = r.dorm := by unfold Regs.setPred; split <;> rfl
@[simp] theorem Regs.setPred_wakep (r : Regs) (n : Nat) (m x : Word32) : (r.setPred n m x).wakep = r.wakep := by unfold Regs.setPred; split <;> rfl
@[simp] theorem Regs.setPred_ctxf (r : Regs) (n : Nat) (m x : Word32) : (r.setPred n m x).ctxf = r.ctxf := by unfold Regs.setPred; split <;> rfl
@[simp] theorem Regs.setPred_decl (r : Regs) (n : Nat) (m x : Word32) : (r.setPred n m x).decl = r.decl := by unfold Regs.setPred; split <;> rfl
@[simp] theorem Regs.setPred_ident (r : Regs) (n : Nat) (m x : Word32) : (r.setPred n m x).ident = r.ident := by unfold Regs.setPred; split <;> rfl
@[simp] theorem Regs.setPred_uimask (r : Regs) (n : Nat) (m x : Word32) : (r.setPred n m x).uimask = r.uimask := by unfold Regs.setPred; split <;> rfl
@[simp] theorem Regs.setPred_uipend (r : Regs) (n : Nat) (m x : Word32) : (r.setPred n m x).uipend = r.uipend := by unfold Regs.setPred; split <;> rfl
@[simp] theorem Regs.setPred_misscnt (r : Regs) (n : Nat) (m x : Word32) : (r.setPred n m x).misscnt = r.misscnt := by unfold Regs.setPred; split <;> rfl
@[simp] theorem Regs.setPred_bring (r : Regs) (n : Nat) (m x : Word32) : (r.setPred n m x).bring = r.bring := by unfold Regs.setPred; split <;> rfl
@[simp] theorem Regs.setPred_prog (r : Regs) (n : Nat) (m x : Word32) : (r.setPred n m x).prog = r.prog := by unfold Regs.setPred; split <;> rfl
@[simp] theorem Regs.setPred_paths (r : Regs) (n : Nat) (m x : Word32) : (r.setPred n m x).paths = r.paths := by unfold Regs.setPred; split <;> rfl
@[simp] theorem Regs.setPred_stack (r : Regs) (n : Nat) (m x : Word32) : (r.setPred n m x).stack = r.stack := by unfold Regs.setPred; split <;> rfl

/-! ### Writing a vector slot -/

@[simp] theorem Regs.setRow_u (r : Regs) (n : Nat) (m : BitVec 32) (x : Row) : (r.setRow n m x).u = r.u := rfl
@[simp] theorem Regs.setRow_pay (r : Regs) (n : Nat) (m : BitVec 32) (x : Row) : (r.setRow n m x).pay = r.pay := rfl
@[simp] theorem Regs.setRow_p (r : Regs) (n : Nat) (m : BitVec 32) (x : Row) : (r.setRow n m x).p = r.p := rfl
@[simp] theorem Regs.setRow_t (r : Regs) (n : Nat) (m : BitVec 32) (x : Row) : (r.setRow n m x).t = r.t := rfl
@[simp] theorem Regs.setRow_acc (r : Regs) (n : Nat) (m : BitVec 32) (x : Row) : (r.setRow n m x).acc = r.acc := rfl
@[simp] theorem Regs.setRow_gmode (r : Regs) (n : Nat) (m : BitVec 32) (x : Row) : (r.setRow n m x).gmode = r.gmode := rfl
@[simp] theorem Regs.setRow_gstat (r : Regs) (n : Nat) (m : BitVec 32) (x : Row) : (r.setRow n m x).gstat = r.gstat := rfl
@[simp] theorem Regs.setRow_srst (r : Regs) (n : Nat) (m : BitVec 32) (x : Row) : (r.setRow n m x).srst = r.srst := rfl
@[simp] theorem Regs.setRow_fcnt (r : Regs) (n : Nat) (m : BitVec 32) (x : Row) : (r.setRow n m x).fcnt = r.fcnt := rfl
@[simp] theorem Regs.setRow_savectr (r : Regs) (n : Nat) (m : BitVec 32) (x : Row) : (r.setRow n m x).savectr = r.savectr := rfl
@[simp] theorem Regs.setRow_empc (r : Regs) (n : Nat) (m : BitVec 32) (x : Row) : (r.setRow n m x).empc = r.empc := rfl
@[simp] theorem Regs.setRow_emword (r : Regs) (n : Nat) (m : BitVec 32) (x : Row) : (r.setRow n m x).emword = r.emword := rfl
@[simp] theorem Regs.setRow_eminfo (r : Regs) (n : Nat) (m : BitVec 32) (x : Row) : (r.setRow n m x).eminfo = r.eminfo := rfl
@[simp] theorem Regs.setRow_blast (r : Regs) (n : Nat) (m : BitVec 32) (x : Row) : (r.setRow n m x).blast = r.blast := rfl
@[simp] theorem Regs.setRow_dorm (r : Regs) (n : Nat) (m : BitVec 32) (x : Row) : (r.setRow n m x).dorm = r.dorm := rfl
@[simp] theorem Regs.setRow_wakep (r : Regs) (n : Nat) (m : BitVec 32) (x : Row) : (r.setRow n m x).wakep = r.wakep := rfl
@[simp] theorem Regs.setRow_ctxf (r : Regs) (n : Nat) (m : BitVec 32) (x : Row) : (r.setRow n m x).ctxf = r.ctxf := rfl
@[simp] theorem Regs.setRow_decl (r : Regs) (n : Nat) (m : BitVec 32) (x : Row) : (r.setRow n m x).decl = r.decl := rfl
@[simp] theorem Regs.setRow_ident (r : Regs) (n : Nat) (m : BitVec 32) (x : Row) : (r.setRow n m x).ident = r.ident := rfl
@[simp] theorem Regs.setRow_uimask (r : Regs) (n : Nat) (m : BitVec 32) (x : Row) : (r.setRow n m x).uimask = r.uimask := rfl
@[simp] theorem Regs.setRow_uipend (r : Regs) (n : Nat) (m : BitVec 32) (x : Row) : (r.setRow n m x).uipend = r.uipend := rfl
@[simp] theorem Regs.setRow_misscnt (r : Regs) (n : Nat) (m : BitVec 32) (x : Row) : (r.setRow n m x).misscnt = r.misscnt := rfl
@[simp] theorem Regs.setRow_bring (r : Regs) (n : Nat) (m : BitVec 32) (x : Row) : (r.setRow n m x).bring = r.bring := rfl
@[simp] theorem Regs.setRow_prog (r : Regs) (n : Nat) (m : BitVec 32) (x : Row) : (r.setRow n m x).prog = r.prog := rfl
@[simp] theorem Regs.setRow_paths (r : Regs) (n : Nat) (m : BitVec 32) (x : Row) : (r.setRow n m x).paths = r.paths := rfl
@[simp] theorem Regs.setRow_stack (r : Regs) (n : Nat) (m : BitVec 32) (x : Row) : (r.setRow n m x).stack = r.stack := rfl

/-! ### A warp's write to a vector slot -/

@[simp] theorem Warp.setRow_kind (w : Warp) (n : Nat) (m : BitVec 32) (x : Row) : (w.setRow n m x).kind = w.kind := by unfold Warp.setRow; split <;> rfl
@[simp] theorem Warp.setRow_wg (w : Warp) (n : Nat) (m : BitVec 32) (x : Row) : (w.setRow n m x).wg = w.wg := by unfold Warp.setRow; split <;> rfl
@[simp] theorem Warp.setRow_record (w : Warp) (n : Nat) (m : BitVec 32) (x : Row) : (w.setRow n m x).record = w.record := by unfold Warp.setRow; split <;> rfl
@[simp] theorem Warp.setRow_asid (w : Warp) (n : Nat) (m : BitVec 32) (x : Row) : (w.setRow n m x).asid = w.asid := by unfold Warp.setRow; split <;> rfl
@[simp] theorem Warp.setRow_vf (w : Warp) (n : Nat) (m : BitVec 32) (x : Row) : (w.setRow n m x).vf = w.vf := by unfold Warp.setRow; split <;> rfl
@[simp] theorem Warp.setRow_qid (w : Warp) (n : Nat) (m : BitVec 32) (x : Row) : (w.setRow n m x).qid = w.qid := by unfold Warp.setRow; split <;> rfl
@[simp] theorem Warp.setRow_grid (w : Warp) (n : Nat) (m : BitVec 32) (x : Row) : (w.setRow n m x).grid = w.grid := by unfold Warp.setRow; split <;> rfl
@[simp] theorem Warp.setRow_place (w : Warp) (n : Nat) (m : BitVec 32) (x : Row) : (w.setRow n m x).place = w.place := by unfold Warp.setRow; split <;> rfl
@[simp] theorem Warp.setRow_arriving (w : Warp) (n : Nat) (m : BitVec 32) (x : Row) : (w.setRow n m x).arriving = w.arriving := by unfold Warp.setRow; split <;> rfl
@[simp] theorem Warp.setRow_leaving (w : Warp) (n : Nat) (m : BitVec 32) (x : Row) : (w.setRow n m x).leaving = w.leaving := by unfold Warp.setRow; split <;> rfl
@[simp] theorem Warp.setRow_waitingSince (w : Warp) (n : Nat) (m : BitVec 32) (x : Row) : (w.setRow n m x).waitingSince = w.waitingSince := by unfold Warp.setRow; split <;> rfl
@[simp] theorem Warp.setRow_wakeDie (w : Warp) (n : Nat) (m : BitVec 32) (x : Row) : (w.setRow n m x).wakeDie = w.wakeDie := by unfold Warp.setRow; split <;> rfl
@[simp] theorem Warp.setRow_fresh (w : Warp) (n : Nat) (m : BitVec 32) (x : Row) : (w.setRow n m x).fresh = w.fresh := by unfold Warp.setRow; split <;> rfl
@[simp] theorem Warp.setRow_residentAt (w : Warp) (n : Nat) (m : BitVec 32) (x : Row) : (w.setRow n m x).residentAt = w.residentAt := by unfold Warp.setRow; split <;> rfl
@[simp] theorem Warp.setRow_issuedAt (w : Warp) (n : Nat) (m : BitVec 32) (x : Row) : (w.setRow n m x).issuedAt = w.issuedAt := by unfold Warp.setRow; split <;> rfl
@[simp] theorem Warp.setRow_readyAt (w : Warp) (n : Nat) (m : BitVec 32) (x : Row) : (w.setRow n m x).readyAt = w.readyAt := by unfold Warp.setRow; split <;> rfl
@[simp] theorem Warp.setRow_pinned (w : Warp) (n : Nat) (m : BitVec 32) (x : Row) : (w.setRow n m x).pinned = w.pinned := by unfold Warp.setRow; split <;> rfl
@[simp] theorem Warp.setRow_pinnedAt (w : Warp) (n : Nat) (m : BitVec 32) (x : Row) : (w.setRow n m x).pinnedAt = w.pinnedAt := by unfold Warp.setRow; split <;> rfl
@[simp] theorem Warp.setRow_accDirty (w : Warp) (n : Nat) (m : BitVec 32) (x : Row) : (w.setRow n m x).accDirty = w.accDirty := by unfold Warp.setRow; split <;> rfl
@[simp] theorem Warp.setRow_placedHot (w : Warp) (n : Nat) (m : BitVec 32) (x : Row) : (w.setRow n m x).placedHot = w.placedHot := by unfold Warp.setRow; split <;> rfl
@[simp] theorem Warp.setRow_faultVa (w : Warp) (n : Nat) (m : BitVec 32) (x : Row) : (w.setRow n m x).faultVa = w.faultVa := by unfold Warp.setRow; split <;> rfl
@[simp] theorem Warp.setRow_unsaved (w : Warp) (n : Nat) (m : BitVec 32) (x : Row) : (w.setRow n m x).unsaved = w.unsaved := by unfold Warp.setRow; split <;> rfl
@[simp] theorem Warp.setRow_faultSlot (w : Warp) (n : Nat) (m : BitVec 32) (x : Row) : (w.setRow n m x).faultSlot = w.faultSlot := by unfold Warp.setRow; split <;> rfl
@[simp] theorem Warp.setRow_trap (w : Warp) (n : Nat) (m : BitVec 32) (x : Row) : (w.setRow n m x).trap = w.trap := by unfold Warp.setRow; split <;> rfl
@[simp] theorem Warp.setRow_uiLanes (w : Warp) (n : Nat) (m : BitVec 32) (x : Row) : (w.setRow n m x).uiLanes = w.uiLanes := by unfold Warp.setRow; split <;> rfl
@[simp] theorem Warp.setRow_node (w : Warp) (n : Nat) (m : BitVec 32) (x : Row) : (w.setRow n m x).node = w.node := by unfold Warp.setRow; split <;> rfl
@[simp] theorem Warp.setRow_batches (w : Warp) (n : Nat) (m : BitVec 32) (x : Row) : (w.setRow n m x).batches = w.batches := by unfold Warp.setRow; split <;> rfl
@[simp] theorem Warp.setRow_launches (w : Warp) (n : Nat) (m : BitVec 32) (x : Row) : (w.setRow n m x).launches = w.launches := by unfold Warp.setRow; split <;> rfl
@[simp] theorem Warp.setRow_copyFault (w : Warp) (n : Nat) (m : BitVec 32) (x : Row) : (w.setRow n m x).copyFault = w.copyFault := by unfold Warp.setRow; split <;> rfl
@[simp] theorem Warp.setRow_released (w : Warp) (n : Nat) (m : BitVec 32) (x : Row) : (w.setRow n m x).released = w.released := by unfold Warp.setRow; split <;> rfl

/-! ### Reading after a write -/

theorem State.warp?_setWarp (s : State) (w : Nat) (x : Warp) (n : Nat) : (s.setWarp w x).warp? n = if n = w then some x else s.warp? n :=
  SMap.find?_insert s.warps w x n

@[simp] theorem State.warp?_setWarp_self (s : State) (w : Nat) (x : Warp) : (s.setWarp w x).warp? w = some x := by simp [State.warp?_setWarp]

theorem State.warp?_modWarp (s : State) (w : Nat) (f : Warp → Warp) (n : Nat) :
    (s.modWarp w f).warp? n = if n = w then (s.warp? w).map f else s.warp? n := SMap.find?_adjust s.warps w f n

@[simp] theorem State.warp?_modWarp_self (s : State) (w : Nat) (f : Warp → Warp) : (s.modWarp w f).warp? w = (s.warp? w).map f := by
  simp [State.warp?_modWarp]

@[simp] theorem State.warp?_modRegs_self (s : State) (w : Nat) (f : Regs → Regs) :
    (s.modRegs w f).warp? w = (s.warp? w).map fun x => { x with regs := f x.regs } := State.warp?_modWarp_self s w _

@[simp] theorem State.warp?_modPath_self (s : State) (w p : Nat) (f : Path → Path) :
    (s.modPath w p f).warp? w = (s.warp? w).map fun x => { x with regs := { x.regs with paths := x.regs.paths.adjust p f } } :=
  State.warp?_modRegs_self s w _

theorem State.warp?_modWarp_of_ne {s : State} {w n : Nat} {f : Warp → Warp} (h : n ≠ w) : (s.modWarp w f).warp? n = s.warp? n := by
  simp [State.warp?_modWarp, h]

theorem State.warp?_modRegs_of_ne {s : State} {w n : Nat} {f : Regs → Regs} (h : n ≠ w) : (s.modRegs w f).warp? n = s.warp? n :=
  State.warp?_modWarp_of_ne h

theorem State.warp?_modPath_of_ne {s : State} {w p n : Nat} {f : Path → Path} (h : n ≠ w) : (s.modPath w p f).warp? n = s.warp? n :=
  State.warp?_modRegs_of_ne h

/-- A path after it has been changed. -/
@[simp] theorem State.path?_modPath_self (s : State) (w p : Nat) (f : Path → Path) : (s.modPath w p f).path? w p = (s.path? w p).map f := by
  simp only [State.path?, State.warp?_modPath_self]
  cases s.warp? w <;> simp

/-- The other paths of the warp after one has been changed. -/
theorem State.path?_modPath_of_ne {s : State} {w p n : Nat} {f : Path → Path} (h : n ≠ p) : (s.modPath w p f).path? w n = s.path? w n := by
  simp only [State.path?, State.warp?_modPath_self]
  cases s.warp? w <;> simp [SMap.find?_adjust_of_ne h]

/-- A uniform after a uniform has been written. -/
theorem Regs.uni_setUni (r : Regs) (n : Nat) (x : Word64) (k : Nat) : (r.setUni n x).uni k = if k = n then x else r.uni k :=
  SMap.get_put 0 r.u n x k

@[simp] theorem Regs.uni_setUni_self (r : Regs) (n : Nat) (x : Word64) : (r.setUni n x).uni n = x := by simp [Regs.uni_setUni]

/-- p15 reads as true, whatever has been written (R66). -/
@[simp] theorem Regs.pred_true (r : Regs) : r.pred 15 = 0xFFFFFFFF := rfl

/-- A write to p15 is discarded (R66). -/
@[simp] theorem Regs.setPred_true (r : Regs) (m x : Word32) : r.setPred 15 m x = r := rfl

/-- A predicate after its lanes have been written. -/
theorem Regs.pred_setPred (r : Regs) (n : Nat) (m x : Word32) (h : n ≠ 15) (k : Nat) :
    (r.setPred n m x).pred k = if k = n then (r.pred n &&& ~~~m) ||| (x &&& m) else r.pred k := by
  unfold Regs.pred Regs.setPred
  by_cases hk : k = n
  · subst hk; simp [h]
  · by_cases h15 : k = 15
    · subst h15; simp [Ne.symm h]
    · simp [h, hk, h15, SMap.get_put]

@[simp] theorem Row.lane_ofFn (f : Nat → Word32) (l : Nat) (h : l < 32) : (Row.ofFn f).lane l = f l := by
  simp [Row.ofFn, Row.lane, List.getD_eq_getElem?_getD, h]

@[simp] theorem Row.lane_merge (m : BitVec 32) (x y : Row) (l : Nat) (h : l < 32) :
    (Row.merge m x y).lane l = if m.getLsbD l then x.lane l else y.lane l := by
  simp [Row.merge, Row.lane, List.getD_eq_getElem?_getD, h]

/-- A slot after its lanes have been written. -/
theorem Regs.row_setRow (r : Regs) (n : Nat) (m : BitVec 32) (x : Row) (k : Nat) :
    (r.setRow n m x).row k = if k = n then Row.merge m x (r.row n) else r.row k := by
  simp only [Regs.setRow, Regs.row, SMap.find?_insert]
  split <;> rfl

theorem Warp.setRow_regs (w : Warp) (n : Nat) (m : BitVec 32) (x : Row) :
    (w.setRow n m x).regs = if m = 0 then w.regs else w.regs.setRow n m x := by
  unfold Warp.setRow; split <;> rfl

end Sys2Proof.Machine
end

