-- ==== Sys2Proof/Tests/Slice0.lean ====
section
/-!
SUPPORT. The author's own tests: the words of the manual and of every row, ill-formed terms, results that the manual works out, and a state
that meets the hypotheses of each statement.
-/

namespace Sys2Proof.Tests

set_option Elab.async false

open Sys2Proof Sys2Proof.Machine

/-! ### Words -/

/-- The guard !p5. -/
def g : Guard := { inv := true, pred := 5 }

/-- Every word decodes to the instruction beside it. -/
abbrev decodesAll (nbits : Nat) (ws : List (Nat × Instr)) : Prop := ∀ w ∈ ws, decodeTableWord nbits w.1 = some w.2

/-- Words of R71-R76, laid out from R52 and the format of the opcode (R57-R63), under the guard !p5. -/
noncomputable def wordsControl0 : List (Nat × Instr) := [
    (0x006A000000000001, .nop { g := g }),
    (0x00AA0000ABCDE401, .bra { g := g, ofs := 0xABCDE4 }),
    (0x00EA001800000003, .brx { g := g, a := 24, q := 1 }),
    (0x012A1418ABCDE401, .call { g := g, d := 20, a := 24, ofs := 0xABCDE4 }),
    (0x016A141800000043, .callx { g := g, d := 20, a := 24, q := 33 }),
    (0x01AA000000000001, .ret { g := g }),
    (0x01EA000000000001, .exit { g := g }),
    (0x022A000000000001, .yield { g := g }),
    (0x026A0000ABCDE401, .join { g := g, ofs := 0xABCDE4 }),
    (0x02AA0000ABCDE401, .loop { g := g, ofs := 0xABCDE4 }),
    (0x02EA0000ABCDE403, .brau { g := g, q := 1, ofs := 0xABCDE4 }),
    (0x032A00040208000F, .waitf { g := g, a := 4, b := 2, c := 8, q := 7 })]

theorem test_wordsControl0 : decodesAll 64 wordsControl0 := by decide +kernel

/-- Words of R71-R76, laid out from R52 and the format of the opcode (R57-R63), under the guard !p5. -/
noncomputable def wordsControl1 : List (Nat × Instr) := [
    (0x036A140C00000007, .pcomb { g := g, d := 20, a := 12, q := 3 }),
    (0x03AA0A0C0E000007, .pand { g := g, d := 10, a := 12, b := 14, q := 3 }),
    (0x03EA0A0C0E000007, .por { g := g, d := 10, a := 12, b := 14, q := 3 }),
    (0x042A0A0C0E000007, .pxor { g := g, d := 10, a := 12, b := 14, q := 3 }),
    (0x046A0A0C00000001, .pnot { g := g, d := 10, a := 12 }),
    (0x04AA0A0C0E1E0011, .plop3 { g := g, d := 10, a := 12, b := 14, c := 30, ci := true }),
    (0x04EA0A1800000003, .pmask { g := g, d := 10, a := 24, q := 1 }),
    (0x052A0A1800000003, .pset { g := g, d := 10, a := 24, q := 1 }),
    (0x056A0A0C0E080001, .psel { g := g, d := 10, a := 12, b := 14, c := 8 })]

theorem test_wordsControl1 : decodesAll 64 wordsControl1 := by decide +kernel

/-- Words of R71-R76, laid out from R52 and the format of the opcode (R57-R63), under the guard !p5. -/
noncomputable def wordsInteger0 : List (Nat × Instr) := [
    (0x102A14181C000543, .iadd { g := g, d := 20, a := 24, b := 28, q := 1, t := .s32, bs := true }),
    (0x106A14181C000543, .isub { g := g, d := 20, a := 24, b := 28, q := 1, t := .s32, bs := true }),
    (0x10AA14181C1E0541, .isum { g := g, d := 20, a := 24, b := 28, c := 30, t := .s32, bs := true }),
    (0x10EA14181C080743, .icadd { g := g, d := 20, a := 24, b := 28, c := 8, q := 1, t := .z32, bs := true }),
    (0x112A141800000503, .ineg { g := g, d := 20, a := 24, q := 1, t := .s32 }),
    (0x116A141800000503, .iabs { g := g, d := 20, a := 24, q := 1, t := .s32 }),
    (0x11AA14181C000541, .imin { g := g, d := 20, a := 24, b := 28, t := .s32, bs := true }),
    (0x11EA14181C000541, .imax { g := g, d := 20, a := 24, b := 28, t := .s32, bs := true }),
    (0x122A14181C000541, .imul { g := g, d := 20, a := 24, b := 28, t := .s32, bs := true }),
    (0x126A14181C000541, .imulhi { g := g, d := 20, a := 24, b := 28, t := .s32, bs := true }),
    (0x12AA14181C1E0541, .imad { g := g, d := 20, a := 24, b := 28, c := 30, t := .s32, bs := true }),
    (0x12EA14181C1E07C1, .imadw { g := g, d := 20, a := 24, b := 28, c := 30, t := .z64, bs := true })]

theorem test_wordsInteger0 : decodesAll 64 wordsInteger0 := by decide +kernel

/-- Words of R71-R76, laid out from R52 and the format of the opcode (R57-R63), under the guard !p5. -/
noncomputable def wordsInteger1 : List (Nat × Instr) := [
    (0x132A14181C1E0541, .sad { g := g, d := 20, a := 24, b := 28, c := 30, t := .s32, bs := true }),
    (0x136A14181C1E0547, .idot4 { g := g, d := 20, a := 24, b := 28, c := 30, q := 3, t := .s32, bs := true }),
    (0x13AA0A181C00054B, .icmp { g := g, d := 10, a := 24, b := 28, q := 5, t := .s32, bs := true }),
    (0x13EA14181C080741, .sel { g := g, d := 20, a := 24, b := 28, c := 8, t := .z32, bs := true }),
    (0x142A14181C000741, .and { g := g, d := 20, a := 24, b := 28, t := .z32, bs := true }),
    (0x146A14181C000741, .or { g := g, d := 20, a := 24, b := 28, t := .z32, bs := true }),
    (0x14AA14181C000741, .xor { g := g, d := 20, a := 24, b := 28, t := .z32, bs := true }),
    (0x14EA14181C1E0711, .lop3 { g := g, d := 20, a := 24, b := 28, c := 30, t := .z32, ci := true }),
    (0x152A14181C000741, .shl { g := g, d := 20, a := 24, b := 28, t := .z32, bs := true }),
    (0x156A14181C000741, .shr { g := g, d := 20, a := 24, b := 28, t := .z32, bs := true }),
    (0x15AA14181C000741, .sar { g := g, d := 20, a := 24, b := 28, t := .z32, bs := true }),
    (0x15EA14181C000741, .rot { g := g, d := 20, a := 24, b := 28, t := .z32, bs := true })]

theorem test_wordsInteger1 : decodesAll 64 wordsInteger1 := by decide +kernel

/-- Words of R71-R76, laid out from R52 and the format of the opcode (R57-R63), under the guard !p5. -/
noncomputable def wordsInteger2 : List (Nat × Instr) := [
    (0x162A14181C1E0743, .fshf { g := g, d := 20, a := 24, b := 28, c := 30, q := 1, t := .z32, bs := true }),
    (0x166A14181C000541, .bfe { g := g, d := 20, a := 24, b := 28, t := .s32, bs := true }),
    (0x16AA14181C000741, .bfi { g := g, d := 20, a := 24, b := 28, t := .z32, bs := true }),
    (0x16EA141800000701, .brev { g := g, d := 20, a := 24, t := .z32 }),
    (0x172A141800000701, .popc { g := g, d := 20, a := 24, t := .z32 }),
    (0x176A141800000701, .clz { g := g, d := 20, a := 24, t := .z32 }),
    (0x17AA141800000701, .ctz { g := g, d := 20, a := 24, t := .z32 }),
    (0x17EA14001C000743, .mov { g := g, d := 20, b := 28, q := 1, t := .z32, bs := true }),
    (0x182A1400ABCDEFA1, .movi { g := g, d := 20, imm := 0xABCDEF, t := .s32 }),
    (0x186A14181C0007CF, .lea { g := g, d := 20, a := 24, b := 28, q := 7, t := .z64, bs := true }),
    (0x18AA14181C000745, .lxch { g := g, d := 20, a := 24, b := 28, q := 2, t := .z32, bs := true }),
    (0x18EA14181C000741, .perm { g := g, d := 20, a := 24, b := 28, t := .z32, bs := true })]

theorem test_wordsInteger2 : decodesAll 64 wordsInteger2 := by decide +kernel

/-- Words of R71-R76, laid out from R52 and the format of the opcode (R57-R63), under the guard !p5. -/
noncomputable def wordsInteger3 : List (Nat × Instr) := [
    (0x192A14181C000743, .bcast { g := g, d := 20, a := 24, b := 28, q := 1, t := .z32, bs := true }),
    (0x196A14180000050B, .wred { g := g, d := 20, a := 24, q := 5, t := .s32 }),
    (0x19AA14180000050F, .wscan { g := g, d := 20, a := 24, q := 7, t := .s32 }),
    (0x19EA141800000701, .matchLanes { g := g, d := 20, a := 24, t := .z32 })]

theorem test_wordsInteger3 : decodesAll 64 wordsInteger3 := by decide +kernel

/-- Words of R71-R76, laid out from R52 and the format of the opcode (R57-R63), under the guard !p5. -/
noncomputable def wordsFloat0 : List (Nat × Instr) := [
    (0x302A14181C0010C1, .fadd { g := g, d := 20, a := 24, b := 28, m := 2, t := .f32, bs := true }),
    (0x306A14181C0010C1, .fsub { g := g, d := 20, a := 24, b := 28, m := 2, t := .f32, bs := true }),
    (0x30AA14181C0010C1, .fmul { g := g, d := 20, a := 24, b := 28, m := 2, t := .f32, bs := true }),
    (0x30EA14181C1E10C1, .ffma { g := g, d := 20, a := 24, b := 28, c := 30, m := 2, t := .f32, bs := true }),
    (0x312A14181C0000C1, .fmin { g := g, d := 20, a := 24, b := 28, t := .f32, bs := true }),
    (0x316A14181C0000C1, .fmax { g := g, d := 20, a := 24, b := 28, t := .f32, bs := true }),
    (0x31AA0A181C0000CF, .fcmp { g := g, d := 10, a := 24, b := 28, q := 7, t := .f32, bs := true }),
    (0x31EA141800000081, .fclass { g := g, d := 20, a := 24, t := .f32 }),
    (0x322A141800001081, .frnd { g := g, d := 20, a := 24, m := 2, t := .f32 }),
    (0x326A14181C0010C1, .fldexp { g := g, d := 20, a := 24, b := 28, m := 2, t := .f32, bs := true }),
    (0x32AA141800000081, .fgetexp { g := g, d := 20, a := 24, t := .f32 }),
    (0x32EA14181C0010C1, .fdivs { g := g, d := 20, a := 24, b := 28, m := 2, t := .f32, bs := true })]

theorem test_wordsFloat0 : decodesAll 64 wordsFloat0 := by decide +kernel

/-- Words of R71-R76, laid out from R52 and the format of the opcode (R57-R63), under the guard !p5. -/
noncomputable def wordsFloat1 : List (Nat × Instr) := [
    (0x332A141800001081, .frcp { g := g, d := 20, a := 24, m := 2, t := .f32 }),
    (0x336A141800001081, .frsq { g := g, d := 20, a := 24, m := 2, t := .f32 }),
    (0x33AA141800001081, .fsqrt { g := g, d := 20, a := 24, m := 2, t := .f32 }),
    (0x33EA141800001081, .fexp2 { g := g, d := 20, a := 24, m := 2, t := .f32 }),
    (0x342A141800001081, .flog2 { g := g, d := 20, a := 24, m := 2, t := .f32 }),
    (0x346A141800001081, .fsin { g := g, d := 20, a := 24, m := 2, t := .f32 }),
    (0x34AA141800001081, .fcos { g := g, d := 20, a := 24, m := 2, t := .f32 }),
    (0x34EA141800001081, .ftanh { g := g, d := 20, a := 24, m := 2, t := .f32 }),
    (0x352A14181C001141, .hadd2 { g := g, d := 20, a := 24, b := 28, m := 2, t := .bf16, bs := true }),
    (0x356A14181C001141, .hmul2 { g := g, d := 20, a := 24, b := 28, m := 2, t := .bf16, bs := true }),
    (0x35AA14181C1E1141, .hfma2 { g := g, d := 20, a := 24, b := 28, c := 30, m := 2, t := .bf16, bs := true }),
    (0x35EA14181C000141, .hmin2 { g := g, d := 20, a := 24, b := 28, t := .bf16, bs := true })]

theorem test_wordsFloat1 : decodesAll 64 wordsFloat1 := by decide +kernel

/-- Words of R71-R76, laid out from R52 and the format of the opcode (R57-R63), under the guard !p5. -/
noncomputable def wordsFloat2 : List (Nat × Instr) := [
    (0x362A14181C000141, .hmax2 { g := g, d := 20, a := 24, b := 28, t := .bf16, bs := true }),
    (0x366A14181C1E1141, .hdot2 { g := g, d := 20, a := 24, b := 28, c := 30, m := 2, t := .bf16, bs := true }),
    (0x36AA141800031501, .cvt { g := g, d := 20, a := 24, c := 3, m := 2, t := .s32 }),
    (0x36EA14181C001541, .cvti { g := g, d := 20, a := 24, b := 28, m := 2, t := .s32, bs := true }),
    (0x372A141800050083, .cvtf { g := g, d := 20, a := 24, c := 5, q := 1, t := .f32 }),
    (0x376A14181C011141, .cvtp { g := g, d := 20, a := 24, b := 28, c := 1, m := 2, t := .bf16, bs := true }),
    (0x37AA14181C001247, .qnt { g := g, d := 20, a := 24, b := 28, m := 2, q := 3, t := .e4m3, bs := true }),
    (0x37EA14181C001247, .qnth { g := g, d := 20, a := 24, b := 28, m := 2, q := 3, t := .e4m3, bs := true }),
    (0x382A14181C001247, .dqnt { g := g, d := 20, a := 24, b := 28, m := 2, q := 3, t := .e4m3, bs := true }),
    (0x386A14181C001247, .qscale { g := g, d := 20, a := 24, b := 28, m := 2, q := 3, t := .e4m3, bs := true }),
    (0x38AA141800001087, .hadt { g := g, d := 20, a := 24, m := 2, q := 3, t := .f32 }),
    (0x38EA14181C000147, .cbld { g := g, d := 20, a := 24, b := 28, q := 3, t := .bf16, bs := true })]

theorem test_wordsFloat2 : decodesAll 64 wordsFloat2 := by decide +kernel

/-- Words of R71-R76, laid out from R52 and the format of the opcode (R57-R63), under the guard !p5. -/
noncomputable def wordsMatrix0 : List (Nat × Instr) := [
    (0x502A060C0E1E8083, .mma { g := g, d := 6, a := 12, b := 14, c := 30, sfs := 2, q := 1, t := .f32 }),
    (0x506A1418001E0027, .mfence { g := g, d := 20, a := 24, c := 30, q := 3, cs := true }),
    (0x50AA140000000003, .mwait { g := g, d := 20, q := 1 }),
    (0x50EA060000000001, .mzero { g := g, d := 6 }),
    (0x512A060C00008081, .mlda { g := g, d := 6, a := 12, sfs := 2, t := .f32 }),
    (0x516A0A0400009081, .msta { g := g, d := 10, a := 4, sfs := 2, m := 2, t := .f32 }),
    (0x51AA140400080011, .mrow { g := g, d := 20, a := 4, c := 8, ci := true }),
    (0x51EA061800080011, .msetr { g := g, d := 6, a := 24, c := 8, ci := true }),
    (0x522A0604001E1091, .mcvt { g := g, d := 6, a := 4, c := 30, m := 2, t := .f32, ci := true }),
    (0x526A0000001E8001, .mptb { g := g, c := 30, sfs := 2 }),
    (0x52AA000000008005, .mfmt { g := g, sfs := 2, q := 2 }),
    (0x52EA0A1800A5C079, .tld { g := g, d := 10, a := 24, ofs := 0xA5C, t := .z64 })]

theorem test_wordsMatrix0 : decodesAll 64 wordsMatrix0 := by decide +kernel

/-- Words of R71-R76, laid out from R52 and the format of the opcode (R57-R63), under the guard !p5. -/
noncomputable def wordsMatrix1 : List (Nat × Instr) := [
    (0x532A0A1800A5C079, .tst { g := g, d := 10, a := 24, ofs := 0xA5C, t := .z64 }),
    (0x536A0A0C1C000043, .tmod { g := g, d := 10, a := 12, b := 28, q := 1, bs := true })]

theorem test_wordsMatrix1 : decodesAll 64 wordsMatrix1 := by decide +kernel

/-- Words of R71-R76, laid out from R52 and the format of the opcode (R57-R63), under the guard !p5. -/
noncomputable def wordsMemory0 : List (Nat × Instr) := [
    (0x602A14181CA5C155, .ld { g := g, d := 20, a := 24, b := 28, qa := 2, ofs := 0xA5C, t := .s32, iv := true }),
    (0x606A14181CA5C0D5, .st { g := g, d := 20, a := 24, b := 28, qa := 1, ofs := 0xA5C, t := .s32, iv := true }),
    (0x60AA14181CA5C0F5, .ldv { g := g, d := 20, a := 24, b := 28, qa := 1, ofs := 0xA5C, t := .z32, iv := true }),
    (0x60EA14181CA5C0F5, .stv { g := g, d := 20, a := 24, b := 28, qa := 1, ofs := 0xA5C, t := .z32, iv := true }),
    (0x612A0A1800A5C071, .ldp { g := g, d := 10, a := 24, ofs := 0xA5C, t := .z32 }),
    (0x616A0A1800A5C071, .stp { g := g, d := 10, a := 24, ofs := 0xA5C, t := .z32 }),
    (0x61AA141800A5C051, .ldu { g := g, d := 20, a := 24, ofs := 0xA5C, t := .s32 }),
    (0x61EA141800A5C051, .stu { g := g, d := 20, a := 24, ofs := 0xA5C, t := .s32 }),
    (0x622A14181CA5C157, .gath { g := g, d := 20, a := 24, b := 28, qa := 2, ofs := 0xA5C, t := .s32, iv := true, qb := true }),
    (0x626A14181CA5C0D5, .scat { g := g, d := 20, a := 24, b := 28, qa := 1, ofs := 0xA5C, t := .s32, iv := true }),
    (0x62AA14181CA5C157, .ldnf { g := g, d := 20, a := 24, b := 28, qa := 2, ofs := 0xA5C, t := .s32, iv := true, qb := true }),
    (0x62EA14181CA5C155, .nld { g := g, d := 20, a := 24, b := 28, qa := 2, ofs := 0xA5C, t := .s32, iv := true })]

theorem test_wordsMemory0 : decodesAll 64 wordsMemory0 := by decide +kernel

/-- Words of R71-R76, laid out from R52 and the format of the opcode (R57-R63), under the guard !p5. -/
noncomputable def wordsMemory1 : List (Nat × Instr) := [
    (0x632A14181CA5C155, .nst { g := g, d := 20, a := 24, b := 28, qa := 2, ofs := 0xA5C, t := .s32, iv := true }),
    (0x636A141800A5C151, .nldu { g := g, d := 20, a := 24, qa := 2, ofs := 0xA5C, t := .s32 }),
    (0x63AA141800A5C151, .nstu { g := g, d := 20, a := 24, qa := 2, ofs := 0xA5C, t := .s32 }),
    (0x63EA00181CA5C0F5, .nsetf { g := g, a := 24, b := 28, qa := 1, ofs := 0xA5C, t := .z32, iv := true }),
    (0x642A14181CA5C055, .cld { g := g, d := 20, a := 24, b := 28, ofs := 0xA5C, t := .s32, iv := true }),
    (0x646A141800A5C051, .cldu { g := g, d := 20, a := 24, ofs := 0xA5C, t := .s32 }),
    (0x64AA14181CA5C00D, .smpl { g := g, d := 20, a := 24, b := 28, ofs := 0xA5C, t := .f32, iv := true }),
    (0x64EA00181CA5C0F5, .pref { g := g, a := 24, b := 28, qa := 1, ofs := 0xA5C, t := .z32, iv := true }),
    (0x652A001800A5C0F1, .prefu { g := g, a := 24, qa := 1, ofs := 0xA5C, t := .z32 }),
    (0x656A00181CA5C0F5, .cwb { g := g, a := 24, b := 28, qa := 1, ofs := 0xA5C, t := .z32, iv := true }),
    (0x65AA001800000005, .cinv { g := g, a := 24, q := 2 })]

theorem test_wordsMemory1 : decodesAll 64 wordsMemory1 := by decide +kernel

/-- Words of R71-R76, laid out from R52 and the format of the opcode (R57-R63), under the guard !p5. -/
noncomputable def wordsOrdering0 : List (Nat × Instr) := [
    (0x782A00000000000B, .phase { g := g, q := 5 }),
    (0x786A00000003001B, .fence { g := g, c := 3, q := 5, ci := true }),
    (0x78AA00000001001B, .xfence { g := g, c := 1, q := 5, ci := true }),
    (0x78EA000000000001, .fwait { g := g }),
    (0x792A14181CA5C755, .lds { g := g, d := 20, a := 24, b := 28, sc := 3, qa := 2, ofs := 0xA5C, t := .s32, iv := true }),
    (0x796A14181CA5C755, .sts { g := g, d := 20, a := 24, b := 28, sc := 3, qa := 2, ofs := 0xA5C, t := .s32, iv := true }),
    (0x79AA14181CA5C6D5, .atom { g := g, d := 20, a := 24, b := 28, sc := 3, qa := 1, ofs := 0xA5C, t := .s32, iv := true }),
    (0x79EA141800A5C6D1, .atomu { g := g, d := 20, a := 24, sc := 3, qa := 1, ofs := 0xA5C, t := .s32 }),
    (0x7A2A14181CA5C675, .cas { g := g, d := 20, a := 24, b := 28, sc := 3, ofs := 0xA5C, t := .z32, iv := true }),
    (0x7A6A14181CA5C6D5, .red { g := g, d := 20, a := 24, b := 28, sc := 3, qa := 1, ofs := 0xA5C, t := .s32, iv := true }),
    (0x7AAA00000008001B, .bar { g := g, c := 8, q := 5, ci := true }),
    (0x7AEA14000008001B, .bara { g := g, d := 20, c := 8, q := 5, ci := true })]

theorem test_wordsOrdering0 : decodesAll 64 wordsOrdering0 := by decide +kernel

/-- Words of R71-R76, laid out from R52 and the format of the opcode (R57-R63), under the guard !p5. -/
noncomputable def wordsOrdering1 : List (Nat × Instr) := [
    (0x7B2A00180008001B, .barw { g := g, a := 24, c := 8, q := 5, ci := true }),
    (0x7B6A001800000003, .tbinit { g := g, a := 24, q := 1 }),
    (0x7BAA14181C000043, .tbexp { g := g, d := 20, a := 24, b := 28, q := 1, bs := true }),
    (0x7BEA14181C000043, .tbarr { g := g, d := 20, a := 24, b := 28, q := 1, bs := true }),
    (0x7C2A14181C000041, .tbwait { g := g, d := 20, a := 24, b := 28, bs := true }),
    (0x7C6A14181C000041, .tbq { g := g, d := 20, a := 24, b := 28, bs := true })]

theorem test_wordsOrdering1 : decodesAll 64 wordsOrdering1 := by decide +kernel

/-- Words of R71-R76, laid out from R52 and the format of the opcode (R57-R63), under the guard !p5. -/
noncomputable def wordsCopy : List (Nat × Instr) := [
    (0x882A14181C008003, .cpy { g := g, d := 20, a := 24, b := 28, sfs := 2, q := 1 }),
    (0x886A14181C008003, .cpyo { g := g, d := 20, a := 24, b := 28, sfs := 2, q := 1 }),
    (0x88AA140C00008007, .cpyt { g := g, d := 20, a := 12, sfs := 2, q := 3 }),
    (0x88EA140C1C009207, .cpyq { g := g, d := 20, a := 12, b := 28, sfs := 2, m := 2, q := 3, t := .e4m3 }),
    (0x892A14181C1E8003, .cpymc { g := g, d := 20, a := 24, b := 28, c := 30, sfs := 2, q := 1 }),
    (0x896A140000000001, .cpys { g := g, d := 20 }),
    (0x89AA140000000001, .cpyc { g := g, d := 20 }),
    (0x89EA140000000001, .cpyw { g := g, d := 20 })]

theorem test_wordsCopy : decodesAll 64 wordsCopy := by decide +kernel

/-- Words of R71-R76, laid out from R52 and the format of the opcode (R57-R63), under the guard !p5. -/
noncomputable def wordsContext : List (Nat × Instr) := [
    (0x8C2A14001C000743, .rld { g := g, d := 20, b := 28, q := 1, t := .z32, bs := true }),
    (0x8C6A14001C000041, .rldu { g := g, d := 20, b := 28, bs := true }),
    (0x8CAA14181C000741, .xshuf { g := g, d := 20, a := 24, b := 28, t := .z32, bs := true }),
    (0x8CEA140000000005, .xpair { g := g, d := 20, q := 2 }),
    (0x8D2A140000000007, .ctxq { g := g, d := 20, q := 3 }),
    (0x8D6A141800000001, .sleep { g := g, d := 20, a := 24 }),
    (0x8DAA001800000001, .wake { g := g, a := 24 }),
    (0x8DEA001800000001, .hotset { g := g, a := 24 })]

theorem test_wordsContext : decodesAll 64 wordsContext := by decide +kernel

/-- Words of R71-R76, laid out from R52 and the format of the opcode (R57-R63), under the guard !p5. -/
noncomputable def wordsPersonality : List (Nat × Instr) := [
    (0x902A141800080011, .pinstall { g := g, d := 20, a := 24, c := 8, ci := true }),
    (0x906A001800080011, .pbind { g := g, a := 24, c := 8, ci := true }),
    (0x90AA001800000003, .emret { g := g, a := 24, q := 1 }),
    (0x90EA140000080011, .pquery { g := g, d := 20, c := 8, ci := true }),
    (0x912A140000080011, .pevict { g := g, d := 20, c := 8, ci := true }),
    (0x916A001800000007, .gzinv { g := g, a := 24, q := 3 })]

theorem test_wordsPersonality : decodesAll 64 wordsPersonality := by decide +kernel

/-- Words of R71-R76, laid out from R52 and the format of the opcode (R57-R63), under the guard !p5. -/
noncomputable def wordsWork : List (Nat × Instr) := [
    (0x942A14181C000043, .npush { g := g, d := 20, a := 24, b := 28, q := 1, bs := true }),
    (0x946A001800000001, .nflush { g := g, a := 24 }),
    (0x94AA141800000001, .nqry { g := g, d := 20, a := 24 }),
    (0x94EA140000000001, .nrecv { g := g, d := 20 }),
    (0x952A141800000001, .nlaunch { g := g, d := 20, a := 24 }),
    (0x956A141800000003, .nlwait { g := g, d := 20, a := 24, q := 1 }),
    (0x95AA14181C000043, .syscall { g := g, d := 20, a := 24, b := 28, q := 1, bs := true }),
    (0x95EA140000000001, .sysrd { g := g, d := 20 }),
    (0x962A140000000001, .syscan { g := g, d := 20 })]

theorem test_wordsWork : decodesAll 64 wordsWork := by decide +kernel

/-- Words of R71-R76, laid out from R52 and the format of the opcode (R57-R63), under the guard !p5. -/
noncomputable def wordsInterrupt : List (Nat × Instr) := [
    (0x982A14181C000041, .uisend { g := g, d := 20, a := 24, b := 28, bs := true }),
    (0x986A14181C000041, .uireg { g := g, d := 20, a := 24, b := 28, bs := true }),
    (0x98AA141800000001, .uiunreg { g := g, d := 20, a := 24 }),
    (0x98EA141800000005, .uimaskOp { g := g, d := 20, a := 24, q := 2 }),
    (0x992A141800000001, .uiwait { g := g, d := 20, a := 24 }),
    (0x996A000000000001, .uiend { g := g }),
    (0x99AA000000000001, .uiack { g := g }),
    (0x99EA141800080003, .uipoll { g := g, d := 20, a := 24, c := 8, q := 1 })]

theorem test_wordsInterrupt : decodesAll 64 wordsInterrupt := by decide +kernel

/-- Words of R71-R76, laid out from R52 and the format of the opcode (R57-R63), under the guard !p5. -/
noncomputable def wordsSystem0 : List (Nat × Instr) := [
    (0x9C2A140000410001, .mfsr { g := g, d := 20, sel := 0x41 }),
    (0x9C6A001800020001, .mtsr { g := g, a := 24, sel := 0x2 }),
    (0x9CAA0000001E0011, .trap { g := g, c := 30, ci := true }),
    (0x9CEA000000000005, .tret { g := g, q := 2 }),
    (0x9D2A141800A5C051, .pld { g := g, d := 20, a := 24, ofs := 0xA5C, t := .s32 }),
    (0x9D6A141800A5C051, .pst { g := g, d := 20, a := 24, ofs := 0xA5C, t := .s32 }),
    (0x9DAA00181C000047, .tlbinv { g := g, a := 24, b := 28, q := 3, bs := true }),
    (0x9DEA14181C000045, .atq { g := g, d := 20, a := 24, b := 28, q := 2, bs := true }),
    (0x9E2A14181C1E0061, .ctxsv { g := g, d := 20, a := 24, b := 28, c := 30, bs := true, cs := true }),
    (0x9E6A14181C1E0061, .ctxrs { g := g, d := 20, a := 24, b := 28, c := 30, bs := true, cs := true }),
    (0x9EAA14181C000047, .keyslot { g := g, d := 20, a := 24, b := 28, q := 3, bs := true }),
    (0x9EEA14181C000041, .scanrq { g := g, d := 20, a := 24, b := 28, bs := true })]

theorem test_wordsSystem0 : decodesAll 64 wordsSystem0 := by decide +kernel

/-- Words of R71-R76, laid out from R52 and the format of the opcode (R57-R63), under the guard !p5. -/
noncomputable def wordsSystem1 : List (Nat × Instr) := [
    (0x9F2A14181C000041, .halt { g := g, d := 20, a := 24, b := 28, bs := true }),
    (0x9F6A14181C000041, .resume { g := g, d := 20, a := 24, b := 28, bs := true }),
    (0x9FAA14181C000043, .lanesel { g := g, d := 20, a := 24, b := 28, q := 1, bs := true }),
    (0x9FEA14181C000041, .ipifw { g := g, d := 20, a := 24, b := 28, bs := true }),
    (0xA02A141800000003, .wgkill { g := g, d := 20, a := 24, q := 1 }),
    (0xA06A141800000001, .qkill { g := g, d := 20, a := 24 })]

theorem test_wordsSystem1 : decodesAll 64 wordsSystem1 := by decide +kernel

/-- Words of R71-R76, laid out from R52 and the format of the opcode (R57-R63), under the guard !p5. -/
noncomputable def wordsDebug : List (Nat × Instr) := [
    (0xA42A0000001E0013, .bkpt { g := g, c := 30, q := 1, ci := true }),
    (0xA46A141800000001, .stamp { g := g, d := 20, a := 24 }),
    (0xA4AA140000000003, .bearq { g := g, d := 20, q := 1 }),
    (0xA4EA141800000003, .progq { g := g, d := 20, a := 24, q := 1 }),
    (0xA52A14181C000041, .trcon { g := g, d := 20, a := 24, b := 28, bs := true }),
    (0xA56A141800000001, .trcoff { g := g, d := 20, a := 24 }),
    (0xA5AA14181C000043, .trcsel { g := g, d := 20, a := 24, b := 28, q := 1, bs := true })]

theorem test_wordsDebug : decodesAll 64 wordsDebug := by decide +kernel

/-- J32 words laid out from R77 and R124, under the guard !p2; the header is the example of R80. -/
theorem test_wordsJ32_0 : decodesAll 32 [
    (0x0E890FFB, .j32Iaddi 10 9 3 1019),
    (0x12890FFB, .j32Andi 10 9 3 1019),
    (0x16890FFB, .j32Ori 10 9 3 1019),
    (0x1A890FFB, .j32Xori 10 9 3 1019),
    (0x1E890C25, .j32ShlI 10 9 3 37),
    (0x1E890D25, .j32ShrI 10 9 3 37),
    (0x1E890E25, .j32SarI 10 9 3 37),
    (0x1E890F25, .j32RotI 10 9 3 37),
    (0x26AEA6A5, .j32Icmpi 10 5 6 41 677),
    (0x2AA5BEEF, .j32Movi 10 37 48879),
    (0x2EA5BEEF, .j32Movhi 10 37 48879),
    (0x46A55A95, .j32Ffma 10 37 22 41 5)] := by decide +kernel

/-- J32 words laid out from R77 and R124, under the guard !p2; the header is the example of R80. -/
theorem test_wordsJ32_1 : decodesAll 32 [
    (0x4EA45AA5, .j32Ffma64 10 36 22 42 5),
    (0x62A4AB55, .j32Ld 10 36 21 1 341),
    (0x66A4AB55, .j32St 10 36 21 1 341),
    (0x7AA4AB55, .j32Nld 10 36 21 1 341),
    (0x7EA4AB55, .j32Nst 10 36 21 1 341),
    (0x6AA4AD75, .j32Ldx 10 36 21 43 2 5),
    (0x6EA4AD75, .j32Stx 10 36 21 43 2 5),
    (0x72955EAA, .j32Ldu 10 21 11 3 170),
    (0x76955EAA, .j32Stu 10 21 11 3 170),
    (0x82AABCDE, .j32Bra 10 2800862),
    (0x86A59ABC, .j32Call 10 9 6 6844),
    (0x8A800000, .j32Nop 10)] := by decide +kernel

/-- J32 words laid out from R77 and R124, under the guard !p2; the header is the example of R80. -/
theorem test_wordsJ32_2 : decodesAll 32 [
    (0x8A800001, .j32Ret 10),
    (0x8A800002, .j32Exit 10),
    (0x8A800003, .j32Yield 10),
    (0x8A80B004, .j32Brx 10 44),
    (0x92AABCDE, .j32Loop 10 2800862),
    (0x96A4AB55, .j32Atom 10 36 21 1 341),
    (0xFAD55555, .j32Emu 11 0x155555),
    (0xFC604807, .j32Header 3 0x024 0 3 true)] := by decide +kernel

/-- J16 words laid out from R81 and R126. -/
theorem test_wordsJ16_0 : decodesAll 16 [
    (0x196C, .j16Fadd 9 6 12),
    (0x296C, .j16Fmul 9 6 12),
    (0x396C, .j16Ffma 9 6 12),
    (0x496C, .j16Iadd 9 6 12),
    (0x596C, .j16Isub 9 6 12),
    (0x896C, .j16Ld 9 6 12),
    (0x996C, .j16St 9 6 12),
    (0xA96C, .j16Ldx 9 6 12),
    (0xB96C, .j16Stx 9 6 12),
    (0x6960, .j16Mov 9 6),
    (0x6961, .j16And 9 6),
    (0x6962, .j16Or 9 6),
    (0x6963, .j16Xor 9 6),
    (0x6964, .j16Shl 9 6),
    (0x6965, .j16Shr 9 6),
    (0x6966, .j16Sar 9 6)] := by decide +kernel

/-- J16 words laid out from R81 and R126. -/
theorem test_wordsJ16_1 : decodesAll 16 [
    (0x6967, .j16Imul 9 6),
    (0x6968, .j16Fsub 9 6),
    (0x6969, .j16Fmin 9 6),
    (0x696A, .j16Fmax 9 6),
    (0x696B, .j16Ineg 9 6),
    (0x696C, .j16CvtF32S32 9 6),
    (0x696D, .j16CvtS32F32 9 6),
    (0x79A7, .j16Movi 9 167),
    (0xCABC, .j16Bra 2748),
    (0xDDBC, .j16Brp true 0x5BC),
    (0xE96D, .j16Icmp 9 6 13),
    (0xF000, .j16Nop),
    (0xF100, .j16Ret),
    (0xF200, .j16Exit),
    (0xF305, .j16Bar 5),
    (0xF400, .j16Yield)] := by decide +kernel

/-- J16 words laid out from R81 and R126. -/
theorem test_wordsJ16_2 : decodesAll 16 [
    (0xF5A7, .j16Emu 167)] := by decide +kernel

/-! ### A small machine -/

/-- A row by its lanes. -/
def lanes (f : Nat → Nat) : Row := Row.ofFn fun l => BitVec.ofNat 32 (f l)

/-- A path of 32 lanes in an implicit clause, with a window of 64 slots. -/
def path0 : Path := { pc := 0x1000, lmask := 0xFFFFFFFF, wtop := 64, clause := some implicitClause }

/-- Slot n holds n + l in lane l, slot 2 holds 4 l; s4 = 0x1000 lies in the mapped page, s3 = 7. -/
def regs0 : Regs :=
  { v := (List.range 64).map fun n => (n, if n = 2 then lanes (4 * ·) else lanes (n + ·)), u := [(3, 7), (4, 0x1000)], dorm := 0
    decl := 0x00FF800000000007, paths := [(0, path0)], srst := launchSrstate }

/-- A warp on core 0 in workgroup 5. -/
def warp0 : Warp := { regs := regs0, wg := 5, place := some { core := 0, half := 0, slot := 0 }, fresh := false }

/-- The page at 0x1000, at physical address 0x8000. -/
def page0 : TlbEntry :=
  { home := .core 0, vf := 0, asid := 0, glob := false, vbase := 0x1000, pbase := 0x8000, size := 4096, r := true, w := true, x := false
    ctx := false, sv := false, pid := 0, dirty := true }

/-- One warp that issues, one workgroup with 4 KiB of near store. -/
def s0 : State :=
  { State.reset with nextId := 100, warps := [(1, warp0)], wgs := [(5, { handle := 5, warps := [1], nearSize := 4096 })], tlb := [page0]
                     cur := some { w := 1, p := 0 } }

/-- The warp of `s0` changed. -/
def with_ (f : Warp → Warp) : State := s0.modWarp 1 f

/-- The path of `s0` changed. -/
def withPath (f : Path → Path) : State := s0.modPath 1 0 f

/-- `s0` in single-lane privileged mode. -/
def sPriv : State := with_ fun x => { x with kind := .firmware 0 }

/-- The context of the issuing path for opcode and fields. -/
def ctxOf (s : State) (opc : Nat) (f : Form) : Ctx :=
  let k := s.cur.getD { w := 0, p := 0 }
  let x := (s.warp? k.w).getD warp0
  { w := k.w, p := k.p, warp := x, path := (x.regs.paths.find? k.p).getD path0, cur := k, opc := opc, f := f, sh := (shape opc f).getD {} }

/-- The IOP is ready. -/
abbrev ready (s : State) (opc : Nat) (f : Form) : Prop := Ready opc f s (ctxOf s opc f)

/-- Every IOP of a list is ready in the state, or in privileged mode. -/
def allReady (ws : List (Nat × Instr)) : Bool :=
  ws.all fun w => match w.2.parts with
    | some (opc, f) => decide (ready s0 opc f) || decide (ready sPriv opc f)
    | none => false

/-- Every IOP of `wordsControl0` can run. -/
theorem ready_Control0 : allReady wordsControl0 = true := by decide +kernel

/-- Every IOP of `wordsControl1` can run. -/
theorem ready_Control1 : allReady wordsControl1 = true := by decide +kernel

/-- Every IOP of `wordsInteger0` can run. -/
theorem ready_Integer0 : allReady wordsInteger0 = true := by decide +kernel

/-- Every IOP of `wordsInteger1` can run. -/
theorem ready_Integer1 : allReady wordsInteger1 = true := by decide +kernel

/-- Every IOP of `wordsInteger2` can run. -/
theorem ready_Integer2 : allReady wordsInteger2 = true := by decide +kernel

/-- Every IOP of `wordsInteger3` can run. -/
theorem ready_Integer3 : allReady wordsInteger3 = true := by decide +kernel

/-- Every IOP of `wordsFloat0` can run. -/
theorem ready_Float0 : allReady wordsFloat0 = true := by decide +kernel

/-- Every IOP of `wordsFloat1` can run. -/
theorem ready_Float1 : allReady wordsFloat1 = true := by decide +kernel

/-- Every IOP of `wordsFloat2` can run. -/
theorem ready_Float2 : allReady wordsFloat2 = true := by decide +kernel

/-- Every IOP of `wordsMatrix0` can run. -/
theorem ready_Matrix0 : allReady wordsMatrix0 = true := by decide +kernel

/-- Every IOP of `wordsMatrix1` can run. -/
theorem ready_Matrix1 : allReady wordsMatrix1 = true := by decide +kernel

/-- Every IOP of `wordsMemory0` can run. -/
theorem ready_Memory0 : allReady wordsMemory0 = true := by decide +kernel

/-- Every IOP of `wordsMemory1` can run. -/
theorem ready_Memory1 : allReady wordsMemory1 = true := by decide +kernel

/-- Every IOP of `wordsOrdering0` can run. -/
theorem ready_Ordering0 : allReady wordsOrdering0 = true := by decide +kernel

/-- Every IOP of `wordsOrdering1` can run. -/
theorem ready_Ordering1 : allReady wordsOrdering1 = true := by decide +kernel

/-- Every IOP of `wordsCopy` can run. -/
theorem ready_Copy : allReady wordsCopy = true := by decide +kernel

/-- Every IOP of `wordsContext` can run. -/
theorem ready_Context : allReady wordsContext = true := by decide +kernel

/-- Every IOP of `wordsPersonality` can run. -/
theorem ready_Personality : allReady wordsPersonality = true := by decide +kernel

/-- Every IOP of `wordsWork` can run. -/
theorem ready_Work : allReady wordsWork = true := by decide +kernel

/-- Every IOP of `wordsInterrupt` can run. -/
theorem ready_Interrupt : allReady wordsInterrupt = true := by decide +kernel

/-- Every IOP of `wordsSystem0` can run. -/
theorem ready_System0 : allReady wordsSystem0 = true := by decide +kernel

/-- Every IOP of `wordsSystem1` can run. -/
theorem ready_System1 : allReady wordsSystem1 = true := by decide +kernel

/-- Every IOP of `wordsDebug` can run. -/
theorem ready_Debug : allReady wordsDebug = true := by decide +kernel

/-! ### States that meet the hypotheses of the statements -/

/-- The IOP is ready in the state, and the condition of a clause holds. -/
def meets (s : State) (opc : Nat) (f : Form) (p : Ctx → State → Bool) : Bool := decide (ready s opc f) && p (ctxOf s opc f) s

/-- The IOP is ready in the state. -/
def ok (s : State) (opc : Nat) (f : Form) : Bool := decide (ready s opc f)

/-- The condition holds once the IOP has taken its slots into use (R347). -/
def prep (p : Ctx → State → Bool) : Ctx → State → Bool := fun c s => p c (prepare c s)

/-- The condition holds of the state in which the access runs. -/
def run (p : Ctx → State → Bool) : Ctx → State → Bool := fun c s => p c (begun c (prepare c s))

/-- All of the conditions. -/
abbrev all (bs : List Bool) : Bool := bs.all id

/-- The guard p5, which is false in every lane. -/
def off : Guard := { inv := false, pred := 5 }

/-- Uniforms of `s0` changed. -/
def withU (us : List (Nat × Word64)) : State :=
  with_ fun x => { x with regs := { x.regs with u := us.foldl (fun m u => m.insert u.1 u.2) x.regs.u } }

/-- The rows of Integer0 to Integer3 and of J32 and J16 that run the sums: first and second slots. -/
theorem witness_IntegerSums : all [
      allReady wordsInteger0,
      ok s0 0x040 (.r (j16Op 15 2 3 .s32)),
      ok s0 0x041 (.r (j16Op 0 2 3 .s32)),
      ok s0 0x044 (.r (j16Op 4 2 0 .s32)),
      ok (firstSlot 0xFFFFFFFF s0) 0x040 (.r (j32ImmOp 10 9 3 .s32))] = true := by decide +kernel

theorem witness_IntegerProducts : all [
      allReady wordsInteger1,
      ok s0 0x048 (.r (j16Op 15 15 3 .s32))] = true := by decide +kernel

theorem witness_ComparesAndMoves : all [
      allReady wordsInteger2,
      ok (firstSlot 0x80000000 s0) 0x04E (.r { g := j32Guard 10, d := j32Pred 6, a := 9, q := 5, t := .s32, km := 2 }),
      ok s0 0x04E (.r (j16IcmpOp 1 2 13)),
      ok s0 0x060 (.i (j32MoviOp 10 9 0xFFFF 0)),
      ok s0 0x060 (.i (j32MoviOp 10 9 1 1)),
      ok s0 0x060 (.i { d := 3, imm := (0x80#8).signExtend 24, t := .s32 })] = true := by decide +kernel

theorem witness_LogicAndCounts : all [
      allReady wordsInteger2,
      ok (firstSlot 0x7FF s0) 0x050 (.r (j32ImmOp 10 9 3 .z32)),
      ok (firstSlot 0x7FF s0) 0x051 (.r (j32ImmOp 10 9 3 .z32)),
      ok (firstSlot 0x7FF s0) 0x052 (.r (j32ImmOp 10 9 3 .z32)),
      ok s0 0x050 (.r (j16Op 1 1 2 .z32)),
      ok s0 0x051 (.r (j16Op 1 1 2 .z32)),
      ok s0 0x052 (.r (j16Op 1 1 2 .z32)),
      ok s0 0x05F (.r (j16Op 1 2 0 .z32))] = true := by decide +kernel

theorem witness_ShiftsAndFields : all [
      allReady wordsInteger1,
      allReady wordsInteger2,
      ok s0 0x054 (.r (j32ShiftOp 10 9 3 63)),
      ok s0 0x055 (.r (j32ShiftOp 10 9 3 32)),
      ok s0 0x056 (.r (j32ShiftOp 10 9 3 31)),
      ok s0 0x057 (.r (j32ShiftOp 10 9 3 0)),
      ok s0 0x054 (.r (j16Op 1 1 2 .z32)),
      ok s0 0x055 (.r (j16Op 1 1 2 .z32)),
      ok s0 0x056 (.r (j16Op 1 1 2 .z32))] = true := by decide +kernel

theorem witness_LaneExchanges : all [
      allReady wordsInteger2,
      allReady wordsInteger3,
      meets s0 0x064 (.r { g := g, d := 20, a := 24, b := 28, q := 0, t := .z32, bs := true }) (fun c _ => c.q = 0),
      meets s0 0x064 (.r { g := g, d := 20, a := 24, b := 28, q := 1, t := .z32, bs := true }) (fun c _ => c.q ≠ 0)] = true := by decide +kernel

theorem witness_PredicateLogic : all [
      allReady wordsControl1,
      meets s0 0x013 (.r { g := g, d := 10, a := 24, q := 1 }) (fun c _ => c.q = 1),
      meets s0 0x013 (.r { g := g, d := 20, a := 12, q := 0 }) (fun c _ => c.q ≠ 1),
      meets s0 0x00D (.r { g := g, d := 20, a := 12, q := 3 }) (fun c _ => c.q = 3),
      meets s0 0x00D (.r { g := g, d := 10, a := 12, q := 2 }) (fun c _ => c.q ≠ 3)] = true := by decide +kernel

theorem witness_FloatArithmetic : all [
      allReady wordsFloat0,
      ok s0 0x0C3 (.r (j32FfmaOp 10 6 8 10 6 .f32)),
      ok s0 0x0C3 (.r (j32FfmaOp 10 6 8 10 6 .f64)),
      ok s0 0x0C0 (.r (j16Op 1 2 3 .f32)),
      ok s0 0x0C2 (.r (j16Op 1 2 3 .f32)),
      ok s0 0x0C3 (.r { j16Op 1 2 3 .f32 with c := (1#4).zeroExtend 8 }),
      ok s0 0x0C1 (.r (j16Op 1 1 3 .f32)),
      ok s0 0x0C4 (.r (j16Op 1 1 3 .f32)),
      ok s0 0x0C5 (.r (j16Op 1 1 3 .f32))] = true := by decide +kernel

theorem witness_SpecialFunctions : all [
      allReady wordsFloat1] = true := by decide +kernel

theorem witness_PackedAndConversions : all [
      allReady wordsFloat1,
      allReady wordsFloat2,
      ok s0 0x0DA (.r { j16Op 1 2 0 .f32 with c := 10 }),
      ok s0 0x0DA (.r { j16Op 1 2 0 .s32 with c := 1, m := 2 })] = true := by decide +kernel

theorem witness_Branches : all [
      meets s0 0x002 (.b { g := g, ofs := 0x800000 }) (fun c _ => c.act ≠ 0),
      meets s0 0x002 (.b { g := off }) (fun c _ => c.act = 0),
      meets s0 0x003 (.b { g := g, a := 24 }) (fun c _ => c.act ≠ 0),
      meets s0 0x003 (.b { g := off, a := 24 }) (fun c _ => c.act = 0),
      meets s0 0x009 (.b { g := g, ofs := 2 }) (fun c _ => c.act ≠ 0),
      meets s0 0x009 (.b { g := off }) (fun c _ => c.act = 0),
      ok s0 0x00A (.b { g := g, ofs := 0xFFFFF0 }),
      meets s0 0x00B (.b { g := g, q := 1 }) (fun c _ => c.q ≠ 0 ∧ c.act = c.path.lmask ∧ c.path.lmask ≠ 0),
      meets s0 0x00B (.b { g := off, q := 0 }) (fun c _ => c.q = 0 ∧ c.act = 0),
      meets s0 0x002 (.b (j32BraOp 10 1)) (fun c _ => c.act ≠ 0),
      meets s0 0x003 (.b { g := j32Guard 10, a := (24#6).zeroExtend 8 }) (fun c _ => c.act ≠ 0),
      ok s0 0x00A (.b (j32BraOp 10 0x3FFFF0)),
      meets s0 0x002 (.b { g := { inv := true, pred := 0 }, ofs := 1 }) (fun c _ => c.act ≠ 0)] = true := by decide +kernel

/-- A callee of 24 slots at slide 16 fits in the 64 slots declared; at slide 56 it does not, and slide 65 lies beyond the window. -/
theorem witness_CallsWriteLinkRecords :
    let slide (c : Ctx) := c.f.d.toNat
    let fits (n : Nat) (c : Ctx) (s : State) : Bool :=
      c.act ≠ 0 ∧ slide c ≤ c.path.wtop.toNat - c.path.wbase.toNat ∧ c.path.wbase.toNat + slide c + n ≤ c.warp.regs.stackSize
        ∧ 4 ≤ c.path.wbase.toNat + slide c
        ∧ SlotsReady c (prepare c s) ((List.range 4).map fun i => c.path.wbase.toNat + slide c - 4 + i)
    let deep (n : Nat) (c : Ctx) (_ : State) : Bool :=
      c.act ≠ 0 ∧ slide c ≤ c.path.wtop.toNat - c.path.wbase.toNat ∧ c.warp.regs.stackSize < c.path.wbase.toNat + slide c + n
    let wide (c : Ctx) (_ : State) : Bool := c.act ≠ 0 ∧ c.path.wtop.toNat - c.path.wbase.toNat < slide c
    all [
      meets s0 0x004 (.b { g := g, d := 16, a := 24, ofs := 0x20 }) (fits 24),
      meets s0 0x005 (.b { g := g, d := 16, a := 24, q := 12 }) (fits 24),
      meets s0 0x004 (.b { g := g, d := 65, a := 24 }) wide,
      meets s0 0x005 (.b { g := g, d := 65, a := 24, q := 12 }) wide,
      meets s0 0x004 (.b { g := g, d := 64, a := 24 }) (deep 24),
      meets s0 0x005 (.b { g := g, d := 64, a := 24, q := 12 }) (deep 24),
      meets s0 0x004 (.b (j32CallOp 10 2 3 5)) (fits 24)] = true := by decide +kernel

/-- `s0` inside a call: slots 12 to 15 hold a link record, and the window begins at slot 16. -/
def sCalled : State :=
  with_ fun x => { x with regs := { x.regs with
    paths := [(0, { path0 with wbase := 16, wtop := 40, depth := 1 })]
    v := [(12, 0x2000), (13, 0), (14, 64 * 256 + 16), (15, 3)].foldl (fun m n => m.insert n.1 (lanes fun _ => n.2)) x.regs.v } }

theorem witness_ReturnsRestoreCallers :
    let linked (c : Ctx) (s : State) : Bool :=
      c.act ≠ 0 ∧ c.path.depth ≠ 0 ∧ SlotsReady c (prepare c s) ((List.range 4).map fun k => c.path.wbase.toNat - 4 + k)
        ∧ ((lanesOf c.act).all fun l => decide (((c.warp.regs.row (c.path.wbase.toNat - 2)).lane l).toNat % 256 ≠ 0))
    all [
      meets sCalled 0x006 (.b { g := g }) linked,
      meets sCalled 0x006 (.b { g := j32Guard 10 }) linked,
      meets sCalled 0x006 (.b {}) linked] = true := by decide +kernel

/-- Elements that a TLB serves, without poison. -/
def reads (uniform : Bool) (n : Ctx → Nat) (c : Ctx) (s : State) : Bool :=
  decide (Reaches s c .read (n c) (c.elems uniform)) && decide (Clean s (n c) (hits s c .read (c.elems uniform)))

/-- Elements that a TLB serves for writing. -/
def writes (uniform : Bool) (n : Ctx → Nat) (c : Ctx) (s : State) : Bool := decide (Reaches s c .write (n c) (c.elems uniform))

/-- Format M on the page of `s0`: lane l at 0x1000 + 4 l. -/
def mem (d : BitVec 8) (t : ElemType := .s32) : MForm := { g := g, d := d, a := 4, b := 2, t := t, iv := true }

/-- Format M with every lane at s4 = 0x1000. -/
def memU (d : BitVec 8) (t : ElemType := .s32) : MForm := { g := g, d := d, a := 4, t := t }

/-- Elements that a TLB serves, without poison, whose lines can enter the caches. -/
def loads (uniform : Bool) (q : Chan) (qual n : Ctx → Nat) (c : Ctx) (s : State) : Bool :=
  reads uniform n c s && (cached c s q (qual c) ((hits s c .read (c.elems uniform)).map (·.pa))).isSome

/-- `s0` with L1 and the publish buffer full of unpublished lines and a read of the path in flight. -/
def sFull : State :=
  { s0 with l1 := (List.range 2048).map fun i => { owner := 0, line := 0x100000 + i, next := i == 0 }
            buffer := (List.range 64).map fun i => (0, 0x200000 + i)
            held := [{ wid := 50, core := 0, warp := 1, wg := 5, lanes := 1, seq := 0, va := 0, base := 0x4000000, size := 1, cells := [(0x4000000, 1)] }]
            inflight := [{ rid := 51, core := 0, warp := 1, lanes := 1, seq := 0, op := .weak .gen, size := 4, elems := [], dest := .none, busy := [] }] }

theorem witness_LoadsIssueReads :
    let plain (_ : Ctx) : Nat := 0
    let qa (c : Ctx) : Nat := c.qa
    let size (c : Ctx) : Nat := c.esize
    let words (c : Ctx) : Nat := if c.qa = 0 then 16 else 32
    let ld := run (loads false .gen qa size)
    let looked (c : Ctx) (s : State) : Bool :=
      loads false .gen plain size c s
        && (c.elems false).all fun e => match lookupVa s c.warp c.path e.va .read with | .walk | .flip _ => false | _ => true
    let sampled (c : Ctx) (s : State) : Bool :=
      reads false size c s && decide (Clean s (2 * c.esize) (hits s c .read (c.elems false)))
        && (c.elems false).all fun e => decide (e.va % 4096 + 2 * c.esize ≤ 4096)
    let full (c : Ctx) (s : State) : Bool :=
      c.path.wait == none && decide (c.qa < 2) && reads false size c s
        && (cached c s .gen c.qa ((hits s c .read (c.elems false)).map (·.pa))).isNone
    all [
      meets s0 0x180 (.m (mem 20)) ld,
      meets s0 0x182 (.m { memU 20 .z32 with qa := 1 }) (run fun c s => reads false words c s && loads false .gen plain words c s),
      meets s0 0x186 (.m (memU 20)) (run (loads true .gen plain size)),
      meets s0 0x184 (.m (memU 15 .z32)) (run (loads true .gen plain size)),
      meets s0 0x190 (.m (mem 20)) (prep (loads false .con qa size)),
      meets s0 0x191 (.m (memU 20)) (prep (loads true .con plain size)),
      meets s0 0x18A (.m { mem 20 with qa := 2, qb := true }) (run looked),
      meets s0 0x192 (.m (mem 20 .f32)) (prep sampled),
      meets s0 0x188 (.m { mem 20 with qb := true }) (run fun c s => restartMask c == 0 && loads false .gen qa size c s),
      meets sFull 0x180 (.m (mem 20)) (prep full),
      meets s0 0x180 (.m (j32Mem 10 20 4 0 0)) ld,
      meets s0 0x180 (.m (j32MemX 10 20 4 2 0 0)) ld,
      meets s0 0x186 (.m (j32Mem 10 31 4 0 0xFF)) (run (loads true .gen plain size)),
      meets s0 0x180 (.m (j16Mem 1 4 15)) ld,
      meets s0 0x180 (.m (j16MemX 1 4 2)) ld] = true := by decide +kernel

/-- Elements that a TLB serves for writing, whose lines can enter L1. -/
def stores (uniform : Bool) (n : Ctx → Nat) (c : Ctx) (s : State) : Bool :=
  writes uniform n c s && (entered c s (c.qa == 1) (linesOf ((hits s c .write (c.elems uniform)).map (·.pa)))).isSome

theorem witness_StoresAreHeld :
    let words (c : Ctx) : Nat := if c.qa = 0 then 4 else 8
    let wide (c : Ctx) (s : State) : Bool :=
      writes false (fun c => 4 * words c) c s
        && (entered c s false (linesOf ((hits s c .write (c.elems false)).flatMap fun x => (List.range (words c)).map fun i => x.pa + 4 * i))).isSome
    let st := run (stores false (·.esize))
    let stu := run (stores true (·.esize))
    all [
      meets s0 0x181 (.m (mem 20)) st,
      meets s0 0x183 (.m { memU 20 .z32 with qa := 0 }) (run wide),
      meets s0 0x187 (.m (memU 20)) stu,
      meets s0 0x185 (.m (memU 15 .z32)) stu,
      meets s0 0x189 (.m (mem 20)) (run fun c s => restartMask c == 0 && stores false (·.esize) c s),
      meets s0 0x181 (.m (j32Mem 10 20 4 0 0)) st,
      meets s0 0x181 (.m (j32MemX 10 20 4 2 0 0)) st,
      meets s0 0x187 (.m (j32Mem 10 31 4 0 0)) stu,
      meets s0 0x181 (.m (j16Mem 1 4 0)) st,
      meets s0 0x181 (.m (j16MemX 1 4 2)) st] = true := by decide +kernel

/-- The last address below 2^57 is in range and off a 4-byte boundary; 2^57 is out of range. -/
theorem witness_AddressFaults :
    let top : State := withU [(4, 2 ^ 57 - 1)]
    let far : State := withU [(4, 2 ^ 57)]
    let high (u : Bool) (c : Ctx) (_ : State) : Bool := c.path.wait = none ∧ (c.elems u).any fun e => decide (2 ^ 57 ≤ e.va)
    let odd (u : Bool) (n : Ctx → Nat) (c : Ctx) (_ : State) : Bool :=
      c.path.wait = none ∧ ((c.elems u).all fun e => decide (e.va < 2 ^ 57)) ∧ (c.elems u).any fun e => decide (e.va % n c ≠ 0)
    let size (c : Ctx) : Nat := c.ty.bytes
    let words (c : Ctx) : Nat := if c.qa = 0 then 16 else 32
    all [
      [0x180, 0x181, 0x18A, 0x190].all fun o => meets far o (.m (memU 20)) (high false),
      [0x180, 0x181, 0x18A, 0x190].all fun o => meets top o (.m (memU 20)) (odd false size),
      [0x182, 0x183].all fun o => meets far o (.m (memU 20 .z32)) (high false) && meets top o (.m (memU 20 .z32)) (odd false words),
      [0x184, 0x185].all fun o => meets far o (.m (memU 10 .z32)) (high true) && meets top o (.m (memU 10 .z32)) (odd true size),
      [0x186, 0x187, 0x191].all fun o => meets far o (.m (memU 20)) (high true) && meets top o (.m (memU 20)) (odd true size),
      meets far 0x192 (.m (memU 20 .f32)) (high false),
      meets top 0x192 (.m (memU 20 .f32)) (odd false size),
      [0x1E4, 0x1E5, 0x1E6, 0x1E9].all fun o => meets far o (.m { memU 20 with sc := 3 }) (high false),
      [0x1E4, 0x1E5, 0x1E6, 0x1E9].all fun o => meets top o (.m { memU 20 with sc := 3 }) (odd false size),
      meets far 0x1E7 (.m { memU 20 with sc := 3 }) (high true),
      meets top 0x1E7 (.m { memU 20 with sc := 3 }) (odd true size),
      meets far 0x1E8 (.m { memU 20 .z32 with sc := 3 }) (high false),
      meets top 0x1E8 (.m { memU 20 .z32 with sc := 3 }) (odd false size)] = true := by decide +kernel

theorem witness_CacheMaintenance :
    let line (c : Ctx) := (c.elems false).map fun e => { e with va := e.va / 64 * 64 }
    all [
      ok s0 0x193 (.m (mem 0 .z32)),
      ok s0 0x194 (.m (memU 0 .z32)),
      meets s0 0x195 (.m (mem 0 .z32)) (fun c s => decide (Reaches s c .write 1 (line c))),
      ok s0 0x196 (.r { g := g, a := 4, q := 2 }),
      meets s0 0x196 (.r { g := g, q := 1 }) (fun c _ => c.q < 2)] = true := by decide +kernel

/-- Format M on the near store: lane l at s5 + 4 l, where s5 = 0. -/
def near (d : BitVec 8) : MForm := { g := g, d := d, a := 5, b := 2, t := .s32, iv := true }

/-- The workgroup of `s0` changed. -/
def withWg (f : Workgroup → Workgroup) : State := s0.modWg 5 f

theorem witness_NearStoreSteps :
    let group (c : Ctx) (s : State) : Workgroup := (s.wg? c.warp.wg).getD { handle := 0 }
    let es (u : Bool) (op : NearOp) (c : Ctx) := c.nearElems u op
    let fits (u : Bool) (op : Ctx → NearOp) (c : Ctx) (s : State) : Bool :=
      !(es u (op c) c).isEmpty && (s.wg? c.warp.wg).isSome && (nearFault (op c) (group c s) (es u (op c) c)).isNone && decide (Quiet s c)
        && (es u (op c) c).all fun e => (op c).ready ((group c s).full.contains (e.off / 16))
    let setOp (c : Ctx) : NearOp := if c.qa = 0 then .setEmpty else .setFull
    let bad (op : Ctx → NearOp) (p : Ctx → State → NearElem → Bool) (c : Ctx) (s : State) : Bool :=
      (s.wg? c.warp.wg).isSome ∧ c.path.wait = none ∧ (es false (op c) c).any (p c s)
    let none_ (op : Ctx → NearOp) (p : Ctx → State → NearElem → Bool) (c : Ctx) (s : State) : Bool := !(es false (op c) c).any (p c s)
    let odd (_ : Ctx) (_ : State) (e : NearElem) : Bool := decide (e.off % e.size ≠ 0)
    let far (c : Ctx) (s : State) (e : NearElem) : Bool := decide ((group c s).nearSize ≤ e.off)
    let live (c : Ctx) (s : State) (e : NearElem) : Bool := (group c s).tbGranule (e.off / 16)
    let full := withWg fun g => { g with full := [0, 1, 2, 3, 4, 5, 6, 7] }
    let offset (n : Word64) : State := withU [(5, n)]
    all [
      meets s0 0x18B (.m (near 20)) (fits false (·.nearLoadOp)),
      meets full 0x18B (.m { near 20 with qa := 1 }) (fits false (·.nearLoadOp)),
      meets s0 0x18C (.m (near 20)) (fits false (·.nearStoreOp)),
      meets s0 0x18C (.m { near 20 with qa := 1 }) (fits false (·.nearStoreOp)),
      meets s0 0x18D (.m { near 20 with iv := false, b := 0 }) (fits true (·.nearLoadOp)),
      meets s0 0x18E (.m { near 20 with iv := false, b := 0 }) (fits true (·.nearStoreOp)),
      meets s0 0x18F (.m { near 0 with t := .z32, qa := 1 }) (fits false setOp),
      meets s0 0x18B (.m (j32Mem 10 20 5 0 0)) (fits false (·.nearLoadOp)),
      meets s0 0x18C (.m (j32Mem 10 20 5 0 0)) (fits false (·.nearStoreOp)),
      meets (offset 1) 0x18B (.m (near 20)) (bad (·.nearLoadOp) odd),
      meets (offset 1) 0x18C (.m (near 20)) (bad (·.nearStoreOp) odd),
      meets (offset 4096) 0x18B (.m (near 20)) (fun c s => none_ (·.nearLoadOp) odd c s && bad (·.nearLoadOp) far c s),
      meets (offset 4096) 0x18C (.m (near 20)) (fun c s => none_ (·.nearStoreOp) odd c s && bad (·.nearStoreOp) far c s),
      meets (withWg fun g => { g with tbs := [{ ofs := 96 }] }) 0x18C (.m (near 20))
        (fun c s => none_ (·.nearStoreOp) odd c s && none_ (·.nearStoreOp) far c s && bad (·.nearStoreOp) live c s)] = true := by
  decide +kernel

theorem witness_PhasesAndFences :
    let on (c : Ctx) (s : State) : Bool := c.guard0 && decide (Quiet s c)
    all [
      meets s0 0x1E0 (.r { g := g, q := 5 }) on,
      [0, 1, 2, 3].all fun n => meets s0 0x1E1 (.r { g := g, c := BitVec.ofNat 8 n, q := 5, ci := true }) (fun c s => on c s && c.f.fc.toNat == n),
      meets s0 0x1E2 (.r { g := g, c := 1, q := 5, ci := true }) (fun c s => on c s && (atomicsOf s fun r => r.warp == c.w) == []),
      meets s0 0x1E3 (.r { g := g }) on,
      meets s0 0x1E0 (.r { g := off, q := 5 }) (fun c _ => !c.guard0),
      meets s0 0x1E1 (.r { g := off, c := 3, q := 5, ci := true }) (fun c _ => !c.guard0),
      meets s0 0x1E2 (.r { g := off, c := 1, q := 5, ci := true }) (fun c _ => !c.guard0),
      meets s0 0x1E3 (.r { g := off }) (fun c _ => !c.guard0)] = true := by decide +kernel

theorem witness_StrongAccessesAndAtomics :
    let returned (c : Ctx) (s : State) : Bool := match c.path.wait with | some (.loaded _) => (pendingReads s c.w c.path.lmask).isEmpty | _ => false
    let able (u : Bool) (c : Ctx) (s : State) : Bool :=
      writes u (·.esize) c s && decide (Clean s c.esize (hits s c .write (c.elems u)))
    let strong (d : BitVec 8) : MForm := { mem d with sc := 3 }
    all [
      meets s0 0x1E4 (.m (strong 20)) (fun c s => c.qa == 0 && reads false (·.esize) c s && decide (Quiet s c)),
      meets s0 0x1E4 (.m { strong 20 with qa := 1 }) (fun c s => c.qa == 1 && reads false (·.esize) c s && decide (Quiet s c)),
      meets (withPath fun q => { q with wait := some (.loaded 9) }) 0x1E4 (.m { strong 20 with qa := 1 }) returned,
      meets s0 0x1E5 (.m (strong 20)) (fun c s => writes false (·.esize) c s && decide (Quiet s c)),
      meets s0 0x1E5 (.m { strong 20 with qa := 2 }) (fun c s => writes false (·.esize) c s && decide (Quiet s c)),
      meets s0 0x1E6 (.m (strong 20)) (able false),
      meets s0 0x1E7 (.m { memU 20 with sc := 3 }) (able true),
      meets s0 0x1E8 (.m { mem 20 .z32 with sc := 3 }) (able false),
      meets s0 0x1E9 (.m (strong 20)) (able false),
      meets s0 0x1E6 (.m { j32Mem 10 20 4 1 0 with sc := 5 }) (able false)] = true := by decide +kernel

theorem witness_BarrierArrivals :
    let arrives (c : Ctx) (s : State) : Bool := c.guard0 && decide (c.warp.node = none ∨ c.scope.code < 3) && decide (Quiet s c)
    let past (s : State) (k : BarrierKey) (m : Word32) : Bool :=
      let d := (((s.barriers.find? (·.key == k)).map (·.phases)).getD 0 - m).toNat
      decide (1 ≤ d ∧ d < 2 ^ 31)
    let ended (c : Ctx) (s : State) : Bool := c.guard0 && pendingReads s c.w c.path.lmask == [] && match c.path.wait with | some (.barrier k m) => past s k m | _ => false
    let key (q : Nat) : BarrierKey := barrierKey warp0 (ctxOf s0 0x1EA (.r { q := BitVec.ofNat 3 q, ci := true })).scope 0
    let counted (q : Nat) : State := { s0 with barriers := [{ key := key q, phases := 1 }] }
    let waiting (q : Nat) : State := (counted q).modPath 1 0 fun p => { p with wait := some (.barrier (key q) 0) }
    let node : State := with_ fun x => { x with node := some 1 }
    let narrow (c : Ctx) (_ : State) : Bool := c.guard0 ∧ c.path.wait = none ∧ c.warp.node ≠ none ∧ 3 ≤ c.scope.code
    all [
      meets s0 0x1EA (.r { g := g, c := 8, q := 5, ci := true }) arrives,
      meets (waiting 2) 0x1EA (.r { g := g, q := 2, ci := true }) ended,
      meets s0 0x1EB (.r { g := g, d := 20, c := 8, q := 5, ci := true }) arrives,
      meets (counted 2) 0x1EC (.r { g := g, a := 5, q := 2, ci := true })
        (fun c s => c.guard0 && decide (c.warp.node = none ∨ c.scope.code < 3) && pendingReads s c.w c.path.lmask == []
          && past s (barrierKey c.warp c.scope (c.f.fc.toNat % 16)) (c.uA.truncate 32)),
      meets node 0x1EA (.r { g := g, c := 8, q := 3, ci := true }) narrow,
      meets node 0x1EB (.r { g := g, d := 20, c := 8, q := 4, ci := true }) narrow,
      meets node 0x1EC (.r { g := g, a := 5, c := 8, q := 5, ci := true }) narrow,
      meets s0 0x1EA (.r { q := 2, ci := true }) arrives,
      meets (waiting 2) 0x1EA (.r { q := 2, ci := true }) ended] = true := by decide +kernel

/-- `s0` with a live record at offset 32 whose phase is n, one arrival of two pending. -/
def sTb (n : Nat) : State :=
  withWg fun g =>
    let bytes := List.replicate 12 0 ++ leBytes 4 n ++ [0, 0] ++ leBytes 2 1 ++ leBytes 2 2 ++ [1] ++ List.replicate 9 0
    { g.setNear 32 bytes with tbs := [{ ofs := 32 }] }

theorem witness_TransactionBarriers :
    let group (c : Ctx) (s : State) : Workgroup := (s.wg? c.warp.wg).getD { handle := 0 }
    let ofs (c : Ctx) : Nat := c.uA.toNat
    let there (c : Ctx) (s : State) : Bool := c.guard0 && (s.wg? c.warp.wg).isSome
    let placed (c : Ctx) (s : State) : Bool := there c s && decide (ofs c % 32 = 0 ∧ ofs c + 32 ≤ (group c s).nearSize)
    let live (c : Ctx) (s : State) : Bool := placed c s && (group c s).liveTb (ofs c)
    let fresh (c : Ctx) (s : State) : Bool :=
      placed c s && decide (c.q ≠ 1 ∧ 1 ≤ c.uB.toNat ∧ c.uB.toNat ≤ 65535) && !(group c s).liveTb (ofs c) && decide ((group c s).tbs.length < 64)
    let roomy (c : Ctx) (s : State) : Bool := live c s && decide (leNat ((group c s).nearBytes (ofs c) 8) + c.uB.toNat < 2 ^ 63)
    let phase (c : Ctx) (s : State) : Nat := leNat ((group c s).nearBytes (ofs c + 12) 4)
    let behind (c : Ctx) (s : State) : Nat := (BitVec.ofNat 32 (phase c s) - (c.uB.truncate 32 : Word32)).toNat
    let idle (c : Ctx) : Bool := decide (c.path.wait = none)
    let read (c : Ctx) (s : State) : Bool := pendingReads s c.w c.path.lmask == []
    let just (c : Ctx) (s : State) : Bool := live c s && idle c && read c s && behind c s == 1
    let past (c : Ctx) (s : State) : Bool := live c s && idle c && read c s && decide (2 ≤ behind c s ∧ behind c s < 2 ^ 31)
    let current (c : Ctx) (s : State) : Bool := live c s && idle c && decide (behind c s = 0 ∨ 2 ^ 31 ≤ behind c s)
    let misaligned (c : Ctx) (s : State) : Bool := there c s && idle c && decide (ofs c % 32 ≠ 0)
    let beyond (c : Ctx) (s : State) : Bool := there c s && idle c && decide (ofs c % 32 = 0 ∧ (group c s).nearSize < ofs c + 32)
    let dead (c : Ctx) (s : State) : Bool := placed c s && idle c && !(group c s).liveTb (ofs c)
    let at_ (n : Nat) (a b : Word64) : State := (sTb n).modWarp 1 fun x => { x with regs := { x.regs with u := [(4, a), (6, b)] } }
    let f (q : BitVec 3 := 0) (d : BitVec 8 := 20) : Form := .r { g := g, d := d, a := 4, b := 6, q := q, bs := true }
    let two : Form := .r { g := g, d := 20, a := 4, b := 6, bs := true }
    let init (q : BitVec 3) : Form := .r { g := g, a := 4, b := if q = 1 then 0 else 6, q := q, bs := q ≠ 1 }
    all [
      meets (at_ 0 64 65535) 0x1ED (init 0) fresh,
      meets ((at_ 0 32 5).modWg 5 fun g => g.setNear 50 [2, 0]) 0x1ED (init 0) (fun c s => live c s && c.q != 1 && decide (1 ≤ c.uB.toNat ∧ c.uB.toNat ≤ 65535)
        && (group c s).arrp (ofs c) == (group c s).arrx (ofs c) && (group c s).txp (ofs c) == 0),
      meets (at_ 0 64 1) 0x1ED (init 1) (fun c s => placed c s && c.q == 1),
      meets (at_ 0 32 100) 0x1EE (f 0 0) (fun c s => roomy c s && c.q == 0),
      meets (at_ 0 32 100) 0x1EE (f 1) (fun c s => roomy c s && c.q != 0 && decide (Quiet s c)),
      meets (at_ 0 32 2) 0x1EF (f 1) (fun c s => live c s && decide (Quiet s c)),
      meets (at_ 1 32 0) 0x1F0 two just,
      meets (at_ 2 32 0) 0x1F0 two past,
      meets (at_ 0 32 0) 0x1F0 two current,
      meets (at_ 1 32 0) 0x1F1 two just,
      meets (at_ 0x80000000 32 1) 0x1F1 two past,
      meets (at_ 0x80000000 32 0) 0x1F1 two current,
      meets (at_ 0 64 0) 0x1ED (init 0) (fun c s => placed c s && c.q != 1 && c.uB.toNat == 0),
      meets (at_ 0 64 65536) 0x1ED (init 0) (fun c s => placed c s && c.q != 1 && decide (65535 < c.uB.toNat)),
      meets (at_ 0 31 1) 0x1ED (init 0) misaligned,
      meets (at_ 0 33 1) 0x1EE (f 1) misaligned,
      meets (at_ 0 33 1) 0x1EF (f 1) misaligned,
      meets (at_ 0 33 1) 0x1F0 two misaligned,
      meets (at_ 0 33 1) 0x1F1 two misaligned,
      meets (at_ 0 4096 1) 0x1ED (init 0) beyond,
      meets (at_ 0 4064 1) 0x1EE (f 1) dead,
      meets (at_ 0 64 1) 0x1EF (f 1) dead,
      meets (at_ 0 64 1) 0x1F0 two dead,
      meets (at_ 0 64 1) 0x1F1 two dead] = true := by decide +kernel

/-- Cells of memory from an address. -/
def cells (a : Nat) (bs : List Byte) : List Host.Cell := (bs.zipIdx.filter (·.1 != 0)).map fun b => (a + b.2, b.1)

/-- A valid tensor record: a box of r rows and c columns of a type at 0x1000, with a row stride. -/
def tensor (r c stride : Nat) (t : Nat) : BitVec 512 :=
  BitVec.ofNat 512 (0x1000 + stride * 2 ^ 64 + r * 2 ^ 128 + c * 2 ^ 160 + r * 2 ^ 256 + c * 2 ^ 272 + t * 2 ^ 288 + 0x80 * 2 ^ 504)

/-- A descriptor of 32 bytes with no scale. -/
def desc (t book : Nat) : List Byte := leBytes 8 t ++ leBytes 8 0 ++ leBytes 8 book ++ List.replicate 8 0

/-- A codebook of sixteen ones. -/
def ones : List Byte := (List.range 16).flatMap fun _ => leBytes 2 0x3F80

/-- `s0` with tensor records of 64 by 64 elements of a type in t0 and t1, and a format block at s4 = 0x1000. -/
def sMat (t book : Nat) : State :=
  { with_ (fun x => { x with regs := { x.regs with t := [(0, tensor 64 64 128 t), (1, tensor 64 64 128 t)] } }) with
    mem := cells 0x8000 (desc t book ++ desc t book) ++ if book = 0 then [] else cells 0x8040 ones }

theorem witness_QuantisedElements :
    let read (t : Ctx → ElemType) (c : Ctx) (s : State) : Bool := (described c s c.uB.toNat (some (t c))).isSome
    let ready_ (t : Ctx → ElemType) (c : Ctx) (s : State) : Bool := c.act ≠ 0 ∧ c.uB.toNat % 32 = 0 ∧ read t c s
    let f (t : ElemType) : Form := .r { g := g, d := 20, a := 24, b := 4, t := t, bs := true }
    let idle (o : Nat) (t : ElemType) : Bool := meets s0 o (.r { g := off, d := 20, a := 24, b := 4, t := t, bs := true }) (run fun c _ => c.act == 0)
    let odd (o : Nat) : Bool := meets (withU [(4, 0x1010)]) o (f .e4m3) (fun c _ => c.act != 0 && c.uB.toNat % 32 != 0 && c.path.wait == none)
    all [
      meets (sMat 4 0) 0x0DE (f .e4m3) (run (ready_ (·.ty))),
      meets (sMat 4 0) 0x0DF (f .e4m3) (run (ready_ (·.ty))),
      meets (sMat 4 0) 0x0E0 (f .e4m3) (run (ready_ (·.ty))),
      meets (sMat 7 0x1040) 0x0E1 (f .cb4) (run (ready_ (·.ty))),
      ok s0 0x0E2 (.r { g := g, d := 20, a := 24, t := .f32, q := 3 }),
      meets (sMat 7 0x1040) 0x0E3 (f .bf16) (run (ready_ (fun _ => .cb4))),
      idle 0x0DE .e4m3, idle 0x0DF .e4m3, idle 0x0E0 .e4m3, idle 0x0E1 .e4m3, idle 0x0E3 .bf16,
      odd 0x0DE, odd 0x0E0] = true := by decide +kernel

theorem witness_MatrixOperationsQueue :
    let free (c : Ctx) (s : State) : Bool := decide (c.act ≠ 0 ∧ Room c s)
    let idle (c : Ctx) (s : State) : Bool := decide (c.act = 0 ∧ Room c s)
    let record (n : BitVec 8) (c : Ctx) : BitVec 512 := c.warp.regs.tensor n.toNat
    let bound (wide : Bool) (j : BitVec 8) (c : Ctx) : Bool := (accBound c wide j.toNat).isNone
    let pair (c : Ctx) (s : State) : Option (State × (List Byte × List Byte) × (List Byte × List Byte)) :=
      (described c s c.uC.toNat (some c.ty)).bind fun r =>
        (described c r.1 (c.uC.toNat + 32) (some (tFmt (record c.f.fb c)))).map fun q => (q.1, r.2, q.2)
    let shapes (c : Ctx) : Bool :=
      bound (c.ty == .f64) c.f.d c && (shapeFault (record c.f.fa c)).isNone && (shapeFault (record c.f.fb c)).isNone
        && c.uC.toNat % 64 == 0 && tFmt (record c.f.fa c) == c.ty && mmaShape (record c.f.fa c) (record c.f.fb c)
    let legal_ (c : Ctx) (s : State) : Bool :=
      (pair c s).any fun r => pairLegal c.ty (tFmt (record c.f.fb c)) (descSfmt r.2.1.1 != 0 || descSfmt r.2.2.1 != 0)
    let policy (c : Ctx) : Nat := c.warp.regs.gmode.toNat / 2 ^ 10 % 4
    let matching (c : Ctx) (s : State) : Bool := (pair c s).any fun r =>
      let mine := r.1.eng.tables.reverse.filter (·.is c.warp.core c.warp.vf c.warp.asid (descBook r.2.1.1) (descBook r.2.2.1))
      (if policy c = 1 then mine.find? (·.mptb) else mine.head?).isSome
    let built (c : Ctx) (s : State) : Bool := (pair c s).any fun r => (products r.2.1.2 r.2.2.2).isSome
    let reread (c : Ctx) (s : State) : Bool := (pair c s).any fun r =>
      (fetched c r.1 (descBook r.2.1.1) 32).any fun x => (fetched c x.1 (descBook r.2.2.1) 32).any fun y => (products x.2 y.2).isSome
    let under (n : Nat) (s : State) : State := s.modWarp 1 fun x => { x with regs := { x.regs with gmode := BitVec.ofNat 64 (1 + n * 2 ^ 10) } }
    let one (c : Ctx) (s : State) (va : Nat) : Option (State × List Byte) :=
      match cachedDesc s c.warp va with
      | some x => if descCheck x.1 (some .cb4) = none then some (cacheDesc s c.warp va x, x.1) else none
      | none => ((fetched c s va 32).filter fun r => descCheck r.2 (some .cb4) == none).map fun r =>
          match peekBytes c r.1 (descBook r.2) 32 with
          | (t, some book) => (fillBlock c t va (r.2, book), r.2)
          | (t, none) => (t, r.2)
    let books (c : Ctx) (s : State) : Bool := ((one c s c.uC.toNat).bind fun r => one c r.1 (c.uC.toNat + 32)).isSome
    let mma (t : ElemType) : Form := .a { g := g, d := 7, a := 0, b := 1, c := 4, t := t }
    let box (n : BitVec 8) (c : Ctx) : Bool := (boxFault (record n c) c.ty).isNone
    let none_ (o : Nat) (f : Form) : Bool := meets s0 o f idle
    let table : ProductTable := { core := 0, vf := 0, asid := 0, cbA := 0x1040, cbB := 0x1040, prods := List.replicate 256 0x3F800000, mptb := true }
    let crowd : State := { s0 with eng := { s0.eng with
      queue := (List.range 32).map fun i => { id := 50 + i, core := 0, warp := 1, lanes := 1, kind := .mzero 0, flag := none, batch := false } } }
    all [
      meets (sMat 2 0) 0x140 (mma .bf16) (run fun c s => free c s && shapes c && c.ty != .cb4 && legal_ c s),
      meets { sMat 7 0x1040 with eng := { tables := [table] } } 0x140 (mma .cb4)
        (run fun c s => free c s && shapes c && c.ty == .cb4 && policy c == 0 && legal_ c s && matching c s),
      meets (under 1 { sMat 7 0x1040 with eng := { tables := [table] } }) 0x140 (mma .cb4)
        (run fun c s => free c s && shapes c && c.ty == .cb4 && policy c == 1 && legal_ c s && matching c s),
      meets (sMat 7 0x1040) 0x140 (mma .cb4)
        (run fun c s => free c s && shapes c && c.ty == .cb4 && policy c == 0 && legal_ c s && !matching c s && built c s),
      meets (under 2 (sMat 7 0x1040)) 0x140 (mma .cb4)
        (run fun c s => free c s && shapes c && c.ty == .cb4 && policy c == 2 && legal_ c s && reread c s),
      meets s0 0x143 (.r { g := g, d := 7 }) (fun c s => free c s && bound false c.f.d c),
      meets (sMat 2 0) 0x144 (.a { g := g, d := 7, a := 0, t := .bf16 }) (fun c s => free c s && bound (c.ty == .f64) c.f.d c && box c.f.fa c),
      meets (sMat 2 0) 0x145 (.a { g := g, d := 0, a := 7, t := .bf16 }) (fun c s => free c s && bound (c.ty == .f64) c.f.fa c && box c.f.d c),
      meets s0 0x146 (.r { g := g, d := 20, a := 7, c := 15, ci := true }) (fun c s => free c s && bound false c.f.fa c),
      meets s0 0x147 (.r { g := g, d := 7, a := 24, c := 15, ci := true }) (fun c s => free c s && bound false c.f.d c),
      meets s0 0x148 (.r { g := g, d := 7, a := 0, c := 0x80, t := .f32, ci := true })
        (fun c s => free c s && bound false c.f.d c && bound false c.f.fa c),
      meets (sMat 7 0x1040) 0x149 (.a { g := g, c := 4 })
        (run fun c s => free c s && c.uC.toNat % 64 == 0 && books c s),
      meets s0 0x140 (.a { g := off, d := 7, a := 0, b := 1, c := 4, t := .bf16 }) (run idle),
      none_ 0x143 (.r { g := off, d := 7 }),
      none_ 0x144 (.a { g := off, d := 7, a := 0, t := .bf16 }),
      none_ 0x145 (.a { g := off, d := 0, a := 7, t := .bf16 }),
      none_ 0x146 (.r { g := off, d := 20, a := 7, c := 15, ci := true }),
      none_ 0x147 (.r { g := off, d := 7, a := 24, c := 15, ci := true }),
      none_ 0x148 (.r { g := off, d := 7, a := 0, c := 1, t := .f32, ci := true }),
      meets s0 0x149 (.a { g := off, c := 4 }) (run fun c _ => c.act == 0),
      meets crowd 0x143 (.r { g := off, d := 7 }) (fun c s => decide (c.act = 0 ∧ 32 ≤ (s.eng.queue.filter (·.core == c.warp.core)).length))] = true := by
  decide +kernel

theorem witness_BatchesAndTensorRecords :
    let pending (c : Ctx) (s : State) : List Nat := (c.warp.batches.filter (·.pending s)).map (·.b.toNat)
    let age (c : Ctx) : Nat := (c.warp.regs.blast - (c.uA.truncate 16 : BitVec 16)).toNat
    let running : State := { with_ fun x => { x with regs := { x.regs with blast := 7 }, batches := [{ b := 7, closed := true, ops := [50], nops := 1 }] } with
      eng := { queue := [{ id := 50, core := 0, warp := 1, lanes := 1, kind := .mzero 0, flag := none, batch := true }] } }
    let blast (n : BitVec 16) : State := with_ fun x => { x with regs := { x.regs with blast := n } }
    let fresh (c : Ctx) (s : State) (va : Nat) : Bool := (fetched c s va 32).any fun r => descCheck r.2 none == none && descFmt r.2 != .cb4
    let both (c : Ctx) (s : State) : Bool :=
      fresh c s c.uC.toNat && (fetched c s c.uC.toNat 32).any fun r => fresh c r.1 (c.uC.toNat + 32)
    let loaded (n : BitVec 8) (c : Ctx) : Bool := tStatus (c.warp.regs.tensor n.toNat) != 0
    let record (c : Ctx) (s : State) : List Nat := (hits s c .write (tensorElem c)).map (·.pa)
    let has (n : Nat) (s : State) : State := s.modWarp 1 fun x => { x with regs := { x.regs with t := [(n, tensor 64 64 128 2)] } }
    let none_ (o : Nat) (f : Form) : Bool := meets s0 o f (run fun c s => c.act == 0 && s.flips == [])
    let wait (q : BitVec 3) (a : BitVec 8) : Form := .r { g := g, d := 20, a := a, q := q }
    let rec_ (gd : Guard) : Form := .m { g := gd, d := 15, a := 4, t := .z64 }
    all [
      meets s0 0x141 (.r { g := g, d := 20, a := 24, c := 4, q := 3, cs := true })
        (fun c s => s.flips == [] && c.act != 0 && c.uC.toNat % 64 == 0 && decide ((c.warp.batches.filter fun b => b.closed && !b.ops.isEmpty).length < 16)),
      meets s0 0x142 (wait 1 0) (fun c s => c.act != 0 && c.q == 1 && (pending c (prepare c s)).isEmpty),
      meets (blast 23) 0x142 (wait 0 3) (fun c _ => c.act != 0 && c.q != 1 && decide (15 < age c)),
      meets (blast 22) 0x142 (wait 0 3) (fun c s => c.act != 0 && c.q != 1 && decide (age c ≤ 15 ∧ 7 ∉ pending c (prepare c s))),
      meets running 0x142 (wait 0 3) (fun c s => c.act != 0 && c.q != 1 && decide (age c ≤ 15 ∧ 7 ∈ pending c (prepare c s))),
      meets s0 0x14A (.a { g := g, q := 2 }) (run fun c _ => c.act != 0 && c.qa6 == 2),
      meets s0 0x14A (.a { g := g, c := 4, q := 1 }) (run fun c _ => c.act != 0 && c.qa6 == 1),
      meets (sMat 2 0) 0x14A (.a { g := g, c := 4 })
        (run fun c s => c.act != 0 && c.qa6 != 1 && c.qa6 != 2 && c.uC.toNat % 64 == 0 && both c s),
      meets s0 0x14B (rec_ g) (run fun c s => c.act != 0 && decide (Reaches s c .read 64 (tensorElem c))
        && decide (Clean s 64 (hits s c .read (tensorElem c))) && (cached c s .gen 0 ((hits s c .read (tensorElem c)).map (·.pa))).isSome),
      meets (has 15 s0) 0x14C (rec_ g) (run fun c s => c.act != 0 && loaded c.f.d c && decide (Reaches s c .write 64 (tensorElem c))
        && (entered c s false (linesOf (record c s))).isSome),
      meets s0 0x14C (rec_ g) (fun c _ => c.act != 0 && c.path.wait == none && !loaded c.f.d c),
      meets s0 0x14D (.r { g := g, d := 15, a := 0, b := 4, bs := true }) (fun c _ => c.act != 0 && !loaded c.f.fa c),
      meets (has 0 s0) 0x14D (.r { g := g, d := 15, a := 0, b := 4, bs := true }) (fun c _ => c.act != 0 && loaded c.f.fa c),
      none_ 0x141 (.r { g := off, d := 20, a := 24, c := 4, q := 3, cs := true }),
      none_ 0x142 (.r { g := off, d := 20, a := 3 }),
      none_ 0x14A (.a { g := off, q := 2 }),
      none_ 0x14B (rec_ off),
      none_ 0x14C (rec_ off),
      none_ 0x14D (.r { g := off, d := 15, a := 0, b := 4, bs := true })] = true := by decide +kernel

/-- `s0` with copy rights: source at s4 = 0x1000, size s6, destination s8 = 0x1800. -/
def sCpy (n : Word64) : State :=
  { with_ (fun x => { x with regs := { x.regs with
    ident := 0x40, u := [(4, 0x1000), (6, n), (8, 0x1800), (10, 0x4000000000)], t := [(0, tensor 2 32 128 2)]
    v := (x.regs.v.insert 24 (lanes fun l => 0x1000 + 32 * l)).insert 25 (lanes fun _ => 0) } }) with
    spaces := [(State.spaceKey 0 0, { vf := 0, asid := 0, root := 0, nsbase := 0x800000 })] }

theorem witness_CopiesQueue :
    let clear (xs : List (Option (FaultCode × Word64))) : Bool := (firstFault xs).isNone
    let free (s : State) (c : Ctx) (n : Nat) : Bool := decide (n = 0 ∨ CopyRoom c s)
    let d (c : Ctx) : Nat := c.uD.toNat
    let a (c : Ctx) : Nat := c.uA.toNat
    let n (c : Ctx) : Nat := c.uB.toNat % 2 ^ 32
    let tb (c : Ctx) : Option Nat := if c.qa6 = 1 then none else some c.uC.toNat
    let tbBox (c : Ctx) : Option Nat := if 2 ≤ c.qa6 then none else some c.uC.toNat
    let box (c : Ctx) : BitVec 512 := c.warp.regs.tensor c.f.fa.toNat
    let sources (c : Ctx) : List Nat :=
      (lanesOf c.act).map fun l => (c.srcA l).toNat
    let bytes (c : Ctx) : Nat := tBoxr (box c) * packedPitch (elemBytes (tFmt (box c)) (tBoxc (box c)))
    let linear (c : Ctx) (s : State) : Bool :=
      c.guard0 && clear [rights c, aligned16 [a c, d c, n c], addresses s c [(a c, n c), (d c, n c)], barrierChecks s c (tb c).toList] && free s c (n c)
    let gathers (c : Ctx) (s : State) : Bool :=
      decide (lanesOf c.act ≠ [] ∧ 16 ≤ n c ∧ n c ≤ 4096)
        && clear [rights c, aligned16 (sources c ++ [d c]), aligned16 [n c],
            addresses s c ((sources c).map (·, n c) ++ [(d c, n c * (lanesOf c.act).length)]), barrierChecks s c (tb c).toList]
        && free s c (n c * (lanesOf c.act).length)
    let boxes (c : Ctx) (s : State) : Bool :=
      c.guard0 && clear [rights c, shapeFault (box c), aligned16 [d c], addresses s c ((d c, bytes c) :: boxRanges (box c)), barrierChecks s c (tbBox c).toList]
        && free s c (bytes c)
    let quantises (c : Ctx) (s : State) : Bool :=
      c.guard0 && clear [rights c, shapeFault (box c)] && (tFmt (box c) == .f32 || tFmt (box c) == .bf16) && c.uB.toNat % 64 == 0
        && match described c s c.uB.toNat (some c.ty) with
          | some (s, x, _) =>
            tBoxc (box c) % descBlk x == 0 && tBcol (box c) % descBlk x == 0
              && clear [aligned16 [d c], addresses s c ((d c, tBoxr (box c) * quantPitch (box c) c.ty) :: boxRanges (box c) ++ scaleRanges (box c) x), barrierChecks s c (tbBox c).toList]
              && decide (CopyRoom c s)
          | none => false
    let views (c : Ctx) : List Nat := (List.range 16).filter (c.uB.toNat / 2 ^ 32 % 2 ^ 16).testBit
    let pitch (c : Ctx) : Nat := c.uC.toNat / 2 ^ 32
    let casts (c : Ctx) (s : State) : Bool :=
      c.guard0 && decide (views c ≠ [] ∧ c.uB.toNat / 2 ^ 32 % 2 ^ 16 ≠ 0 ∧ ((views c).length ≤ 1 ∨ n c ≤ pitch c))
        && (views c).all (fun v => (windowOfs s c.warp.vf c.warp.asid (d c + v * pitch c)).isSome)
        && clear [rights c, aligned16 [a c, d c, n c, pitch c], addresses s c ((a c, n c) :: (d c, 0) :: (views c).map fun v => (d c + v * pitch c, n c))]
        && c.qa6 == 1 && free s c (n c)
    let f (gd : Guard) (q : BitVec 6) : Form := .a { g := gd, d := 8, a := 4, b := 6, q := q }
    let fb (gd : Guard) (q : BitVec 6) : Form := .a { g := gd, d := 8, a := 0, q := q }
    let fq (gd : Guard) : Form := .a { g := gd, d := 8, a := 0, b := 12, q := 2, t := .e4m3 }
    let fm (gd : Guard) : Form := .a { g := gd, d := 12, a := 4, b := 6, c := 10, q := 1 }
    let tbs : State := (sCpy 64).modWg 5 fun g => { (g.setNear 0 (List.replicate 22 0 ++ [1] ++ List.replicate 9 0)) with tbs := [{ ofs := 0 }] }
    let quant : State := { sCpy 64 with mem := cells 0x8000 (desc 4 0), warps := (sCpy 64).warps.map fun x => (x.1, { x.2 with regs := x.2.regs.setUni 12 0x1000 }) }
    let window : State := { sCpy 0 with warps := (sCpy 0x0000800100000040).warps.map fun x => (x.1, { x.2 with regs := x.2.regs.setUni 12 0x800000 }) }
    let no (o : Nat) (f : Form) : Bool := meets s0 o f (fun c _ => !c.guard0)
    let trapped (o : Nat) (f : Form) : Bool := meets s0 o f (fun c _ => c.guard0 && !c.warp.producer)
    all [
      meets (sCpy 64) 0x220 (f g 1) (prep linear),
      meets (sCpy 0) 0x220 (f g 1) (prep linear),
      meets tbs 0x220 (.a { g := g, d := 8, a := 4, b := 6, c := 14 }) (prep linear),
      meets (sCpy 4096) 0x221 (.a { g := g, d := 8, a := 24, b := 6, q := 1 }) (prep gathers),
      meets (sCpy 64) 0x222 (fb g 2) (prep boxes),
      meets (sCpy 64) 0x222 (fb g 3) (prep boxes),
      meets quant 0x223 (fq g) (run quantises),
      meets window 0x224 (fm g) (prep casts),
      meets s0 0x225 (.r { g := g, d := 20 }) (fun c _ => c.guard0),
      meets (sCpy 64) 0x226 (.r { g := g, d := 20 }) (fun c _ => c.guard0 && c.warp.producer),
      meets (sCpy 64) 0x227 (.r { g := g, d := 20 }) (fun c s => c.guard0 && decide (c.path.wait = none ∧ c.warp.producer = true ∧ s.eng.copies.filter (·.warp == c.w) = [])),
      meets s0 0x221 (.a { g := g, d := 8, a := 24, b := 6, q := 1 }) (fun c _ => !c.warp.producer),
      meets s0 0x221 (.a { g := off, d := 8, a := 24, b := 6, q := 1 }) (fun c _ => c.act == 0 && !c.warp.producer),
      trapped 0x220 (f g 1), trapped 0x222 (fb g 2), trapped 0x224 (fm g), trapped 0x226 (.r { g := g, d := 20 }),
      no 0x220 (f off 1), no 0x222 (fb off 2), meets s0 0x223 (fq off) (run fun c _ => !c.guard0), no 0x224 (fm off), no 0x225 (.r { g := off, d := 20 }),
      no 0x226 (.r { g := off, d := 20 }), no 0x227 (.r { g := off, d := 20 })] = true := by decide +kernel

/-- `s0` with a second warp of its workgroup (warp id 1) and a second workgroup, number 6, with w = 1 on cluster 1. -/
def sTwo : State :=
  { s0 with
    warps := [(1, warp0), (2, { warp0 with regs := { regs0 with ident := 1 }, place := some { core := 0, half := 0, slot := 1 } })]
    wgs := [(5, { handle := 5, warps := [1, 2], nearSize := 4096 }), (6, { handle := 6, wgid := 1, cluster := 1 })] }

theorem witness_PeersAndResidency :
    let on (c : Ctx) (_ : State) : Bool := c.guard0
    let peer (sel : Word64) (c : Ctx) (s : State) : Option Nat :=
      match selected s c.warp sel with
      | .ok n => if savedWg s n = none then some n else none
      | .error _ => none
    let slot (c : Ctx) : Nat := c.uB.toNat / 2 ^ 16 % 2 ^ 16
    let near (c : Ctx) (s : State) : Bool :=
      s.flips == [] && c.path.wait == none && c.act != 0 && (peer c.uB c s).any fun n => (remoteRow s n (slot c)).2.isSome && !(busyRegs s n).contains (.slot (slot c))
        && (s.warp? n).any fun x => decide (slot c + 1 ≤ x.regs.stackSize)
    let nearU (c : Ctx) (s : State) : Bool :=
      s.flips == [] && c.path.wait == none && c.guard0 && decide (slot c < 64) && (peer c.uB c s).any fun n => (remoteUniform s n (slot c)).2.isSome && !(busyRegs s n).contains (.uni (slot c))
    let group (c : Ctx) (s : State) : Workgroup := (s.wg? c.warp.wg).getD { handle := 0 }
    let other (c : Ctx) (s : State) : Nat := (peerWg s c.warp (c.uA.toNat % 2 ^ 32)).getD 0
    let peerGroup (c : Ctx) (s : State) : Workgroup := (s.wg? (other c s)).getD (group c s)
    let found (c : Ctx) (s : State) : Bool :=
      c.guard0 && c.q != 2 && (s.wg? c.warp.wg).isSome && (peerWg s c.warp (c.uA.toNat % 2 ^ 32)).isSome
    let fresh (c : Ctx) (s : State) : Bool := found c s && (group c s).pair != some (other c s)
    let apart (c : Ctx) (s : State) : Bool := fresh c s && (group c s).die == (peerGroup c s).die && (group c s).cluster != (peerGroup c s).cluster
    let free (c : Ctx) (s : State) : Bool :=
      (group c s).pair.isNone && ((group c s).asks.isNone || (group c s).asks == some (other c s)) && (peerGroup c s).pair.isNone
        && ((peerGroup c s).asks.isNone || (peerGroup c s).asks == some c.warp.wg)
    let sent : State := { sTwo with eng := { shufs := [{ k := 9, w := 2, p := 0, peer := 1, wide := false, lanes := 0xFFFFFFFF, a := 24, d := 20 }] }
                                    warps := sTwo.warps.map fun x => (x.1, { x.2 with regs := x.2.regs.setUni 6 0x40 }) }
    let waiting (c : Ctx) (s : State) : Option Shuf :=
      match shufPeer s c.warp c.uB with
      | .ok n => if savedWg s n = none then s.eng.shufs.find? fun o => o.w == n && o.peer == c.w && !o.bad else none
      | .error _ => none
    let fine (r : Except State State) : Bool := match r with | .ok _ => true | .error _ => false
    let exch (c : Ctx) (s : State) : Bool :=
      s.flips == [] && c.act != 0 && decide (c.path.wait = none) && (waiting c s).any fun o => o.wide == decide (c.ty.bytes = 8) && o.krows == none
        && fine (updateSlots s o.w o.slots id)
        && fine (updateSlots s o.w o.slots fun x => x.setRow o.d (o.lanes &&& c.act) (c.vrow (c.f.km.getLsbD 2) c.f.fa.toNat))
    let paired : State := { sent with
      wgs := [(5, { handle := 5, warps := [1], nearSize := 4096, pair := some 6 }), (6, { handle := 6, wgid := 1, cluster := 1, warps := [2], pair := some 5 })]
      warps := sent.warps.map fun x => (x.1, if x.1 = 2 then { x.2 with wg := 6 } else x.2) }
    let sel (n : Word64) : State := { sTwo with warps := sTwo.warps.map fun x => (x.1, { x.2 with regs := x.2.regs.setUni 6 n }) }
    let at6 (f : Workgroup → Workgroup) : State := (sel 1).modWg 6 f
    let xp (gd : Guard) (q : BitVec 3) : Form := .r { g := gd, d := 20, a := if q = 2 then 0 else 6, q := q }
    let f (gd : Guard) : Form := .r { g := gd, d := 20, b := 6, q := 1, t := .z32, bs := true }
    let fu (gd : Guard) : Form := .r { g := gd, d := 20, b := 6, bs := true }
    let fx (gd : Guard) : Form := .r { g := gd, d := 20, a := 24, b := 6, t := .z32, bs := true }
    let no (o : Nat) (f : Form) : Bool := meets s0 o f (fun c s => s.flips == [] && !c.guard0 && c.act == 0)
    let wake (c : Ctx) (s : State) : Bool :=
      s.flips == [] && c.guard0
        && (peer c.uA c s).any (fun n =>
          fine (updateSaved (boundary s c.warp.core (if c.uA.getLsbD 6 then .die else .clus)) n (wakeWarp (c.uA.getLsbD 6)))) && decide (Released c s (if c.uA.getLsbD 6 then .die else .clus))
    all [
      meets (sel 0x3F0001) 0x230 (f g) (prep near),
      meets (sel 0x3F0001) 0x231 (fu g) (prep nearU),
      meets paired 0x232 (fx g) (prep exch),
      meets s0 0x233 (xp g 2) (fun c _ => c.guard0 && c.q == 2),
      meets ((at6 fun g => { g with pair := some 5 }).modWg 5 fun g => { g with pair := some 6 }) 0x233 (xp g 0)
        (prep fun c s => found c s && (group c s).pair == some (other c s)),
      meets (at6 fun g => { g with die := 1 }) 0x233 (xp g 0) (prep fun c s => fresh c s && (group c s).die != (peerGroup c s).die),
      meets (at6 fun g => { g with cluster := 0 }) 0x233 (xp g 0)
        (prep fun c s => fresh c s && (group c s).die == (peerGroup c s).die && (group c s).cluster == (peerGroup c s).cluster),
      meets (at6 fun g => { g with asks := some 7 }) 0x233 (xp g 0) (prep fun c s => apart c s && !free c s),
      meets (at6 fun g => { g with asks := some 5 }) 0x233 (xp g 0) (prep fun c s => apart c s && free c s && (peerGroup c s).asks == some c.warp.wg),
      meets (sel 1) 0x233 (xp g 1) (prep fun c s => apart c s && free c s && (peerGroup c s).asks != some c.warp.wg && c.q == 1),
      meets (sel 1) 0x233 (xp g 0) (prep fun c s => apart c s && free c s && (peerGroup c s).asks != some c.warp.wg && c.q != 1),
      meets (sel 2) 0x233 (xp g 0) (prep fun c s => c.guard0 && c.q != 2 && (peerWg s c.warp (c.uA.toNat % 2 ^ 32)).isNone),
      meets s0 0x234 (.r { g := g, d := 20, q := 3 }) (fun c _ => c.guard0 && decide (c.q < 4)),
      meets (with_ fun x => { x with regs := { x.regs with wakep := true } }) 0x235 (.r { g := g, d := 20, a := 3 })
        (fun c s => c.guard0 && decide (c.path.wait = none) && c.warp.regs.wakep && pendingReads s c.w c.path.lmask == []),
      meets s0 0x235 (.r { g := g, d := 20, a := 3 }) (fun c _ => c.guard0 && decide (c.path.wait = none) && !c.warp.regs.wakep),
      meets (sel 1) 0x236 (.r { g := g, a := 6 }) (prep wake),
      meets s0 0x237 (.r { g := g, a := 3 }) on,
      no 0x230 (f off), no 0x232 (fx off), no 0x231 (fu off), no 0x233 (xp off 2), no 0x234 (.r { g := off, d := 20, q := 3 }),
      no 0x235 (.r { g := off, d := 20, a := 3 }), no 0x236 (.r { g := off, a := 3 }), no 0x237 (.r { g := off, a := 3 })] = true := by decide +kernel

/-- `s0` whose address space binds personalities 1 and 2 to a handler. -/
def sBound : State :=
  { s0 with spaces := [(State.spaceKey 0 0, { vf := 0, asid := 0, root := 0, nsbase := 0x800000, bind := [(1, 0x2000), (2, 0x3000)] })] }

theorem witness_PersonalitiesAndRowsOfTheGuest :
    let claiming (c : Ctx) : Bool := match c.path.wait with | some (.installing _) => true | _ => false
    let old (c : Ctx) (s : State) : Personality := s.personalities.get {} c.f.fc.toNat
    let fresh (c : Ctx) : Bool := c.guard0 && !claiming c && c.uA.toNat % 64 == 0
    let has (p : Personality) : State := { s0 with personalities := [(0, { resident := true }), (15, p)] }
    let on (c : Ctx) (_ : State) : Bool := c.guard0
    let ins (gd : Guard) : Form := .r { g := gd, d := 20, a := 4, c := 15, ci := true }
    let num (gd : Guard) (d a : BitVec 8) : Form := .r { g := gd, d := d, a := a, c := 15, ci := true }
    let no (o : Nat) (f : Form) : Bool := meets (if isPrivileged o then sPriv else s0) o f (fun c s => s.flips == [] && !c.guard0)
    let priv (s : State) : State := s.modWarp 1 fun x => { x with kind := .firmware 0 }
    let header (w : BitVec 12) : Bool := headerBad (j32HeaderOf 3 w 0 3 true) warp0 || !regs0.flagsClear w
    let bound (pid : Nat) : Bool :=
      ((List.range 8).all fun j => !(busyRegs sBound 1).contains (.uni (56 + j))) && binding sBound 0 0 pid != 0 && !path0.emu
        && !(regs0.paths.any fun p => p.1 != 0 && p.2.emu) && !regs0.stack.any (·.emu)
    all [
      meets sPriv 0x240 (ins g) (prep fun c s => s.flips == [] && fresh c && !(old c s).resident && !(old c s).installing),
      meets (priv (withPath fun q => { q with wait := some (.installing 15) })) 0x240 (ins g) (fun c s => s.flips == [] && c.guard0 && claiming c),
      meets (priv (has { resident := true })) 0x240 (ins g) (prep fun c s => s.flips == [] && fresh c && (old c s).resident),
      meets (priv (has { installing := true })) 0x240 (ins g) (prep fun c s => s.flips == [] && fresh c && (old c s).installing),
      meets (priv (has { resident := true })) 0x244 (num g 20 0) (prep fun c s => c.guard0 && !(old c s).installing && (old c s).resident),
      meets sPriv 0x244 (num g 20 0) (prep fun c s => c.guard0 && !(old c s).installing && !(old c s).resident),
      meets (priv (has { installing := true })) 0x244 (num g 20 0) (prep fun c s => c.guard0 && (old c s).installing),
      meets sBound 0x241 (num g 0 4) (fun c _ => c.guard0 && c.uA.toNat % 4096 == 0),
      meets s0 0x243 (num g 20 0) on,
      meets sPriv 0x245 (.r { g := g, a := 3, b := 4, q := 2 }) (fun c _ => c.guard0 && decide (c.q < 4)),
      meets sPriv 0x245 (.r { g := g, a := 3, q := 3 }) (fun c _ => c.guard0 && decide (c.q < 4)),
      meets (withPath fun q => { q with emu := true }) 0x242 (.r { g := g, a := 24, q := 1 }) (fun c _ => c.guard0 && c.path.emu),
      meets s0 0x242 (.r { g := g, a := 24, q := 1 }) (fun c _ => c.guard0 && !c.path.emu),
      j32HeaderOk 16 0 15, !header 0xFFF, (withPath fun q => { q with clause := none }).cur.isSome,
      bound 1, bound 2,
      no 0x240 (ins off), no 0x244 (num off 20 0), no 0x241 (num off 0 4), no 0x243 (num off 20 0), no 0x245 (.r { g := off, a := 3, q := 3 }),
      no 0x242 (.r { g := off, a := 24, q := 1 })] = true := by decide +kernel

/-- A node descriptor: entry 0x2000, 16 slots, records of 64 bytes, a timer of 64 cycles and a buffer of 32 records. -/
def node0 : List Byte := leBytes 8 0x2000 ++ [16, 0] ++ leBytes 2 64 ++ leBytes 2 63 ++ leBytes 2 32

/-- `s0` with queue 0, whose grid 0 runs, a node descriptor at s4 = 0x1000, and its call slots at 0x1400. -/
def sQueue : State :=
  { s0 with mem := cells 0x8000 node0
            nearWays := (List.range 64).map fun n => (n, 8)
            work := { queues := [(0, { call := 0x1400, arenasz := 0x100000, nodeq := 1, live := true })]
                      grids := [(0, { qid := 0, vf := 0, asid := 0, addr := 0x1000, pk := {} })] } }

theorem witness_NodesLaunchesAndHostCalls :
    let nodeAt (va : Word64) (push form : Bool) (c : Ctx) (s : State) : Option (State × NodeDesc) := noded c s va push form
    let queue (c : Ctx) (s : State) (d : NodeDesc) : NodeQueue :=
      ((findNode s (clusterOf c.warp.core) c.warp.grid d.addr).map (·.2)).getD { cluster := clusterOf c.warp.core, grid := c.warp.grid, desc := d }
    let takes (c : Ctx) (s : State) (d : NodeDesc) : Bool :=
      let sent := boundary s c.warp.core .clus
      let span := (List.range (d.recsz / 4)).map (c.f.fa.toNat + ·)
      (span.all fun n => decide (c.slot n < c.path.wtop.toNat)) && decide (SlotsReady c s (span.map c.slot)) && decide (Released c s .clus)
        && (sent.grid? c.warp.grid).any fun g => !g.cut
    let usable (c : Ctx) (s : State) (d : NodeDesc) : Bool :=
      let sent := boundary s c.warp.core .clus
      (queue c sent d).hasBuffer sent || decide ((queue c sent d).desc.capacity ≠ 0)
    let onChip (c : Ctx) (s : State) (d : NodeDesc) : Bool :=
      let sent := boundary s c.warp.core .clus
      takes c s d && usable c s d && decide (popcount c.act ≤ (queue c sent d).openChip sent)
    let refused (c : Ctx) (s : State) (d : NodeDesc) : Bool :=
      let sent := boundary s c.warp.core .clus
      let q := queue c sent d
      takes c s d && !(usable c s d && decide (popcount c.act ≤ q.openChip sent + (q.desc.capacity - q.share.length)))
    let crowded : State := { sQueue with work := { sQueue.work with nodes := [(7, { cluster := 0, grid := 0, desc := parseNode 0x1000 (sQueue.bytes 0x8000 64)
                                                                                    chip := [{ at_ := 0, w := 0 }] })] } }
    let va (c : Ctx) : Nat := c.uA.toNat
    let launches (c : Ctx) (s : State) : Bool :=
      c.guard0 && decide (va c % 64 = 0 ∧ va c < 2 ^ 57) && (hit s c .read { lane := c.lane0, va := va c }).isSome && (freeLaunch c.warp).isSome
        && decide (Released c s .pkg)
    let entry (c : Ctx) := c.warp.launches.get {} (va c % 16)
    let stale (c : Ctx) : Bool := (entry c).gen.toNat ≠ va c / 16 % 2 ^ 12 ∨ ((entry c).grid.isNone ∧ (entry c).done.isNone)
    let state (c : Ctx) (s : State) : Nat := slotState (slotBytes s ((callParts c s).getD []))
    let slot_ (c : Ctx) (s : State) : Bool := c.guard0 && (callParts c s).isSome
    let posts (c : Ctx) (s : State) : Bool := slot_ c s && state c s == 0 && decide (Released c s .pod)
    let reply (c : Ctx) : Bool := match c.path.wait with | some (.callReply (some (false, _))) => true | _ => false
    let call (st : Byte) : State := { sQueue with mem := if st = 0 then [] else cells 0x8400 [st] }
    let slots_ (l : LaunchSlot) : State := (sQueue.modWarp 1 fun x => { x with launches := [(0, l)], regs := x.regs.setUni 4 0x10 })
    let push (gd : Guard) (q : BitVec 3) : Form := .r { g := gd, d := if q = 1 then 20 else 0, a := 24, b := 4, q := q, bs := true }
    let f2 (gd : Guard) (d : BitVec 8) (q : BitVec 3) : Form := .r { g := gd, d := d, a := 4, q := q }
    let fc (gd : Guard) (q : BitVec 3) : Form := .r { g := gd, d := 20, a := 24, b := 3, q := q, bs := true }
    let fd (gd : Guard) : Form := .r { g := gd, d := 20 }
    let no (o : Nat) (f : Form) : Bool := meets s0 o f (run fun c s => s.flips == [] && !c.guard0)
    all [
      meets sQueue 0x250 (push g 1) (run fun c s => c.act != 0 && (nodeAt c.uB true true c s).any fun r => onChip c r.1 r.2),
      meets crowded 0x250 (push g 1) (run fun c s => c.act != 0 && c.q == 1 && (nodeAt c.uB true true c s).any fun r => refused c r.1 r.2),
      meets sQueue 0x250 (push off 1) (run fun c _ => c.act == 0),
      meets sQueue 0x251 (f2 g 0 0) (run fun c s => s.flips == [] && c.guard0 && (nodeAt c.uA false true c s).isSome),
      meets sQueue 0x252 (f2 g 20 0) (run fun c s => c.guard0 && (nodeAt c.uA false false c s).isSome),
      meets sQueue 0x253 (fd g) (fun c _ => c.guard0),
      meets sQueue 0x254 (f2 g 20 0) (prep launches),
      meets (slots_ { gen := 2 }) 0x255 (f2 g 20 1) (fun c _ => c.guard0 && stale c),
      meets (slots_ { gen := 1, done := some 0 }) 0x255 (f2 g 20 0) (fun c _ => c.guard0 && !stale c && (entry c).done.isSome),
      meets (slots_ { gen := 1, grid := some 0 }) 0x255 (f2 g 20 1) (fun c _ => c.guard0 && !stale c && (entry c).done.isNone && c.q == 1),
      meets (call 0) 0x256 (fc g 1) (prep fun c s => posts c s && c.q == 1),
      meets (call 0) 0x256 (fc g 0) (prep fun c s => posts c s && c.q != 1),
      meets ((call 2).modPath 1 0 fun q => { q with wait := some (.callReply (some (false, 5))) }) 0x256 (fc g 0)
        (prep fun c s => slot_ c s && reply c),
      meets (call 2) 0x257 (fd g) (prep fun c s => slot_ c s && decide (2 ≤ state c s)),
      meets (call 0) 0x258 (fd g) (prep fun c s => slot_ c s && state c s == 0),
      meets (call 1) 0x258 (fd g) (prep fun c s => slot_ c s && state c s == 1),
      meets (call 3) 0x258 (fd g) (prep fun c s => slot_ c s && decide (2 ≤ state c s)),
      meets (withU [(4, 0x1020)]) 0x254 (f2 g 20 0) (fun c _ => c.guard0 && decide (c.path.wait = none ∧ va c % 64 ≠ 0)),
      no 0x251 (f2 off 0 0), no 0x252 (f2 off 20 0), no 0x253 (fd off), no 0x254 (f2 off 20 0), no 0x255 (f2 off 20 1), no 0x256 (fc off 1),
      no 0x257 (fd off), no 0x258 (fd off)] = true := by decide +kernel

/-- `s0` in an interrupt handler: the window begins above a frame of four slots whose info word is that of R401, the slot of its return above. -/
def sHandler : State :=
  with_ fun x => { x with regs := { x.regs with
    paths := [(0, { path0 with wbase := 16, wtop := 40, depth := 1 })]
    v := [(12, 0x2000), (13, 0), (14, 12 * 256), (15, 3)].foldl (fun m n => m.insert n.1 (lanes fun _ => n.2)) x.regs.v } }

theorem witness_InterruptInstructions :
    let scope (c : Ctx) : Scope := if c.uA.getLsbD 41 then .pod else .pkg
    let port (c : Ctx) (s : State) : Option Port := s.port? c.warp.vf c.warp.asid
    let vec (c : Ctx) (s : State) : Vec := (((port c s).getD {}).vecs).get {} (c.uA.toNat % 64)
    let malformed (c : Ctx) : Bool := c.uA.toNat / 2 ^ 6 % 4 = 3 ∨ 2 ^ 57 ≤ c.uB.toNat
    let held (c : Ctx) (s : State) : Bool := (vec c s).v && (vec c s).hrec != c.warp.record
    let handler (c : Ctx) (s : State) : Bool :=
      c.guard0 && decide (c.path.depth ≠ 0) && decide (SlotsReady c s ((List.range 4).map fun i => c.path.wbase.toNat - 4 + i))
        && (c.linkWord 2 c.lane0).toNat % 256 == 0
    let framed (c : Ctx) (s : State) : Bool :=
      c.guard0 && decide (c.path.depth ≠ 0) && decide (SlotsReady c s [c.path.wbase.toNat - 2])
        && ((c.warp.regs.row (c.path.wbase.toNat - 2)).lane c.lane0).toNat % 256 == 0
    let ported (v : Vec) (a b : Word64) : State :=
      { withU [(4, a), (6, b)] with ui := { ports := [(State.spaceKey 0 0, { vecs := [(63, v)] })] } }
    let on (c : Ctx) (_ : State) : Bool := c.guard0
    let outer (c : Ctx) (_ : State) : Bool := c.guard0 && c.path.depth == 0
    let no (o : Nat) (f : Form) : Bool := meets s0 o f (fun c _ => !c.guard0)
    let f2 (gd : Guard) : Form := .r { g := gd, d := 20, a := 4, b := 6, bs := true }
    let f1 (gd : Guard) : Form := .r { g := gd, d := 20, a := 4 }
    let f0 (gd : Guard) : Form := .r { g := gd }
    all [
      meets s0 0x260 (f2 g) (prep fun c s => c.guard0 && decide (Released c s (scope c))),
      meets s0 0x261 (f2 g) (prep fun c s => c.guard0 && (port c s).isNone),
      meets (ported {} 0xFF 0x2000) 0x261 (f2 g) (prep fun c s => c.guard0 && (port c s).isSome && malformed c),
      meets (ported { v := true, hrec := 64 } 0x3F 0x2000) 0x261 (f2 g) (prep fun c s => c.guard0 && (port c s).isSome && !malformed c && held c s),
      meets (ported { v := true } 0xBF 0x2000) 0x261 (f2 g) (prep fun c s => c.guard0 && (port c s).isSome && !malformed c && !held c s),
      meets (ported { v := true } 0x3F 0) 0x262 (f1 g) (prep fun c s => c.guard0 && holdsVector s c.warp (c.uA.toNat % 64)),
      meets (ported {} 0x3F 0) 0x262 (f1 g) (prep fun c s => c.guard0 && !holdsVector s c.warp (c.uA.toNat % 64)),
      meets s0 0x263 (.r { g := g, d := 20, a := 4, q := 2 }) on,
      meets s0 0x264 (f1 g) (fun c _ => c.guard0 && decide (c.path.wait = none)),
      meets (withPath fun q => { q with wait := some (.uiwait 0 0 (some 1)) }) 0x264 (f1 g)
        (fun c _ => c.guard0 && match c.path.wait with | some (.uiwait _ _ x) => x.isSome | _ => false),
      meets sHandler 0x265 (f0 g) (prep handler),
      meets s0 0x265 (f0 g) outer,
      meets sHandler 0x266 (f0 g) (prep framed),
      meets s0 0x266 (f0 g) outer,
      meets s0 0x267 (.r { g := g, d := 20 }) (fun c _ => c.guard0 && c.q == 0),
      meets s0 0x267 (.r { g := g, d := 20, a := 4, c := 8, q := 1 }) (fun c _ => c.guard0 && c.q != 0 && !c.warp.regs.uipend.getLsbD (c.uA.toNat % 64)),
      meets (with_ fun x => { x with regs := { x.regs with uipend := 1, pay := [(0, 7)] } }) 0x267 (.r { g := g, d := 20, a := 4, c := 8, q := 1 })
        (fun c s => c.guard0 && c.q != 0 && c.warp.regs.uipend.getLsbD (c.uA.toNat % 64) && pendingReads s c.w c.path.lmask == []),
      no 0x260 (f2 off), no 0x261 (f2 off), no 0x262 (f1 off), no 0x263 (.r { g := off, d := 20, a := 4, q := 2 }), no 0x264 (f1 off),
      no 0x265 (f0 off), no 0x266 (f0 off), no 0x267 (.r { g := off, d := 20 })] = true := by decide +kernel

/-- `s0` with warp 1 as the trap lane of warp 2, which has trapped. -/
def sLane : State :=
  { sTwo with warps := [(1, { warp0 with kind := .trapLane 2, regs := { regs0 with paths := [(0, { path0 with lmask := 1 })] } }),
                        (2, { warp0 with trap := some { code := 0x19, info := 5, pc := 0x1000, path := 0, lmask := 0xFFFFFFFF, lane := some 1 } })] }

theorem witness_SpecialRegisters :
    let on (c : Ctx) (_ : State) : Bool := c.guard0
    let read (s : State) (n : Nat) : Bool :=
      meets s 0x270 (.s { g := g, d := 20, sel := BitVec.ofNat 16 n })
        (fun c _ => c.guard0 && c.sel == n && (decide (c.sel < 0x8000) || c.warp.privileged))
    let write (s : State) (n : Nat) (p : Ctx → State → Bool) : Bool := meets s 0x271 (.s { g := g, a := 24, sel := BitVec.ofNat 16 n }) p
    let idle (c : Ctx) (s : State) : Bool := c.guard0 && (openOps s c.w).isEmpty && decide (c.path.wait = none)
    let lane (c : Ctx) (s : State) : Bool := c.trapped.any fun w => ((s.warp? w).bind (·.trap)).isSome
    let tret (q : BitVec 3) : Form := .r { g := g, q := q }
    let no (s : State) (o : Nat) (f : Form) : Bool := meets s o f (fun c _ => !c.guard0)
    all [
      [0x0001, 0x0010, 0x0011, 0x0012, 0x0013, 0x0015, 0x0016, 0x0020, 0x0030, 0x0031, 0x0038, 0x0039, 0x003A, 0x0041].all (read s0),
      [0x8010, 0x8011, 0x8020, 0x8021].all (read sPriv),
      meets s0 0x270 (.s { g := g, d := 20, sel := 0x0014 }) (fun c _ => c.sel == 0x0014),
      meets s0 0x270 (.s { g := g, d := 20, sel := 0x0003 }) (fun c _ => c.sel == 0x0003),
      meets s0 0x270 (.s { g := g, d := 20, sel := 0x0002 }) (prep fun c s => c.sel == 2 && idle c s),
      meets sLane 0x270 (.s { d := 20, sel := 0x8007 }) (prep fun c s => c.guard0 && decide (0x8000 ≤ c.sel ∧ c.sel < 0x8008) && c.warp.privileged && lane c s),
      meets s0 0x270 (.s { g := g, d := 20, sel := 0x8000 }) (fun c _ => decide (0x8000 ≤ c.sel) && !c.warp.privileged),
      write s0 0x0003 (fun c _ => c.sel == 3),
      write s0 0x0001 (fun c _ => c.sel == 1 && c.guard0),
      write s0 0x0002 (prep fun c s => c.sel == 2 && idle c s),
      write sPriv 0x8010 (fun c _ => c.sel == 0x8010 && c.guard0 && c.warp.kind == .firmware 0),
      write sPriv 0x8020 (fun c _ => c.sel == 0x8020 && c.guard0 && c.warp.privileged),
      write s0 0x8020 (fun c _ => decide (0x8000 ≤ c.sel) && !c.warp.privileged),
      meets s0 0x272 (.r { g := g, c := 255, ci := true }) on,
      meets sLane 0x273 (tret 0) (prep fun c s => c.guard0 && c.q == 0 && lane c s),
      meets sLane 0x273 (tret 1) (prep fun c s => c.guard0 && c.q == 1 && lane c s),
      meets sLane 0x273 (tret 2) (prep fun c s => c.guard0 && decide (2 ≤ c.q) && lane c s),
      meets sPriv 0x273 (tret 0) (fun c _ => c.guard0 && c.trapped.isNone),
      no s0 0x270 (.s { g := off, d := 20, sel := 0x0001 }), no s0 0x271 (.s { g := off, a := 24, sel := 0x0001 }),
      no s0 0x272 (.r { g := off, c := 1, ci := true }), no sPriv 0x273 (.r { g := off })] = true := by decide +kernel

theorem witness_PrivilegedInstructions :
    let us (xs : List (Nat × Word64)) : State := (withU xs).modWarp 1 fun x => { x with kind := .firmware 0 }
    let addr (c : Ctx) : Nat := (c.ea c.lane0).toNat
    let key (c : Ctx) (s : State) : Nat := memoryKey s c.warp.vf (addr c)
    let there (c : Ctx) (s : State) : Bool :=
      c.guard0 && decide (addr c % c.esize = 0 ∧ addr c < 2 ^ 52 ∧ c.path.wait = none) && regionOk s (addr c)
        && (publishedOn (publishLines s c.warp.core .pod [key c s / 64]) c.warp.core [key c s / 64]).isEmpty
        && !poisoned (publishLines s c.warp.core .pod [key c s / 64]) (key c s) c.esize
    let h (c : Ctx) : Nat := c.uA.toNat
    let free (c : Ctx) (s : State) : Bool := c.guard0 && decide (c.path.wait = none) && (s.sys.saves.find? (h c)).isNone
    let check (c : Ctx) (s : State) : Option Nat := saveCheck s (h c) c.uB.toNat c.uC.toNat
    let scans (c : Ctx) (s : State) : Nat := (s.sys.scans.filter (·.die == dieOf c.warp.core)).length
    let full : State := { sPriv with sys := { sPriv.sys with scans := (List.range 64).map fun i => { die := 0, vf := 0, asid := 0, va := 4096 * i }
                                                             mail := [(0, List.replicate 256 (0, 0))] } }
    let named (c : Ctx) (s : State) : Option Nat := warpIn s (h c) (c.uB.toNat % 64)
    let halted (c : Ctx) (s : State) : State :=
      match named c s with
      | some w => s.modRegs w (mapNamed c.uB fun q => { q with halted := true })
      | none => s
    let inUse (c : Ctx) (s : State) : Bool :=
      ((named c s).bind fun w => (halted c s).warp? w).any fun x => x.regs.paths.any fun q => namedPaths c.uB q.1 && q.2.running x.regs.ctxf
    let resumed (c : Ctx) (s : State) : Bool := (named c s).any fun w =>
      match updateSaved s w fun x => { x with regs := mapNamed c.uB Path.goOn x.regs } with | .ok _ => true | .error _ => false
    let covers (c : Ctx) (s : State) (w va n : Nat) : Bool :=
      ((s.warp? w).any fun x => (tlbinvForm c.q c.uA c.uB).1 x.vf) && (tlbinvForm c.q c.uA c.uB).2.2 va n
    let translated (c : Ctx) (s : State) : Bool :=
      c.guard0 && c.path.wait == none && !(s.held.any fun h => covers c s h.warp h.va h.size)
        && !(s.inflight.any fun r => r.elems.any fun e => covers c s r.warp e.va r.size)
    let performed (c : Ctx) (s : State) : Bool :=
      c.guard0 && match c.path.wait with | some (.writes wids rids) => allDone s wids rids | _ => false
    let two (a b : Word64) : State := (us [(4, a), (6, b)]).modWg 5 (fun g => { g with warps := [2] })
    let other (q : Path) : State := { two 5 0 with warps := (two 5 0).warps ++ [(2, { warp0 with regs := { regs0 with paths := [(0, q)] } })] }
    let readable (c : Ctx) (s : State) : Bool :=
      (c.trapped.bind fun w => (s.warp? w).map fun x => (w, x)).any fun t =>
        decide (c.uB.toNat % 2 ^ 16 < t.2.regs.stackSize) && !(busyRegs s t.1).contains (.slot (c.uB.toNat % 2 ^ 16))
          && (bringSlots s t.1 [c.uB.toNat % 2 ^ 16]).2.isNone
    let kill (c : Ctx) (s : State) : Bool := c.guard0 && (s.wg? (h c)).isSome
    let live (c : Ctx) (s : State) : Bool := (s.queue? (h c % 2 ^ 16)).any (·.live)
    let m (gd : Guard) : Form := .m { g := gd, d := 20, a := 4, t := .s32 }
    let f2 (gd : Guard) (d : BitVec 8) (q : BitVec 3) : Form := .r { g := gd, d := d, a := 4, b := 6, q := q, bs := true }
    let f3 (gd : Guard) : Form := .r { g := gd, d := 20, a := 4, b := 6, c := 8, bs := true, cs := true }
    let f1 (gd : Guard) : Form := .r { g := gd, d := 20, a := 4 }
    let on (c : Ctx) (_ : State) : Bool := c.guard0
    let no (o : Nat) (f : Form) : Bool := meets sPriv o f (fun c s => s.flips == [] && !c.guard0)
    all [
      meets (us [(4, 2 ^ 38 - 4)]) 0x274 (m g) (prep there),
      meets (us [(4, 2 ^ 38 - 4)]) 0x275 (m g) (prep there),
      meets (us [(4, 0x1002)]) 0x274 (m g) (fun c _ => c.guard0 && decide (addr c % c.esize ≠ 0)),
      meets (us [(4, 2 ^ 52)]) 0x275 (m g) (fun c _ => c.guard0 && decide (addr c % c.esize = 0 ∧ 2 ^ 52 ≤ addr c)),
      meets sPriv 0x276 (.r { g := g, a := 4, b := 6, q := 3, bs := true }) translated,
      meets (sPriv.modPath 1 0 fun q => { q with wait := some (.writes [3] [4]) }) 0x276 (.r { g := g, a := 4, b := 6, q := 3, bs := true }) performed,
      meets sPriv 0x277 (f2 g 20 2) on,
      meets sPriv 0x27A (f2 g 20 3) on,
      meets (us [(4, 5)]) 0x278 (f3 g) (prep fun c s => free c s && (check c s).isNone),
      meets (us [(4, 9)]) 0x278 (f3 g) (prep fun c s => free c s && (check c s).isSome),
      meets (sPriv.modPath 1 0 fun q => { q with wait := some (.saving 5 (some 0)) }) 0x278 (f3 g)
        (fun c _ => c.guard0 && match c.path.wait with | some (.saving _ x) => x.isSome | _ => false),
      meets sPriv 0x279 (f3 g) (fun c s => s.flips == [] && c.guard0),
      meets sPriv 0x27B (f2 g 20 0) (prep fun c s => c.guard0 && decide (scans c s < 64)),
      meets full 0x27B (f2 g 20 0) (prep fun c s => c.guard0 && decide (64 ≤ scans c s)),
      meets (us [(4, 9)]) 0x27C (f2 g 20 0) (prep fun c s => c.guard0 && (named c s).isNone),
      meets (other { path0 with clause := none }) 0x27C (f2 g 20 0) (prep fun c s => c.guard0 && (named c s).isSome && !inUse c s),
      meets (other path0) 0x27C (f2 g 20 0) (prep fun c s => c.guard0 && (named c s).isSome && inUse c s && named c s != some c.w),
      meets (us [(4, 9)]) 0x27D (f2 g 20 0) (prep fun c s => s.flips == [] && c.guard0 && (named c s).isNone),
      meets (us [(4, 5)]) 0x27D (f2 g 20 0) (prep fun c s => s.flips == [] && c.guard0 && resumed c s),
      meets sLane 0x27E (.r { d := 20, a := 3, b := 3, q := 0, bs := true }) (prep fun c s => s.flips == [] && c.guard0 && c.q == 0 && readable c s),
      meets sLane 0x27E (.r { d := 20, a := 3, b := 3, q := 1, bs := true }) (prep fun c s => s.flips == [] && c.guard0 && c.q != 0 && readable c s),
      meets sPriv 0x27F (f2 g 20 0) (prep fun c s => c.guard0 && (postMail s (dieOf c.warp.core) c.uA c.uB).isSome),
      meets full 0x27F (f2 g 20 0) (prep fun c s => c.guard0 && (postMail s (dieOf c.warp.core) c.uA c.uB).isNone),
      meets (us [(4, 9)]) 0x280 (.r { g := g, d := 20, a := 4, q := 1 }) (prep fun c s => c.guard0 && (s.wg? (h c)).isNone),
      meets { us [(4, 6)] with wgs := [(5, { handle := 5, warps := [1] }), (6, { handle := 6 })] } 0x280 (.r { g := g, d := 20, a := 4, q := 1 })
        (prep fun c s => kill c s && ((killWorkgroup s (h c) (c.q == 0)).warp? c.w).isSome),
      meets { sLane with warps := sLane.warps.map fun x => (x.1, { x.2 with regs := x.2.regs.setUni 4 5 }) } 0x280 (.r { d := 20, a := 4, q := 1 })
        (prep fun c s => kill c s && ((killWorkgroup s (h c) (c.q == 0)).warp? c.w).isNone),
      meets { us [(4, 0)] with work := sQueue.work } 0x281 (f1 g) (prep fun c s => s.flips == [] && c.guard0 && live c s),
      meets sPriv 0x281 (f1 g) (prep fun c s => s.flips == [] && c.guard0 && !live c s),
      no 0x274 (m off), no 0x275 (m off), no 0x276 (.r { g := off, a := 4, b := 6, q := 3, bs := true }), no 0x27C (f2 off 20 0),
      no 0x280 (.r { g := off, d := 20, a := 4, q := 1 }), no 0x281 (f1 off)] = true := by decide +kernel

theorem witness_DebugInstructions :
    let on (c : Ctx) (_ : State) : Bool := c.guard0
    let core (c : Ctx) : Nat := c.uB.toNat % 2 ^ 9
    let log (c : Ctx) : Nat := c.uB.toNat / 2 ^ 16 % 2 ^ 5
    let wellFormed (c : Ctx) : Bool :=
      core c + log c * 2 ^ 16 + (if c.uB.getLsbD 24 then 2 ^ 24 else 0) + c.uB.toNat / 2 ^ 28 % 16 * 2 ^ 28 = c.uB.toNat
        ∧ 12 ≤ log c ∧ log c ≤ 30 ∧ c.uA.toNat % 2 ^ log c = 0 ∧ c.uA.toNat < 2 ^ 52
    let bad (c : Ctx) : Bool :=
      if c.q = 1 then c.uB.toNat / 2 ^ 57 % 2 ^ 6 ≠ 0 else 4 < c.uB.toNat / 2 ^ 4 % 8
    let peer (c : Ctx) (s : State) : Option Warp :=
      match selected s c.warp c.uA with
      | .ok n => (s.warp? n).filter fun x => !x.exited
      | .error _ => none
    let us (a b : Word64) : State := (withU [(4, a), (6, b)]).modWarp 1 fun x => { x with kind := .firmware 0 }
    let ring : State := { us 0x1000 0xC01FF with dbg := { rings := [(511, { base := 0, log := 12, wrap := false, sper := 0 })] } }
    let f2 (gd : Guard) (q : BitVec 3) : Form := .r { g := gd, d := 20, a := 4, b := 6, q := q, bs := true }
    let f1 (gd : Guard) : Form := .r { g := gd, d := 20, a := 4 }
    let f0 (gd : Guard) (q : BitVec 3) : Form := .r { g := gd, d := 20, q := q }
    let brk (gd : Guard) (q : BitVec 3) : Form := .r { g := gd, c := 255, q := q, ci := true }
    let no (s : State) (o : Nat) (f : Form) : Bool := meets s o f (fun c s => s.flips == [] && !c.guard0)
    all [
      meets s0 0x291 (f1 g) on,
      meets s0 0x292 (f0 g 0) (fun c _ => c.guard0 && c.q != 1),
      meets s0 0x292 (f0 g 1) (fun c _ => c.guard0 && c.q == 1),
      meets s0 0x293 (f0 g 0) (fun c s => s.flips == [] && c.guard0 && c.q == 0),
      meets (withU [(4, 63)]) 0x293 (.r { g := g, d := 20, a := 4, q := 1 }) (prep fun c s => s.flips == [] && c.guard0 && c.q != 0 && (peer c s).isNone),
      meets { sTwo with warps := sTwo.warps.map fun x => (x.1, { x.2 with regs := (x.2.regs.setUni 4 1) }) } 0x293 (.r { g := g, d := 20, a := 4, q := 1 })
        (prep fun c s => s.flips == [] && c.guard0 && c.q != 0 && (peer c s).any fun x => !x.inRecord && decide (448 ≤ x.regs.vofs)),
      meets (us (2 ^ 52 - 2 ^ 30) 0xF11E01FF) 0x294 (f2 g 0) (prep fun c s => c.guard0 && wellFormed c && (s.dbg.rings.find? (core c)).isNone),
      meets ring 0x294 (f2 g 0) (prep fun c s => c.guard0 && wellFormed c && (s.dbg.rings.find? (core c)).isSome),
      meets (us 0x1000 0xB0000) 0x294 (f2 g 0) (fun c _ => c.guard0 && !wellFormed c),
      meets ring 0x295 (f1 g) on,
      meets (us 0x01FF0003 0x40) 0x296 (f2 g 0) (fun c _ => c.guard0 && !bad c),
      meets (us 0 0x50) 0x296 (f2 g 0) (fun c _ => c.guard0 && bad c),
      meets (us 0 (2 ^ 57)) 0x296 (f2 g 1) (fun c _ => c.guard0 && bad c),
      meets s0 0x290 (brk g 0) (fun c _ => c.guard0 && c.q == 0),
      meets s0 0x290 (brk g 1) (fun c _ => c.guard0 && c.q != 0),
      no s0 0x290 (brk off 0), no s0 0x291 (f1 off), no s0 0x292 (f0 off 0), no s0 0x293 (f0 off 0), no sPriv 0x294 (f2 off 0),
      no sPriv 0x295 (f1 off), no sPriv 0x296 (f2 off 0)] = true := by decide +kernel

/-- A ready state without a trace ring, for the forms of the statement. -/
theorem witness_RegisterFrame : all [
      s0.dbg.rings.isEmpty,
      ok (firstSlot 0xFFFFFFFF s0) 0x040 (.r (j32ImmOp 10 9 3 .s32)),
      ok (firstSlot 0x7FF s0) 0x050 (.r (j32ImmOp 10 9 3 .z32)),
      ok s0 0x060 (.i (j32MoviOp 10 9 0xFFFF 0)),
      ok s0 0x0C3 (.r (j32FfmaOp 10 6 8 10 4 .f32)),
      ok s0 0x040 (.r (j16Op 15 2 3 .s32)),
      ok s0 0x0C0 (.r (j16Op 1 2 3 .f32)),
      ok s0 0x05F (.r (j16Op 1 2 0 .z32))] = true := by decide +kernel

theorem witness_MemoryIssueFrame :
    let words (c : Ctx) : Nat := 4 * if c.qa = 0 then 4 else 8
    let size (c : Ctx) : Nat := c.esize
    let ld (uniform : Bool) (q : Chan) (qual n : Ctx → Nat) (c : Ctx) (s : State) : Bool :=
      reads uniform n c s && (cached c (begun c (prepare c s)) q (qual c) ((hits s c .read (c.elems uniform)).map (·.pa))).isSome
    let st (uniform : Bool) (next : Ctx → Bool) (count n : Ctx → Nat) (c : Ctx) (s : State) : Bool :=
      writes uniform n c s && (entered c (begun c (prepare c s)) (next c)
        (linesOf ((hits s c .write (c.elems uniform)).flatMap fun e => (List.range (count c)).map fun i => e.pa + 4 * i))).isSome
    let zero (_ : Ctx) : Nat := 0
    let one (_ : Ctx) : Nat := 1
    let keep (_ : Ctx) : Bool := false
    let strm (c : Ctx) : Bool := c.qa == 1
    all [
      s0.dbg.rings.isEmpty,
      meets s0 0x180 (.m (mem 20)) (ld false .gen (·.qa) size), meets s0 0x190 (.m (mem 20)) (ld false .con (·.qa) size),
      meets s0 0x186 (.m (memU 20)) (ld true .gen zero size), meets s0 0x191 (.m (memU 20)) (ld true .con zero size),
      meets s0 0x184 (.m (memU 15 .z32)) (ld true .gen zero size),
      meets s0 0x182 (.m (memU 20 .z32)) (ld false .gen zero words),
      meets s0 0x181 (.m (mem 20)) (st false strm one size),
      meets s0 0x183 (.m (memU 20 .z32)) (st false keep (fun c => words c / 4) words),
      meets s0 0x185 (.m (memU 15 .z32)) (st true keep one size),
      meets s0 0x187 (.m (memU 20)) (st true keep one size),
      meets s0 0x189 (.m (mem 20)) (fun c s => restartMask c == 0 && st false strm one size c s)] = true := by decide +kernel

/-- Each fault's condition, and a path of an untrapped ordinary warp on a core with no trace ring. -/
theorem witness_FaultsBeforeTheEffect :
    let at_ (s : State) (opc : Nat) (f : Form) (p : Ctx → Bool) : Bool :=
      let c := ctxOf s opc f
      s.cur == some c.cur && s.warp? c.w == some c.warp && c.warp.regs.paths.find? c.p == some c.path && p c
    let add (d : BitVec 8) : Form := .r { g := g, d := d, a := 24, b := 28, t := .s32 }
    all [
      at_ s0 0x040 (.r { g := g, d := 20, a := 24, b := 28, t := .f32 }) (fun c => !legal c.opc c.f),
      at_ s0 0x27B (.r { g := g, d := 20, a := 4, b := 6, bs := true }) (fun c => legal c.opc c.f && isPrivileged c.opc && !c.warp.privileged),
      at_ sPriv 0x180 (.m (mem 20)) (fun c => legal c.opc c.f && c.warp.privileged && !privilegedSubset c.opc c.f c.sh),
      at_ s0 0x040 (add 64) (fun c => legal c.opc c.f && !isPrivileged c.opc && decide (c.act ≠ 0) && beyondWindow c.path (iopRegs c.path c.f c.sh) == some 64),
      at_ s0 0x221 (.a { g := g, d := 8, a := 64, b := 6, q := 1 })
        (fun c => legal c.opc c.f && decide (c.act ≠ 0) && (beyondWindow c.path (iopRegs c.path c.f c.sh)).isSome && !c.warp.producer),
      at_ s0 0x040 (add 63) (fun c => beyondWindow c.path (iopRegs c.path c.f c.sh) == none),
      warp0.kind == .ordinary, warp0.trap.isNone, s0.dbg.rings.isEmpty] = true := by decide +kernel

/-- `s0` between clauses, with a word at the PC of its path. -/
def sStart (nbits w : Nat) : State :=
  ({ s0.withFetchWord nbits w with cur := none }).modPath 1 0 fun q => { q with clause := none, skip := false }

/-- A condition on the warp and the path of `s0`. -/
def onPath (s : State) (p : Warp → Path → Bool) : Bool :=
  match s.warp? 1, s.path? 1 0 with
  | some x, some q => p x q
  | _, _ => false

/-- The path of `s0` changed, with no path issuing. -/
def idlePath (f : Path → Path) : State := { withPath f with cur := none, clock := 5000 }

theorem witness_ClausesStartAndResume :
    let first (s : State) (p : Fetch → Bool) : Bool := onPath s fun x q => mayStartClause s 1 0 x && p (fetchAt s 1 0 x q)
    let word (p : Guest → Bool) : Fetch → Bool := fun f => match f with | .word g _ => p g | _ => false
    let emulates (s : State) (p : Warp → Path → Bool) : Bool :=
      onPath s fun x q => decide (s.cur = some { w := 1, p := 0 }) && (List.range 8).all (fun j => !(busyRegs s 1).contains (Reg.uni (56 + j))) && p x q
    all [
      first (sStart 64 0xFFC4000000000000) (word fun g => (headerOf g).isSome),
      first (sStart 64 0x051E010000000001) (word fun g => (headerOf g).isNone),
      first (sStart 64 0) (fun f => match f with | .bad _ _ => true | _ => false),
      onPath (idlePath fun q => { q with passed := 64 }) fun _ q => decide (64 ≤ q.passed) && !q.urgent,
      onPath (idlePath fun q => { q with park := true, parkedAt := 3976 }) fun _ q => q.park && decide (q.parkedAt + 1024 ≤ 5000),
      onPath (idlePath fun q => { q with wait := some (.sleep 4995 5 none) }) fun _ q => decide (q.wait = some (.sleep 4995 5 none)),
      (let s := idlePath fun q => { q with wait := some (.uiwait 4995 5 none) }
       onPath s fun x q => decide (q.wait = some (.uiwait 4995 5 none)) && decide ((pendingDelivery s x).map (·.2) ≠ some 0)),
      (let s := idlePath fun q => { q with wait := some (.requests 3 []), rst := 0x1001 }
       onPath s fun x q => decide (s.cur = none) && decide (q.wait = some (.requests 3 [])) && q.rst.getLsbD 0
        && q.rst.extractLsb' 1 31 == q.pc.extractLsb' 1 31 && q.clause.isSome && x.trap.isNone && x.place.isSome && !x.arriving && !x.released),
      emulates s0 fun x _ => binding s0 x.vf x.asid 3 == 0,
      emulates (withPath fun q => { q with emu := true }) fun _ q => q.emu] = true := by decide +kernel

/-- Page tables at 0x10000: the first GiB at its own address, again as CTX at 1 GiB, and again as executable and scanned at 2 GiB. -/
def tables : List Host.Cell :=
  cells 0x10000 (leBytes 8 0x11001) ++ cells 0x11000 (leBytes 8 0x12001)
    ++ cells 0x12000 (leBytes 8 0x371 ++ leBytes 8 0x0400000000000371 ++ leBytes 8 0x08000000000003F1)

/-- A state with these page tables for space 0 of VF 0, and bytes at an address below them. -/
def mapped (s : State) (a : Nat := 0) (bs : List Byte := []) : State :=
  { s with mem := cells a bs ++ tables, spaces := [(State.spaceKey 0 0, { vf := 0, asid := 0, root := 0x10000 })] }

/-- `s0` with no path issuing, its warp changed, no accumulator declared, and its record at 1 GiB + 0x20000. -/
def resident (f : Warp → Warp) : State :=
  { mapped (with_ fun x => f { x with record := 0x40020000, regs := { regs0 with decl := 0x00FF000000000007 } }) with cur := none, clock := 5000 }

/-- A cluster whose halves are full of waiting warps, and a candidate for activation. -/
def sCrowd : State :=
  let parked (n : Nat) : Warp :=
    { warp0 with place := some { core := n / 2, half := n % 2, slot := 0 }, placedHot := 2048, regs := { regs0 with v := [], paths := [(0, { path0 with clause := none, park := true })] } }
  { s0 with cur := none
            warps := ((List.range 32).map fun n => (n + 1, parked n)) ++ [(99, { warp0 with place := none, regs := { regs0 with dorm := 1 } })] }

theorem witness_FoehnAndResidency :
    let on (s : State) (p : Warp → Path → Bool) : Bool := onPath s p
    let retried (x : Warp) : Warp :=
      { x with faultVa := none, faultSlot := none, waitingSince := none, regs := { x.regs with ctxf := false } }
    let moved (x : Warp) : Warp := { x with foehn := x.foehn.tail }
    let faulted (unsaved : Bool) : State := (resident fun x => { x with faultVa := some 0x40001000, place := none }).modWarp 1 fun x =>
      { x with record := 0x40001000, unsaved := unsaved, regs := { dorm := 0, decl := 0x00FF000000000000 } }
    let zeroed (x : Warp) (s : State) : State × Option Nat := if x.fresh then zeroRecord s x else (s, none)
    let dormant (s : State) (x : Warp) (unsaved : Bool) : Bool :=
      s.flips.isEmpty && decide (x.faultVa = some 0x40001000) && x.place.isNone && (x.trap.bind (·.reply)).isNone && x.unsaved == unsaved
    let good {α β : Type} (r : Except α β) : Bool := match r with | .ok _ => true | .error _ => false
    let fits (s : State) : Bool := match firstRanked s 0 with | some (_, x) => (halfFor s 0 x fun _ => true).isSome | none => false
    let crowded (s : State) : Bool := match firstRanked s 0 with
      | some (_, x) => (halfFor s 0 x fun _ => true).isNone && (halfFor s 0 x fun y => !y.leaving).isNone && (firstVictim (victims s 0 x)).isSome
      | none => false
    let fills : State := { mapped s0 with cur := none, fills := [{ k := 7, cluster := 0, core := 0, pid := 0, vf := 0, asid := 0, line := 0x2000000 }] }
    all [
      on (resident fun x => { x with foehn := [.miss 0], regs := { x.regs with paths := [(0, { path0 with wait := some (.miss [3, 4]) })] } })
        fun x q => decide (q.wait = some (.miss [3, 4])) && decide (x.nextMove = some (.miss 0)),
      (let s := resident fun x => { x with foehn := [.refill 3] }
       on s fun x _ => s.flips.isEmpty && decide (x.nextMove = some (.refill 3)) && (x.regs.v.find? 3).isSome),
      (let s := resident fun x => { x with foehn := [.refill 3], regs := { x.regs with v := [] } }
       on s fun x _ => s.flips.isEmpty && decide (x.nextMove = some (.refill 3)) && (x.regs.v.find? 3).isNone
        && good (readSlot (s.setWarp 1 (moved x)) (moved x) 3).2),
      (let s := resident fun x => { x with foehn := [.spill 3] }
       on s fun x _ => s.flips.isEmpty && decide (x.nextMove = some (.spill 3)) && (recordWrite s x (slotPieces x.regs 3 (x.regs.row 3))).2.isNone),
      (let s := faulted false
       (s.warp? 1).any fun x => dormant s x false
        && (match (xlateNow s x.vf x.asid 0x40001000 .write true).2 with | .ok _ => true | .fail _ => false)),
      (let s := faulted true
       (s.warp? 1).any fun x => dormant s x true
        && (let r := xlateNow s x.vf x.asid 0x40001000 .write true
            (match r.2 with | .ok _ => true | .fail _ => false) && (zeroed x r.1).2.isNone && (writeRecord (zeroed x r.1).1 (retried x) true).2.2.isNone)),
      fits (resident fun x => { x with place := none, regs := { x.regs with dorm := 1 } }),
      (let s := resident fun x => { x with arriving := true }
       on s fun x _ => s.flips.isEmpty && x.arriving && (match readRegs s x with
        | (t, .ok r) => good (recordRead t x 3648 (256 * r.nacc)).2
        | (_, .error _) => false)),
      crowded sCrowd,
      (let s := resident fun x => { x with leaving := true, regs := { x.regs with paths := [(0, { path0 with clause := none })] } }
       on s fun x _ => s.flips.isEmpty && x.leaving && evictable s 1 x),
      (match fills.fills.find? (·.k == 7) with
        | some f => fills.flips.isEmpty && (linePa { fills with fills := fills.fills.filter (·.k != 7) } f.vf f.asid f.line).2.isSome
        | none => false)] = true := by decide +kernel

/-- The cluster and VF of a request have a token (R439). -/
def granted (who : Option (Nat × Nat)) (s : State) : Bool :=
  who.all fun c => (s.sys.limits.get 0 (limitKey c.1 c.2)).toNat % 2 ^ 16 == 0 || decide (0 < s.sys.tokens.get 0 (limitKey c.1 c.2))

theorem witness_DebugEvents :
    let breaks (s : State) (act : Nat → Bool) : Bool := onPath s fun x q =>
      decide (s.cur = some { w := 1, p := 0 }) && !q.skip && breakingComparator s == some 2 && act (s.comparator x.core 2).act
    let armed (act : Nat) : State := { s0 with dbg := { comps := [(2, { pc := 0x8000000000001000, id := BitVec.ofNat 64 (16 * act) })] } }
    let ring : TraceRing := { base := 0x100000, log := 12, wrap := false, sper := 3, last := [(0, { pc := 0x1000, lmask := 1, wgid := 0, wid := 0, pidx := 0 })] }
    let sampled : State := { s0 with clock := 2048, dbg := { rings := [(0, ring)] } }
    let isobar : State := { s0 with clock := 2 ^ 24, sys := { fwcore := [(0, 511)] } }
    all [
      breaks (armed 3) (· == 3), breaks (armed 4) (· != 3),
      (sampled.dbg.rings.find? 0).any fun r => r.sper != 0 && decide (r.sampled + 2 ^ (r.sper + 8) ≤ sampled.clock),
      (isobar.sys.fwcore.find? 0).isSome && decide (isobar.dbg.sampledAt.get 0 0 + isobar.dbg.interval ≤ isobar.clock)] = true := by
  decide +kernel

theorem witness_ReadsReturnAndWritesPerform :
    let read (op : ReadOp) (es : List Elem) : Inflight :=
      { rid := 7, core := 0, warp := 1, lanes := 1, seq := 3, op := op, size := 4, elems := es, dest := .vector 9 1 .s32, busy := [.slot 9] }
    let elem : Elem := { lane := 0, va := 0x1000, pa := 0x8000 }
    let weak : Inflight := read (.weak .gen) [{ elem with src := List.replicate 4 (.since 0) }]
    let strong : Inflight := read (.strong .clus true) [elem]
    let own (r : Inflight) : Bool :=
      let s : State := { s0 with inflight := [r] }
      s.flips.isEmpty && decide (s.inflight.find? (·.rid == 7) = some r) && s.inflight.all fun y => y.rid != 7 || decide (y = r)
    let reads (r : Inflight) : Bool := own r && granted (requester { s0 with inflight := [r] } r.core r.warp) s0 && r.next.isSome
    let store (x : Option (Nat × Nat × Nat)) : Held :=
      { wid := 8, core := 0, warp := 1, wg := 5, lanes := 1, seq := 2, scope := some .pod, base := 0x8000, size := 1, cells := [(0x8000, 5)], exec := x }
    let may (h : Held) : Bool :=
      let s : State := { s0 with held := [h] }
      (s.held.find? (·.wid == 8)).isSome && mayPerform s h && granted (requester s h.core h.warp) s
    all [
      reads weak && (match weak.op with | .weak _ => true | _ => false),
      reads strong && (match strong.op with | .weak _ => false | _ => true) && decide (strong.next = some elem)
        && readEnabled { s0 with inflight := [strong] } strong elem,
      (let r := read (.weak .gen) [{ elem with val := some 1 }]
       own r && r.next.isNone && !(s0.warp? 1).any (·.stuck)),
      may (store none), may (store (some (0, 0, 0x1000)))] = true := by decide +kernel

theorem witness_WalksAnswersAndGranules :
    let walk (va : Nat) : Walk := { k := 7, core := 0, vf := 0, asid := 0, va := va, kind := .write, warp := 1, path := 0 }
    let walks (va : Nat) (p : WalkRes Combined → Bool) : Bool :=
      let s : State := { mapped s0 with walks := [walk va] }
      granted (some (clusterOf 0, 0)) s && (s.walks.find? (·.k == 7)).isSome
        && p (combine { s with walks := s.walks.filter (·.k != 7) } (some (clusterOf 0)) 0 0 va .write false)
    let asked : State := { s0 with requests := [{ vf := 3, rid := 2, page := 0x5000, kind := .read, stage2 := false, asid := 0 }] }
    let stepping : State := withPath fun q => { q with wait := some (.granules .readFull [{ lane := 0, off := 32, size := 4 }] []) }
    let full : State := stepping.modWg 5 fun g => { g with full := [2] }
    all [
      walks 0x3000 (fun r => match r with | .ok _ => true | .fail _ => false),
      walks 0x4000000000 (fun r => match r with | .ok _ => false | .fail _ => true),
      (asked.requests.find? fun r => r.vf == 3 && r.rid == 2).isSome, (asked.requests.find? fun r => r.vf == 3 && r.rid == 4).isNone,
      onPath full fun x q => match q.wait, full.wg? x.wg with
        | some (.granules op todo _), some g => (todo.any fun e => e.off / 16 == 2) && op.ready (g.full.contains 2) && !(op.writes && g.tbGranule 2)
        | _, _ => false] = true := by decide +kernel

/-- A copy of 64 bytes within the near store of `s0`. -/
def copy0 : Copy :=
  { id := 7, cluster := 0, core := 0, warp := 1, wg := 5, vf := 0, asid := 0, kind := .linear 0 256, n := 64, tb := none, flag := none }

theorem witness_BarriersCopiesAndEngines :
    let bar : Barrier := { key := { scope := .clus, owner := 5, part := 0, n := 3 }, arrived := [(1, 0xFFFFFFFF)] }
    let copying (x : Copy) : State := { s0 with eng := { copies := [x] } }
    let started : Copy := { copy0 with started := true }
    let moving (s : State) (x : Copy) : Bool := (s.eng.copies.find? (·.id == 7)).isSome && x.started && !x.moved && inTurn s x.cluster == some x.wg
      && granted (some (x.cluster, x.vf)) s
    let chunk : Moved := moveChunk started.agent started.kind (started.kind.total 64) 512 8192 { s := copying started, off := 0 }
    let done : Copy := { started with off := 64 }
    let root : Workgroup := { handle := 5, warps := [1], nearSize := 4096, tbs := [{ ofs := 64 }] }
    let credit (wg : Nat) : Credit := { k := 7, wg := wg, warp := 1, ofs := 64, bytes := 64, arrive := true, ops := [], err := none }
    let op : EngineOp := { id := 7, core := 0, warp := 1, lanes := 1, kind := .mzero 0, flag := none, batch := false }
    let agent (o : EngineOp) (x : Warp) : Agent := { o.agent x with chan := match o.kind with | .mptb _ _ => .gen | _ => .mat }
    let fetching (o : EngineOp) (line : Nat) (p : State → Warp → Bool) : Bool :=
      let s : State := { mapped s0 with eng := { queue := [{ o with need := [(line, 1)] }] } }
      (s.eng.queue.find? (·.id == 7)).any fun o => (o.need.find? (·.1 == line)).isSome
        && (s.warp? o.warp).any fun x => granted (some (clusterOf o.core, x.vf)) s && p s x
    let address (o : EngineOp) (line : Nat) (p : EngineRes Nat → Bool) : Bool :=
      fetching o line fun s x => (windowOfs s x.vf x.asid line).isNone && p (engineAddr s (agent o x) line false)
    let head (o : EngineOp) : State := { s0 with eng := { queue := [o] } }
    all [
      (let s : State := { s0 with barriers := [bar] }; (s.barriers.find? (·.key == bar.key)).isSome && barrierReady s bar),
      (credit 5).k == 7 && (root.tbRoot? 64).isSome && ((s0.modWg 5 fun _ => root).wg? (credit 5).wg).isSome,
      (s0.wg? (credit 77).wg).isNone,
      (s0.wg? (credit 5).wg).any fun g => (g.tbRoot? 64).isNone,
      (nextStart (copying copy0) 0).isSome,
      moving (copying started) started && started.late.isEmpty && !chunk.flip && chunk.err.isNone,
      (let s := copying done
       s.flips.isEmpty && (s.eng.copies.find? (·.id == 7)).isSome && done.started && done.moved && done.exc == 0 && done.err.isNone
        && !((s.warp? done.warp).map (·.stuck)).getD false
        && (match flagDone s done.warp done.flag with | .ok _ => true | .error _ => false)),
      fetching op 0 fun s x => (windowOfs s x.vf x.asid 0).isSome
        && (match engineReadPiece s (agent op x) 0 64 with | .ok _ _ => true | _ => false),
      address { op with kind := .mptb 0x1000000 0x1000020 } 0x1000000
        (fun r => match r with | .ok t pa => !poisoned t pa 32 | _ => false),
      address op 0x1000000
        (fun r => match r with | .ok t pa => !poisoned t pa 64 && pinRoom (llcRead t (dieOf op.core) (pa / 64)) (dieOf op.core) (pa / 64) | _ => false),
      address op 0x4000000000 (fun r => match r with | .fault _ _ _ => true | _ => false),
      (let s := head op
       s.flips.isEmpty && (s.eng.queue.find? (·.core == 0)).any fun o => opReady s o && o.err.isNone && o.lanes != 0
        && (s.warp? o.warp).any fun x =>
          (performOp (unpin { s with eng := { s.eng with queue := s.eng.queue.filter (·.id != o.id), free := s.eng.free.put 0 0 s.clock } } o.id) o x).isSome),
      (let o := { op with err := some (1, 1, 0) }
       opReady (head o) o && o.err.isSome)] = true := by decide +kernel

theorem witness_DispatchPlacementAndRelease :
    let queue : Queue := { ring := 0x100000, arenasz := 0x100000, live := true, rlog := 4, tail := 1, land_ := 0x2000 }
    let sQ (q : Queue) : State := { mapped s0 with cur := none, pkg := { ready := true }, work := { queues := [(0, q)] } }
    let kick (s : State) (v : Word64) (p : Queue → Bool) : Bool := (s.queue? (v.toNat / 2 ^ 32 % 2 ^ 16)).any fun q => s.pkg.ready && p q
    let ahead (v : Word64) (q : Queue) : Bool :=
      q.live && decide ((v.truncate 32 - q.tail).toNat < 2 ^ 31) && decide ((v.truncate 32 - q.head).toNat ≤ 2 ^ q.rlog)
    let ready (s : State) (p : Queue → Bool) : Bool := (s.queue? 0).any fun q => s.flips.isEmpty && q.live && !q.stuck && p q
    let entry (s : State) (q : Queue) : Bool :=
      match (queueRead s q (q.ring.toNat + 16 * (q.head.toNat % 2 ^ q.rlog)) 16).2 with | .ok _ => true | .error _ => false
    let grid : Grid := { qid := 0, vf := 0, asid := 0, addr := 0x3000, pk := { grid := 4, wgw := 1, near := 1, entry := 0x1000 }, dies := [0] }
    let sG : State := { (sQ { queue with arena := 0x300000 }) with nearWays := (List.range 64).map fun n => (n, 8), work := { queues := [(0, { queue with arena := 0x300000 })], grids := [(3, grid)] } }
    let launches (s : State) : Bool := match s.grid? 3 with
      | none => false
      | some x => s.flips.isEmpty && !x.cut && x.reject.isNone && !(s.work.grids.any fun h => decide (h.1 < 3) && h.2.qid == x.qid && !h.2.cut && !h.2.launchedOn 0)
        && match nextWorkgroup x 0 with
          | none => false
          | some (_, o, _) =>
            let q := (s.queue? x.qid).getD {}
            let rs := recordSpan x.pk.accs x.pk.stack
            !(recordsMeet s x.qid (q.arena.toNat + o % (q.wpart / (x.pk.wgw * rs)) * x.pk.wgw * rs) (x.pk.wgw * rs))
              && (((List.range 8).map fun i => (s.work.lastCluster.get 7 0 + 1 + i) % 8).find? fun c => x.pk.near * 4096 ≤ nearFree s c).isSome
    let done : State := { s0 with work := { grids := [(3, { grid with cut := true })] } }
    let ended : State := { (with_ fun x => { x with regs := { x.regs with paths := [] } }) with cur := none }
    let gone (s : State) : Bool := (s.warp? 1).any fun x => mayRelease s 1 x && ((endWarp s 1).wg? x.wg).isSome
    let datagram : List Byte := leBytes 4 0 ++ leBytes 4 1 ++ leBytes 8 0 ++ leBytes 8 0x1000 ++ leBytes 56 0
    let sT : State := { (sQ queue) with work := { queues := [(0, queue)], tenants := [(0, { src := 9, flags := 1, maxgrid := 8, enthi := 0x2000 })] } }
    let datagramTo (src : BitVec 128) : Bool := decide (numAt datagram 0 2 < 256) && datagramOk sT src datagram (sT.work.tenants.get {} (numAt datagram 0 2))
    all [
      kick (sQ queue) 0x5 (fun q => q.vf == 0 && ahead 0x5 q), kick (sQ queue) 0x5 (fun q => (Func.vf 1) != .vf q.vf),
      ready (sQ queue) (fun q => q.landed.isEmpty && q.head != q.tail && entry (sQ queue) q),
      ready (sQ { queue with ring := 0x8000000000 }) (fun q => q.landed.isEmpty && q.head != q.tail && !entry (sQ queue) q),
      ready (sQ { queue with landed := [(2, 0)] }) (fun q => match q.landed with | (_, h) :: _ => h == q.head | [] => false),
      launches sG, done.flips.isEmpty && (done.grid? 3).any (gridFinished done 3), gone ended, !datagramTo 8, datagramTo 9, sT.flips.isEmpty] = true := by decide +kernel

theorem witness_NodesCallsAndInterrupts :
    let desc : NodeDesc := { addr := 0x1000, entry := 0x2000, frame := 16, recsz := 64, tmr := 64, depth := 64, ovf := 0, ovsz := 0 }
    let record (n : Nat) : NodeRec := { bytes := List.replicate 64 0, idx := n, at_ := 100, w := 0 }
    let sN (n : Nat) (forms : List (Nat × Nat)) : State :=
      { sQueue with cur := none, clock := 200, work := { sQueue.work with nodes := [(7, { cluster := 0, grid := 0, desc := desc, chip := (List.range n).map record, forms := forms })] } }
    let node (s : State) (p : NodeQueue → Bool) : Bool := s.flips.isEmpty && (s.work.nodes.find? 7).any p
    let sC : State := { sQueue with pkg := { ready := true } }
    let calls (f : Func) (p : Queue → Bool) : Bool := sC.flips.isEmpty && sC.pkg.ready && (sC.queue? 0).any fun q => (f == .vf q.vf) && p q
    let good {α β : Type} (r : Except α β) : Bool := match r with | .ok _ => true | .error _ => false
    let sUi : State :=
      { s0 with ui := { ports := [(State.spaceKey 0 0, { vecs := [(2, { v := true, entry := 0x2000, frame := 2 })] })] }
                pkg := { routes := [(3, 1)] } }
    let sends (x : Send) (p : Send → State → Bool) : Bool :=
      let s : State := { sUi with ui := { sUi.ui with sends := [x] } }
      s.flips.isEmpty && (s.ui.sends.find? (·.k == 7)).any fun y => !(s.ui.sends.any y.behind)
        && !((y.warp.bind fun z => (s.warp? z.1).map (·.stuck)).getD false) && p y s
    let send : Send := { k := 7, vf := 0, asid := 0, v := 2, pay := 9, src := .kernel 0 }
    let pending (f : Path → Path) : State :=
      { (with_ fun x => { x with regs := { x.regs with uipend := 4, uimask := 0, paths := [(0, f { path0 with clause := none })] } }) with
        cur := none, ui := { ports := [(State.spaceKey 0 0, { vecs := [(2, { v := true, entry := 0x2000, frame := 2 })] })] } }
    let delivers (s : State) (p : Warp → Path → Nat → Bool) : Bool := onPath s fun x q =>
      s.flips.isEmpty && x.faultVa.isNone && (pendingReads s 1 q.lmask).isEmpty && x.place.isSome && !x.arriving && x.trap.isNone && x.kind == .ordinary && ((s.port? x.vf x.asid).bind (chosenVector · x)) == some 2
        && chosenPath x.regs == some 0 && p x q (q.wtop.toNat + 4 + 16)
    all [
      node (sN 32 []) fun q => q.forms.isEmpty && decide (32 ≤ q.all.length),
      node (sN 3 []) fun q => q.forms.isEmpty && q.all.head?.any fun r => decide (r.at_ + q.desc.tmr ≤ 200),
      node (sN 3 [(2, 0)]) fun q => match q.forms with
        | (n, b) :: rest => (formNode ((sN 3 [(2, 0)]).setNode 7 { q with forms := rest }) 7 n b).isSome
        | [] => false,
      calls (.vf 0) (fun q => (warpOfSlot sC 0 q 0 0).isSome), sC.pkg.ready && (sC.queue? 0).any fun q => (Func.pf 3) != .vf q.vf,
      sends send (fun x s => decide (x.goal s = .here) && (portStatus s x.vf x.asid x.v x.src).1 == 0
        && !handlerStuck s x.vf x.asid (((s.port? x.vf x.asid).map (·.vecs.get {} x.v)).getD {}) && match answerSend s x 0 with
          | .ok t => good (acceptSend t x.vf x.asid x.v (portStatus s x.vf x.asid x.v x.src).2 x.pay)
          | .error _ => false),
      sends { send with v := 5 } (fun x s => decide (x.goal s = .here) && (portStatus s x.vf x.asid x.v x.src).1 == 3 && good (answerSend s x 3)),
      sends { send with pkg := some 4 } (fun x s => decide (x.goal s = .unreachable) && good (answerSend s x 4)),
      sends { send with pkg := some 3 } (fun x s => decide (x.goal s = .peer)),
      delivers (pending fun q => { q with wtop := 50 }) (fun x _ n => decide (x.regs.stackSize < n)),
      delivers (pending fun q => { q with wtop := 24 }) (fun x q n => decide (n ≤ x.regs.stackSize)
        && (bringSlots (pending fun q => { q with wtop := 24 }) 1 ((List.range 8).map (q.wtop.toNat + ·))).2.isNone)] = true := by decide +kernel

theorem witness_TrapsRepliesAndReports :
    let good {α β : Type} (r : Except α β) : Bool := match r with | .ok _ => true | .error _ => false
    let trap : Trap := { code := 0x19, info := 5, pc := 0x1000, path := 0, lmask := 6, len := some 8 }
    let trapped : State := { (with_ fun x => { x with trap := some trap, regs := { x.regs with paths := [(0, { path0 with clause := none })] } }) with cur := none }
    let enters (s : State) : Bool := (s.warp? 1).any fun x => x.trap.any fun t =>
      !t.held && t.lane.isNone && x.place.isSome && !halfPrivileged s x && !(x.regs.paths.any (·.2.running x.regs.ctxf))
        && decide (s.cur.map (·.w) ≠ some 1) && (lowLane t.lmask).isSome && (s.warp? s.nextId).isNone
    let nested : State := sLane.modWarp 2 fun x => { x with trap := x.trap.map fun t => { t with inner := some .align } }
    let held (dorm : BitVec 4) : State :=
      { (with_ fun x => { x with trap := some { trap with held := true, report := some 3 }, regs := { x.regs with dorm := dorm } }) with
        cur := none, pkg := { ready := true } }
    let holds (s : State) (p : Warp → Trap → Bool) : Bool := s.flips.isEmpty && s.pkg.ready && reportedWarp s 0 3 == some 1
      && (s.warp? 1).any fun x => x.faultVa.isNone && x.trap.any (p x)
    let back (s : State) (f : Warp → Trap → Path → Path) (x : Warp) (t : Trap) : Bool :=
      x.regs.dorm != 12 && good (updateSaved { s with fresh := s.fresh + 1 } 1 fun x =>
        { x with trap := none, waitingSince := none, regs := { x.regs with paths := x.regs.paths.adjust t.path (f x t) } })
    let report : Report := { vf := 0, ring := .trap, slots := [List.replicate 32 1] }
    let ringed : State := { s0 with reports := [report], rings := [(ringKey 0 .trap, { base := 0x4000, log := 4, vec := 2, p := 20, c := 5 })], pkg := { ready := true } }
    all [
      enters trapped,
      (nested.warp? 2).any fun x => x.trap.any fun t => t.lane == some 1 && t.inner == some .align,
      holds (held 0) (back (held 0) fun _ _ q => q),
      holds (held 0) (back (held 0) fun x t q => { q with pc := skipPc (held 0) x t, wait := none, notes := [], rst := 0 }),
      holds (held 12) (fun x _ => x.regs.dorm == 12),
      (held 0).flips.isEmpty && (reportedWarp (held 0) 0 4).isNone, !s0.pkg.ready,
      (ringed.reports.find? fun r => r.vf == 0 && r.ring == .trap).any fun r => (ringed.ring? 0 .trap).any fun g => decide ((g.p - g.c).toNat + r.slots.length ≤ 2 ^ g.log),
      ringed.pkg.ready] = true := by decide +kernel

/-- A personality of 64-bit emulation words only. -/
def emulated : Tables := { lrs := [0xB0000000], hdrs := false, ialign := 3, pats := [0], planes := [[0, 0, 2 ^ 63, 2 ^ 63]], tmpls := [] }

/-- A page of zeros passes the scan under `emulated`. -/
theorem scan_zeros (k : Nat) : ∀ fuel off starts, off + 8 * k = 4096 → k < fuel →
    ∃ st, scanFrom (some emulated) 3 (List.replicate 4096 0) fuel off none starts = .pass st := by
  have hl : guestLength (some emulated) 3 0 = some 8 := by decide +kernel
  have hd : ∃ e, decodeGuest (some emulated) 3 0 = .ok (.emu e) ∧ guestSfs (.emu e) = 0 := ⟨_, by rfl, by rfl⟩
  have hw : leNat (List.replicate 8 (0 : Byte)) = 0 := by decide +kernel
  obtain ⟨e, hd, hs⟩ := hd
  induction k with
  | zero =>
    intro fuel off starts h hf
    obtain ⟨f, rfl⟩ : ∃ f, fuel = f + 1 := ⟨fuel - 1, by omega⟩
    exact ⟨starts, by rw [scanFrom]; simp [show 4096 ≤ off by omega]⟩
  | succ k ih =>
    intro fuel off starts h hf
    obtain ⟨f, rfl⟩ : ∃ f, fuel = f + 1 := ⟨fuel - 1, by omega⟩
    obtain ⟨st, h2⟩ := ih f (off + 8) (starts ++ [off]) (by omega) (by omega)
    refine ⟨st, ?_⟩
    have ht : ((List.replicate 4096 (0 : Byte)).drop off).take 8 = List.replicate 8 0 := by
      rw [List.drop_replicate, List.take_replicate, Nat.min_eq_left (by omega)]
    rw [scanFrom]
    simp only [ht, hw, hl, hd, hs, if_neg (show ¬ 4096 ≤ off by omega), if_neg (show ¬ 4096 < off + 8 by omega), if_true]
    exact h2

theorem witness_ScansSavesAndRestarts :
    let asked (va : Nat) : ScanReq := { die := 0, vf := 0, asid := 0, va := va }
    let scanning (va : Nat) : State :=
      let s : State := mapped s0
      { s with mem := s.mem ++ cells 0x12018 (leBytes 8 0x38000000000003F1), sys := { scans := [asked va] }
               personalities := [(0, { resident := true }), (3, { resident := true, tables := some emulated })] }
    let page (va : Nat) : Nat := va / 4096 * 4096
    let begun (va : Nat) : State :=
      let s := scanning va
      { s with sys := { s.sys with scans := s.sys.scans.erase (asked va), starts := s.sys.starts.filter fun x => !(x.vf == 0 && x.asid == 0 && x.page == page va) } }
    let scans (va : Nat) (p : Verdict → Bool) : Bool :=
      decide ((scanning va).sys.scans.find? (·.die == 0) = some (asked va)) && match walk1 (begun va) none 0 0 (page va) with
        | .ok l => (match walk2 (begun va) none 0 l.out with
            | .ok l2 => !(begun va).flips.contains (memoryKey (begun va) 0 l2.out / 4096) && p (scanPage (begun va) (l.e / 2 ^ 60) ((begun va).bytes (memoryKey (begun va) 0 l2.out) 4096))
            | .fail _ => false)
        | .fail _ => false
    let lost (va : Nat) : Bool := match walk1 (begun va) none 0 0 (page va) with | .ok _ => false | .fail _ => true
    all [
      lost 0x4000000000,
      (match walk1 (begun 0xC0001000) none 0 0 0xC0001000 with
        | .ok l => (match walk2 (begun 0xC0001000) none 0 l.out with
            | .ok l2 => (begun 0xC0001000).flips.isEmpty && l.e / 2 ^ 60 == 3 && memoryKey (begun 0xC0001000) 0 l2.out == 0x1000
            | .fail _ => false)
        | .fail _ => false) && (begun 0xC0001000).bytes 0x1000 4096 == List.replicate 4096 0
        && decide (((begun 0xC0001000).personalities.get {} 3) = { resident := true, tables := some emulated }),
      scans 0x80001000 (fun v => match v with | .pass _ => false | .fail .. => true)] = true := by decide +kernel

/-- `s0` with a save of its workgroup asked for, whose warp is dormant. -/
def sSave : State :=
  { mapped (with_ fun x => { x with place := none, fresh := true, unsaved := true, record := 0x40001000, regs := { dorm := 0, decl := 0x00FF000000000000 } }) with
    cur := none, sys := { saves := [(5, { image := some 0x50000, slot := 0 })] } }

/-- The save drains, its records are written and can be read, and its image is refused or not. -/
def saveRuns (s : State) (refused : Bool) : Bool :=
  let stored (g : Workgroup) : State := g.warps.foldl (fun s w => if ((s.warp? w).bind (·.place)).isSome then commitEviction s w else s) s
  let prior (g : Workgroup) : SMap (BitVec 4) :=
    g.warps.foldl (fun (m : SMap (BitVec 4)) w => match (stored g).warp? w with
      | some x => m.put 0 w (if x.regs.dorm = 12 then g.priorDorm.get 0 w else x.regs.dorm)
      | none => m) []
  let marked (g : Workgroup) : Except State State :=
    updateEach ((stored g).modWg 5 fun _ => { g with priorDorm := prior g }) g.warps fun x => { x with regs := { x.regs with dorm := 12 } }
  s.flips.isEmpty && (s.wg? 5).any fun g => (s.sys.saves.find? 5).any fun r =>
    drained s 5 g && !(g.warps.any fun w => (((stored g).warp? w).bind (·.faultVa)).isSome) && match marked g with
      | .ok u => r.slot == 0 && (r.image.map (revokedKey u)).getD false == refused
          && (match readRecords u g.warps with | (_, .ok _) => true | _ => false)
      | .error _ => false

theorem witness_SavesAndRestarts :
    let absent : State := { s0 with sys := { saves := [(77, { image := some 0x50000, slot := 0 })] } }
    let revoked : State := { sSave with revoked := [3], sys := { saves := [(5, { image := some (hostKey 3 0), slot := 0 })] } }
    let ending : State := { s0 with clock := 10, sys := { graceEnd := [(2, 10)] } }
    all [
      absent.flips.isEmpty && (absent.wg? 77).isNone && (absent.sys.saves.find? 77).isSome,
      saveRuns revoked true, saveRuns sSave false,
      s0.flips.isEmpty && (ending.sys.graceEnd.find? 2).any (fun e => decide (e ≤ ending.clock))] = true := by decide +kernel

/-- The verdict on that page is to pass. -/
theorem witness_ScanPasses (s : State) (h : s.personalities.get {} 3 = { resident := true, tables := some emulated }) :
    ∃ st, scanPage s 3 (List.replicate 4096 0) = .pass st := by
  have key : ∀ page st, scanFrom (some emulated) 3 page 2049 0 none [] = .pass st → scanPage s 3 page = .pass st := by
    intro page st h2
    unfold scanPage
    rw [h]
    exact h2
  obtain ⟨st, h2⟩ := scan_zeros 512 2049 0 [] (by omega) (by omega)
  exact ⟨st, key _ _ h2⟩

/-- A firmware image with an empty body and a public key of zeros; its body digest is the SHAKE256 of nothing, as FIPS 202 gives it. -/
def image0 : List Byte :=
  leBytes 4 0x45563738 ++ leBytes 4 3 ++ leBytes 8 0
    ++ leBytes 64 0xbec4b7b3ac2e294086b49a47491c82fcf692b5679d0105cb00f2c0d8ddc45dd72f76d56e64270cb5821bb862ea52cd3f24eb3e74eb3f3b23138da80b2bddb946
    ++ List.replicate 4016 0

/-- The digest of its key. -/
def digest0 : BitVec 256 := BitVec.ofNat 256 (leNat (shake256 ((image0.drop 80).take 1793) 32))

/-- Die 0 passes its self-test and holds a digest in its fuses; the other dies fail. -/
def boot0 (digest : BitVec 256) : BootInput :=
  { selfTest := List.replicate 16 true, image := image0, keyDigest := [digest], minSvn := [3], loadAddr := 0, tvec := 0, grace := 0, packageNo := 0
    routes := [], partitions := [] }

theorem leNat_lt (bs : List Byte) : leNat bs < 2 ^ (8 * bs.length) := by
  induction bs with
  | nil => simp [leNat]
  | cons b bs ih =>
    have hb := b.isLt
    have hp : 2 ^ (8 * (bs.length + 1)) = 256 * 2 ^ (8 * bs.length) := by rw [Nat.mul_add, Nat.pow_add, Nat.mul_comm]
    simp only [leNat, List.length_cons, hp]
    omega

theorem digest0_toNat : digest0.toNat = leNat (shake256 ((image0.drop 80).take 1793) 32) := by
  unfold digest0
  rw [BitVec.toNat_ofNat, Nat.mod_eq_of_lt]
  refine Nat.lt_of_lt_of_le (leNat_lt _) (Nat.pow_le_pow_right (by decide) ?_)
  have : (shake256 ((image0.drop 80).take 1793) 32).length ≤ 32 := by
    unfold shake256
    exact List.length_take_le _ _
  omega

theorem test_image0_good : (firmwareImage image0).good = true := by decide +kernel

theorem test_shake256_of_nothing : shake256 (firmwareImage image0).body 64 = ((firmwareImage image0).head.drop 16).take 64 := by decide +kernel

/-- Every die with the key's digest and an SVN of 3 accepts the image, if its signature verifies. -/
theorem image0_accepted (digest : BitVec 256) (hd : digest.toNat = leNat (shake256 ((image0.drop 80).take 1793) 32))
    (h : Config.falconVerifies ((firmwareImage image0).head.take 3153) digest = true) : imageCode (firmwareImage image0) digest 3 = 0 := by
  have hl : image0.length ≤ 4096 := by decide +kernel
  have hh : (firmwareImage image0).head = image0 := List.take_of_length_le hl
  have hk : keyMatches (firmwareImage image0) digest = true := by
    unfold keyMatches
    rw [hd, hh]
    exact beq_self_eq_true _
  have hs : (firmwareImage image0).svn.toNat = 3 := by decide +kernel
  unfold imageCode
  rw [hk, h, test_shake256_of_nothing, hs]
  simp

/-- The dies whose boot code is 0. -/
def accepting (code : Nat → Nat) : BitVec 4 := BitVec.ofNat 4 ((List.range 4).foldl (fun n d => n + bit (code d == 0) * 2 ^ d) 0)

/-- The boot codes of a reset. -/
def bootCodes (b : BootInput) (s : State) (d : Nat) : Nat := dieCode b (firmwareImage (s.pkg.staged.getD b.image)) d

theorem accepting_one (code : Nat → Nat) (h0 : code 0 = 0) (h : ∀ d, 1 ≤ d → d < 4 → code d = 5) : (accepting code).getLsbD 0 = true := by
  simp only [accepting, List.range, List.range.loop, List.foldl, h0, h 1 (by omega) (by omega), h 2 (by omega) (by omega), h 3 (by omega) (by omega)]
  decide

theorem accepting_none (code : Nat → Nat) (h : ∀ d, code d = 5) : (accepting code).getLsbD 0 = false := by
  simp only [accepting, List.range, List.range.loop, List.foldl, h]
  decide

/-- Die 0 accepts that image on a package that has staged none. -/
theorem reset_image0 (digest : BitVec 256) (hd : digest.toNat = leNat (shake256 ((image0.drop 80).take 1793) 32))
    (h : Config.falconVerifies ((firmwareImage image0).head.take 3153) digest = true) (s : State) (hs : s.pkg.staged = none) :
    (accepting (bootCodes (boot0 digest) s)).getLsbD 0 = true := by
  have e0 : s.pkg.staged.getD (boot0 digest).image = image0 := by rw [hs]; rfl
  apply accepting_one
  · have hp : (passingCore (boot0 digest) 0).isNone = false := by rfl
    have e1 : (boot0 digest).keyDigest.getD 0 0 = digest := rfl
    have e2 : (boot0 digest).minSvn.getD 0 0 = 3 := rfl
    rw [bootCodes, e0, dieCode, hp, if_neg (by decide), e1, e2]
    exact image0_accepted digest hd h
  · intro d _ _
    have : passingCore (boot0 digest) d = none := by
      have : d = 1 ∨ d = 2 ∨ d = 3 := by omega
      rcases this with rfl | rfl | rfl <;> rfl
    simp only [bootCodes, dieCode, this, Option.isNone_none, if_true]

theorem witness_PackageResetAccepted (h : Config.falconVerifies ((firmwareImage image0).head.take 3153) digest0 = true) :
    (accepting (bootCodes (boot0 digest0) s0)).getLsbD 0 = true := reset_image0 digest0 digest0_toNat h s0 rfl

/-- No core passes its self-test. -/
theorem witness_PackageResetRefused : (accepting (bootCodes { boot0 0 with selfTest := [] } s0)).getLsbD 0 = false :=
  accepting_none _ fun d => by simp [bootCodes, dieCode, passingCore]

/-- A state in which firmware has booted. -/
def booted (f : Package → Package) : State := { s0 with pkg := f { ready := true } }

theorem witness_HostRegistersAndAccesses :
    let ready : State := booted id
    let page (host busy : Bool) : State := booted fun p => { p with exposed := [(5, (2, host))], flips := if busy then [(2, { page := 5, busy := true })] else [] }
    let idle (s : State) : Bool := s.pkg.ready && !(s.pkg.flips.get {} 2).busy
    let stands (s : State) (host : Bool) : Bool := decide (s.pkg.exposed.find? 5 = some (2, host))
    let owner (s : State) : Option Nat := (s.queue? (s.work.tenants.get {} 0).qid).map fun q => (s.vfs.get {} q.vf).dev
    let owned : State := { ready with work := { queues := [(0, {})], tenants := [(0, { src := 9 })] } }
    let rdma (va : Nat) : Bool := match (queueRead (mapped s0) { vf := 0, asid := 0 } va 64).2 with | .ok _ => true | .error _ => false
    all [
      ready.pkg.ready && decide (registerAt (.pf 0) 0x060 = some (0x060, 8)),
      decide (registerAt (.pf 0) 0x064 = some (0x060, 8)),
      !s0.takesWrites (.pf 0), (registerAt (.vf 3) 0x1000).isNone,
      owner owned == some 0, owner owned != some 1, !s0.pkg.ready,
      decide ((1 : Nat) ≠ 0),
      idle (page false false) && stands (page false false) false, idle (page true false) && stands (page true false) true,
      idle (page true false) && !stands (page true false) false, idle (page false false) && !stands (page false false) true,
      (let s := page false true; (s.pkg.flips.get {} 2).busy && !pageBusy s (s.pkg.flips.get {} 2).page),
      exposedTo (page true false) 2 (0x5FFF / 4096), !exposedTo (page true false) 3 5, decide (2 ^ 38 - 1 < 2 ^ 38),
      s0.flips.isEmpty && !s0.pkg.errorQps.contains 65535 && rdma 0x3000, !rdma 0x4000000000, (booted fun p => { p with errorQps := [7] }).pkg.errorQps.contains 7] = true := by
  decide +kernel

theorem witness_ErrorsLinksPowerAndSecurity :
    let port (n : Nat) : State := booted fun p => { p with lanes := p.lanes.put 4 35 n }
    let power (mhz : Nat) : State := booted fun p => { p with mhz := mhz }
    let fine (d st n r : Nat) : Bool := decide (d < 4 ∧ st < 64 ∧ n ≤ 8 ∧ r ≤ 8 ∧ n + r ≤ 12)
    let inUse (s : State) (c : Nat) : Bool := s.wgs.any fun g => g.2.cluster == c && !g.2.saved
    let interface (x : TdispState) : State := s0.modFunc (.vf 3) fun f => { f with tdisp := x }
    let is (x : TdispState) : Bool := decide (((interface x).func (.vf 3)).tdisp = x)
    all [
      s0.flips.isEmpty && (s0.warp? 1).isSome, decide ((port 4).pkg.lanes.get 4 35 = 4), decide ((port 2).pkg.lanes.get 4 35 ≠ 4),
      decide ((power 900).pkg.limit < 2801 ∧ 900 ≤ (power 900).pkg.mhz), decide (2800 ≤ (power 1600).pkg.limit ∧ (power 1600).pkg.mhz ≤ 1600),
      decide ((power 800).pkg.limit < 2801 ∧ (power 800).pkg.mhz < 900), decide (2800 ≤ (power 1700).pkg.limit ∧ 1600 < (power 1700).pkg.mhz),
      fine 3 63 8 4 && !inUse s0 31, !fine 3 63 8 5, fine 0 0 8 4 && inUse s0 0,
      is .unlocked, is .locked, is .run, is .error, (measurement s0 3).isSome] = true := by decide +kernel

/-- A request of a function. -/
def asks (f : Func) (args : List Word64) : SvcReq :=
  { caller := f, seq := 9, index := 0, a0 := args.getD 0 0, a1 := args.getD 1 0, a2 := args.getD 2 0, a3 := args.getD 3 0, a4 := args.getD 4 0, a5 := args.getD 5 0 }

/-- A request that is new to firmware, and a condition once it is taken. -/
def served (s : State) (r : SvcReq) (p : State → Bool) : Bool := (s.sys.log.find? (logKey r)).isNone && r.clean && !s.pkg.recovery && p (taken r s)

theorem witness_ServicesOfQueuesPortsAndTables :
    let open_ (s : State) (vf : Nat) : Bool := !s.configLocked vf
    let qArgs (r : SvcReq) : Bool :=
      onlyFields r.a5 [(0, 16), (16, 8), (24, 4), (32, 4), (40, 5), (48, 2)] && decide (argBits r.a5 40 5 ≤ 16) && r.a0.toNat % 4096 == 0
        && r.a1.toNat % 4096 == 0 && r.a2.toNat % 4096 == 0 && r.a4.toNat % 4096 == 0
    let qVf (r : SvcReq) : Nat := vfArg r (argBits r.a5 16 8)
    let create (f : Func) : SvcReq := asks f [0x3000, 0x4000, 0x100000, 0, 0, 0x0003100F0FFF0003]
    let sP : State := { sQueue with spaces := [(State.spaceKey 3 7, { vf := 3, asid := 7, root := 0x10000 })]
                                    ui := { ports := [(State.spaceKey 3 7, {})] } }
    let onPort (s : State) (r : SvcReq) (n : Nat) (p : Nat → Bool) : Bool :=
      argsEndAt r n && (vfOfAsid r s (argBits r.a0 0 16)).any fun vf => open_ s vf && p vf
    let table (r : SvcReq) (s : State) : List Byte := s.bytes (hostKey (s.deviceOf r.caller) r.a1.toNat) 64
    let tenant (r : SvcReq) (s : State) : Tenant := parseTenant (table r s) (s.work.tenants.get {} r.a0.toNat).lastseq
    let ringArgs (r : SvcReq) : Bool :=
      argsEndAt r 3 && onlyFields r.a0 [(0, 2), (8, 8)] && argBits r.a0 0 2 != 3 && r.a1.toNat % 4096 == 0 && onlyFields r.a2 [(0, 4), (8, 8)]
        && (r.a1 == 0 || if argBits r.a0 0 2 = 0 then argBits r.a2 0 4 == 0 else decide (4 ≤ argBits r.a2 0 4 ∧ argBits r.a2 0 4 ≤ 12))
    let perm : SvcReq := asks (.pf 0) [7 + 63 * 2 ^ 16, 0xFF, 1 + (2 ^ 24 - 1) * 2 ^ 16]
    all [
      served s0 (create (.pf 0)) fun s => qArgs (create (.pf 0)) && mayUse (create (.pf 0)) s (qVf (create (.pf 0))) && open_ s (qVf (create (.pf 0)))
        && (freeQueue s).isSome,
      served s0 (create (.pf 2)) fun s => qArgs (create (.pf 2)) && !mayUse (create (.pf 2)) s (qVf (create (.pf 2))),
      (let r := asks (.pf 0) [0]; served sP r fun s => s.flips.isEmpty && argsEndAt r 1 && (s.queue? r.a0.toNat).any fun q => q.live && mayUse r s q.vf && open_ s q.vf),
      (let r := asks (.pf 0) [7]; served { sP with ui := {} } r fun s => onPort s r 1 fun vf => onlyFields r.a0 [(0, 16)] && (s.port? vf 7).isNone),
      (let r := asks (.vf 3) [7]
       served sP r fun s => onPort s r 1 fun vf => onlyFields r.a0 [(0, 16)] && (s.port? vf 7).isSome
        && s.flips.isEmpty && match (s.warps.filter fun x => x.2.kind == .ordinary && x.2.vf == vf && x.2.asid == r.a0.toNat).foldl
          (fun (a : Except State State) x => match a with | .ok s => dropPending s x.1 x.2 | .error s => .error s) (.ok s) with
          | .ok _ => true
          | .error _ => false),
      served sP perm fun s => onPort s perm 3 fun vf => onlyFields perm.a0 [(0, 16), (16, 6)] && onlyFields perm.a2 [(0, 2), (7, 1), (16, 48)]
        && decide (argBits perm.a2 0 2 = 1 → argBits perm.a2 16 48 < 2 ^ 24) && argBits perm.a2 0 2 == 1 && (s.port? vf 7).isSome,
      (let r := asks (.pf 0) [255, 0x6000]
       served sQueue r fun s => argsEndAt r 2 && onlyFields r.a0 [(0, 8)] && decide (numAt (table r s) 18 1 < 2) && ((table r s).drop 46).all (fun b => b == 0)
        && fromPf r && (s.queue? (tenant r s).qid).any (fun q => mayUse r s q.vf && open_ s q.vf) && !(s.work.tenants.get {} r.a0.toNat).flags.getLsbD 0),
      (let r := asks (.pf 0) [1 + 3 * 2 ^ 8, 0x7000, 12 + 5 * 2 ^ 8]; served s0 r fun s => ringArgs r && mayUse r s (vfArg r (argBits r.a0 8 8)) && open_ s 3),
      (let r := asks (.pf 0) [3 * 2 ^ 8, 0x7000, 0]; served s0 r fun s => ringArgs r && mayUse r s (vfArg r (argBits r.a0 8 8))),
      (let r := asks (.pf 5) [1 + 3 * 2 ^ 8]; served s0 r fun s => ringArgs r && !mayUse r s (vfArg r (argBits r.a0 8 8))),
      (let r := asks (.pf 0) [0xFFFE + 3 * 2 ^ 16, 0x8000]
       served s0 r fun s => argsEndAt r 2 && onlyFields r.a0 [(0, 16), (16, 8)] && rootOk r.a1 && argBits r.a0 0 16 != 0xFFFF
        && mayUse r s (vfArg r (argBits r.a0 16 8))),
      (let r := asks (.pf 0) [3 + 2 ^ 8, 0x8000]; served s0 r fun s => argsEndAt r 2 && onlyFields r.a0 [(0, 9)] && rootOk r.a1 && fromPf r && mayUse r s 3),
      (let r := asks (.pf 0) [3 + 15 * 2 ^ 8]; served s0 r fun s => argsEndAt r 1 && onlyFields r.a0 [(0, 12)] && r.caller == .pf 0 && open_ s 3),
      (let r := asks (.pf 0) [31 + 3 * 2 ^ 8, 100 + 200 * 2 ^ 24]
       served s0 r fun s => argsEndAt r 2 && onlyFields r.a0 [(0, 5), (8, 8)] && onlyFields r.a1 [(0, 16), (24, 16)] && fromPf r
        && mayUse r s (argBits r.a0 8 8))] = true := by decide +kernel

theorem witness_ServicesOfWorkAndPackage :
    let op (r : SvcReq) : Nat := argBits r.a0 0 2
    let keys (r : SvcReq) (s : State) : Bool :=
      argsEndAt r 1 && onlyFields r.a0 [(0, 2), (16, 12), (32, 8)] && op r != 3 && fromPf r && (s.sys.keys.get {} (argBits r.a0 16 12)).vf.isNone
        && (op r != 2 || (mayUse r s (argBits r.a0 32 8) && !s.configLocked (argBits r.a0 32 8))) && (op r == 2 || argBits r.a0 32 8 == 0)
    let saves (r : SvcReq) (s : State) : Bool :=
      argsEndAt r 3 && decide (r.a2.toNat < 4096) && (s.wg? r.a0.toNat).any (fun g => mayUse r s g.vf) && (s.sys.saves.find? r.a0.toNat).isNone
    let check (r : SvcReq) (s : State) : Option Nat := saveCheck s r.a0.toNat r.a1.toNat r.a2.toNat
    let pf (args : List Word64) : SvcReq := asks (.pf 0) args
    let case (s : State) (r : SvcReq) (p : SvcReq → State → Bool) : Bool := served s r (p r)
    all [
      case s0 (pf [2 + 4095 * 2 ^ 16 + 3 * 2 ^ 32]) keys, case s0 (pf [4095 * 2 ^ 16]) keys,
      case s0 (pf [5, 0x50000, 0]) fun r s => saves r s && (check r s).isNone,
      case s0 (pf [5, 0x50000, 4095]) fun r s => saves r s && (check r s).isSome,
      case s0 (pf [31, 0x50000, 4095]) fun r s =>
        s.flips.isEmpty && argsEndAt r 3 && onlyFields r.a0 [(0, 5)] && decide (r.a2.toNat < 4096) && (imageAddrBad s r.a1.toNat).isNone
          && mayUse r s (numAt (s.bytes (imageKey r s r.a1.toNat + 42) 1) 0 1),
      case { s0 with pkg := { sessions := [15] } } (asks (.pf 15) [15]) fun r s =>
        argsEndAt r 1 && onlyFields r.a0 [(0, 4)] && r.caller == .pf (argBits r.a0 0 4) && s.pkg.sessions.contains (argBits r.a0 0 4)
          && s.flips.isEmpty,
      case s0 (asks (.pf 15) [15]) fun r s =>
        argsEndAt r 1 && onlyFields r.a0 [(0, 4)] && !s.pkg.sessions.contains (argBits r.a0 0 4) && s.flips.isEmpty,
      case s0 (pf [5, 1]) fun r s => s.flips.isEmpty && argsEndAt r 2 && onlyFields r.a1 [(0, 1)] && (s.wg? r.a0.toNat).any fun g => mayUse r s g.vf,
      case s0 (pf [2 ^ 30]) fun r _ => argsEndAt r 1 && r.a0.toNat == 2 ^ (16 + 14) && fromPf r,
      case s0 (pf [60000]) fun r _ => argsEndAt r 1 && decide (r.a0.toNat ≤ 60000) && r.caller == .pf 0,
      case s0 (asks (.vf 1) [60000]) fun r _ => argsEndAt r 1 && decide (r.a0.toNat ≤ 60000) && r.caller != .pf 0,
      case s0 (pf [31 + 15 * 2 ^ 8]) fun r s => argsEndAt r 1 && onlyFields r.a0 [(0, 5), (8, 4)] && r.caller == .pf 0 && !clusterInUse s (argBits r.a0 0 5),
      case s0 (pf [15]) fun r s => s.flips.isEmpty && argsEndAt r 1 && onlyFields r.a0 [(0, 4)] && r.caller == .pf 0,
      [0, 1, 2, 3].all fun k => case s0 (pf [k, 0, 0]) fun r _ => argsEndAt r 3 && onlyFields r.a0 [(0, 2)] && fromPf r && op r == k.toNat,
      (let r := pf [1]; (({ s0 with sys := { log := [(logKey r, replyBytes r 0x12 0 [])] } } : State).sys.log.find? (logKey r)).isSome)] = true := by
  decide +kernel

/-- A package whose fuses hold the digest of `image0`, with that image in the memory of host 0. -/
def sImage (digest : BitVec 256) : State :=
  { s0 with mem := cells (hostKey 0 0) (image0.take 80), pkg := { fuseKeys := List.replicate 4 digest, fuseSvns := List.replicate 4 3 } }

/-- FWUPDATE of that image. -/
theorem witness_FwupdateAccepted (h : Config.falconVerifies ((firmwareImage image0).head.take 3153) digest0 = true) :
    let r := asks (.pf 0) [0, 4096]
    let bs := (sImage digest0).bytes (hostKey ((sImage digest0).deviceOf r.caller) r.a0.toNat) r.a1.toNat
    argsEndAt r 2 = true ∧ r.caller = .pf 0 ∧ (firmwareImage bs).good = true ∧ bs.length = 4096 + (firmwareImage bs).body.length
      ∧ ∀ d < 4, imageCode (firmwareImage bs) ((sImage digest0).pkg.fuseKeys.getD d 0) ((sImage digest0).pkg.fuseSvns.getD d 0) = 0 := by
  have hb (digest : BitVec 256) : (sImage digest).bytes (hostKey ((sImage digest).deviceOf (.pf 0)) 0) 4096 = image0 := by
    have : ((sImage 0).bytes (hostKey ((sImage 0).deviceOf (.pf 0)) 0) 4096 == image0) = true := by decide +kernel
    exact eq_of_beq this
  have hl : image0.length = 4096 + (firmwareImage image0).body.length := by decide +kernel
  have key (digest : BitVec 256) (hd : imageCode (firmwareImage image0) digest 3 = 0) :
      ∀ d < 4, imageCode (firmwareImage image0) ((sImage digest).pkg.fuseKeys.getD d 0) ((sImage digest).pkg.fuseSvns.getD d 0) = 0 := by
    intro d hd4
    have : (sImage digest).pkg.fuseKeys.getD d 0 = digest ∧ (sImage digest).pkg.fuseSvns.getD d 0 = 3 := by
      have : d = 0 ∨ d = 1 ∨ d = 2 ∨ d = 3 := by omega
      rcases this with rfl | rfl | rfl | rfl <;> exact ⟨rfl, rfl⟩
    rw [this.1, this.2]
    exact hd
  intro r bs
  have e : bs = image0 := hb digest0
  rw [e]
  exact ⟨by decide, rfl, test_image0_good, hl, key digest0 (image0_accepted digest0 digest0_toNat h)⟩

theorem witness_ExitYieldWaitNop :
    let left (c : Ctx) : BitVec 32 := c.path.lmask &&& ~~~c.act
    let some_ (c : Ctx) (_ : State) : Bool := c.act != 0
    let none_ (c : Ctx) (_ : State) : Bool := c.act == 0
    let someLeft (c : Ctx) (_ : State) : Bool := c.act != 0 && left c != 0
    let noneLeft (c : Ctx) (_ : State) : Bool := c.act != 0 && left c == 0
    let half : State := with_ fun x => { x with regs := { x.regs with p := [(5, 0xFFFF)] } }
    let busy : State := with_ fun x => { x with regs := { x.regs with fcnt := [(3, 1)] } }
    let named (c : Ctx) : List Nat :=
      (if c.q.testBit 0 then [c.f.fa.toNat] else []) ++ (if c.q.testBit 1 then [c.f.fb.toNat] else []) ++ if c.q.testBit 2 then [c.f.fc.toNat] else []
    let mask (c : Ctx) : BitVec 12 := (named c).foldl (fun m n => m ||| (1#12 <<< n)) 0
    let clear (c : Ctx) (_ : State) : Bool := c.act == 0 || c.warp.regs.flagsClear (mask c)
    let unclear (c : Ctx) (_ : State) : Bool := c.act != 0 && !c.warp.regs.flagsClear (mask c)
    let r (gd : Guard) (q : BitVec 3 := 0) : Form := .r { g := gd, q := q }
    all [
      meets half 0x007 (r g) someLeft, meets s0 0x007 (r g) noneLeft, meets s0 0x007 (r off) none_,
      meets s0 0x008 (r g) some_, meets s0 0x008 (r off) none_, meets s0 0x00C (r g 1) clear, meets busy 0x00C (r off 1) clear,
      meets busy 0x00C (.r { g := g, q := 1, a := 3 }) unclear, ok s0 0x001 (r g),
      ok s0 0x001 (.r { g := j32Guard 10 }), meets s0 0x007 (.r { g := j32Guard 7 }) noneLeft, meets s0 0x008 (.r { g := j32Guard 7 }) some_,
      ok s0 0x001 (.r {}), meets s0 0x007 (.r {}) noneLeft, meets s0 0x008 (.r {}) some_] = true := by decide +kernel

/-- A state whose next guest word is fetched and does not overfill its clause. -/
def fetches (s : State) (p : Guest → Bool) : Bool :=
  match s.cur with
  | none => false
  | some k => match s.warp? k.w, s.path? k.w k.p with
    | some x, some q => k.due && k.rest.isEmpty && (breakingComparator s).isNone && match fetchAt s k.w k.p x q with
      | .word g _ => !overfull q g && p g
      | _ => false
    | _, _ => false

theorem witness_StepRunsTheDecodedInstruction :
    let emu (s : State) : State :=
      { s with personalities := [(0, { resident := true }), (3, { resident := true, tables := some emulated })], gaz := s.gaz.map fun e => { e with pid := 3 }
               tlb := s.tlb.map fun e => { e with pid := 3 } }
    all [
      fetches (s0.withFetchWord 32 0x89C00002) (fun g => match g with | .row _ _ => true | _ => false),
      fetches (s0.withFetchWord 64 0x051E010000000001) (fun g => match g with | .slots [(o, f)] _ => (ofParts o f).isSome | _ => false),
      fetches (emu (s0.withFetchWord 64 0)) (fun g => match g with | .emu _ => true | _ => false),
      fetches (s0.withFetchWord 64 0xFFC4000000000000) (fun g => match g with | .header _ _ => true | _ => false),
      (decodeTableWord 16 0xA140).isSome && (breakingComparator (State.reset.withFetchWord 16 0xA140)).isNone] = true := by decide +kernel

theorem witness_EncodeThenDecode :
    let i : Instr := .ffma { g := { inv := true, pred := 2 }, d := 4, a := 1, b := 2, c := 3, h := 1, m := 1, t := .f32, cs := true, e := true }
    i.wf = true ∧ encode i = some (64, 0x30E40401020348A1) ∧ i.parts.isSome = true := by decide +kernel

/-- The first instruction after reset, a NOP, gives a next state. -/
theorem witness_NotesAreCurrentAfterEveryStep : ∃ t, step (State.reset.withFetchWord 64 0x005E000000000001) = .next t := by
  have h : (match step (State.reset.withFetchWord 64 0x005E000000000001) with | .next _ => true | _ => false) = true := by decide +kernel
  split at h
  · exact ⟨_, by assumption⟩
  · cases h

/-! ### Ill-formed terms -/

/-- Each term breaks one check of well-formedness: a reserved type, U where the opcode has none, an odd pair, KMASK in a J64 word, E = 0,
a target off its boundary, and a rounding field above 6. -/
theorem test_ill_formed_iops : [
    Instr.iadd { d := 1, a := 2, b := 3, t := .f32, e := true }, .lxch { u := true, d := 5, a := 3, c := 1, t := .z32, ci := true, q := 1, e := true },
    .iadd { d := 1, a := 2, b := 4, t := .s64, e := true }, .iadd { d := 1, a := 2, b := 3, t := .s32, km := 8, e := true },
    .iadd { d := 1, a := 2, b := 3, t := .s32, e := false }, .bra { ofs := 2, e := true }, .fadd { d := 1, a := 2, b := 3, m := 7, t := .f32, e := true },
    .mma { d := 2, a := 0, b := 1, c := 6, sfs := 3, t := .bf16, e := true }, .iadd { d := 1, a := 2, b := 3, t := .s32, bs := true, ci := true, e := true }].all
      (fun i => !i.wf) = true := by decide +kernel

/-- Each guest row breaks one of its limits. -/
theorem test_ill_formed_rows : [
    Instr.j32Header 0 0 15 15 false, .j32Header 25 0 15 15 false, .j32Header 3 0 12 15 false, .j32Header 3 0 15 3 false, .j32Header 3 0 4 4 false,
    .j32Icmpi 7 6 1 2 3, .j32Ldu 7 32 1 0 0, .j32Stu 7 63 1 0 0, .j32Atom 7 2 2 2 3, .j16Icmp 1 2 6, .j16Icmp 1 2 14, .j16Bar 6].all
      (fun i => !i.wf) = true := by decide +kernel

/-- Each step names something that does not exist. -/
theorem test_ill_formed_steps : [
    Instr.kick (.vf 256) 0, .trapci (.pf 16) 0, .qcreate (asks (.vf 256) []), .graceset (asks (.pf 16) [0]), .hostWarmRestart 16, .hostSnoop 16 0 [],
    .remoteLineWaysSet 4 0 0 0, .remoteLineWaysSet 0 64 0 0, .linkLaneLoss 36 1, .linkLaneLoss 0 5, .flitRetry 36, .isobarSample 4, .scanComplete 4].all
      (fun i => !i.wf) = true := by decide +kernel

/-- The same terms within their limits. -/
theorem test_well_formed : [
    Instr.iadd { d := 1, a := 2, b := 3, t := .s32, e := true }, .bra { ofs := 4, e := true }, .fadd { d := 1, a := 2, b := 3, m := 6, t := .f32, e := true },
    .j32Header 24 0 11 15 false, .j32Icmpi 7 5 1 2 3, .j32Ldu 7 31 1 0 0, .j32Atom 7 2 2 1 3, .j16Icmp 1 2 13, .j16Bar 5, .kick (.vf 255) 0,
    .hostWarmRestart 15, .remoteLineWaysSet 3 63 8 8, .linkLaneLoss 35 4].all Instr.wf = true := by decide +kernel

/-! ### Words that the manual writes out in its examples -/

/-- 2, 7 to 14: the examples beside the encoding tables. -/
theorem test_manual_words :
    (decodeTableWord 64 0x129E0901050D4501 = some (.imad { d := 9, a := 1, b := 5, c := 13, h := 1, t := .s32, e := true })
      ∧ decodeTableWord 64 0x601E070402040075 = some (.ld { d := 7, a := 4, b := 2, ofs := 0x40, t := .z32, iv := true, e := true })
      ∧ decodeTableWord 64 0x905E000400030011 = some (.pbind { a := 4, c := 3, ci := true, e := true })
      ∧ decodeTableWord 64 0x909E000500000003 = some (.emret { a := 5, q := 1, e := true })
      ∧ decodeTableWord 64 0x8C1E050003000743 = some (.rld { d := 5, b := 3, t := .z32, bs := true, q := 1, e := true })
      ∧ decodeTableWord 64 0x8C9E080409000741 = some (.xshuf { d := 8, a := 4, b := 9, t := .z32, bs := true, e := true })
      ∧ decodeTableWord 64 0x941E050803000043 = some (.npush { d := 5, a := 8, b := 3, bs := true, q := 1, e := true })
      ∧ decodeTableWord 64 0x881E060703024001 = some (.cpy { d := 6, a := 7, b := 3, c := 2, sfs := 1, e := true }))
    ∧ decodeTableWord 64 0x9C9E000000070011 = some (.trap { c := 7, ci := true, e := true })
    ∧ decodeTableWord 64 0x9CDE000000000005 = some (.tret { q := 2, e := true })
    ∧ decodeTableWord 64 0x9E1E040506070061 = some (.ctxsv { d := 4, a := 5, b := 6, c := 7, bs := true, cs := true, e := true })
    ∧ decodeTableWord 64 0x389E0B0A00000085 = some (.hadt { d := 11, a := 10, t := .f32, q := 2, e := true })
    ∧ decodeTableWord 32 0x0E890FFB = some (.j32Iaddi 10 9 3 0x3FB)
    ∧ decodeTableWord 16 0xE532 = some (.j16Icmp 5 3 2) := by decide +kernel

/-- The headers of chapter 2's example, in J64 fields and as the J32 word. -/
theorem test_manual_header : guestJ32 0xFC604807 = .ok (.header { len := 3, waits := 0x24, sf1 := some 0, sf2 := some 3, rlx := true, yld := false } 4) := by
  decide +kernel

/-! ### Results -/

/-- `s0` with slots changed. -/
def withV (vs : List (Nat × Row)) : State := with_ fun x => { x with regs := { x.regs with v := vs.foldl (fun m n => m.insert n.1 n.2) x.regs.v } }

/-- The word fetched next gives a state in which slot n holds x in lane l, for each of a list. -/
noncomputable def gives (s : State) (nbits w : Nat) (xs : List (Nat × Nat × Nat)) : Bool :=
  match step (s.withFetchWord nbits w) with
  | .next t => (t.warp? 1).any fun x => xs.all fun e => ((x.regs.row e.1).lane e.2.1).toNat == e.2.2
  | _ => false

/-- An instruction gives a state that satisfies p. -/
noncomputable def yields (i : Instr) (s : State) (p : State → Bool) : Bool := match exec i s with | .next t => p t | _ => false

/-- Chapter 5: 3 × 4 + 10 = 22. -/
theorem test_imad : gives (withV [(1, lanes fun _ => 3), (5, lanes fun _ => 4), (13, lanes fun _ => 10)]) 64 0x129E0901050D4501 [(9, 0, 22), (9, 31, 22)] = true := by
  decide +kernel

/-- Chapter 5's example of lane exchanges: lanes 0 to 7, p2 false in lanes 2 and 5, v3 = l + 1. -/
def sEight : State :=
  with_ fun x => { x with regs := { x.regs with p := [(2, 0xFFFFFFDB)], paths := [(0, { path0 with lmask := 0xFF })], v := (x.regs.v.insert 3 (lanes (· + 1))).insert 5 (lanes fun _ => 77) } }

theorem test_wscan : gives sEight 64 0x1984040300000501 [(4, 0, 1), (4, 1, 3), (4, 3, 7), (4, 4, 12), (4, 6, 19), (4, 7, 27), (4, 2, 6), (4, 5, 9), (4, 8, 12)] = true := by
  decide +kernel

theorem test_lxch : gives sEight 64 0x189E050300010713 [(5, 0, 2), (5, 6, 8), (5, 7, 8), (5, 8, 77)] = true := by decide +kernel

/-- CALL as in chapter 4, slide 16 and frame 24 for WTOP = 32: the window and the link record. -/
theorem test_call :
    yields (.call { d := 16, a := 24, ofs := 0x20, e := true }) (withPath fun q => { q with wtop := 32, iter := 9 }) (fun t => onPath t fun x q =>
      q.wbase == 16 && q.wtop == 40 && q.depth == 1 && q.pc == 0x1040
        && [(12, 0x1008), (13, 0)].all fun e => ((x.regs.row e.1).lane 0).toNat == e.2) = true := by decide +kernel

/-- R176: a sum that wraps, and one that saturates. -/
theorem test_iadd_sat :
    gives (withV [(1, lanes fun _ => 0x7FFFFFFF), (2, lanes fun _ => 1)]) 64 0x101E090102000501 [(9, 0, 0x80000000)] = true
      ∧ gives (withV [(1, lanes fun _ => 0x7FFFFFFF), (2, lanes fun _ => 1)]) 64 0x101E090102000503 [(9, 0, 0x7FFFFFFF)] = true := by
  decide +kernel

/-- Half an ulp above 1 rounds to even, and up under RUP (mode 3 of M). -/
theorem test_fadd_rounds :
    yields (.fadd { d := 9, a := 1, b := 2, m := 1, t := .f32, e := true }) (withV [(1, lanes fun _ => 0x3F800000), (2, lanes fun _ => 0x33800000)])
        (fun t => onPath t fun x _ => ((x.regs.row 9).lane 0).toNat == 0x3F800000 && x.regs.gstat.toNat == 16) = true
      ∧ yields (.fadd { d := 9, a := 1, b := 2, m := 3, t := .f32, e := true }) (withV [(1, lanes fun _ => 0x3F800000), (2, lanes fun _ => 0x33800000)])
        (fun t => onPath t fun x _ => ((x.regs.row 9).lane 0).toNat == 0x3F800001) = true := by decide +kernel

/-- Chapter 7's example of MMA: 2^12 · 2^12, 1 · 1 and −2^12 · 2^12 in group 0, 3 · 2^-24 in group 1: 1 + 2^-22, inexact. -/
theorem test_mma_groups :
    let one (x : Nat) : Option FNum := some (readFloat .f32 false x)
    let r := mmaElement .f32 16 32 (fun k => if k = 0 then one 0x4B800000 else if k = 1 then one 0x3F800000 else if k = 2 then one 0xCB800000
      else if k = 16 then one 0x34400000 else one 0) 0 {}
    r.1 = 0x3F800002 ∧ r.2.fl = Exc.ix := by decide +kernel

/-- Chapter 9's example of atomics: four lanes add 1 to 10 (R308). -/
theorem test_atomic_lanes :
    let r : Inflight := { rid := 7, core := 0, warp := 1, lanes := 15, seq := 1, op := .atomic 0 false .s32 .clus ((List.range 4).map fun l => (l, 1, 0)), size := 4
                          elems := (List.range 4).map fun l => { lane := l, va := 0x1000, pa := 0x8000 }, dest := .none, busy := [] }
    let s : State := { s0 with mem := [(0x8000, 10)] }
    let z := r.elems.foldl (fun acc e => ((performElem acc.1 r e).1, acc.2 ++ [(performElem acc.1 r e).2.val])) (s, [])
    z.2 = [some 10, some 11, some 12, some 13] ∧ z.1.readLe 0x8000 4 = 14 := by decide +kernel

/-- Chapter 12's example of R366: ten workgroups on dies 0, 1 and 3. -/
theorem test_dies :
    let grid (hint : Nat) : Grid := { qid := 0, vf := 0, asid := 0, addr := 0, pk := { grid := 10, hint := hint }, dies := [0, 1, 3] }
    [0, 1, 2].map (grid 16).onDie = [(0, 1, 4), (4, 1, 3), (7, 1, 3)] ∧ [0, 1, 2].map (grid 0).onDie = [(0, 3, 4), (1, 3, 3), (2, 3, 3)] := by decide +kernel

/-- R465's example: RLOG = 4, HEAD = TAIL = 14; a kick to 17 is taken, and then those to 15 and to 40 are ignored. -/
theorem test_kick :
    let s : State := { booted id with work := { queues := [(3, { live := true, rlog := 4, head := 14, tail := 14 })] } }
    yields (.kick (.vf 0) 0x0000000300000011) s (fun t => (t.queue? 3).any fun q => q.tail == 17
      && [15, 40].all fun n => ((kick (.vf 0) (BitVec.ofNat 64 (3 * 2 ^ 32 + n)) t).queue? 3).any fun q => q.tail == 17) = true := by decide +kernel

/-- R298: a store is held, memory as before; R297: once it performs, its bytes stand in memory. -/
theorem test_store_then_performs :
    yields (.st { d := 3, a := 4, b := 2, t := .z32, iv := true, e := true }) s0 (fun t => t.mem == [] && t.held.length == 32) = true
      ∧ (let h : Held := { wid := 8, core := 0, warp := 1, wg := 5, lanes := 1, seq := 2, scope := some .pod, base := 0x8000, size := 1, cells := [(0x8000, 5)] }
         yields (.writePerform 8) { s0 with held := [h] } (fun t => t.mem == [(0x8000, 5)] && t.held == []) = true) := by decide +kernel

/-- R411: TRAP 7 traps the warp with SYSTRAP and its number. -/
theorem test_trap :
    yields (.trap { c := 7, ci := true, e := true }) s0 (fun t => (t.warp? 1).any fun x => x.trap.any fun y => y.info == 7 && y.pc == 0x1000) = true := by decide +kernel

end Sys2Proof.Tests
end

section
/-!
PROOF. The statements on fixed values: the state after reset, and the words that the manual writes out (O53, O55).
-/

namespace Sys2Proof.Machine

/-- Settles O53: each field is as `State.reset` has it, and a table with no entry reads as its default. -/
theorem afterPackageReset : Obligations.AfterPackageReset := by
  unfold Obligations.AfterPackageReset
  have hresident : ∀ n, (SMap.get {} State.reset.personalities n).resident = decide (n = 0) := by
    intro n
    simp only [State.reset, SMap.get, SMap.find?_cons, SMap.find?_nil]
    by_cases hn : n = 0 <;> simp [hn]
  exact ⟨rfl, rfl, rfl, rfl, rfl, rfl, rfl, rfl, rfl, rfl, rfl, rfl, rfl, rfl, rfl, rfl,
    fun f => by cases f <;> rfl, fun _ _ => rfl, fun _ => rfl, hresident, rfl, rfl, rfl⟩

/-- Settles O55: closed words, which the kernel decodes. -/
theorem specWordsDecode : Obligations.SpecWordsDecode := by
  unfold Obligations.SpecWordsDecode
  decide +kernel
end Sys2Proof.Machine
end

section
/-!
SUPPORT. What stops an IOP at issue is the outcome of `exec` (R11, R148, R413, R416, R417).
-/

namespace Sys2Proof.Machine

/-- The issuing path and the fields of an instruction, as `issue` finds them: what `Ready` says before its first check. -/
abbrev Issues (opc : Nat) (f : Form) (s : State) (c : Ctx) : Prop :=
  s.cur = some c.cur ∧ c.w = c.cur.w ∧ c.p = c.cur.p ∧ s.warp? c.w = some c.warp ∧ c.warp.regs.paths.find? c.p = some c.path
    ∧ c.opc = opc ∧ c.f = f ∧ c.sh = (shape opc f).getD {}

/-- An illegal form faults before everything else (R11, R416). -/
theorem issue_of_illegal {opc : Nat} {f : Form} {s : State} {c : Ctx} (h : Issues opc f s c) (hl : legal opc f = false) :
    issue opc f s = some (faulted s c .illop (c.path.pc.zeroExtend 64)) := by
  obtain ⟨w, p, warp, path, cur, opc', f', sh⟩ := c
  simp only [Issues] at *
  obtain ⟨hcur, rfl, rfl, hwarp, hpath, rfl, rfl, rfl⟩ := h
  simp only [issue, hcur, hwarp, hpath, hl, Bool.not_false, if_true]

/-- A privileged IOP faults outside privileged mode (R417). -/
theorem issue_of_unprivileged {opc : Nat} {f : Form} {s : State} {c : Ctx} (h : Issues opc f s c) (hl : legal opc f = true)
    (hp : isPrivileged opc = true) (hx : c.warp.privileged = false) : issue opc f s = some (faulted s c .illpriv 0) := by
  obtain ⟨w, p, warp, path, cur, opc', f', sh⟩ := c
  simp only [Issues] at *
  obtain ⟨hcur, rfl, rfl, hwarp, hpath, rfl, rfl, rfl⟩ := h
  simp only [issue, hcur, hwarp, hpath, hl, hp, hx, Bool.not_true, Bool.not_false, Bool.and_self, Bool.false_eq_true, if_true, if_false]

/-- An IOP outside the subset faults in privileged mode (R413). -/
theorem issue_of_outside_subset {opc : Nat} {f : Form} {s : State} {c : Ctx} (h : Issues opc f s c) (hl : legal opc f = true)
    (hx : c.warp.privileged = true) (hs : privilegedSubset opc f c.sh = false) :
    issue opc f s = some (faulted s c .illop (c.path.pc.zeroExtend 64)) := by
  obtain ⟨w, p, warp, path, cur, opc', f', sh⟩ := c
  simp only [Issues] at *
  obtain ⟨hcur, rfl, rfl, hwarp, hpath, rfl, rfl, rfl⟩ := h
  simp only [issue, hcur, hwarp, hpath, hl, hx, hs, Bool.not_true, Bool.not_false, Bool.and_false, Bool.and_self, Bool.false_eq_true,
    if_true, if_false]

/-- With a lane active, a vector register beyond the window faults (R148, R325). -/
theorem issue_of_beyondWindow {opc : Nat} {f : Form} {s : State} {c : Ctx} (h : Issues opc f s c) (hl : legal opc f = true)
    (hp : isPrivileged opc = true → c.warp.privileged = true) (hs : c.warp.privileged = true → privilegedSubset opc f c.sh = true)
    (ha : c.act ≠ 0) {n : Nat} (hn : beyondWindow c.path (iopRegs c.path f c.sh) = some n) :
    issue opc f s = some (if opc = 0x221 ∧ c.warp.producer = false then faulted s c .nocpyright 0
      else faulted s c .regbound (BitVec.ofNat 64 n)) := by
  obtain ⟨w, p, warp, path, cur, opc', f', sh⟩ := c
  simp only [Issues] at *
  obtain ⟨hcur, rfl, rfl, hwarp, hpath, rfl, rfl, rfl⟩ := h
  have hpriv : (isPrivileged opc' && !warp.privileged) = false := by
    cases h : isPrivileged opc' with
    | false => rfl
    | true => simp [hp h]
  have hsub : (warp.privileged && !privilegedSubset opc' f' ((shape opc' f').getD {})) = false := by
    cases h : warp.privileged with
    | false => rfl
    | true => simp [hs h]
  simp only [issue, hcur, hwarp, hpath, hl, hpriv, hsub, if_neg ha, hn, Bool.not_true, Bool.false_eq_true, if_false,
    Bool.and_eq_true, beq_iff_eq, Bool.not_eq_true']

/-- The run of an IOP stops where its issue does. -/
theorem runIop_of_stop {opc : Nat} {f : Form} {body : Ctx → State → Res} {s t : State} (h : issue opc f s = some (.stop t)) :
    runIop opc f body s = .next t := by simp only [runIop, h]

/-- The same where the accesses of the IOP wait for flipping pages. -/
theorem runIopFlip_of_stop {opc : Nat} {f : Form} {body : Ctx → State → Res} {s t : State} (h : issue opc f s = some (.stop t)) :
    runIopFlip opc f body s = .next t := by
  unfold runIopFlip
  split <;> exact runIop_of_stop h

/-- What stops an instruction at issue is the outcome of `exec`, whatever its body. -/
theorem exec_of_stop {i : Instr} {opc : Nat} {f : Form} (hi : i.parts = some (opc, f)) {s t : State}
    (h : issue opc f s = some (.stop t)) : exec i s = .next t := by
  cases i
  case rld | rldu | xshuf | wake | mfence | nflush | progq | pinstall | resume | lanesel | qkill | ctxrs =>
    cases hi
    exact runIopFlip_of_stop h
  case pnot =>
    cases hi
    exact runIop_of_stop (body := fun c s => predOp c s (~~~c.pA)) h
  all_goals cases hi
  all_goals exact runIop_of_stop h
end Sys2Proof.Machine
end

section
/-!
SUPPORT. States that differ in one warp and the issue slot; the clause boundary and the completion of an IOP change only such (R138, R450).
-/

namespace Sys2Proof.Machine

/-! ### Only one warp and the issue slot change -/

/-- Of `s`, only warp `w` and the issue slot have changed in `t`, and the warp stands as `y`. -/
structure OnlyWarp (w : Nat) (s t : State) (y : Warp) : Prop where
  rest : ∃ ws k, t = { s with warps := ws, cur := k }
  others : ∀ n, n ≠ w → t.warp? n = s.warp? n
  own : t.warp? w = some y

namespace OnlyWarp

variable {w : Nat} {s t : State} {x y : Warp}

theorem refl (h : s.warp? w = some x) : OnlyWarp w s s x := ⟨⟨s.warps, s.cur, rfl⟩, fun _ _ => rfl, h⟩

theorem eq (h : OnlyWarp w s t y) : t = { s with warps := t.warps, cur := t.cur } := by
  obtain ⟨_, _, rfl⟩ := h.rest
  rfl

theorem dbg (h : OnlyWarp w s t y) : t.dbg = s.dbg := by rw [h.eq]

theorem byte (h : OnlyWarp w s t y) (a : Nat) : t.byte a = s.byte a := by rw [h.eq]; rfl

theorem withCur (h : OnlyWarp w s t y) (k : Option Cur) : OnlyWarp w s { t with cur := k } y := by
  obtain ⟨ws, k', rfl⟩ := h.rest
  exact ⟨⟨ws, k, rfl⟩, h.others, h.own⟩

theorem modWarp (h : OnlyWarp w s t y) (f : Warp → Warp) : OnlyWarp w s (t.modWarp w f) (f y) := by
  refine ⟨?_, fun n hn => ?_, ?_⟩
  · obtain ⟨ws, k, rfl⟩ := h.rest
    exact ⟨_, k, rfl⟩
  · rw [State.warp?_modWarp_of_ne hn, h.others n hn]
  · rw [State.warp?_modWarp_self, h.own, Option.map_some]

theorem modWarp_eq {z : Warp} {f : Warp → Warp} (h : OnlyWarp w s t y) (hf : f y = z) : OnlyWarp w s (t.modWarp w f) z := hf ▸ h.modWarp f

theorem modRegs (h : OnlyWarp w s t y) (f : Regs → Regs) : OnlyWarp w s (t.modRegs w f) { y with regs := f y.regs } := h.modWarp _

theorem modPath (h : OnlyWarp w s t y) (p : Nat) (f : Path → Path) :
    OnlyWarp w s (t.modPath w p f) { y with regs := { y.regs with paths := y.regs.paths.adjust p f } } := h.modRegs _

theorem endClause (h : OnlyWarp w s t y) (p : Nat) :
    OnlyWarp w s (endClause t w p)
      { y with regs := { y.regs with paths := y.regs.paths.adjust p fun x => { x with clause := none } } } :=
  (h.modPath p _).withCur none

theorem setWarp (h : OnlyWarp w s t y) (x : Warp) : OnlyWarp w s (t.setWarp w x) x := by
  refine ⟨?_, fun n hn => ?_, State.warp?_setWarp_self t w x⟩
  · obtain ⟨ws, k, rfl⟩ := h.rest
    exact ⟨_, k, rfl⟩
  · rw [State.warp?_setWarp, if_neg hn, h.others n hn]

end OnlyWarp

/-! ### The clause boundary changes the path table and the path stack -/

/-- `r'` is `r` with other paths. -/
def PathsOnly (r r' : Regs) : Prop := ∃ ps st, r' = { r with paths := ps, stack := st }

namespace PathsOnly

theorem refl (r : Regs) : PathsOnly r r := ⟨r.paths, r.stack, rfl⟩

theorem trans {a b c : Regs} (h : PathsOnly a b) (h' : PathsOnly b c) : PathsOnly a c := by
  obtain ⟨_, _, rfl⟩ := h
  obtain ⟨_, _, rfl⟩ := h'
  exact ⟨_, _, rfl⟩

theorem foldl {α : Type} {f : Regs → α → Regs} (hf : ∀ r x, PathsOnly r (f r x)) (xs : List α) (r : Regs) :
    PathsOnly r (xs.foldl f r) := by
  induction xs generalizing r with
  | nil => exact refl r
  | cons x xs ih => exact (hf r x).trans (ih (f r x))

end PathsOnly

theorem pathsOnly_mergeOne (relaxed : BitVec 57 → Bool) (r : Regs) (i : Nat) : PathsOnly r (mergeOne relaxed r i) := by
  unfold mergeOne
  split
  · exact .refl r
  · split
    · exact ⟨_, _, rfl⟩
    · exact .refl r

theorem pathsOnly_rejoinAll (relaxed : BitVec 57 → Bool) (r : Regs) : PathsOnly r (rejoinAll relaxed r) :=
  .foldl (fun r i => .foldl (fun r _ => pathsOnly_mergeOne relaxed r i) _ r) _ r

theorem pathsOnly_popPaths (n : Nat) (r : Regs) : PathsOnly r (popPaths n r) := by
  induction n generalizing r with
  | zero => exact .refl r
  | succ n ih =>
    unfold popPaths
    split
    · exact .trans ⟨_, _, rfl⟩ (ih _)
    · exact .refl r

/-- A round of `settle` ends, or pops paths and goes on. (The equation compiler meets its recursion limit on `settle`.) -/
theorem settle_succ (relaxed : BitVec 57 → Bool) (n : Nat) (r : Regs) :
    Machine.settle relaxed (n + 1) r = rejoinAll relaxed r
      ∨ Machine.settle relaxed (n + 1) r = Machine.settle relaxed n (popPaths 16 (rejoinAll relaxed r)) := by
  delta Machine.settle Machine.settle._f
  dsimp only
  split
  · exact .inr rfl
  · exact .inl rfl

theorem pathsOnly_settle (relaxed : BitVec 57 → Bool) (n : Nat) (r : Regs) : PathsOnly r (Machine.settle relaxed n r) := by
  induction n generalizing r with
  | zero => exact pathsOnly_rejoinAll relaxed r
  | succ n ih =>
    have hr := pathsOnly_rejoinAll relaxed r
    rcases settle_succ relaxed n r with h | h <;> rw [h]
    · exact hr
    · exact (hr.trans (pathsOnly_popPaths 16 _)).trans (ih _)

theorem pathsOnly_releaseParked (r : Regs) : PathsOnly r (releaseParked r) := ⟨_, _, rfl⟩

/-- Releases and rejoins change only paths, however often the rejoins are tried. -/
theorem pathsOnly_releases (relaxed : BitVec 57 → Bool) (n : Nat) (r : Regs) :
    PathsOnly r (Machine.settle relaxed n (releaseParked (Machine.settle relaxed n r))) :=
  ((pathsOnly_settle relaxed n r).trans (pathsOnly_releaseParked _)).trans (pathsOnly_settle relaxed n _)

theorem pathsOnly_boundaryRegs (relaxed : BitVec 57 → Bool) (r : Regs) : PathsOnly r (boundaryRegs relaxed r) := by
  have hs := (pathsOnly_settle relaxed 16 r).trans (pathsOnly_releaseParked _)
  have hr := pathsOnly_releases relaxed 16 r
  unfold boundaryRegs
  generalize releaseParked (Machine.settle relaxed 16 r) = q at *
  simp only
  split
  · exact hs
  · exact hr

/-! ### A core with no trace ring keeps no records -/

theorem traceRecord_of_no_ring {s : State} {core : Nat} (h : s.dbg.rings.find? core = none) (x : TraceHead) (type : Nat) (full : Bool)
    (aux : Nat) (pay : List Nat) : traceRecord s core x type full aux pay = s := by
  unfold traceRecord
  simp only [h]

theorem traceFault_of_no_ring {s : State} {w : Nat} {x : Warp} (hw : s.warp? w = some x) (h : s.dbg.rings.find? x.core = none)
    (p code : Nat) (info : Word64) : traceFault s w p code info = s := by
  unfold traceFault
  split
  · rename_i y _ hy _
    obtain rfl : x = y := Option.some.inj (hw.symm.trans hy)
    split
    · exact traceRecord_of_no_ring h ..
    · rfl
  · rfl

theorem traceJoins_of_no_ring {s : State} {x : Warp} (h : s.dbg.rings.find? x.core = none) (w : Nat) (r : Regs) :
    traceJoins s w x r = s := by
  unfold traceJoins
  split
  · refine List.foldlRecOn (motive := fun acc : State × BitVec 32 => acc.1 = s) _ _ rfl fun acc hacc q _ => ?_
    split
    · exact (traceRecord_of_no_ring (hacc ▸ h) ..).trans hacc
    · exact hacc
  · rfl

/-! ### What follows an instruction -/

theorem OnlyWarp.clauseBoundary {w : Nat} {s t : State} {y : Warp} (h : OnlyWarp w s t y) (hr : s.dbg.rings.find? y.core = none) :
    ∃ ps st, OnlyWarp w s (clauseBoundary t w) { y with regs := { y.regs with paths := ps, stack := st } } := by
  obtain ⟨ps, st, hb⟩ := pathsOnly_boundaryRegs (relaxedAt t y) y.regs
  refine ⟨ps, st, ?_⟩
  simp only [Machine.clauseBoundary, h.own, traceJoins_of_no_ring (h.dbg ▸ hr), hb]
  exact h.setWarp _

/-- A guest instruction that completes is counted, and its warp's paths change (R450). -/
theorem OnlyWarp.completeGuest {c : Ctx} {s t : State} {y : Warp} (h : OnlyWarp c.w s t y) (hr : s.dbg.rings.find? y.core = none)
    (moved : Bool) (n : Nat) :
    ∃ ps st, OnlyWarp c.w s (completeGuest t c moved n)
      { y with regs := { y.regs with prog := y.regs.prog + 1, paths := ps, stack := st } } := by
  unfold Machine.completeGuest
  simp only
  split
  · exact (((h.modRegs _).withCur none).clauseBoundary hr)
  · split
    · exact ⟨_, _, ((h.modRegs _).modPath _ _).withCur _⟩
    · exact ((((h.modRegs _).modPath _ _).withCur none).clauseBoundary hr)

/-- What completes an IOP that is done with the state `t`: the guest instruction's PROG and flags where it is its last slot (R103, R200). -/
theorem OnlyWarp.finish_done {c : Ctx} {s s' t : State} {y : Warp} (h : OnlyWarp c.w s t y) (hr : s.dbg.rings.find? y.core = none) :
    ∃ ps st, OnlyWarp c.w s (finish c s' (.done t))
      { y with regs := { y.regs with prog := y.regs.prog + (if c.f.e then 1 else 0)
                                     gstat := if c.f.e then y.regs.gstat ||| c.cur.held else y.regs.gstat
                                     paths := ps, stack := st } } := by
  cases he : c.f.e with
  | true =>
    simp only [finish, he, if_true]
    exact (h.modRegs _).completeGuest hr false _
  | false =>
    refine ⟨y.regs.paths, y.regs.stack, ?_⟩
    simp only [finish, he, Bool.false_eq_true, if_false, add_zero]
    exact h.withCur _

end Sys2Proof.Machine
end

section
/-!
PROOF. A fault of the issuing path on its own warp, and the faults that precede an IOP's effect (O51).
-/

namespace Sys2Proof.Machine

/-! ### A fault of the issuing path -/

/-- The trap that a fault of the issuing path saves (R411). -/
def trapSaved (c : Ctx) (code : FaultCode) (info : Word64) : Trap :=
  { code := faultNumber code, info := info, pc := c.path.pc, path := c.p, lmask := c.path.lmask, len := some c.cur.len }

/-- The registers once what earlier slots of the expansion changed has been put back (R103, R116). -/
def undoneRegs (k : Cur) (r : Regs) : Regs :=
  match k.undo with
  | none => r
  | some (p, srst) => { r with p := p, srst := srst }

@[simp] theorem undoneRegs_paths (k : Cur) (r : Regs) : (undoneRegs k r).paths = r.paths := by
  unfold undoneRegs
  split <;> rfl

@[simp] theorem undoneRegs_ident (k : Cur) (r : Regs) : (undoneRegs k r).ident = r.ident := by
  unfold undoneRegs
  split <;> rfl

theorem cur_undoSlots (s : State) (k : Cur) : (undoSlots s k).cur = s.cur := by
  unfold undoSlots
  split <;> rfl

theorem OnlyWarp.undoSlots {k : Cur} {s t : State} {y : Warp} (h : OnlyWarp k.w s t y) :
    OnlyWarp k.w s (undoSlots t k) { y with regs := undoneRegs k y.regs } := by
  cases hu : k.undo with
  | none =>
    simp only [Machine.undoSlots, undoneRegs, hu]
    exact h
  | some _ =>
    simp only [Machine.undoSlots, undoneRegs, hu]
    exact h.modRegs _

/-- A fault of the issuing path of an untrapped warp marks the warp as trapped and ends the clause (R411, R416). -/
theorem OnlyWarp.trapWarp {k : Cur} {s t : State} {y : Warp} {q : Path} (h : OnlyWarp k.w s t y) (hk : t.cur = some k)
    (hy : y.trap = none) (hq : y.regs.paths.find? k.p = some q) (code : Nat) (info : Word64) :
    OnlyWarp k.w s (trapWarp t k.w k.p code info)
      { y with trap := some { code := code, info := info, pc := q.pc, path := k.p, lmask := q.lmask, len := some k.len }
               leaving := y.faultVa.isSome
               regs := { y.regs with paths := y.regs.paths.adjust k.p fun x => { x with clause := none } } } := by
  refine (h.endClause k.p).modWarp_eq ?_
  simp only [hy, SMap.find?_adjust_self, hq, Option.map_some, hk, Option.bind_some, and_self, if_true]

/-- The state in which the issuing path takes a fault: earlier slots are undone, and its walks are forgotten. -/
def beforeFault (s : State) (c : Ctx) : State := (undoSlots s c.cur).modPath c.w c.p fun q => { q with notes := [], wait := none }

theorem beforeFault_onlyWarp {s : State} {c : Ctx} (hw : c.w = c.cur.w) (hwarp : s.warp? c.w = some c.warp) :
    OnlyWarp c.w s (beforeFault s c)
      { c.warp with regs := { undoneRegs c.cur c.warp.regs with
        paths := c.warp.regs.paths.adjust c.p fun q => { q with notes := [], wait := none } } } := by
  unfold beforeFault
  rw [← undoneRegs_paths c.cur c.warp.regs]
  rw [hw] at *
  exact (OnlyWarp.refl hwarp).undoSlots.modPath c.p _

/-- A fault of the issuing path of an ordinary warp on a core with no trace ring traps the warp (R410, R411). -/
theorem faultAt_eq_trapWarp {s : State} {c : Ctx} (hw : c.w = c.cur.w) (hwarp : s.warp? c.w = some c.warp)
    (hkind : c.warp.kind = .ordinary) (hr : s.dbg.rings.find? c.warp.core = none) (code : FaultCode) (info : Word64) :
    faultAt s c code info = trapWarp (beforeFault s c) c.w c.p (faultNumber code) info := by
  have hb := beforeFault_onlyWarp hw hwarp
  have hcore : Warp.core { c.warp with regs := { undoneRegs c.cur c.warp.regs with
      paths := c.warp.regs.paths.adjust c.p fun q => { q with notes := [], wait := none } } } = c.warp.core := by
    simp only [Warp.core, Regs.placeCore, undoneRegs_ident]
  rw [← traceFault_of_no_ring hb.own (by rw [hcore, hb.dbg]; exact hr) c.p (faultNumber code) info]
  show raiseFault (beforeFault s c) c.w c.p code info = _
  simp only [raiseFault, hb.own, hkind]

/-- The warp of the issuing path once it has taken a fault. -/
def trapped (c : Ctx) (code : FaultCode) (info : Word64) : Warp :=
  { c.warp with
    trap := some (trapSaved c code info), leaving := c.warp.faultVa.isSome
    regs := { undoneRegs c.cur c.warp.regs with
      paths := (c.warp.regs.paths.adjust c.p fun q => { q with notes := [], wait := none }).adjust c.p fun q => { q with clause := none } } }

/-- A fault of the issuing path of an untrapped ordinary warp on a core with no trace ring (R410, R411, R416). -/
theorem faultAt_onlyWarp {opc : Nat} {f : Form} {s : State} {c : Ctx} (h : Issues opc f s c) (hkind : c.warp.kind = .ordinary)
    (htrap : c.warp.trap = none) (hr : s.dbg.rings.find? c.warp.core = none) (code : FaultCode) (info : Word64) :
    OnlyWarp c.w s (faultAt s c code info) (trapped c code info) := by
  obtain ⟨hcur, hw, hp, hwarp, hpath, -⟩ := h
  have hb := beforeFault_onlyWarp hw hwarp
  have hk : (beforeFault s c).cur = some c.cur := (cur_undoSlots s c.cur).trans hcur
  rw [faultAt_eq_trapWarp hw hwarp hkind hr]
  unfold trapped trapSaved
  rw [hw] at hb ⊢
  rw [hp] at hb hpath ⊢
  exact hb.trapWarp (q := { c.path with notes := [], wait := none }) hk htrap
    (by simp only [SMap.find?_adjust_self, hpath, Option.map_some]) (faultNumber code) info

/-- Settles O51: `exec` stops where the issue of the instruction does, and the fault changes its own warp alone. -/
theorem faultsBeforeTheEffect : Obligations.FaultsBeforeTheEffect := by
  unfold Obligations.FaultsBeforeTheEffect
  refine ⟨fun i opc f hi s c h => ⟨fun hl => ?_, fun hl hp hx => ?_, fun hl hx hs => ?_, fun hl hp hs ha n hn => ?_⟩,
    fun opc f s c code info h hkind htrap hr => ?_⟩
  · exact exec_of_stop hi (issue_of_illegal h hl)
  · exact exec_of_stop hi (issue_of_unprivileged h hl hp hx)
  · exact exec_of_stop hi (issue_of_outside_subset h hl hx hs)
  · have hstop := issue_of_beyondWindow h hl hp hs ha hn
    split <;> rename_i hc
    · exact exec_of_stop hi (by rw [hstop, if_pos hc]; rfl)
    · exact exec_of_stop hi (by rw [hstop, if_neg hc]; rfl)
  · have ht := faultAt_onlyWarp h hkind htrap hr code info
    obtain ⟨-, hw, -, hwarp, hpath, -⟩ := h
    have hcur : (faultAt s c code info).cur = none := by rw [faultAt_eq_trapWarp hw hwarp hkind hr]; rfl
    refine ⟨?_, ht.others, _, ht.own, ?_, fun p hp => ?_⟩
    · rw [← hcur]
      exact ht.eq
    · simp only [SMap.find?_adjust_self, hpath, Option.map_some]
    · rw [SMap.find?_adjust_of_ne hp, SMap.find?_adjust_of_ne hp]
end Sys2Proof.Machine
end

section
/-!
SUPPORT. What taking slots into use does to the issuing warp (R347).
-/

namespace Sys2Proof.Machine

/-! ### Taking slots into use -/

/-- `y` is `x` with slots spilled: entries may have left the register cache, but for those of `keep`, and none has changed (R150, R347). -/
structure Spilled (keep : Nat → Prop) (x y : Warp) : Prop where
  rest : ∃ v d l, y = { x with regs := { x.regs with v := v }, foehn := d, lru := l }
  old : ∀ n row, y.regs.v.find? n = some row → x.regs.v.find? n = some row
  kept : ∀ n, keep n → y.regs.v.find? n = x.regs.v.find? n

namespace Spilled

variable {keep : Nat → Prop} {x y z : Warp}

theorem refl (keep : Nat → Prop) (x : Warp) : Spilled keep x x := ⟨⟨_, _, _, rfl⟩, fun _ _ h => h, fun _ _ => rfl⟩

theorem trans (h : Spilled keep x y) (h' : Spilled keep y z) : Spilled keep x z := by
  refine ⟨?_, fun n row hn => h.old n row (h'.old n row hn), fun n hn => (h'.kept n hn).trans (h.kept n hn)⟩
  obtain ⟨_, _, _, rfl⟩ := h.rest
  obtain ⟨_, _, _, rfl⟩ := h'.rest
  exact ⟨_, _, _, rfl⟩

end Spilled

theorem spilled_spill {keep : Nat → Prop} (x : Warp) {n : Nat} (hn : ¬ keep n) : Spilled keep x (x.spill n) := by
  unfold Warp.spill
  split
  · exact ⟨⟨_, _, _, rfl⟩, fun _ _ h => h, fun _ _ => rfl⟩
  · refine ⟨⟨_, _, _, rfl⟩, fun m row hm => ?_, fun m hm => ?_⟩
    · rw [SMap.find?_erase] at hm
      split at hm
      · cases hm
      · exact hm
    · rw [SMap.find?_erase, if_neg fun (h : m = n) => hn (h ▸ hm)]

theorem spilled_makeRoom {keep : Nat → Prop} (x : Warp) (n : Nat) {victims : List Nat} (h : ∀ v ∈ victims, ¬ keep v) :
    Spilled keep x (x.makeRoom n victims) := by
  refine List.foldlRecOn (motive := Spilled keep x) victims _ (.refl keep x) fun y hy v hv => ?_
  split
  · exact hy
  · exact hy.trans (spilled_spill y (h v hv))

/-- What is kept is no victim. -/
theorem not_mem_of_mem_victims {x : Warp} {keep : List Nat} {v : Nat} (h : v ∈ x.victims keep) : v ∉ keep := by
  have hmine : v ∈ (x.regs.v.map (·.1)).filter fun n => x.holds n && !keep.contains n && !x.pinned.contains n := by
    simp only [Warp.victims] at h
    rcases List.mem_append.1 h with h | h
    · exact List.mem_of_mem_filter h
    · have := (List.mem_filter.1 h).2
      simp only [Bool.and_eq_true] at this
      exact List.contains_iff_mem.1 this.1
  have hk := (List.mem_filter.1 hmine).2
  simp only [Bool.and_eq_true, Bool.not_eq_true', List.contains_eq_mem, decide_eq_false_iff_not] at hk
  exact hk.1.2

/-- The warp of a context once it has taken its slots into use (R343, R347). -/
structure Prepared (c : Ctx) (x : Warp) : Prop where
  rest : ∃ v d l n, x = { c.warp with regs := { c.warp.regs with v := v }, foehn := d, lru := l, issuedAt := n }
  old : ∀ n row, x.regs.v.find? n = some row → c.warp.regs.v.find? n = some row
  kept : c.act ≠ 0 → ∀ n ∈ slotsOf (iopRegs c.path c.f c.sh), x.regs.v.find? n = c.warp.regs.v.find? n

theorem prepare_onlyWarp {s : State} {c : Ctx} (h : s.warp? c.w = some c.warp) :
    ∃ x, Prepared c x ∧ OnlyWarp c.w s (prepare c s) x := by
  refine ⟨_, ?_, (OnlyWarp.refl h).modWarp _⟩
  simp only
  have hroom := spilled_makeRoom (keep := fun n => c.act ≠ 0 ∧ n ∈ slotsOf (iopRegs c.path c.f c.sh)) c.warp
    ((if c.act = 0 then [] else slotsOf (iopRegs c.path c.f c.sh)).filter fun n => !c.warp.holds n).length
    (victims := c.warp.victims ((if c.act = 0 then [] else slotsOf (iopRegs c.path c.f c.sh)) ++ slotsOf (busyRegs s c.w)))
    fun v hv hk => not_mem_of_mem_victims hv (List.mem_append_left _ (by rw [if_neg hk.1]; exact hk.2))
  refine ⟨?_, hroom.old, fun ha n hn => hroom.kept n ⟨ha, hn⟩⟩
  obtain ⟨v, d, l, hr⟩ := hroom.rest
  rw [hr]
  exact ⟨_, _, _, _, rfl⟩
end Sys2Proof.Machine
end

section
/-!
SUPPORT. What the writes of an IOP on registers keep: other registers, inactive lanes, saved registers (R12, R66, R148, R173).
-/

namespace Sys2Proof.Machine

/-! ### What an IOP on registers may change -/

/-- The registers that an IOP on registers writes: its destination, and predicate C of ICADD (R177). -/
def writtenRegs (c : Ctx) : List Reg :=
  operandRegs c.path c.f.u (c.f.km.getLsbD 3) c.sh.d c.f.d.toNat
    ++ if c.opc = 0x043 then operandRegs c.path c.f.u (c.f.km.getLsbD 0) c.sh.c c.f.fc.toNat else []

/-- The floating-point IOPs, which alone raise flags and draw (R199, R201). -/
def IsFloating (c : Ctx) : Prop := 0x0C0 ≤ c.opc ∧ c.opc ≠ 0x0C7

/-- The issuing warp where only the registers that the IOP writes may have changed, in active lanes, and slots may have been spilled. -/
structure KeptWarp (c : Ctx) (x : Warp) : Prop where
  rest : ∃ r d l m n, x = { c.warp with regs := r, dirty := d, lru := l, foehn := m, issuedAt := n }
  regs : ∃ u p v g sr, x.regs = { c.warp.regs with u := u, p := p, v := v, gstat := g, srst := sr }
  status : ¬ IsFloating c → x.regs.srst = c.warp.regs.srst ∧ x.regs.gstat = c.warp.regs.gstat
  uni : ∀ n, Reg.uni n ∉ writtenRegs c → x.regs.uni n = c.warp.regs.uni n
  pred : ∀ n, Reg.pred n ∉ writtenRegs c → x.regs.pred n = c.warp.regs.pred n
  slot : ∀ n row, Reg.slot n ∉ writtenRegs c → x.regs.v.find? n = some row → c.warp.regs.v.find? n = some row
  lanes : ∀ n row l, l < 32 → c.act.getLsbD l = false → x.regs.v.find? n = some row → row.lane l = (c.warp.regs.row n).lane l
  /-- a slot to be written has not been spilled -/
  there : c.act ≠ 0 → ∀ n, Reg.slot n ∈ writtenRegs c → x.regs.v.find? n = none → c.warp.regs.v.find? n = none

namespace KeptWarp

variable {c : Ctx} {x : Warp}

theorem setUni (h : KeptWarp c x) {n : Nat} (hn : Reg.uni n ∈ writtenRegs c) (v : Word64) :
    KeptWarp c { x with regs := x.regs.setUni n v } := by
  refine { h with rest := ?_, regs := ?_, uni := fun m hm => ?_ }
  · obtain ⟨_, _, _, _, _, rfl⟩ := h.rest
    exact ⟨_, _, _, _, _, rfl⟩
  · obtain ⟨_, _, _, _, _, hr⟩ := h.regs
    rw [hr]
    exact ⟨_, _, _, _, _, rfl⟩
  · rw [Regs.uni_setUni, if_neg fun (e : m = n) => hm (e ▸ hn)]
    exact h.uni m hm

theorem setPred (h : KeptWarp c x) {n : Nat} (hn : n ≠ 15 → Reg.pred n ∈ writtenRegs c) (m v : Word32) :
    KeptWarp c { x with regs := x.regs.setPred n m v } := by
  by_cases h15 : n = 15
  · rw [h15, Regs.setPred_true]
    exact h
  have hmem := hn h15
  refine { rest := ?_, regs := ?_, status := ?_, uni := ?_, pred := fun k hk => ?_, slot := ?_, lanes := ?_, there := ?_ }
  · obtain ⟨_, _, _, _, _, rfl⟩ := h.rest
    exact ⟨_, _, _, _, _, rfl⟩
  · obtain ⟨_, _, _, _, _, hr⟩ := h.regs
    rw [hr, Regs.setPred, if_neg h15]
    exact ⟨_, _, _, _, _, rfl⟩
  · simpa only [Regs.setPred_srst, Regs.setPred_gstat] using h.status
  · simpa only [Regs.uni, Regs.setPred_u] using h.uni
  · rw [Regs.pred_setPred _ _ _ _ h15, if_neg fun (e : k = n) => hk (e ▸ hmem)]
    exact h.pred k hk
  · simpa only [Regs.setPred_v] using h.slot
  · simpa only [Regs.setPred_v] using h.lanes
  · simpa only [Regs.setPred_v] using h.there

/-- The inactive lanes of a slot to be written read as before, whether it is resident or not. -/
theorem row_lane (h : KeptWarp c x) (ha : c.act ≠ 0) {n l : Nat} (hn : Reg.slot n ∈ writtenRegs c) (hl : l < 32)
    (hi : c.act.getLsbD l = false) : (x.regs.row n).lane l = (c.warp.regs.row n).lane l := by
  cases hf : x.regs.v.find? n with
  | none => simp only [Regs.row, hf, h.there ha n hn hf]
  | some row => simpa only [Regs.row, hf, Option.getD_some] using h.lanes n row l hl hi hf

theorem setRow (h : KeptWarp c x) {n : Nat} (hn : Reg.slot n ∈ writtenRegs c) (v : Row) : KeptWarp c (x.setRow n c.act v) := by
  by_cases ha : c.act = 0
  · simpa only [Warp.setRow, if_pos ha] using h
  have hreg : (x.setRow n c.act v).regs = x.regs.setRow n c.act v := by rw [Warp.setRow_regs, if_neg ha]
  have hfind (k : Nat) : (x.setRow n c.act v).regs.v.find? k
      = if k = n then some (Row.merge c.act v (x.regs.row n)) else x.regs.v.find? k := by
    rw [hreg]
    exact SMap.find?_insert ..
  refine { rest := ?_, regs := ?_, status := ?_, uni := ?_, pred := ?_, slot := fun k row hk hf => ?_, lanes := fun k row l hl hi hf => ?_,
           there := fun _ k hk hf => ?_ }
  · obtain ⟨_, _, _, _, _, rfl⟩ := h.rest
    rw [Warp.setRow, if_neg ha]
    exact ⟨_, _, _, _, _, rfl⟩
  · obtain ⟨_, _, _, _, _, hr⟩ := h.regs
    rw [hreg, hr]
    exact ⟨_, _, _, _, _, rfl⟩
  · rw [hreg]
    exact h.status
  · rw [hreg]
    exact h.uni
  · rw [hreg]
    exact h.pred
  · rw [hfind, if_neg fun (e : k = n) => hk (e ▸ hn)] at hf
    exact h.slot k row hk hf
  · rw [hfind] at hf
    split at hf
    · rename_i hkn
      obtain rfl := Option.some.inj hf
      rw [Row.lane_merge _ _ _ _ hl, hi, hkn]
      exact h.row_lane ha hn hl hi
    · exact h.lanes k row l hl hi hf
  · rw [hfind] at hf
    split at hf
    · cases hf
    · exact h.there ha k hk hf

/-- A floating-point IOP changes GSTAT and SRSTATE (R199, R201). -/
theorem withStatus (h : KeptWarp c x) (hc : IsFloating c) (g : Word64) (sr : Row) :
    KeptWarp c { x with regs := { x.regs with gstat := g, srst := sr } } := by
  refine { h with rest := ?_, regs := ?_, status := fun hn => absurd hc hn }
  · obtain ⟨_, _, _, _, _, rfl⟩ := h.rest
    exact ⟨_, _, _, _, _, rfl⟩
  · obtain ⟨_, _, _, _, _, hr⟩ := h.regs
    rw [hr]
    exact ⟨_, _, _, _, _, rfl⟩

end KeptWarp

/-- The slots that an IOP on registers writes are among its operands. -/
theorem mem_slotsOf_of_written {c : Ctx} {n : Nat} (h : Reg.slot n ∈ writtenRegs c) : n ∈ slotsOf (iopRegs c.path c.f c.sh) := by
  have hr : Reg.slot n ∈ iopRegs c.path c.f c.sh := by
    simp only [writtenRegs, iopRegs, List.mem_append] at h ⊢
    rcases h with h | h
    · tauto
    · split at h
      · tauto
      · cases h
  exact List.mem_filterMap.2 ⟨_, hr, rfl⟩

theorem Prepared.keptWarp {c : Ctx} {x : Warp} (h : Prepared c x) : KeptWarp c x := by
  have hregs : x.regs = { c.warp.regs with v := x.regs.v } := by
    obtain ⟨_, _, _, _, rfl⟩ := h.rest
    rfl
  refine { rest := ?_, regs := ⟨_, _, _, _, _, hregs⟩, status := fun _ => ?_, uni := fun n _ => ?_, pred := fun n _ => ?_,
           slot := fun n row _ => h.old n row, lanes := fun n row l _ _ hf => ?_, there := fun ha n hn hf => ?_ }
  · obtain ⟨_, _, _, _, hx⟩ := h.rest
    rw [hx]
    exact ⟨_, _, _, _, _, rfl⟩
  · rw [hregs]
    exact ⟨rfl, rfl⟩
  · rw [hregs]; rfl
  · rw [hregs]; rfl
  · simp only [Regs.row, h.old n row hf, Option.getD_some]
  · rw [← h.kept ha n (mem_slotsOf_of_written hn)]
    exact hf

/-! ### Bodies that write registers -/

/-- Only the issuing warp and the issue slot have changed, and of the warp what the IOP writes. -/
def Keeps (c : Ctx) (s t : State) : Prop := ∃ x, KeptWarp c x ∧ OnlyWarp c.w s t x

/-- The body is done and keeps what the IOP does not write. -/
def DoneKeeping (c : Ctx) (s : State) (r : Res) : Prop := ∃ t, r = .done t ∧ Keeps c s t

theorem Keeps.done {c : Ctx} {s t : State} (h : Keeps c s t) : DoneKeeping c s (.done t) := ⟨t, rfl, h⟩

theorem Keeps.writeUD {c : Ctx} {s t : State} (h : Keeps c s t) (hn : Reg.uni c.f.d.toNat ∈ writtenRegs c) (v : Word64) :
    Keeps c s (writeUD t c v) := by
  obtain ⟨x, hx, ht⟩ := h
  exact ⟨_, hx.setUni hn v, ht.modRegs fun r => r.setUni c.f.d.toNat v⟩

theorem Keeps.writePred {c : Ctx} {s t : State} (h : Keeps c s t) {n : Nat} (hn : n ≠ 15 → Reg.pred n ∈ writtenRegs c) (m v : BitVec 32) :
    Keeps c s (writePred t c n m v) := by
  obtain ⟨x, hx, ht⟩ := h
  exact ⟨_, hx.setPred hn m v, ht.modRegs _⟩

theorem Keeps.writeRow {c : Ctx} {s t : State} (h : Keeps c s t) {k : Bool} {n : Nat} (hn : k = false → Reg.slot (c.slot n) ∈ writtenRegs c)
    (f : Nat → Word32) : Keeps c s (writeRow t c k n c.act f) := by
  obtain ⟨x, hx, ht⟩ := h
  cases k with
  | true => exact ⟨x, hx, ht.withCur _⟩
  | false => exact ⟨_, hx.setRow (hn rfl) _, ht.modWarp _⟩

/-- An operand class that names a register names at least one. -/
def NamesSome : Opd → Prop
  | .v n _ | .u n => 1 ≤ n
  | _ => True

/-- The first registers of a vector destination are written. -/
theorem slot_mem_writtenRegs {c : Ctx} {cnt al i : Nat} (hd : c.sh.d = .v cnt al) (hu : c.f.u = false) (hk : c.f.km.getLsbD 3 = false)
    (hi : i < cnt) : Reg.slot (c.slot (c.f.d.toNat + i)) ∈ writtenRegs c := by
  refine List.mem_append_left _ ?_
  simp only [operandRegs, hd, hu, hk, Bool.false_eq_true, if_false, List.mem_map, List.mem_range, Ctx.slot]
  exact ⟨i, hi, by rw [Nat.add_assoc]⟩

theorem uni_mem_writtenRegs {c : Ctx} (hn : NamesSome c.sh.d)
    (hd : (∃ cnt, c.sh.d = .u cnt) ∨ (∃ cnt al, c.sh.d = .v cnt al) ∧ c.f.u = true) :
    Reg.uni c.f.d.toNat ∈ writtenRegs c := by
  refine List.mem_append_left _ ?_
  rcases hd with ⟨cnt, hd⟩ | ⟨⟨cnt, al, hd⟩, hu⟩
  · rw [hd] at hn ⊢
    exact List.mem_map.2 ⟨0, List.mem_range.2 hn, rfl⟩
  · simp only [operandRegs, hd, hu, if_true, List.mem_singleton]

theorem pred_mem_writtenRegs {c : Ctx} (hd : c.sh.d = .pred) (h15 : c.f.d.toNat ≠ 15) : Reg.pred c.f.d.toNat ∈ writtenRegs c := by
  refine List.mem_append_left _ ?_
  simp only [operandRegs, hd, if_neg h15, List.mem_singleton]

theorem Keeps.writeVec {c : Ctx} {s t : State} (h : Keeps c s t) {cnt al : Nat} (hd : c.sh.d = .v cnt al) (hn : 1 ≤ cnt)
    (hu : c.f.u = false) (f : Nat → Word64) : Keeps c s (writeVec t c (c.f.km.getLsbD 3) c.f.d.toNat cnt c.act f) := by
  have h1 := h.writeRow (k := c.f.km.getLsbD 3) (n := c.f.d.toNat) (fun hk => slot_mem_writtenRegs (i := 0) hd hu hk hn)
    fun l => (f l).truncate 32
  unfold Machine.writeVec
  simp only
  split
  · rename_i h2
    exact h1.writeRow (fun hk => slot_mem_writtenRegs (i := 1) hd hu hk (by omega)) _
  · exact h1

/-- The mask of a lane-wise write: the active lanes, or none where a uniform is written. -/
theorem Keeps.writeD {c : Ctx} {s t : State} (h : Keeps c s t) (hn : NamesSome c.sh.d) {mask : BitVec 32}
    (hm : c.f.u = false → mask = c.act) (f : Nat → Word64) : Keeps c s (writeD t c mask f) := by
  cases hd : c.sh.d with
  | v cnt al =>
    simp only [Machine.writeD, hd]
    cases hu : c.f.u with
    | true => exact h.writeUD (uni_mem_writtenRegs hn (.inr ⟨⟨_, _, hd⟩, hu⟩)) _
    | false =>
      rw [hm hu]
      exact h.writeVec hd (hd ▸ hn : NamesSome (.v cnt al)) hu f
  | u cnt =>
    simp only [Machine.writeD, hd]
    exact h.writeUD (uni_mem_writtenRegs hn (.inl ⟨_, hd⟩)) _
  | no | pred | tensor | acc | flag | accEven | imm | base =>
    simp only [Machine.writeD, hd]
    exact h

theorem Keeps.lanewise {c : Ctx} {s t : State} (h : Keeps c s t) (hn : NamesSome c.sh.d) (f : Nat → Word64) :
    DoneKeeping c s (lanewise c t f) := by
  unfold Machine.lanewise
  cases hu : c.f.u with
  | true =>
    simp only [if_true]
    split
    · exact (h.writeD hn (fun h => by rw [hu] at h; cases h) f).done
    · exact h.done
  | false => exact (h.writeD hn (fun _ => rfl) f).done

theorem Keeps.predOp {c : Ctx} {s t : State} (h : Keeps c s t) (hd : c.sh.d = .pred) (f : BitVec 32) :
    DoneKeeping c s (predOp c t f) := by
  unfold Machine.predOp
  split
  · split
    · exact (h.writePred (pred_mem_writtenRegs hd) _ _).done
    · exact h.done
  · exact (h.writePred (pred_mem_writtenRegs hd) _ _).done

theorem Keeps.lanewisePred {c : Ctx} {s t : State} (h : Keeps c s t) (hd : c.sh.d = .pred) (f : Nat → Bool) :
    DoneKeeping c s (lanewisePred c t f) := by
  unfold Machine.lanewisePred
  split
  · split
    · exact (h.writePred (pred_mem_writtenRegs hd) _ _).done
    · exact h.done
  · exact (h.writePred (pred_mem_writtenRegs hd) _ _).done

theorem Keeps.raiseExc {c : Ctx} {s t : State} (h : Keeps c s t) (hc : IsFloating c) (e : Exc) : Keeps c s (raiseExc t c e) := by
  obtain ⟨x, hx, ht⟩ := h
  unfold Machine.raiseExc
  split
  · exact ⟨x, hx, ht⟩
  · split
    · exact ⟨_, hx.withStatus hc _ x.regs.srst, ht.modRegs _⟩
    · exact ⟨x, hx, ht.withCur _⟩

theorem Keeps.keepLanes {c : Ctx} {s t : State} (h : Keeps c s t) (hc : IsFloating c) (outs : List (Nat × FLane)) :
    Keeps c s (keepLanes c t outs) := by
  obtain ⟨x, hx, ht⟩ := h.raiseExc hc (outs.foldl (fun x o => x ||| o.2.fl) 0)
  exact ⟨_, hx.withStatus hc x.regs.gstat _,
    ht.modRegs fun r => { r with srst := Row.ofFn fun l => (laneValue { sr := r.srst.lane l } outs l).sr }⟩

theorem Keeps.floatOp {c : Ctx} {s t : State} (h : Keeps c s t) (hc : IsFloating c) (hn : NamesSome c.sh.d)
    (f : Ctx → Nat → FLane → Nat × FLane) : DoneKeeping c s (floatOp f c t) := by
  obtain ⟨u, hu, hk⟩ := h.lanewise hn fun l => BitVec.ofNat 64 (laneValue 0 ((c.floatLanes (f c)).map fun o => (o.1, o.2.1)) l)
  simp only [Machine.floatOp, hu]
  exact (hk.keepLanes hc _).done
end Sys2Proof.Machine
end

section
/-!
PROOF. The frame of the IOPs on registers (O49).
-/

namespace Sys2Proof.Machine

/-! ### Destinations -/

/-- Source B leaves the destination as it was. -/
theorem srcB_d {sh sh' : Shape} {x : RForm} {o : Opd} {imm : Bool} (h : sh.srcB x o imm = some sh') : sh'.d = sh.d := by
  unfold Shape.srcB at h
  split at h
  · split at h <;> cases h
    rfl
  · split at h <;> cases h <;> rfl

/-- Source C leaves the destination as it was. -/
theorem srcC_d {sh sh' : Shape} {x : RForm} {o : Opd} {imm : Bool} (h : sh.srcC x o imm = some sh') : sh'.d = sh.d := by
  unfold Shape.srcC at h
  split at h
  · split at h <;> cases h
    rfl
  · split at h <;> cases h <;> rfl

/-- The shape's destination, if it names registers, names at least one. -/
def DestNamed (o : Option Shape) : Prop := ∀ sh, o = some sh → NamesSome sh.d

section
variable {b : Bool} {p : Prop} [Decidable p] {sh : Shape} {x : RForm} {o : Opd} {imm : Bool}

@[simp] theorem namesSome_v (n al : Nat) : NamesSome (.v n al) ↔ 1 ≤ n := Iff.rfl
@[simp] theorem namesSome_u (n : Nat) : NamesSome (.u n) ↔ 1 ≤ n := Iff.rfl
@[simp] theorem namesSome_pred : NamesSome .pred := trivial
@[simp] theorem namesSome_no : NamesSome .no := trivial

@[simp] theorem namesSome_vt (t : ElemType) : NamesSome (Opd.vt t) := by
  unfold Opd.vt
  split <;> simp

@[simp] theorem namesSome_ite {d e : Opd} : NamesSome (if p then d else e) ↔ (p → NamesSome d) ∧ (¬p → NamesSome e) := by
  by_cases h : p <;> simp [h]

@[simp] theorem destNamed_none : DestNamed none := fun _ h => nomatch h

@[simp] theorem destNamed_some : DestNamed (some sh) ↔ NamesSome sh.d := ⟨fun h => h sh rfl, fun h _ e => Option.some.inj e ▸ h⟩

@[simp] theorem destNamed_ite {a c : Option Shape} :
    DestNamed (if p then a else c) ↔ (p → DestNamed a) ∧ (¬p → DestNamed c) := by
  by_cases h : p <;> simp [h]

@[simp] theorem destNamed_when : DestNamed (Shape.when b sh) ↔ (b = true → NamesSome sh.d) := by
  cases b <;> simp [Shape.when]

theorem destNamed_srcB (h : NamesSome sh.d) : DestNamed (sh.srcB x o imm) := fun _ e => srcB_d e ▸ h

theorem destNamed_srcC (h : NamesSome sh.d) : DestNamed (sh.srcC x o imm) := fun _ e => srcC_d e ▸ h

/-- Source C of a shape that source B has given. -/
theorem destNamed_bind_srcC {q : Option Shape} (h : DestNamed q) : DestNamed (q.bind (·.srcC x o imm)) := by
  cases q with
  | none => exact destNamed_none
  | some sh => exact destNamed_srcC (h sh rfl)

end

theorem destNamed_shapeCtl (opc : Nat) (x : RForm) : DestNamed (shapeCtl opc x) := by
  unfold shapeCtl
  simp only
  split <;> simp

theorem destNamed_shapeInt (opc : Nat) (x : RForm) : DestNamed (shapeInt opc x) := by
  unfold shapeInt
  simp only
  split <;> simp +contextual [destNamed_srcB, destNamed_srcC, destNamed_bind_srcC]

theorem destNamed_shapeFlt (opc : Nat) (x : RForm) : DestNamed (shapeFlt opc x) := by
  unfold shapeFlt
  simp only
  split <;> simp [shapeQuant, destNamed_srcB, destNamed_bind_srcC]

/-- The destinations of the classes of control, of integers and of floating point. -/
theorem destNamed_shapeR {opc : Nat} (h : opc < 0x140) (x : RForm) : DestNamed (shape opc (.r x)) := by
  simp only [shape, shapeR, if_pos h, destNamed_ite]
  exact ⟨fun _ => destNamed_shapeCtl opc x, fun _ => ⟨fun _ => destNamed_shapeInt opc x, fun _ => destNamed_shapeFlt opc x⟩⟩

theorem destNamed_shapeI (opc : Nat) (x : IForm) : DestNamed (shape opc (.i x)) := by simp [shape, shapeI]

/-! ### Bodies of the IOPs on registers -/

/-- A ready IOP has a shape. -/
theorem shape_of_ready {opc : Nat} {f : Form} {s : State} {c : Ctx} (h : Ready opc f s c) : shape opc f = some c.sh := by
  obtain ⟨-, -, -, -, -, -, -, hsh, hlegal, -⟩ := h
  unfold legal at hlegal
  split at hlegal
  · cases hlegal
  · rename_i sh heq
    rw [hsh, heq, Option.getD_some]

theorem warp?_of_ready {opc : Nat} {f : Form} {s : State} {c : Ctx} (h : Ready opc f s c) : s.warp? c.w = some c.warp := by
  obtain ⟨-, -, -, hwarp, -⟩ := h
  exact hwarp

/-- The body of the IOP is done, and keeps what the IOP does not write. -/
def RegisterBody (opc : Nat) (f : Form) (body : Ctx → State → Res) : Prop :=
  ∀ s c t, Ready opc f s c → Keeps c s t → DoneKeeping c s (body c t)

theorem registerBody_lanewise {opc : Nat} {f : Form} (h : DestNamed (shape opc f)) {body : Ctx → State → Res} {v : Ctx → Nat → Word64}
    (hb : ∀ c t, body c t = lanewise c t (v c)) : RegisterBody opc f body :=
  fun _ c t hr hk => hb c t ▸ hk.lanewise (h _ (shape_of_ready hr)) (v c)

theorem registerBody_float {opc : Nat} {f : Form} (hc : 0x0C0 ≤ opc ∧ opc ≠ 0x0C7) (h : DestNamed (shape opc f))
    (v : Ctx → Nat → FLane → Nat × FLane) : RegisterBody opc f (floatOp v) := by
  intro s c t hr hk
  have hsh := shape_of_ready hr
  obtain ⟨-, -, -, -, -, rfl, -⟩ := hr
  exact hk.floatOp hc (h _ hsh) v

/-- The destination is a predicate. -/
def DestPred (opc : Nat) (f : Form) : Prop := ∀ sh, shape opc f = some sh → sh.d = .pred

theorem registerBody_pred {opc : Nat} {f : Form} (h : DestPred opc f) {body : Ctx → State → Res} {v : Ctx → BitVec 32}
    (hb : ∀ c t, body c t = predOp c t (v c)) : RegisterBody opc f body :=
  fun _ c t hr hk => hb c t ▸ hk.predOp (h _ (shape_of_ready hr)) (v c)

theorem shape_of_when {b : Bool} {sh sh' : Shape} (h : Shape.when b sh = some sh') : b = true ∧ sh' = sh := by
  unfold Shape.when at h
  split at h
  · exact ⟨‹_›, (Option.some.inj h).symm⟩
  · cases h

/-- The predicate operations, but for those whose qualifier names another destination. -/
theorem destPred_logic {opc : Nat} (h : opc ∈ [0x00E, 0x00F, 0x010, 0x011, 0x012, 0x014, 0x015]) (x : RForm) : DestPred opc (.r x) := by
  intro sh hsh
  simp only [List.mem_cons, List.not_mem_nil, or_false] at h
  rcases h with rfl | rfl | rfl | rfl | rfl | rfl | rfl <;>
    · obtain ⟨-, rfl⟩ := shape_of_when hsh
      rfl

/-- The compares. -/
theorem destPred_icmp (x : RForm) : DestPred 0x04E (.r x) := by
  intro sh (hsh : (if x.t.isInt && x.q.toNat ≤ 5 then _ else none) = some sh)
  split at hsh
  · exact srcB_d hsh
  · cases hsh

theorem destPred_fcmp (x : RForm) : DestPred 0x0C6 (.r x) := by
  intro sh (hsh : (if x.t.isF then _ else none) = some sh)
  split at hsh
  · exact srcB_d hsh
  · cases hsh

theorem registerBody_icmp (x : RForm) : RegisterBody 0x04E (.r x) icmpBody :=
  fun _ _ _ hr hk => hk.lanewisePred (destPred_icmp x _ (shape_of_ready hr)) _

theorem registerBody_fcmp (x : RForm) : RegisterBody 0x0C6 (.r x) fcmpBody := by
  intro s c t hr hk
  have hd := destPred_fcmp x _ (shape_of_ready hr)
  obtain ⟨-, -, -, -, -, hopc, -⟩ := hr
  obtain ⟨u, hu, hku⟩ := hk.lanewisePred hd fun l => floatCond c.q (c.fsrc c.ty 0 l) (c.fsrc c.ty 1 l)
  simp only [fcmpBody, hu]
  exact (hku.raiseExc (by simp [IsFloating, hopc]) _).done

/-- PCOMB writes predicate D, or uniform D under Q = 3 (R164). -/
theorem registerBody_pcomb (x : RForm) : RegisterBody 0x00D (.r x) pcombBody := by
  intro s c t hr hk
  obtain ⟨-, hsh⟩ := shape_of_when (shape_of_ready hr)
  obtain ⟨-, -, -, -, -, -, hf, -⟩ := hr
  have hq : c.q = x.q.toNat := by rw [Ctx.q, hf]
  unfold pcombBody
  split
  · exact hk.done
  · simp only [hq]
    split
    · rename_i h3
      rw [if_pos h3] at hsh
      have hd : c.sh.d = .u 1 := by rw [hsh]
      exact (hk.writeUD (uni_mem_writtenRegs (hd ▸ Nat.le_refl 1 : NamesSome c.sh.d) (.inl ⟨1, hd⟩)) _).done
    · rename_i h3
      rw [if_neg h3] at hsh
      have hd : c.sh.d = .pred := by rw [hsh]
      exact (hk.writePred (pred_mem_writtenRegs hd) _ _).done

/-- PMASK writes predicate D under Q = 1, and uniform D otherwise (R165, R166). -/
theorem registerBody_pmask (x : RForm) : RegisterBody 0x013 (.r x) pmaskBody := by
  intro s c t hr hk
  obtain ⟨hq1, hsh⟩ := shape_of_when (shape_of_ready hr)
  obtain ⟨-, -, -, -, -, -, hf, -⟩ := hr
  have hq : c.q = x.q.toNat := by rw [Ctx.q, hf]
  simp only [Bool.and_eq_true, decide_eq_true_eq] at hq1
  unfold pmaskBody
  split
  · rename_i h1
    have hd : c.sh.d = .pred := by rw [hsh]; exact if_neg (by omega)
    exact hk.predOp hd _
  · rename_i h1
    have hd : c.sh.d = .u 1 := by rw [hsh]; exact if_pos (by omega)
    unfold oncePerPath
    split
    · exact (hk.writeUD (uni_mem_writtenRegs (hd ▸ Nat.le_refl 1 : NamesSome c.sh.d) (.inl ⟨1, hd⟩)) _).done
    · exact hk.done

/-- ICADD writes predicate C too (R177). -/
theorem registerBody_icadd (x : RForm) : RegisterBody 0x043 (.r x) icaddBody := by
  intro s c t hr hk
  have hn := destNamed_shapeR (by omega) x _ (shape_of_ready hr)
  obtain ⟨-, hsh⟩ := shape_of_when (shape_of_ready hr)
  obtain ⟨-, -, -, -, -, hopc, -⟩ := hr
  have hc : c.f.fc.toNat ≠ 15 → Reg.pred c.f.fc.toNat ∈ writtenRegs c := by
    intro h15
    refine List.mem_append_right _ ?_
    rw [if_pos hopc, hsh]
    simp only [operandRegs, if_neg h15, List.mem_singleton]
  unfold icaddBody
  simp only
  obtain ⟨u, hu, hku⟩ := hk.lanewise hn fun l => c.res
    (if c.q = 0 then c.num (c.srcA l) + c.num (c.srcB false l) + (c.srcC false l).toNat
      else c.num (c.srcA l) - c.num (c.srcB false l) - (c.srcC false l).toNat)
  rw [hu]
  simp only
  split
  · split
    · exact (hku.writePred hc _ _).done
    · exact hku.done
  · exact (hku.writePred hc _ _).done

/-- BCAST writes uniform D under Q = 1 (R190). -/
theorem registerBody_bcast (x : RForm) : RegisterBody 0x064 (.r x) bcastBody := by
  intro s c t hr hk
  have hn := destNamed_shapeR (by omega) x _ (shape_of_ready hr)
  obtain ⟨hq1, hsh⟩ := shape_of_when (shape_of_ready hr)
  obtain ⟨-, -, -, -, -, -, hf, -⟩ := hr
  have hq : c.q = x.q.toNat := by rw [Ctx.q, hf]
  simp only [Bool.and_eq_true, decide_eq_true_eq] at hq1
  unfold bcastBody
  simp only
  split
  · exact hk.lanewise hn _
  · have hd : c.sh.d = .u 1 := by rw [hsh]; exact if_pos (by omega)
    split
    · exact hk.done
    · exact (hk.writeUD (uni_mem_writtenRegs hn (.inl ⟨1, hd⟩)) _).done

/-- WRED writes uniform D (R191). -/
theorem registerBody_wred (x : RForm) : RegisterBody 0x065 (.r x) wredBody := by
  intro s c t hr hk
  have hn := destNamed_shapeR (by omega) x _ (shape_of_ready hr)
  obtain ⟨-, hsh⟩ := shape_of_when (shape_of_ready hr)
  have hd : c.sh.d = .u 1 := by rw [hsh]
  unfold wredBody
  split
  · exact hk.done
  · exact (hk.writeUD (uni_mem_writtenRegs hn (.inl ⟨1, hd⟩)) _).done

/-! ### The frame -/

theorem KeptWarp.core {c : Ctx} {x : Warp} (h : KeptWarp c x) : x.core = c.warp.core := by
  obtain ⟨_, _, _, _, _, hr⟩ := h.regs
  obtain ⟨_, _, _, _, _, rfl⟩ := h.rest
  simp only [Warp.core, Regs.placeCore] at hr ⊢
  rw [hr]

/-- The frame that O49 states of a state `t` after the IOP. -/
def RegisterFrame (c : Ctx) (s t : State) : Prop :=
  t = { s with warps := t.warps, cur := t.cur } ∧ (∀ a, t.byte a = s.byte a) ∧ (∀ w, w ≠ c.w → t.warp? w = s.warp? w)
    ∧ ∃ x, t.warp? c.w = some x
      ∧ x = { c.warp with regs := x.regs, dirty := x.dirty, lru := x.lru, foehn := x.foehn, issuedAt := x.issuedAt }
      ∧ x.regs = { c.warp.regs with u := x.regs.u, p := x.regs.p, v := x.regs.v, gstat := x.regs.gstat, srst := x.regs.srst
                                    prog := x.regs.prog, paths := x.regs.paths, stack := x.regs.stack }
      ∧ x.regs.prog = c.warp.regs.prog + (if c.f.e then 1 else 0)
      ∧ (¬ IsFloating c → x.regs.srst = c.warp.regs.srst
          ∧ x.regs.gstat = if c.f.e then c.warp.regs.gstat ||| c.cur.held else c.warp.regs.gstat)
      ∧ (∀ n, Reg.uni n ∉ writtenRegs c → x.regs.uni n = c.warp.regs.uni n)
      ∧ (∀ n, Reg.pred n ∉ writtenRegs c → x.regs.pred n = c.warp.regs.pred n)
      ∧ (∀ n row, Reg.slot n ∉ writtenRegs c → x.regs.v.find? n = some row → c.warp.regs.v.find? n = some row)
      ∧ ∀ n row l, l < 32 → c.act.getLsbD l = false → x.regs.v.find? n = some row → row.lane l = (c.warp.regs.row n).lane l

/-- Completing keeps the frame of the body. -/
theorem Keeps.registerFrame {c : Ctx} {s s' t : State} (h : Keeps c s t) (hr : s.dbg.rings.find? c.warp.core = none) :
    RegisterFrame c s (finish c s' (.done t)) := by
  obtain ⟨x, hx, ht⟩ := h
  obtain ⟨ps, st, hf⟩ := ht.finish_done (s' := s') (hx.core ▸ hr)
  refine ⟨hf.eq, hf.byte, hf.others, _, hf.own, ?_, ?_, ?_, fun hc => ?_, hx.uni, hx.pred, hx.slot, hx.lanes⟩
  · obtain ⟨_, _, _, _, _, rfl⟩ := hx.rest
    rfl
  · obtain ⟨_, _, _, _, _, hr⟩ := hx.regs
    simp only [hr]
  · obtain ⟨_, _, _, _, _, hr⟩ := hx.regs
    simp only [hr]
  · obtain ⟨hs, hg⟩ := hx.status hc
    simp only [hs, hg, and_self]

/-- The IOP keeps its frame wherever it answers a next state. -/
def KeepsFrame (run : Run) (opc : Nat) (f : Form) : Prop :=
  ∀ s c t, Ready opc f s c → s.dbg.rings.find? c.warp.core = none → run s = .next t → RegisterFrame c s t

theorem RegisterBody.keepsFrame {opc : Nat} {f : Form} {body : Ctx → State → Res} (h : RegisterBody opc f body) :
    KeepsFrame (runIop opc f body) opc f := by
  intro s c t hr hring hrun
  rw [runIop_ready hr] at hrun
  obtain ⟨x, hx, hp⟩ := prepare_onlyWarp (warp?_of_ready hr)
  obtain ⟨u, hu, hk⟩ := h s c (prepare c s) hr ⟨x, hx.keptWarp, hp⟩
  rw [hu] at hrun
  cases hrun
  exact hk.registerFrame hring

/-- The second slot of a row whose first slot has written k0: the frame is about the state before the row (R124). -/
theorem KeepsFrame.second {run : Run} {opc : Nat} {f : Form} (h : KeepsFrame run opc f) (k0 : Word32) {s : State} {c : Ctx} {t : State}
    (hr : Ready opc f (firstSlot k0 s) c) (hring : s.dbg.rings.find? c.warp.core = none) (hrun : withK0 k0 run s = .next t) :
    RegisterFrame c s t := h (firstSlot k0 s) c t hr hring hrun

theorem keepsFrame_logic {opc : Nat} (h : opc ∈ [0x00E, 0x00F, 0x010, 0x011, 0x012, 0x014, 0x015]) (x : RForm) {body : Ctx → State → Res}
    {v : Ctx → BitVec 32} (hb : ∀ c t, body c t = predOp c t (v c)) : KeepsFrame (runIop opc (.r x) body) opc (.r x) :=
  (registerBody_pred (destPred_logic h x) hb).keepsFrame

theorem keepsFrame_lanewise {opc : Nat} (h : opc < 0x140) (x : RForm) {body : Ctx → State → Res} {v : Ctx → Nat → Word64}
    (hb : ∀ c t, body c t = lanewise c t (v c)) : KeepsFrame (runIop opc (.r x) body) opc (.r x) :=
  (registerBody_lanewise (destNamed_shapeR h x) hb).keepsFrame

theorem keepsFrame_float {opc : Nat} (h : opc < 0x140) (hc : 0x0C0 ≤ opc ∧ opc ≠ 0x0C7) (x : RForm)
    (v : Ctx → Nat → FLane → Nat × FLane) : KeepsFrame (runIop opc (.r x) (floatOp v)) opc (.r x) :=
  (registerBody_float hc (destNamed_shapeR h x) v).keepsFrame

theorem keepsFrame_iadd (x : RForm) : KeepsFrame (execIadd x) 0x040 (.r x) := keepsFrame_lanewise (by decide) x fun _ _ => rfl

theorem keepsFrame_and (x : RForm) : KeepsFrame (execAnd x) 0x050 (.r x) := keepsFrame_lanewise (by decide) x fun _ _ => rfl

theorem keepsFrame_mov (x : RForm) : KeepsFrame (execMov x) 0x05F (.r x) := keepsFrame_lanewise (by decide) x fun _ _ => rfl

theorem keepsFrame_movi (x : IForm) : KeepsFrame (execMovi x) 0x060 (.i x) :=
  (registerBody_lanewise (destNamed_shapeI 0x060 x) (body := moviBody x) fun _ _ => rfl).keepsFrame

theorem keepsFrame_fadd (x : RForm) : KeepsFrame (execFadd x) 0x0C0 (.r x) := keepsFrame_float (by decide) (by decide) x _

theorem keepsFrame_ffma (x : RForm) : KeepsFrame (execFfma x) 0x0C3 (.r x) := keepsFrame_float (by decide) (by decide) x _

/-- Settles O49: each body is a lane-wise, predicate or floating-point write, and completing it keeps the frame. -/
theorem registerFrame : Obligations.RegisterFrame := by
  unfold Obligations.RegisterFrame
  refine ⟨fun x => ⟨?_, ?_, ?_, ?_⟩, keepsFrame_movi, fun g d m i s c t => (keepsFrame_iadd _).second _,
    fun g d m i s c t => (keepsFrame_and _).second _, fun g d i => keepsFrame_movi _, fun g d m n r => keepsFrame_ffma _,
    fun d m n => keepsFrame_iadd _, fun d m n => keepsFrame_fadd _, fun d m => keepsFrame_mov _⟩
  · show ∀ i ∈ (_ : List (Nat × (RForm → Instr))), KeepsFrame (exec (i.2 x)) i.1 (.r x)
    simp only [List.forall_mem_cons, List.not_mem_nil, false_implies, implies_true, and_true]
    refine ⟨(registerBody_pcomb x).keepsFrame, ?_, ?_, ?_, ?_, ?_, (registerBody_pmask x).keepsFrame, ?_, ?_⟩ <;>
      exact keepsFrame_logic (by decide) x fun _ _ => rfl
  · show ∀ i ∈ (_ : List (Nat × (RForm → Instr))), KeepsFrame (exec (i.2 x)) i.1 (.r x)
    simp only [List.forall_mem_cons, List.not_mem_nil, false_implies, implies_true, and_true]
    refine ⟨?_, ?_, ?_, (registerBody_icadd x).keepsFrame, ?_, ?_, ?_, ?_, ?_, ?_, ?_, ?_, ?_, ?_, (registerBody_icmp x).keepsFrame, ?_,
      ?_, ?_, ?_, ?_, ?_, ?_, ?_, ?_, ?_, ?_, ?_⟩ <;>
      exact keepsFrame_lanewise (by decide) x fun _ _ => rfl
  · show ∀ i ∈ (_ : List (Nat × (RForm → Instr))), KeepsFrame (exec (i.2 x)) i.1 (.r x)
    simp only [List.forall_mem_cons, List.not_mem_nil, false_implies, implies_true, and_true]
    refine ⟨?_, ?_, ?_, ?_, ?_, ?_, ?_, ?_, (registerBody_bcast x).keepsFrame, (registerBody_wred x).keepsFrame, ?_, ?_⟩ <;>
      exact keepsFrame_lanewise (by decide) x fun _ _ => rfl
  · show ∀ i ∈ (_ : List (Nat × (RForm → Instr))), KeepsFrame (exec (i.2 x)) i.1 (.r x)
    simp only [List.forall_mem_cons, List.not_mem_nil, false_implies, implies_true, and_true]
    refine ⟨?_, ?_, ?_, ?_, ?_, ?_, (registerBody_fcmp x).keepsFrame, keepsFrame_lanewise (by decide) x fun _ _ => rfl, ?_, ?_, ?_, ?_,
      ?_, ?_, ?_, ?_, ?_, ?_, ?_, ?_, ?_, ?_, ?_, ?_, ?_, ?_, ?_, ?_, ?_, ?_⟩ <;>
      exact keepsFrame_float (by decide) (by decide) x _
end Sys2Proof.Machine
end

section
/-!
SUPPORT. What the issue of a load or a store keeps: memory, held stores, caches (R258, R259, R298, R300).
-/

namespace Sys2Proof.Machine

/-! ### Caches and boundaries keep the bytes of held stores -/

/-- `h'` is the store `h`, with its bytes; it is held only if `h` was (R298). -/
def StaysHeld (h h' : Held) : Prop := h'.wid = h.wid ∧ h'.cells = h.cells ∧ ∀ core, h'.heldBy core = true → h.heldBy core = true

theorem StaysHeld.refl (h : Held) : StaysHeld h h := ⟨rfl, rfl, fun _ hh => hh⟩

theorem StaysHeld.trans {a b d : Held} (h : StaysHeld a b) (h' : StaysHeld b d) : StaysHeld a d := by
  obtain ⟨hw, hc, hh⟩ := h
  obtain ⟨hw', hc', hh'⟩ := h'
  exact ⟨hw'.trans hw, hc'.trans hc, fun core x => hh core (hh' core x)⟩

/-- The held stores keep their order, numbers and bytes; none is held that was published. -/
def SameHeld (hs hs' : List Held) : Prop := ∃ g : Held → Held, hs' = hs.map g ∧ ∀ h, StaysHeld h (g h)

theorem SameHeld.refl (hs : List Held) : SameHeld hs hs := ⟨id, (List.map_id hs).symm, .refl⟩

theorem SameHeld.trans {a b d : List Held} (h : SameHeld a b) (h' : SameHeld b d) : SameHeld a d := by
  obtain ⟨f, rfl, hf⟩ := h
  obtain ⟨g, rfl, hg⟩ := h'
  exact ⟨g ∘ f, List.map_map, fun x => (hf x).trans (hg (f x))⟩

/-- Stores that satisfy one of two tests are changed. -/
theorem sameHeld_map {p q : Held → Bool} {f g : Held → Held} (hf : ∀ h, p h = true → StaysHeld h (f h))
    (hg : ∀ h, q h = true → StaysHeld h (g h)) (hs : List Held) :
    SameHeld hs (hs.map fun h => if p h = true then f h else if q h = true then g h else h) := by
  refine ⟨_, rfl, fun h => ?_⟩
  split
  · exact hf h ‹_›
  · split
    · exact hg h ‹_›
    · exact .refl h

/-- Numbers and bytes in order. -/
theorem SameHeld.cells {hs hs' : List Held} (h : SameHeld hs hs') :
    (hs'.map fun x => (x.wid, x.cells)) = hs.map fun x => (x.wid, x.cells) := by
  obtain ⟨g, rfl, hg⟩ := h
  rw [List.map_map]
  refine List.map_congr_left fun x _ => ?_
  obtain ⟨hwid, hcells, -⟩ := hg x
  simp only [Function.comp, hwid, hcells]

/-- From `s` to `t` lines have entered caches, and a core may have passed a boundary (R258, R259, R300). -/
structure CacheStep (s t : State) : Prop where
  rest : ∃ fresh held bounds boundaries l1 buffer con llc copies,
    t = { s with fresh := fresh, held := held, bounds := bounds, boundaries := boundaries, l1 := l1, buffer := buffer, con := con
                 llc := llc, copies := copies }
  held : SameHeld s.held t.held

namespace CacheStep

theorem of_eq {s t : State} {fresh : Nat} {bounds : SMap (List BoundTerm)} {boundaries : SMap Nat} {l1 : List CacheLine}
    {buffer : List (Nat × Nat)} {con : List CacheLine} {llc : List LlcLine} {copies : SMap (BitVec 4)}
    (h : t = { s with fresh := fresh, bounds := bounds, boundaries := boundaries, l1 := l1, buffer := buffer, con := con
                      llc := llc, copies := copies }) : CacheStep s t := by
  subst h
  exact ⟨⟨_, _, _, _, _, _, _, _, _, rfl⟩, .refl _⟩

theorem refl (s : State) : CacheStep s s := of_eq rfl

theorem trans {a b d : State} (h : CacheStep a b) (h' : CacheStep b d) : CacheStep a d := by
  refine ⟨?_, h.held.trans h'.held⟩
  obtain ⟨_, _, _, _, _, _, _, _, _, rfl⟩ := h.rest
  obtain ⟨_, _, _, _, _, _, _, _, _, rfl⟩ := h'.rest
  exact ⟨_, _, _, _, _, _, _, _, _, rfl⟩

theorem foldl {α : Type} {f : State → α → State} (hf : ∀ s x, CacheStep s (f s x)) (xs : List α) (s : State) :
    CacheStep s (xs.foldl f s) :=
  List.foldlRecOn (motive := CacheStep s) xs f (refl s) fun t ht x _ => ht.trans (hf t x)

end CacheStep

theorem cacheStep_refresh (s : State) (core : Nat) (sc : Scope) : CacheStep s (refresh s core sc) := .of_eq rfl

/-- A store published anew was held before, if it is held still (R298). -/
theorem heldBy_of_publish {h : Held} {core core' : Nat} {sc : Scope} {n : Nat} {after : List Nat} (hb : h.heldBy core = true)
    (hh : Held.heldBy { h with scope := some sc, boundary := n, after := after } core' = true) : h.heldBy core' = true := by
  simp only [Held.heldBy, Bool.and_eq_true] at hb hh ⊢
  exact ⟨hh.1, hb.2⟩

/-- A store that has been published at a wider scope is not held again. -/
theorem heldBy_of_widen {h : Held} {core : Nat} {sc : Scope} {n : Nat} (hm : h.moving = true)
    (hh : Held.heldBy { h with scope := h.scope.map fun o => if o.code < sc.code then sc else o, boundary := n } core = true) :
    h.heldBy core = true := by
  simp only [Held.heldBy, Held.moving, Bool.and_eq_true, Bool.not_eq_true', Bool.or_eq_false_iff] at hm hh
  obtain ⟨-, hstrong, hscope⟩ := hh
  cases hs : h.scope with
  | none => simp [hs, hstrong] at hm
  | some o => cases o <;> cases sc <;> simp [hs, hstrong, Scope.code] at hm hscope

theorem cacheStep_boundary (s : State) (core : Nat) (sc : Scope) : CacheStep s (boundary s core sc) := by
  refine ⟨⟨_, _, _, _, _, _, _, _, _, rfl⟩, sameHeld_map (fun h hp => ?_) (fun h hq => ?_) s.held⟩
  · simp only [Bool.and_eq_true] at hp
    obtain ⟨⟨hheld, -⟩, -⟩ := hp
    exact ⟨rfl, rfl, fun _ => heldBy_of_publish hheld⟩
  · simp only [Bool.and_eq_true] at hq
    obtain ⟨⟨⟨-, hmoving⟩, -⟩, -⟩ := hq
    exact ⟨rfl, rfl, fun _ => heldBy_of_widen hmoving⟩

theorem llcFill_eq (s : State) (slice line : Nat) (remote : Bool) :
    ∃ l c, llcFill s slice line remote = { s with llc := l, copies := c } := by
  have h := llcFill_keeps (fun s => { s with llc := [], copies := [] }) (fun _ _ _ => rfl) s slice line remote
  exact ⟨_, _, congrArg (fun u => { u with llc := (llcFill s slice line remote).llc, copies := (llcFill s slice line remote).copies }) h⟩

theorem cacheStep_llcFill (s : State) (slice line : Nat) (remote : Bool) : CacheStep s (llcFill s slice line remote) := by
  obtain ⟨_, _, h⟩ := llcFill_eq s slice line remote
  exact .of_eq h

theorem cacheStep_llcRead (s : State) (die line : Nat) : CacheStep s (llcRead s die line) := by
  unfold llcRead
  simp only
  split
  · split
    · exact cacheStep_llcFill ..
    · have h := (cacheStep_llcFill s (64 * homeDie line + stopIndex line) line false).trans
        (cacheStep_llcFill _ (64 * die + stopIndex line) line true)
      split
      · exact h.trans (.of_eq rfl)
      · exact h
  · split
    · exact cacheStep_llcFill ..
    · exact .refl s

theorem cacheStep_conFill (s : State) (cluster line : Nat) : CacheStep s (conFill s cluster line) := by
  unfold conFill
  split
  · exact .refl s
  · exact .of_eq rfl

theorem cacheStep_l1Victim (s : State) (core : Nat) : CacheStep s (l1Victim s core).1 := by
  unfold l1Victim
  simp only
  split
  · exact .refl s
  · exact .of_eq rfl

theorem cacheStep_l1Fill (s : State) (core line : Nat) (next : Bool) : CacheStep s (l1Fill s core line next).1 := by
  have hv := cacheStep_l1Victim s core
  unfold l1Fill
  simp only
  split
  · exact .refl s
  · split
    · exact .of_eq rfl
    · split
      · rename_i h
        rwa [h] at hv
      · rename_i h
        rw [h] at hv
        split
        · exact hv.trans (.of_eq rfl)
        · split
          · exact hv.trans (.of_eq rfl)
          · exact .refl s

theorem cacheStep_l1FillAll (s : State) (core : Nat) (next : Bool) (lines : List Nat) : CacheStep s (l1FillAll s core next lines).1 := by
  have h : CacheStep s (lines.foldl (fun (acc : State × Bool) l => if acc.2 then acc else l1Fill acc.1 core l next) (s, false)).1 := by
    refine List.foldlRecOn (motive := fun acc : State × Bool => CacheStep s acc.1) lines _ (.refl s) fun acc hacc l _ => ?_
    split
    · exact hacc
    · exact hacc.trans (cacheStep_l1Fill ..)
  unfold l1FillAll
  simp only
  split
  · exact .refl s
  · exact h

theorem cacheStep_entered {c : Ctx} {s t : State} {next : Bool} {lines : List Nat} (h : entered c s next lines = some t) : CacheStep s t := by
  have hfill := cacheStep_l1FillAll s c.warp.core next lines
  unfold entered at h
  split at h
  · rename_i heq
    cases h
    rwa [heq] at hfill
  · simp only at h
    split at h <;> cases h
    exact ((cacheStep_boundary ..).trans (cacheStep_refresh ..)).trans (cacheStep_l1FillAll ..)

theorem cacheStep_cached {c : Ctx} {s t : State} {q : Chan} {qual : Nat} {pas : List Nat} (h : cached c s q qual pas = some t) :
    CacheStep s t := by
  have hread := CacheStep.foldl (fun s l => cacheStep_llcRead s (dieOf c.warp.core) l) (linesOf pas) s
  unfold cached at h
  simp only at h
  split at h
  · cases h
    exact hread.trans (.foldl (fun s l => cacheStep_conFill s _ l) _ _)
  · split at h
    · cases h
      exact hread
    · exact hread.trans (cacheStep_entered h)

theorem cacheStep_begun (c : Ctx) (s : State) : CacheStep s (begun c s) := by
  unfold begun
  split
  · exact cacheStep_refresh ..
  · exact .refl s
end Sys2Proof.Machine
end

section
/-!
SUPPORT. What the issue of an access keeps, and the loads that issue (R258, R264, R281, R284).
-/

namespace Sys2Proof.Machine

/-! ### What the issue of an access keeps -/

/-- The issuing warp while a memory instruction issues: its slots are in use, and its paths may have changed. -/
structure IssuedWarp (c : Ctx) (x : Warp) : Prop where
  rest : ∃ v ps d l n, x = { c.warp with regs := { c.warp.regs with v := v, paths := ps }, foehn := d, lru := l, issuedAt := n }
  old : ∀ n row, x.regs.v.find? n = some row → c.warp.regs.v.find? n = some row

theorem Prepared.issuedWarp {c : Ctx} {x : Warp} (h : Prepared c x) : IssuedWarp c x := by
  refine ⟨?_, h.old⟩
  obtain ⟨_, _, _, _, hx⟩ := h.rest
  exact ⟨_, _, _, _, _, hx⟩

theorem IssuedWarp.core {c : Ctx} {x : Warp} (h : IssuedWarp c x) : x.core = c.warp.core := by
  obtain ⟨_, _, _, _, _, rfl⟩ := h.rest
  rfl

/-- From `s` to `t` a memory instruction of the path issues: no byte has changed, no translation, and no warp but its own. -/
structure Issuing (c : Ctx) (s t : State) : Prop where
  rest : ∃ fresh nextId seq warps held bounds boundaries inflight l1 buffer con llc copies,
    t = { s with fresh := fresh, nextId := nextId, seq := seq, warps := warps, held := held, bounds := bounds, boundaries := boundaries
                 inflight := inflight, l1 := l1, buffer := buffer, con := con, llc := llc, copies := copies }
  others : ∀ w, w ≠ c.w → t.warp? w = s.warp? w
  own : ∃ x, t.warp? c.w = some x ∧ IssuedWarp c x

namespace Issuing

variable {c : Ctx} {s t u : State}

theorem cacheStep (h : Issuing c s t) (hu : CacheStep t u) : Issuing c s u := by
  obtain ⟨_, _, _, _, _, _, _, _, _, _, _, _, _, rfl⟩ := h.rest
  obtain ⟨_, _, _, _, _, _, _, _, _, rfl⟩ := hu.rest
  exact ⟨⟨_, _, _, _, _, _, _, _, _, _, _, _, _, rfl⟩, h.others, h.own⟩

/-- A read issues, or stores are held. -/
theorem queued (h : Issuing c s t) (n k : Nat) (xs : List Inflight) (hs : List Held) :
    Issuing c s { t with nextId := n, seq := k, inflight := xs, held := hs } := by
  obtain ⟨_, _, _, _, _, _, _, _, _, _, _, _, _, rfl⟩ := h.rest
  exact ⟨⟨_, _, _, _, _, _, _, _, _, _, _, _, _, rfl⟩, h.others, h.own⟩

theorem modPath (h : Issuing c s t) (f : Path → Path) : Issuing c s (t.modPath c.w c.p f) := by
  obtain ⟨x, hx, hi⟩ := h.own
  refine ⟨?_, fun w hw => (State.warp?_modPath_of_ne hw).trans (h.others w hw), _, ((OnlyWarp.refl hx).modPath c.p f).own, ?_, hi.old⟩
  · obtain ⟨_, _, _, _, _, _, _, _, _, _, _, _, _, rfl⟩ := h.rest
    exact ⟨_, _, _, _, _, _, _, _, _, _, _, _, _, rfl⟩
  · obtain ⟨_, _, _, _, _, rfl⟩ := hi.rest
    exact ⟨_, _, _, _, _, rfl⟩

theorem dbg (h : Issuing c s t) : t.dbg = s.dbg := by
  obtain ⟨_, _, _, _, _, _, _, _, _, _, _, _, _, rfl⟩ := h.rest
  rfl

/-- Elements translate as before. -/
theorem hits (h : Issuing c s t) (kind : Access) (es : List Access1) : hits t c kind es = Machine.hits s c kind es := by
  obtain ⟨_, _, _, _, _, _, _, _, _, _, _, _, _, rfl⟩ := h.rest
  rfl

theorem reaches (h : Issuing c s t) {kind : Access} {align : Nat} {es : List Access1} (hr : Reaches s c kind align es) :
    Reaches t c kind align es := by
  obtain ⟨_, _, _, _, _, _, _, _, _, _, _, _, _, rfl⟩ := h.rest
  exact hr

theorem clean (h : Issuing c s t) {n : Nat} {es : List Access2} (hc : Clean s n es) : Clean t n es := by
  obtain ⟨_, _, _, _, _, _, _, _, _, _, _, _, _, rfl⟩ := h.rest
  exact hc

end Issuing

theorem prepare_issuing {s : State} {c : Ctx} (h : s.warp? c.w = some c.warp) : Issuing c s (prepare c s) := by
  obtain ⟨x, hx, ho⟩ := prepare_onlyWarp h
  exact ⟨⟨_, _, _, _, _, _, _, _, _, _, _, _, _, prepare_eq c s⟩, ho.others, x, ho.own, hx.issuedWarp⟩

/-- The frame of a load or a store that has issued. -/
def MemoryFrame (c : Ctx) (s t : State) : Prop :=
  (∀ a, t.byte a = s.byte a) ∧ (∀ w, w ≠ c.w → t.warp? w = s.warp? w)
    ∧ (∃ x, t.warp? c.w = some x
        ∧ x.regs = { c.warp.regs with v := x.regs.v, prog := x.regs.prog, paths := x.regs.paths, stack := x.regs.stack, gstat := x.regs.gstat }
        ∧ x.regs.gstat = (if c.f.e then c.warp.regs.gstat ||| c.cur.held else c.warp.regs.gstat)
        ∧ ∀ n row, x.regs.v.find? n = some row → c.warp.regs.v.find? n = some row)
    ∧ t.wgs = s.wgs ∧ t.performed = s.performed ∧ t.sys = s.sys ∧ t.rings = s.rings

/-- Completing keeps the frame, the held stores and the reads in flight. -/
theorem Issuing.finish {c : Ctx} {s s' t : State} (h : Issuing c s t) (hr : s.dbg.rings.find? c.warp.core = none) :
    MemoryFrame c s (finish c s' (.done t)) ∧ (finish c s' (.done t)).held = t.held ∧ (finish c s' (.done t)).inflight = t.inflight := by
  obtain ⟨x, hx, hi⟩ := h.own
  obtain ⟨ps, st, hf⟩ := (OnlyWarp.refl hx).finish_done (s' := s') (by rw [hi.core, h.dbg]; exact hr)
  obtain ⟨_, _, _, _, _, _, _, _, _, _, _, _, _, rfl⟩ := h.rest
  refine ⟨⟨hf.byte, fun w hw => (hf.others w hw).trans (h.others w hw), ⟨_, hf.own, ?_, ?_, hi.old⟩, ?_⟩, ?_, ?_⟩
  · obtain ⟨_, _, _, _, _, rfl⟩ := hi.rest
    rfl
  · obtain ⟨_, _, _, _, _, rfl⟩ := hi.rest
    rfl
  · rw [hf.eq]
    exact ⟨rfl, rfl, rfl, rfl⟩
  · rw [hf.eq]
  · rw [hf.eq]

/-! ### Loads -/

/-- The elements of a read lie within the translated elements of the instruction. -/
def Within (size : Nat) (xs es : List Access2) : Prop := ∀ e ∈ es, ∃ h ∈ xs, h.lane = e.lane ∧ h.pa ≤ e.pa ∧ e.pa < h.pa + size

/-- A read that issues stands after the reads in flight. -/
theorem issueRead_eq (s : State) (c : Ctx) (op : ReadOp) (size : Nat) (lanes : BitVec 32) (es : List (Nat × Access2)) (dest : Dest)
    (busy : List Reg) :
    ∃ r, issueRead s c op size lanes es dest busy = { s with seq := s.seq + 1, nextId := s.nextId + 1, inflight := s.inflight ++ [r] }
      ∧ r.warp = c.w ∧ ∀ e ∈ r.elems, ∃ x ∈ es.map (·.2), x.lane = e.lane ∧ x.pa = e.pa := by
  refine ⟨_, rfl, rfl, fun e he => ?_⟩
  obtain ⟨x, hx, rfl⟩ := List.mem_map.1 he
  exact ⟨x.2, List.mem_map_of_mem hx, rfl, rfl⟩

/-- The body is done, and has issued one read of elements within `xs`. -/
def IssuesRead (c : Ctx) (t : State) (size : Nat) (xs : List Access2) (r : Res) : Prop :=
  ∃ op n m es dest busy, r = .done (issueRead t c op n m es dest busy) ∧ Within size xs (es.map (·.2))

section
variable {c : Ctx} {s t : State} {q : Chan}

theorem poisonedElem_of_clean {n : Nat} {xs : List Access2} (h : Clean s n xs) : poisonedElem s n xs = none := by
  simpa [poisonedElem] using h

theorem within_self {size : Nat} (h : 0 < size) (xs : List Access2) : Within size xs xs :=
  fun e he => ⟨e, he, rfl, Nat.le_refl _, Nat.lt_add_of_pos_right h⟩

theorem loadBody_issues (hr : Reaches s c .read c.esize (c.elems false)) (hc : Clean s c.esize (hits s c .read (c.elems false)))
    (ht : cached c s q c.qa ((hits s c .read (c.elems false)).map (·.pa)) = some t) (hpos : 0 < c.esize) :
    IssuesRead c t c.esize (hits s c .read (c.elems false)) (loadBody q c s) := by
  obtain ⟨hne, hea, hall⟩ := hr
  unfold loadBody
  simp only
  split
  · simp [*] at hne
  · rename_i heq _
    simp [heq] at hea
  · rw [translateAll_of_hits hall, poisonedElem_of_clean hc]
    simp only [withLines_of_cached ht]
    exact ⟨_, _, _, _, _, _, rfl, by simpa [Function.comp_def] using within_self hpos _⟩

/-- LDV reads `n` words of each element (R281). -/
theorem loadWordsBody_issues {n : Nat} (hn : n = if c.qa = 0 then 4 else 8) (hr : Reaches s c .read (4 * n) (c.elems false))
    (hc : Clean s (4 * n) (hits s c .read (c.elems false)))
    (ht : cached c s .gen 0 ((hits s c .read (c.elems false)).map (·.pa)) = some t) :
    IssuesRead c t (4 * n) (hits s c .read (c.elems false)) (loadWordsBody c s) := by
  obtain ⟨hne, hea, hall⟩ := hr
  unfold loadWordsBody
  simp only [← hn]
  split
  · simp [*] at hne
  · rename_i heq _
    simp [heq] at hea
  · rw [translateAll_of_hits hall, poisonedElem_of_clean hc]
    simp only [withLines_of_cached ht]
    refine ⟨_, _, _, _, _, _, rfl, fun e he => ?_⟩
    simp only [List.map_flatMap, List.map_map, List.mem_flatMap, List.mem_map, List.mem_range, Function.comp] at he
    obtain ⟨x, hx, i, hi, rfl⟩ := he
    exact ⟨x, hx, rfl, by simp only; omega, by simp only; omega⟩

theorem loadUniformBody_issues {pred : Bool} (hr : Reaches s c .read c.esize (c.elems true))
    (hc : Clean s c.esize (hits s c .read (c.elems true)))
    (ht : cached c s q 0 ((hits s c .read (c.elems true)).map (·.pa)) = some t) (hpos : 0 < c.esize) :
    IssuesRead c t c.esize (hits s c .read (c.elems true)) (loadUniformBody q pred c s) := by
  obtain ⟨hne, hea, hall⟩ := hr
  unfold loadUniformBody
  simp only
  split
  · simp [*] at hne
  · rename_i heq _
    simp [heq] at hea
  · rw [translateAll_of_hits hall, poisonedElem_of_clean hc]
    simp only [withLines_of_cached ht]
    exact ⟨_, _, _, _, _, _, rfl, by simpa [Function.comp_def] using within_self hpos _⟩

end

/-- A body that is done in the state in which the access runs is done (R259, R300). -/
theorem afterOverflow_done {body : Ctx → State → Res} {c : Ctx} {s u : State} (h : body c (begun c s) = .done u) :
    afterOverflow body c s = .done u := by
  unfold begun at h
  unfold afterOverflow
  split at h <;> simp only [*]

/-- What O50 states of a load that has issued: its read in flight, within the elements, and nothing else. -/
def LoadIssued (c : Ctx) (s : State) (size : Nat) (xs : List Access2) (t : State) : Prop :=
  ∃ r, MemoryFrame c s t ∧ (t.held.map fun h => (h.wid, h.cells)) = (s.held.map fun h => (h.wid, h.cells))
    ∧ t.inflight = s.inflight ++ [r] ∧ r.warp = c.w
    ∧ ∀ e ∈ r.elems, ∃ h ∈ xs, h.lane = e.lane ∧ h.pa ≤ e.pa ∧ e.pa < h.pa + size

/-- The state before a read issues: slots are in use, and lines have entered caches. -/
structure BeforeIssue (c : Ctx) (s t : State) : Prop where
  issuing : Issuing c s t
  held : SameHeld s.held t.held
  inflight : t.inflight = s.inflight

theorem prepare_beforeIssue {s : State} {c : Ctx} (h : s.warp? c.w = some c.warp) : BeforeIssue c s (prepare c s) := by
  refine ⟨prepare_issuing h, ?_, ?_⟩ <;> rw [prepare_eq]
  exact .refl _

theorem BeforeIssue.cacheStep {c : Ctx} {s t u : State} (h : BeforeIssue c s t) (hu : CacheStep t u) : BeforeIssue c s u := by
  refine ⟨h.issuing.cacheStep hu, h.held.trans hu.held, ?_⟩
  obtain ⟨_, _, _, _, _, _, _, _, _, rfl⟩ := hu.rest
  exact h.inflight

theorem BeforeIssue.loadIssued {c : Ctx} {s t : State} {size : Nat} {xs : List Access2} {r : Res} (h : BeforeIssue c s t)
    (hr : IssuesRead c t size xs r) (hring : s.dbg.rings.find? c.warp.core = none) : LoadIssued c s size xs (finish c s r) := by
  obtain ⟨op, n, m, es, dest, busy, rfl, hes⟩ := hr
  obtain ⟨x, hx, hw, helems⟩ := issueRead_eq t c op n m es dest busy
  obtain ⟨hframe, hheld, hin⟩ := Issuing.finish (s' := s) (h.issuing.queued (t.nextId + 1) (t.seq + 1) (t.inflight ++ [x]) t.held) hring
  rw [hx]
  refine ⟨x, hframe, ?_, ?_, hw, fun e he => ?_⟩
  · rw [hheld]
    exact h.held.cells
  · rw [hin, h.inflight]
  · obtain ⟨y, hy, hlane, hpa⟩ := helems e he
    rw [← hlane, ← hpa]
    exact hes y hy

/-- A load whose lines can enter the core's caches issues (R258, R264). -/
theorem load_issues {opc : Nat} {f : Form} {body : Ctx → State → Res} {s : State} {c : Ctx} {q : Chan} {uniform : Bool}
    {qual align size : Nat} (hready : Ready opc f s c) (hr : Reaches s c .read align (c.elems uniform))
    (hc : Clean s size (hits s c .read (c.elems uniform)))
    (ht : (cached c (begun c (prepare c s)) q qual ((hits s c .read (c.elems uniform)).map (·.pa))).isSome = true)
    (hring : s.dbg.rings.find? c.warp.core = none)
    (hbody : ∀ u t, Reaches u c .read align (c.elems uniform) → Clean u size (hits u c .read (c.elems uniform))
      → cached c u q qual ((hits u c .read (c.elems uniform)).map (·.pa)) = some t
      → IssuesRead c t size (hits u c .read (c.elems uniform)) (body c u)) :
    ∃ t, runIop opc f (afterOverflow body) s = .next t ∧ LoadIssued c s size (hits s c .read (c.elems uniform)) t := by
  obtain ⟨t, ht⟩ := Option.isSome_iff_exists.1 ht
  have hb := (prepare_beforeIssue (warp?_of_ready hready)).cacheStep (cacheStep_begun c (prepare c s))
  have hhits := hb.issuing.hits .read (c.elems uniform)
  have hread := hbody (begun c (prepare c s)) t (hb.issuing.reaches hr) (by rw [hhits]; exact hb.issuing.clean hc) (by rw [hhits]; exact ht)
  rw [hhits] at hread
  refine ⟨_, runIop_ready hready, ?_⟩
  have hdone : afterOverflow body c (prepare c s) = body c (begun c (prepare c s)) := by
    obtain ⟨_, _, _, _, _, _, h, _⟩ := hread
    rw [h]
    exact afterOverflow_done h
  rw [hdone]
  exact (hb.cacheStep (cacheStep_cached ht)).loadIssued hread hring

/-- A load through the constant cache, which makes the core pass no boundary, issues (R284). -/
theorem load_issues_con {opc : Nat} {f : Form} {body : Ctx → State → Res} {s : State} {c : Ctx} {uniform : Bool} {qual align size : Nat}
    (hready : Ready opc f s c) (hr : Reaches s c .read align (c.elems uniform)) (hc : Clean s size (hits s c .read (c.elems uniform)))
    (hring : s.dbg.rings.find? c.warp.core = none)
    (hbody : ∀ u t, Reaches u c .read align (c.elems uniform) → Clean u size (hits u c .read (c.elems uniform))
      → cached c u .con qual ((hits u c .read (c.elems uniform)).map (·.pa)) = some t
      → IssuesRead c t size (hits u c .read (c.elems uniform)) (body c u)) :
    ∃ t, runIop opc f body s = .next t ∧ LoadIssued c s size (hits s c .read (c.elems uniform)) t := by
  have hb := prepare_beforeIssue (warp?_of_ready hready)
  have hhits := hb.issuing.hits .read (c.elems uniform)
  obtain ⟨t, ht⟩ : ∃ t, cached c (prepare c s) .con qual ((hits s c .read (c.elems uniform)).map (·.pa)) = some t := ⟨_, rfl⟩
  have hread := hbody (prepare c s) t (hb.issuing.reaches hr) (by rw [hhits]; exact hb.issuing.clean hc) (by rw [hhits]; exact ht)
  rw [hhits] at hread
  exact ⟨_, runIop_ready hready, (hb.cacheStep (cacheStep_cached ht)).loadIssued hread hring⟩

end Sys2Proof.Machine
end

section
/-!
PROOF. The frame of loads and stores at issue (O50).
-/

namespace Sys2Proof.Machine

/-! ### Held stores -/

theorem mem_cellsAt {a : Nat} {bs : List Byte} {b : Host.Cell} (h : b ∈ cellsAt a bs) : a ≤ b.1 ∧ b.1 < a + bs.length := by
  simp only [cellsAt, List.mem_map] at h
  obtain ⟨⟨j, y⟩, hj, rfl⟩ := h
  have := List.mem_range.1 (List.of_mem_zip hj).1
  simp only
  omega

/-- After stores to addresses that satisfy `P` have issued on top of the stores `H`: what `H` held is held still, unless the core held it for
such an address; and what is held anew is for such addresses (R298). -/
structure Storing (core : Nat) (P : Nat → Prop) (H hs : List Held) : Prop where
  kept : ∀ h ∈ H, ∀ b ∈ h.cells,
    (∃ g ∈ hs, g.wid = h.wid ∧ b ∈ g.cells ∧ (g.heldBy core = true → h.heldBy core = true)) ∨ (h.heldBy core = true ∧ P b.1)
  new : ∀ g ∈ hs, (∃ h ∈ H, h.wid = g.wid) ∨ ∀ b ∈ g.cells, P b.1

theorem storing_of_sameHeld {core : Nat} {P : Nat → Prop} {H hs : List Held} (h : SameHeld H hs) : Storing core P H hs := by
  obtain ⟨f, rfl, hf⟩ := h
  refine ⟨fun x hx b hb => .inl ?_, fun g hg => .inl ?_⟩
  · obtain ⟨hwid, hcells, hheld⟩ := hf x
    exact ⟨f x, List.mem_map_of_mem hx, hwid, hcells ▸ hb, hheld core⟩
  · obtain ⟨x, hx, rfl⟩ := List.mem_map.1 hg
    exact ⟨x, hx, (hf x).1.symm⟩

/-- The bytes that a new store of a core leaves to a store: it hides what the core held for its own (R298). -/
def trimmed (core : Nat) (cells : List Host.Cell) (g : Held) : Held :=
  if g.heldBy core then { g with cells := g.cells.filter fun x => !cells.any (·.1 == x.1) } else g

theorem trimmed_wid (core : Nat) (cells : List Host.Cell) (g : Held) : (trimmed core cells g).wid = g.wid := by
  unfold trimmed
  split <;> rfl

theorem trimmed_heldBy (core : Nat) (cells : List Host.Cell) (g : Held) : (trimmed core cells g).heldBy core = g.heldBy core := by
  unfold trimmed
  split <;> rfl

theorem mem_of_mem_trimmed {core : Nat} {cells : List Host.Cell} {g : Held} {b : Host.Cell} (h : b ∈ (trimmed core cells g).cells) :
    b ∈ g.cells := by
  unfold trimmed at h
  split at h
  · exact List.mem_of_mem_filter h
  · exact h

/-- A byte stays, or the core held it and the new store has one for its address. -/
theorem mem_trimmed {core : Nat} {cells : List Host.Cell} {g : Held} {b : Host.Cell} (h : b ∈ g.cells) :
    b ∈ (trimmed core cells g).cells ∨ g.heldBy core = true ∧ ∃ x ∈ cells, x.1 = b.1 := by
  unfold trimmed
  split
  · rename_i hh
    by_cases hx : ∃ x ∈ cells, x.1 = b.1
    · exact .inr ⟨hh, hx⟩
    · refine .inl (List.mem_filter.2 ⟨h, ?_⟩)
      simpa only [Bool.not_eq_true', List.any_eq_false, beq_iff_eq] using fun x hm he => hx ⟨x, hm, he⟩
  · exact .inl h

theorem holdStore_held (s : State) (c : Ctx) (e : StoreElem) :
    ∃ h : Held, h.cells = cellsAt e.pa e.bytes
      ∧ (holdStore s c e).held = (s.held.map (trimmed c.warp.core (cellsAt e.pa e.bytes))).filter (fun g => !g.cells.isEmpty) ++ [h] :=
  ⟨_, rfl, rfl⟩

theorem Storing.holdStore {c : Ctx} {P : Nat → Prop} {H : List Held} {s : State} (h : Storing c.warp.core P H s.held) {e : StoreElem}
    (he : ∀ a, e.pa ≤ a → a < e.pa + e.bytes.length → P a) : Storing c.warp.core P H (holdStore s c e).held := by
  obtain ⟨n, hn, hheld⟩ := holdStore_held s c e
  have hP : ∀ b ∈ cellsAt e.pa e.bytes, P b.1 := fun b hb => he b.1 (mem_cellsAt hb).1 (mem_cellsAt hb).2
  rw [hheld]
  refine ⟨fun x hx b hb => ?_, fun g hg => ?_⟩
  · rcases h.kept x hx b hb with ⟨g, hg, hw, hbg, hh⟩ | hr
    · rcases mem_trimmed (core := c.warp.core) (cells := cellsAt e.pa e.bytes) hbg with hbt | ⟨hgh, y, hy, hyb⟩
      · refine .inl ⟨trimmed c.warp.core (cellsAt e.pa e.bytes) g, List.mem_append_left _ (List.mem_filter.2 ⟨List.mem_map_of_mem hg, ?_⟩),
          (trimmed_wid ..).trans hw, hbt, fun ht => hh (trimmed_heldBy .. ▸ ht)⟩
        simpa using List.ne_nil_of_mem hbt
      · exact .inr ⟨hh hgh, hyb ▸ hP y hy⟩
    · exact .inr hr
  · rcases List.mem_append.1 hg with hg | hg
    · obtain ⟨y, hy, rfl⟩ := List.mem_map.1 (List.mem_of_mem_filter hg)
      rw [trimmed_wid]
      exact (h.new y hy).imp id fun hy b hb => hy b (mem_of_mem_trimmed hb)
    · obtain rfl := List.mem_singleton.1 hg
      exact .inr (hn ▸ hP)

/-- The stores of an instruction change the held stores and their numbers. -/
theorem holdStores_eq (s : State) (c : Ctx) (es : List StoreElem) :
    ∃ n hs, holdStores s c es = { s with nextId := n, seq := s.seq + 1, held := hs } := by
  refine List.foldlRecOn (motive := fun t : State => ∃ n hs, t = { s with nextId := n, seq := s.seq + 1, held := hs }) es _
    ⟨_, _, rfl⟩ fun t ht e _ => ?_
  obtain ⟨_, _, rfl⟩ := ht
  exact ⟨_, _, rfl⟩

theorem Storing.holdStores {c : Ctx} {P : Nat → Prop} {H : List Held} {s : State} (h : Storing c.warp.core P H s.held)
    {es : List StoreElem} (he : ∀ e ∈ es, ∀ a, e.pa ≤ a → a < e.pa + e.bytes.length → P a) :
    Storing c.warp.core P H (holdStores s c es).held :=
  List.foldlRecOn (motive := fun t : State => Storing c.warp.core P H t.held) es _ h fun _ ht e hm => ht.holdStore (he e hm)

/-! ### Stores -/

/-- The stores of elements lie within the translated elements of the instruction. -/
def StoresWithin (size : Nat) (xs : List Access2) (es : List StoreElem) : Prop :=
  ∀ e ∈ es, ∃ h ∈ xs, h.pa ≤ e.pa ∧ e.pa + e.bytes.length ≤ h.pa + size

/-- The body is done, and holds stores within `xs`; a SCAT has cleared its restart record besides (R279). -/
def IssuesStores (c : Ctx) (t : State) (size : Nat) (xs : List Access2) (r : Res) : Prop :=
  ∃ es u, r = .done u ∧ (u = holdStores t c es ∨ ∃ f, u = (holdStores t c es).modPath c.w c.p f) ∧ StoresWithin size xs es

/-- The addresses of `n` words of each element. -/
def wordAddrs (n : Nat) (xs : List Access2) : List Nat := xs.flatMap fun e => (List.range n).map fun i => e.pa + 4 * i

theorem wordAddrs_one (xs : List Access2) : wordAddrs 1 xs = xs.map (·.pa) := by
  simp [wordAddrs, ← List.map_eq_flatMap]

theorem l1Lines_store (pas : List Nat) : l1Lines true pas = linesOf pas := by simp [l1Lines]

section
variable {c : Ctx} {s t : State}

theorem issueStores_of_entered {strm : Bool} {es : List StoreElem} {f : State → Res}
    (ht : entered c s strm (linesOf (es.map (·.pa))) = some t) : issueStores c s strm es f = f (holdStores t c es) := by
  unfold issueStores
  rw [l1Lines_store]
  exact withL1_of_entered ht

theorem storeBody_issues (hr : Reaches s c .write c.esize (c.elems false))
    (ht : entered c s (c.qa == 1) (linesOf (wordAddrs 1 (hits s c .write (c.elems false)))) = some t) :
    IssuesStores c t c.esize (hits s c .write (c.elems false)) (storeBody c s) := by
  obtain ⟨hne, hea, hall⟩ := hr
  unfold storeBody
  simp only
  split
  · simp [*] at hne
  · rename_i heq _
    simp [heq] at hea
  · rw [translateAll_of_hits hall, issueStores_of_entered (t := t) (by simpa [wordAddrs_one, Function.comp_def] using ht)]
    refine ⟨_, _, rfl, .inl rfl, fun e he => ?_⟩
    obtain ⟨x, hx, rfl⟩ := List.mem_map.1 he
    exact ⟨x, hx, Nat.le_refl _, by simp [Ctx.storeBytes]⟩

/-- STV stores `n` words of each element (R281). -/
theorem storeWordsBody_issues {n : Nat} (hn : n = if c.qa = 0 then 4 else 8) (hr : Reaches s c .write (4 * n) (c.elems false))
    (ht : entered c s false (linesOf (wordAddrs n (hits s c .write (c.elems false)))) = some t) :
    IssuesStores c t (4 * n) (hits s c .write (c.elems false)) (storeWordsBody c s) := by
  obtain ⟨hne, hea, hall⟩ := hr
  unfold storeWordsBody
  simp only [← hn]
  split
  · simp [*] at hne
  · rename_i heq _
    simp [heq] at hea
  · rw [translateAll_of_hits hall,
      issueStores_of_entered (t := t) (by simpa [wordAddrs, List.map_flatMap, Function.comp_def] using ht)]
    refine ⟨_, _, rfl, .inl rfl, fun e he => ?_⟩
    simp only [List.mem_flatMap, List.mem_map, List.mem_range] at he
    obtain ⟨x, hx, i, hi, rfl⟩ := he
    exact ⟨x, hx, by simp only; omega, by simp only [length_leBytes]; omega⟩

theorem storeUniformBody_issues {pred : Bool} (hr : Reaches s c .write c.esize (c.elems true))
    (ht : entered c s false (linesOf (wordAddrs 1 (hits s c .write (c.elems true)))) = some t) :
    IssuesStores c t c.esize (hits s c .write (c.elems true)) (storeUniformBody pred c s) := by
  obtain ⟨hne, hea, hall⟩ := hr
  unfold storeUniformBody
  simp only
  split
  · simp [*] at hne
  · rename_i heq _
    simp [heq] at hea
  · rw [translateAll_of_hits hall, issueStores_of_entered (t := t) (by simpa [wordAddrs_one, Function.comp_def] using ht)]
    refine ⟨_, _, rfl, .inl rfl, fun e he => ?_⟩
    obtain ⟨x, hx, rfl⟩ := List.mem_map.1 he
    exact ⟨x, hx, Nat.le_refl _, by simp⟩

theorem lookupVa_of_hits {kind : Access} {es : List Access1} (h : (es.all fun e => (hit s c kind e).isSome) = true) {e : Access1}
    (he : e ∈ es) : ∃ pa x, lookupVa s c.warp c.path e.va kind = .ok pa x := by
  have hhit := List.all_eq_true.1 h e he
  unfold hit at hhit
  split at hhit
  · exact ⟨_, _, ‹_›⟩
  · cases hhit

theorem hits_ne_nil {kind : Access} {es : List Access1} (hne : es.isEmpty = false)
    (h : (es.all fun e => (hit s c kind e).isSome) = true) : (hits s c kind es).isEmpty = false := by
  cases es with
  | nil => exact absurd hne (by decide)
  | cons e es =>
    obtain ⟨x, hx⟩ := Option.isSome_iff_exists.1 (List.all_eq_true.1 h e List.mem_cons_self)
    simp [hits, hx]

/-- A SCAT whose elements all translate, with no restart record, completes at once (R279). -/
theorem scatBody_issues (hmask : restartMask c = 0) (hr : Reaches s c .write c.esize (c.elems false))
    (ht : entered c s (c.qa == 1) (linesOf (wordAddrs 1 (hits s c .write (c.elems false)))) = some t) :
    IssuesStores c t c.esize (hits s c .write (c.elems false)) (scatBody c s) := by
  obtain ⟨hne, hea, hall⟩ := hr
  have hes : ((c.elems false).filter fun e => !(restartMask c).getLsbD e.lane) = c.elems false := by simp [hmask]
  unfold scatBody progressiveBody
  simp only [hes, Bool.false_eq_true, if_false]
  rw [Option.isNone_iff_eq_none.1 hea]
  simp only
  split
  · rename_i e heq
    obtain ⟨pa, x, hlook⟩ := lookupVa_of_hits hall (List.mem_of_find?_eq_some heq)
    simpa [hlook] using List.find?_some heq
  · rw [scanElems_of_hits _ hall]
    unfold doElements
    simp only [hits_ne_nil hne hall, Bool.false_eq_true, if_false]
    rw [issueStores_of_entered (t := t) (by simpa [wordAddrs_one, Function.comp_def] using ht)]
    refine ⟨_, _, rfl, .inr ⟨_, rfl⟩, fun e he => ?_⟩
    obtain ⟨x, hx, rfl⟩ := List.mem_map.1 he
    exact ⟨x, hx, Nat.le_refl _, by simp [Ctx.storeBytes]⟩

end

/-! ### The frame of a store -/

/-- What O50 states of a store that has issued: its bytes are held, and nothing else has changed. -/
def StoreIssued (c : Ctx) (s : State) (size : Nat) (xs : List Access2) (t : State) : Prop :=
  MemoryFrame c s t ∧ t.inflight = s.inflight
    ∧ (∀ h ∈ s.held, ∀ b ∈ h.cells, (∃ g ∈ t.held, g.wid = h.wid ∧ b ∈ g.cells)
        ∨ (h.heldBy c.warp.core = true ∧ ∃ e ∈ xs, e.pa ≤ b.1 ∧ b.1 < e.pa + size))
    ∧ ∀ a, (∃ g ∈ t.held, (∀ h ∈ s.held, h.wid ≠ g.wid) ∧ a ∈ g.cells.map (·.1)) → ∃ e ∈ xs, e.pa ≤ a ∧ a < e.pa + size

/-- An address of an element. -/
def InElements (size : Nat) (xs : List Access2) (a : Nat) : Prop := ∃ e ∈ xs, e.pa ≤ a ∧ a < e.pa + size

theorem inElements_of_storesWithin {size : Nat} {xs : List Access2} {es : List StoreElem} (h : StoresWithin size xs es) :
    ∀ e ∈ es, ∀ a, e.pa ≤ a → a < e.pa + e.bytes.length → InElements size xs a := by
  intro e he a hl hu
  obtain ⟨x, hx, hlo, hhi⟩ := h e he
  exact ⟨x, hx, by omega, by omega⟩

theorem BeforeIssue.storeIssued {c : Ctx} {s t : State} {size : Nat} {xs : List Access2} {r : Res} (h : BeforeIssue c s t)
    (hr : IssuesStores c t size xs r) (hring : s.dbg.rings.find? c.warp.core = none) : StoreIssued c s size xs (finish c s r) := by
  obtain ⟨es, u, rfl, hu, hes⟩ := hr
  obtain ⟨n, hs, hstores⟩ := holdStores_eq t c es
  have hissued : Issuing c s (holdStores t c es) := hstores ▸ h.issuing.queued n (t.seq + 1) t.inflight hs
  have hinflight : (holdStores t c es).inflight = s.inflight := hstores ▸ h.inflight
  have hstoring : Storing c.warp.core (InElements size xs) s.held (holdStores t c es).held :=
    (storing_of_sameHeld h.held).holdStores (inElements_of_storesWithin hes)
  have hdone : Issuing c s u ∧ u.inflight = (holdStores t c es).inflight ∧ u.held = (holdStores t c es).held := by
    rcases hu with rfl | ⟨f, rfl⟩
    · exact ⟨hissued, rfl, rfl⟩
    · exact ⟨hissued.modPath f, rfl, rfl⟩
  obtain ⟨hu, huin, huheld⟩ := hdone
  obtain ⟨hframe, hheld, hin⟩ := hu.finish (s' := s) hring
  refine ⟨hframe, hin.trans (huin.trans hinflight), fun x hx b hb => ?_, fun a ⟨g, hg, hnew, ha⟩ => ?_⟩
  · rw [hheld, huheld]
    exact (hstoring.kept x hx b hb).imp (fun ⟨g, hg, hw, hbg, _⟩ => ⟨g, hg, hw, hbg⟩) id
  · rw [hheld, huheld] at hg
    obtain ⟨b, hb, rfl⟩ := List.mem_map.1 ha
    rcases hstoring.new g hg with ⟨x, hx, hw⟩ | hin
    · exact absurd hw (hnew x hx)
    · exact hin b hb

/-- A store whose lines can enter the core's L1 issues (R264, R298). -/
theorem store_issues {opc : Nat} {f : Form} {body : Ctx → State → Res} {s : State} {c : Ctx} {next uniform : Bool} {n size : Nat}
    (hready : Ready opc f s c) (hr : Reaches s c .write size (c.elems uniform)) (hring : s.dbg.rings.find? c.warp.core = none)
    (ht : (entered c (begun c (prepare c s)) next (linesOf (wordAddrs n (hits s c .write (c.elems uniform))))).isSome = true)
    (hbody : ∀ u t, Reaches u c .write size (c.elems uniform)
      → entered c u next (linesOf (wordAddrs n (hits u c .write (c.elems uniform)))) = some t
      → IssuesStores c t size (hits u c .write (c.elems uniform)) (body c u)) :
    ∃ t, runIop opc f (afterOverflow body) s = .next t ∧ StoreIssued c s size (hits s c .write (c.elems uniform)) t := by
  obtain ⟨t, ht⟩ := Option.isSome_iff_exists.1 ht
  have hb := (prepare_beforeIssue (warp?_of_ready hready)).cacheStep (cacheStep_begun c (prepare c s))
  have hhits := hb.issuing.hits .write (c.elems uniform)
  have hstore := hbody (begun c (prepare c s)) t (hb.issuing.reaches hr) (by rw [hhits]; exact ht)
  rw [hhits] at hstore
  refine ⟨_, runIop_ready hready, ?_⟩
  have hdone : afterOverflow body c (prepare c s) = body c (begun c (prepare c s)) := by
    obtain ⟨_, _, h, _⟩ := hstore
    rw [h]
    exact afterOverflow_done h
  rw [hdone]
  exact (hb.cacheStep (cacheStep_entered ht)).storeIssued hstore hring

/-! ### The elements of a load have bytes -/

theorem bytes_pos_of_isMem {t : ElemType} (h : t.isMem = true) : 0 < t.bytes := by
  cases t <;> simp [ElemType.isMem] at h <;> decide

/-- The type of a legal load is one that memory holds (R264). -/
theorem isMem_of_load {opc : Nat} (h : opc ∈ [0x180, 0x184, 0x186, 0x190, 0x191]) {x : MForm} {sh : Shape}
    (hsh : shape opc (.m x) = some sh) : x.t.isMem = true := by
  simp only [List.mem_cons, List.not_mem_nil, or_false] at h
  rcases h with rfl | rfl | rfl | rfl | rfl <;>
    · obtain ⟨hw, -⟩ := shape_of_when hsh
      simp only [Bool.and_eq_true] at hw
      simp only [hw]

theorem esize_pos_of_load {opc : Nat} (h : opc ∈ [0x180, 0x184, 0x186, 0x190, 0x191]) {x : MForm} {s : State} {c : Ctx}
    (hr : Ready opc (.m x) s c) : 0 < c.esize := by
  have hmem := isMem_of_load h (shape_of_ready hr)
  obtain ⟨-, -, -, -, -, -, hf, -⟩ := hr
  have : c.esize = x.t.bytes := by simp only [Ctx.esize, Ctx.ty, hf]
  exact this ▸ bytes_pos_of_isMem hmem

/-- The form in which O50 states `LoadIssued`. -/
theorem LoadIssued.stated {c : Ctx} {s : State} {size : Nat} {xs : List Access2} {o : Host.Outcome State Fault Refusal}
    (h : ∃ t, o = .next t ∧ LoadIssued c s size xs t) :
    ∃ t r, o = .next t ∧ MemoryFrame c s t ∧ (t.held.map fun h => (h.wid, h.cells)) = (s.held.map fun h => (h.wid, h.cells))
      ∧ t.inflight = s.inflight ++ [r] ∧ r.warp = c.w ∧ ∀ e ∈ r.elems, ∃ h ∈ xs, h.lane = e.lane ∧ h.pa ≤ e.pa ∧ e.pa < h.pa + size := by
  obtain ⟨t, ho, r, hr⟩ := h
  exact ⟨t, r, ho, hr⟩

/-- Settles O50: the lines of an access enter caches, which keeps every byte and what is held; then its one read is in flight, or its stores are
held and hide what the core held for their addresses. -/
theorem memoryIssueFrame : Obligations.MemoryIssueFrame := by
  unfold Obligations.MemoryIssueFrame
  refine ⟨?ld, ?ldv, ?ldp, ?ldu, ?cld, ?cldu, ?st, ?stv, ?stp, ?stu, ?scat⟩
  case ld =>
    exact fun x s c hready hr hc ht hring => LoadIssued.stated <| load_issues hready hr hc ht hring fun u t hr hc ht =>
      loadBody_issues hr hc ht (esize_pos_of_load (by decide) hready)
  case ldv =>
    exact fun x s c hready hr hc ht hring => LoadIssued.stated <| load_issues hready hr hc ht hring fun u t hr hc ht =>
      loadWordsBody_issues rfl hr hc ht
  case ldp =>
    exact fun x s c hready hr hc ht hring => LoadIssued.stated <| load_issues hready hr hc ht hring fun u t hr hc ht =>
      loadUniformBody_issues hr hc ht (esize_pos_of_load (by decide) hready)
  case ldu =>
    exact fun x s c hready hr hc ht hring => LoadIssued.stated <| load_issues hready hr hc ht hring fun u t hr hc ht =>
      loadUniformBody_issues hr hc ht (esize_pos_of_load (by decide) hready)
  case cld =>
    exact fun x s c hready hr hc _ hring => LoadIssued.stated <| load_issues_con hready hr hc hring fun u t hr hc ht =>
      loadBody_issues hr hc ht (esize_pos_of_load (by decide) hready)
  case cldu =>
    exact fun x s c hready hr hc _ hring => LoadIssued.stated <| load_issues_con hready hr hc hring fun u t hr hc ht =>
      loadUniformBody_issues hr hc ht (esize_pos_of_load (by decide) hready)
  case st => exact fun x s c hready hr _ hring ht => store_issues hready hr hring ht fun u t hr ht => storeBody_issues hr ht
  case stv =>
    exact fun x s c hready hr _ hring ht => store_issues hready hr hring ht fun u t hr ht =>
      storeWordsBody_issues rfl hr (by simpa only [Nat.mul_div_cancel_left _ (show 0 < 4 by decide)] using ht)
  case stp => exact fun x s c hready hr _ hring ht => store_issues hready hr hring ht fun u t hr ht => storeUniformBody_issues hr ht
  case stu => exact fun x s c hready hr _ hring ht => store_issues hready hr hring ht fun u t hr ht => storeUniformBody_issues hr ht
  case scat =>
    exact fun x s c hready hr hmask hring ht => store_issues hready hr hring ht fun u t hr ht => scatBody_issues hmask hr ht

end Sys2Proof.Machine
end

section
/-!
SUPPORT. Reading the fields of a word that is written as a sum of fields (R52-R63, R77-R82).
-/

namespace Sys2Proof

/-- Where no carry enters them, the bits of a sum from `lo` up are the sum of the bits. -/
theorem add_div_two_pow {c r lo : Nat} (h : c % 2 ^ lo + r % 2 ^ lo < 2 ^ lo) : (c + r) / 2 ^ lo = c / 2 ^ lo + r / 2 ^ lo := by
  rw [Nat.add_div (Nat.two_pow_pos lo), if_neg (Nat.not_le.2 h), Nat.add_zero]

/-- A field of a number to which nothing is added there. -/
theorem bitsAt_add {c r lo n : Nat} (h : c % 2 ^ lo + r % 2 ^ lo < 2 ^ lo) (hr : r / 2 ^ lo % 2 ^ n = 0) :
    bitsAt (c + r) lo n = c / 2 ^ lo % 2 ^ n := by
  rw [bitsAt, add_div_two_pow h, Nat.add_mod, hr, Nat.add_zero, Nat.mod_mod]

theorem fieldAt_eq {w lo n : Nat} {v : BitVec n} (h : w / 2 ^ lo % 2 ^ n = v.toNat) : fieldAt w lo n = v := by
  apply BitVec.eq_of_toNat_eq
  rw [fieldAt, BitVec.toNat_ofNat, h]

/-- A summand that is zero in a field does not count there. -/
theorem fieldAt_add {c r lo n : Nat} (h : c % 2 ^ lo + r % 2 ^ lo < 2 ^ lo) (hc : c / 2 ^ lo % 2 ^ n = 0) :
    fieldAt (c + r) lo n = fieldAt r lo n := by
  apply fieldAt_eq
  rw [add_div_two_pow h, Nat.add_mod, hc, Nat.zero_add, Nat.mod_mod, fieldAt, BitVec.toNat_ofNat]

/-- What lies above a field does not count. -/
theorem fieldAt_skip {c r lo n : Nat} (h : c % 2 ^ (lo + n) = 0) : fieldAt (c + r) lo n = fieldAt r lo n := by
  obtain ⟨k, rfl⟩ := Nat.dvd_of_mod_eq_zero h
  rw [Nat.pow_add, Nat.mul_assoc]
  refine fieldAt_add ?_ ?_
  · rw [Nat.mul_mod_right, Nat.zero_add]
    exact Nat.mod_lt _ (Nat.two_pow_pos lo)
  · rw [Nat.mul_div_cancel_left _ (Nat.two_pow_pos lo), Nat.mul_mod_right]

/-- The highest field of a sum. -/
theorem fieldAt_head {lo n k r : Nat} {v : BitVec n} (hk : k = 2 ^ lo) (hr : r < 2 ^ lo) : fieldAt (v.toNat * k + r) lo n = v := by
  apply fieldAt_eq
  rw [hk, Nat.mul_comm, Nat.mul_add_div (Nat.two_pow_pos lo), Nat.div_eq_of_lt hr, Nat.add_zero, Nat.mod_eq_of_lt v.isLt]

/-- A field with zeros below it. -/
theorem fieldAt_mul {lo n k : Nat} {v : BitVec n} (hk : k = 2 ^ lo) : fieldAt (v.toNat * k) lo n = v :=
  fieldAt_head (r := 0) hk (Nat.two_pow_pos lo)

/-- The lowest field. -/
theorem fieldAt_toNat {n : Nat} (v : BitVec n) : fieldAt v.toNat 0 n = v := by simp [fieldAt]

theorem bit_lt (b : Bool) : bit b < 2 := by cases b <;> decide

theorem bitAt_eq {w lo : Nat} {b : Bool} (h : w / 2 ^ lo % 2 = bit b) : bitAt w lo = b := by
  unfold bitAt
  rw [h]
  cases b <;> rfl

theorem ElemType.code_lt (t : ElemType) : t.code < 16 := by cases t <;> decide

theorem ElemType.ofCode_eq {n : Nat} {t : ElemType} (h : n % 16 = t.code) : ofCode n = t := by
  unfold ofCode
  rw [h]
  cases t <;> rfl
end Sys2Proof
end

section
/-!
SUPPORT. The words of the rows of J32 and J16 (R77-R82, R124, R126).
-/

namespace Sys2Proof

/-- A guest word has as many bits as its format. -/
theorem encodeGuest_lt {i : Instr} {n w : Nat} (h : encodeGuest i = some (n, w)) : w < 2 ^ n := by
  cases i <;> cases h
  case j32Header rlx =>
    have := bit_lt rlx
    omega
  case j16Brp inv _ =>
    have := bit_lt inv
    omega
  all_goals omega

/-- The major opcode of a J32 word. -/
theorem bitsAt_major {c r : Nat} (hc : c % 2 ^ 26 = 0) (hc' : c < 2 ^ 32) (hr : r < 2 ^ 26) : bitsAt (c + r) 26 6 = c / 2 ^ 26 := by
  rw [bitsAt_add (by omega) (by omega), Nat.mod_eq_of_lt (by omega)]

/-- A row of J32 with a constructor of its own is read back from its word (R77-R80, R124). -/
theorem j32Own_of_encodeGuest {i : Instr} {w : Nat} (h : encodeGuest i = some (32, w)) : j32Own w = some i := by
  cases i <;> cases h
  case j32Header rlx =>
    have := bit_lt rlx
    rw [j32Own, bitAt_eq (lo := 0) (b := rlx) (by omega)]
    simp (disch := omega) only [Nat.add_assoc, bitsAt_major, fieldAt_skip, fieldAt_head, Nat.reducePow, Nat.reduceDiv]
  case j32Ffma | j32Ffma64 =>
    rw [j32Own, bitAt_eq (lo := 3) (b := false) (by simp only [bit, Bool.false_eq_true, if_false]; omega)]
    simp (disch := omega) only [Nat.add_assoc, bitsAt_major, fieldAt_skip, fieldAt_head, fieldAt_toNat,
      Nat.reducePow, Nat.reduceDiv, Bool.false_eq_true, reduceIte]
  case j32ShlI | j32ShrI | j32SarI | j32RotI =>
    simp (disch := omega) only [Nat.add_assoc, j32Own, bitsAt_add, fieldAt_add, fieldAt_head, fieldAt_toNat,
      Nat.reducePow, Nat.reduceDiv, Nat.reduceMod, reduceIte]
  case j32Nop | j32Ret | j32Exit | j32Yield =>
    simp (disch := omega) only [j32Own, bitsAt_add, fieldAt_add, fieldAt_mul, Nat.reducePow, Nat.reduceDiv, Nat.reduceMod]
  case j32Brx g a =>
    have hlow : bitsAt (0x88000004 + g.toNat * 2 ^ 22 + a.toNat * 2 ^ 10) 0 22 = a.toNat * 2 ^ 10 + 4 := by unfold bitsAt; omega
    rw [j32Own, hlow]
    simp (disch := omega) only [Nat.add_assoc, bitsAt_add, fieldAt_add, fieldAt_head, fieldAt_mul,
      Nat.reducePow, Nat.reduceDiv, Nat.reduceMod]
    rfl
  all_goals
    simp (disch := omega) only [Nat.add_assoc, j32Own, bitsAt_major, fieldAt_skip, fieldAt_head, fieldAt_toNat, Nat.reducePow, Nat.reduceDiv]

/-- A row of J16 is read back from its word (R81, R82, R126). -/
theorem readJ16_of_encodeGuest {i : Instr} {w : Nat} (h : encodeGuest i = some (16, w)) : readJ16 w = some i := by
  cases i <;> cases h
  case j16Brp inv ofs =>
    have := bit_lt inv
    rw [readJ16, bitAt_eq (lo := 11) (b := inv) (by omega)]
    simp (disch := omega) only [Nat.add_assoc, bitsAt_add, fieldAt_add, fieldAt_toNat, Nat.reducePow, Nat.reduceDiv, Nat.reduceMod]
  case j16Nop | j16Ret | j16Exit | j16Yield => rfl
  all_goals
    simp (disch := omega) only [Nat.add_assoc, readJ16, j16Misc, j16Sys, bitsAt_add, fieldAt_add, fieldAt_head, fieldAt_mul, fieldAt_toNat,
      Nat.reducePow, Nat.reduceDiv, Nat.reduceMod, reduceIte]

end Sys2Proof
end

section
/-!
PROOF. Decoding the word of an instruction gives the instruction back (O56).
-/

namespace Sys2Proof

/-! ### Fields of a J64 word -/

/-- The format of the fields of an IOP. -/
def Form.format : Form → Format
  | .r _ => .r
  | .i _ => .i
  | .m _ => .m
  | .b _ => .b
  | .a _ => .a
  | .s _ => .s

/-- The fields below A lie in the low half of the word. -/
theorem packLow_lt (f : Form) : packLow f < 2 ^ 32 := by
  cases f with
  | r x =>
    have := bit_lt x.bs; have := bit_lt x.cs; have := bit_lt x.ci; have := bit_lt x.e; have := x.t.code_lt
    simp only [packLow]
    omega
  | i x =>
    have := bit_lt x.e; have := x.t.code_lt
    simp only [packLow]
    omega
  | m x =>
    have := bit_lt x.iv; have := bit_lt x.qb; have := bit_lt x.e; have := x.t.code_lt
    simp only [packLow]
    omega
  | b x =>
    have := bit_lt x.e
    simp only [packLow]
    omega
  | a x =>
    have := bit_lt x.e; have := x.t.code_lt
    simp only [packLow]
    omega
  | s x =>
    have := bit_lt x.e
    simp only [packLow]
    omega

section
variable {opc : Nat} {f : Form} {lo n : Nat}

theorem packTop_mod (opc : Nat) (f : Form) : packTop opc f % 2 ^ 32 = 0 := by
  unfold packTop
  omega

theorem packIop_lt (h : opc < 2 ^ 10) : packIop opc f < 2 ^ 64 := by
  have := packLow_lt f; have := bit_lt f.g.inv; have := bit_lt f.u
  unfold packIop packTop
  omega

theorem bitsAt_packIop (h : opc < 2 ^ 10) : bitsAt (packIop opc f) 54 10 = opc := by
  have := packLow_lt f; have := bit_lt f.g.inv; have := bit_lt f.u
  unfold bitsAt packIop packTop
  omega

theorem unpackG_packIop : unpackG (packIop opc f) = f.g := by
  have := packLow_lt f; have := bit_lt f.g.inv; have := bit_lt f.u
  unfold unpackG packIop packTop
  rw [bitAt_eq (b := f.g.inv) (by omega), fieldAt_eq (v := f.g.pred) (by omega)]

theorem bitAt_u_packIop : bitAt (packIop opc f) 48 = f.u := by
  have := packLow_lt f; have := bit_lt f.u
  unfold packIop packTop
  exact bitAt_eq (by omega)

theorem fieldAt_d_packIop : fieldAt (packIop opc f) 40 8 = f.d := by
  have := packLow_lt f
  unfold packIop packTop
  exact fieldAt_eq (by omega)

theorem fieldAt_a_packIop : fieldAt (packIop opc f) 32 8 = f.fa := by
  have := packLow_lt f
  unfold packIop packTop
  exact fieldAt_eq (by omega)

/-- A number read from the low half of the word depends on the fields below A alone. -/
theorem packIop_div_mod (h : lo + n ≤ 32) : packIop opc f / 2 ^ lo % 2 ^ n = packLow f / 2 ^ lo % 2 ^ n := by
  obtain ⟨k, hk⟩ := Nat.dvd_of_mod_eq_zero (packTop_mod opc f)
  have h32 : (2 : Nat) ^ 32 = 2 ^ lo * (2 ^ n * 2 ^ (32 - (lo + n))) := by rw [← Nat.mul_assoc, ← Nat.pow_add, ← Nat.pow_add]; congr 1; omega
  rw [packIop, hk, h32, Nat.mul_assoc, Nat.mul_add_div (Nat.two_pow_pos lo), Nat.mul_assoc, Nat.mul_add_mod]

theorem fieldAt_packIop {v : BitVec n} (h : lo + n ≤ 32) (hv : packLow f / 2 ^ lo % 2 ^ n = v.toNat) : fieldAt (packIop opc f) lo n = v :=
  fieldAt_eq ((packIop_div_mod h).trans hv)

theorem bitAt_packIop {b : Bool} (h : lo + 1 ≤ 32) (hb : packLow f / 2 ^ lo % 2 = bit b) : bitAt (packIop opc f) lo = b :=
  bitAt_eq ((packIop_div_mod (n := 1) h).trans hb)

theorem ofCode_packIop {t : ElemType} (h : lo + 4 ≤ 32) (ht : packLow f / 2 ^ lo % 2 ^ 4 = t.code) :
    ElemType.ofCode (packIop opc f / 2 ^ lo) = t := ElemType.ofCode_eq ((packIop_div_mod (n := 4) h).trans ht)

end

/-! ### The formats -/

section
variable (opc : Nat)

theorem unpackR_packIop {x : RForm} (h : x.km = 0) : unpackR (packIop opc (.r x)) = x := by
  have := bit_lt x.bs; have := bit_lt x.cs; have := bit_lt x.ci; have := bit_lt x.e; have := x.t.code_lt
  have hlow : packLow (.r x) = x.b.toNat * 2 ^ 24 + x.c.toNat * 2 ^ 16 + x.h.toNat * 2 ^ 14 + x.m.toNat * 2 ^ 11 + x.t.code * 2 ^ 7
      + bit x.bs * 2 ^ 6 + bit x.cs * 2 ^ 5 + bit x.ci * 2 ^ 4 + x.q.toNat * 2 + bit x.e := rfl
  rw [unpackR, unpackG_packIop, bitAt_u_packIop, fieldAt_d_packIop, fieldAt_a_packIop,
    fieldAt_packIop (v := x.b) (by omega) (by omega), fieldAt_packIop (v := x.c) (by omega) (by omega),
    fieldAt_packIop (v := x.h) (by omega) (by omega), fieldAt_packIop (v := x.m) (by omega) (by omega),
    ofCode_packIop (t := x.t) (by omega) (by omega), bitAt_packIop (b := x.bs) (by omega) (by omega),
    bitAt_packIop (b := x.cs) (by omega) (by omega), bitAt_packIop (b := x.ci) (by omega) (by omega),
    fieldAt_packIop (v := x.q) (by omega) (by omega), bitAt_packIop (b := x.e) (by omega) (by omega), ← h]
  rfl

theorem unpackI_packIop {x : IForm} (h : x.km = 0) : unpackI (packIop opc (.i x)) = x := by
  have := bit_lt x.e; have := x.t.code_lt
  have hlow : packLow (.i x) = x.imm.toNat * 2 ^ 8 + x.t.code * 2 ^ 4 + x.q.toNat * 2 + bit x.e := rfl
  rw [unpackI, unpackG_packIop, bitAt_u_packIop, fieldAt_d_packIop, fieldAt_a_packIop,
    fieldAt_packIop (v := x.imm) (by omega) (by omega), ofCode_packIop (t := x.t) (by omega) (by omega),
    fieldAt_packIop (v := x.q) (by omega) (by omega), bitAt_packIop (b := x.e) (by omega) (by omega), ← h]
  rfl

theorem unpackM_packIop {x : MForm} (h : x.km = 0) : unpackM (packIop opc (.m x)) = x := by
  have := bit_lt x.iv; have := bit_lt x.qb; have := bit_lt x.e; have := x.t.code_lt
  have hlow : packLow (.m x) = x.b.toNat * 2 ^ 24 + x.ofs.toNat * 2 ^ 12 + x.sc.toNat * 2 ^ 9 + x.qa.toNat * 2 ^ 7 + x.t.code * 2 ^ 3
      + bit x.iv * 2 ^ 2 + bit x.qb * 2 + bit x.e := rfl
  rw [unpackM, unpackG_packIop, bitAt_u_packIop, fieldAt_d_packIop, fieldAt_a_packIop,
    fieldAt_packIop (v := x.b) (by omega) (by omega), fieldAt_packIop (v := x.ofs) (by omega) (by omega),
    fieldAt_packIop (v := x.sc) (by omega) (by omega), fieldAt_packIop (v := x.qa) (by omega) (by omega),
    ofCode_packIop (t := x.t) (by omega) (by omega), bitAt_packIop (b := x.iv) (by omega) (by omega),
    bitAt_packIop (b := x.qb) (by omega) (by omega), bitAt_packIop (b := x.e) (by omega) (by omega), ← h]
  rfl

theorem unpackB_packIop {x : BForm} (h : x.km = 0) : unpackB (packIop opc (.b x)) = x := by
  have := bit_lt x.e
  have hlow : packLow (.b x) = x.ofs.toNat * 2 ^ 8 + x.q.toNat * 2 + bit x.e := rfl
  rw [unpackB, unpackG_packIop, bitAt_u_packIop, fieldAt_d_packIop, fieldAt_a_packIop,
    fieldAt_packIop (v := x.ofs) (by omega) (by omega), fieldAt_packIop (v := x.q) (by omega) (by omega),
    bitAt_packIop (b := x.e) (by omega) (by omega), ← h]
  rfl

theorem unpackA_packIop {x : AForm} (h : x.km = 0) : unpackA (packIop opc (.a x)) = x := by
  have := bit_lt x.e; have := x.t.code_lt
  have hlow : packLow (.a x) = x.b.toNat * 2 ^ 24 + x.c.toNat * 2 ^ 16 + x.sfs.toNat * 2 ^ 14 + x.m.toNat * 2 ^ 11 + x.t.code * 2 ^ 7
      + x.q.toNat * 2 + bit x.e := rfl
  rw [unpackA, unpackG_packIop, bitAt_u_packIop, fieldAt_d_packIop, fieldAt_a_packIop,
    fieldAt_packIop (v := x.b) (by omega) (by omega), fieldAt_packIop (v := x.c) (by omega) (by omega),
    fieldAt_packIop (v := x.sfs) (by omega) (by omega), fieldAt_packIop (v := x.m) (by omega) (by omega),
    ofCode_packIop (t := x.t) (by omega) (by omega), fieldAt_packIop (v := x.q) (by omega) (by omega),
    bitAt_packIop (b := x.e) (by omega) (by omega), ← h]
  rfl

theorem unpackS_packIop {x : SForm} (h : x.km = 0) : unpackS (packIop opc (.s x)) = x := by
  have := bit_lt x.e
  have hlow : packLow (.s x) = x.sel.toNat * 2 ^ 16 + bit x.e := rfl
  rw [unpackS, unpackG_packIop, bitAt_u_packIop, fieldAt_d_packIop, fieldAt_a_packIop,
    fieldAt_packIop (v := x.sel) (by omega) (by omega), bitAt_packIop (b := x.e) (by omega) (by omega), ← h]
  rfl

theorem sPadOk_packIop (x : SForm) : sPadOk (packIop opc (.s x)) = true := by
  have := bit_lt x.e
  have hlow : packLow (.s x) = x.sel.toNat * 2 ^ 16 + bit x.e := rfl
  rw [sPadOk, bitsAt, packIop_div_mod (by omega), beq_iff_eq]
  omega

end

/-- The fields stand in their places in the word. -/
def Form.StandsIn (w : Nat) : Form → Prop
  | .r x => unpackR w = x
  | .i x => unpackI w = x
  | .m x => unpackM w = x
  | .b x => unpackB w = x
  | .a x => unpackA w = x
  | .s x => unpackS w = x ∧ sPadOk w = true

/-- Opcode and fields that stand in a word are read from it. -/
theorem readIop_of_standsIn {w opc : Nat} {f : Form} (ho : bitsAt w 54 10 = opc) (hf : formatOf opc = some f.format) (hw : f.StandsIn w) :
    readIop w = some (opc, f) := by
  cases f with
  | r x => simp only [readIop, ho, hf, Form.format, show unpackR w = x from hw]
  | i x => simp only [readIop, ho, hf, Form.format, show unpackI w = x from hw]
  | m x => simp only [readIop, ho, hf, Form.format, show unpackM w = x from hw]
  | b x => simp only [readIop, ho, hf, Form.format, show unpackB w = x from hw]
  | a x => simp only [readIop, ho, hf, Form.format, show unpackA w = x from hw]
  | s x =>
    obtain ⟨hx, hpad⟩ := hw
    simp only [readIop, ho, hf, Form.format, hx, hpad, if_true]

theorem standsIn_packIop (opc : Nat) {f : Form} (h : f.km = 0) : f.StandsIn (packIop opc f) := by
  cases f with
  | r x => exact unpackR_packIop opc h
  | i x => exact unpackI_packIop opc h
  | m x => exact unpackM_packIop opc h
  | b x => exact unpackB_packIop opc h
  | a x => exact unpackA_packIop opc h
  | s x => exact ⟨unpackS_packIop opc h, sPadOk_packIop opc x⟩
/-! ### The opcode table -/

section
variable {i : Instr} {opc : Nat} {f : Form}

/-- The table makes the instruction again from its opcode and fields. -/
theorem ofParts_of_parts (h : i.parts = some (opc, f)) : ofParts opc f = some i := by
  cases i <;> cases h <;> rfl

/-- The opcode of an instruction has ten bits and the format of its fields (R71-R76). -/
theorem formatOf_of_parts (h : i.parts = some (opc, f)) : opc < 2 ^ 10 ∧ formatOf opc = some f.format := by
  cases i <;> cases h <;> exact ⟨by decide, rfl⟩

/-- A well-formed IOP is legal as a J64 word. -/
theorem partsOk_of_wf (h : i.parts = some (opc, f)) (hw : i.wf = true) : partsOk opc f = true := by
  cases i <;> cases h <;> exact hw

end

/-! ### Decoding after encoding -/

theorem readJ64_packIop {opc : Nat} {f : Form} (ho : opc < 2 ^ 10) (hf : formatOf opc = some f.format) (hok : partsOk opc f = true) :
    readJ64 (packIop opc f) = some (opc, f) := by
  have hk : f.km = 0 := by
    simp only [partsOk, Bool.and_eq_true, beq_iff_eq] at hok
    exact hok.1.2
  rw [readJ64, readIop_of_standsIn (bitsAt_packIop ho) hf (standsIn_packIop opc hk)]
  exact if_pos hok

theorem decodeJ64_packIop {i : Instr} {opc : Nat} {f : Form} (h : i.parts = some (opc, f)) (hw : i.wf = true) :
    decodeJ64 (packIop opc f) = some i := by
  obtain ⟨ho, hf⟩ := formatOf_of_parts h
  rw [decodeJ64, readJ64_packIop ho hf (partsOk_of_wf h hw), Option.bind_some, ofParts_of_parts h]

theorem encodeGuest_bits {i : Instr} {n w : Nat} (h : encodeGuest i = some (n, w)) : n = 32 ∨ n = 16 := by
  cases i <;> cases h <;> decide

/-- The word of a well-formed instruction fits its format, and the decoder reads the instruction from it. -/
theorem decodeTableWord_of_encode {i : Instr} {n w : Nat} (hw : i.wf = true) (h : encode i = some (n, w)) :
    w < 2 ^ n ∧ decodeTableWord n w = some i := by
  unfold encode at h
  split at h
  · rename_i opc f hp
    cases h
    exact ⟨packIop_lt (formatOf_of_parts hp).1, decodeJ64_packIop hp hw⟩
  · refine ⟨encodeGuest_lt h, ?_⟩
    rcases encodeGuest_bits h with rfl | rfl
    · show decodeJ32 w = some i
      simp only [decodeJ32, j32Own_of_encodeGuest h, hw, if_true]
    · show decodeJ16 w = some i
      simp only [decodeJ16, readJ16_of_encodeGuest h, hw, if_true]

/-- Settles O56: every field of a word is read back as it was put in, so a word of the table belongs to one instruction. -/
theorem encodeThenDecode : Obligations.EncodeThenDecode := by
  unfold Obligations.EncodeThenDecode
  refine ⟨fun i n w => decodeTableWord_of_encode, fun i opc f h => ?_, fun i j p hi hj hpi hpj => ?_⟩
  · exact ⟨packIop opc f, by rw [encode, h]⟩
  · obtain ⟨n, w⟩ := p
    obtain ⟨-, hdi⟩ := decodeTableWord_of_encode hi hpi
    obtain ⟨-, hdj⟩ := decodeTableWord_of_encode hj hpj
    exact Option.some.inj (hdi.symm.trans hdj)

end Sys2Proof
end

section
/-!
PROOF. The opcodes that allow U = 1 (O52).
-/

namespace Sys2Proof

/-- The opcodes on which U = 1 is legal (R74). -/
def ScalarOpcode (opc : Nat) : Prop :=
  (0x040 ≤ opc ∧ opc ≤ 0x061) ∨ (0x0C0 ≤ opc ∧ opc ≤ 0x0D3) ∨ (0x0DA ≤ opc ∧ opc ≤ 0x0DD) ∨ (0x00E ≤ opc ∧ opc ≤ 0x015)

/-- If there is a shape that allows U = 1, then `p`. -/
def ScalarOnlyIf (p : Prop) (o : Option Shape) : Prop := ∀ sh, o = some sh → sh.uok = true → p

section
variable {p q : Prop} [Decidable q] {b : Bool} {sh sh' : Shape} {x : RForm} {o : Opd} {imm : Bool}

/-- Source B leaves it open whether U = 1 is legal. -/
theorem srcB_uok (h : sh.srcB x o imm = some sh') : sh'.uok = sh.uok := by
  unfold Shape.srcB at h
  split at h
  · split at h <;> cases h
    rfl
  · split at h <;> cases h <;> rfl

/-- Source C leaves it open whether U = 1 is legal. -/
theorem srcC_uok (h : sh.srcC x o imm = some sh') : sh'.uok = sh.uok := by
  unfold Shape.srcC at h
  split at h
  · split at h <;> cases h
    rfl
  · split at h <;> cases h <;> rfl

@[simp] theorem scalarOnlyIf_none : ScalarOnlyIf p none := fun _ h => nomatch h

@[simp] theorem scalarOnlyIf_some : ScalarOnlyIf p (some sh) ↔ (sh.uok = true → p) :=
  ⟨fun h => h sh rfl, fun h _ e => Option.some.inj e ▸ h⟩

@[simp] theorem scalarOnlyIf_ite {a c : Option Shape} :
    ScalarOnlyIf p (if q then a else c) ↔ (q → ScalarOnlyIf p a) ∧ (¬q → ScalarOnlyIf p c) := by
  by_cases h : q <;> simp [h]

@[simp] theorem scalarOnlyIf_when : ScalarOnlyIf p (Shape.when b sh) ↔ (b = true → sh.uok = true → p) := by
  cases b <;> simp [Shape.when]

@[simp] theorem scalarOnlyIf_srcB (h : sh.uok = true → p) : ScalarOnlyIf p (sh.srcB x o imm) := fun _ e hu => h (srcB_uok e ▸ hu)

@[simp] theorem scalarOnlyIf_srcC (h : sh.uok = true → p) : ScalarOnlyIf p (sh.srcC x o imm) := fun _ e hu => h (srcC_uok e ▸ hu)

/-- Source C of a shape that source B has given. -/
theorem scalarOnlyIf_bind_srcC {r : Option Shape} (h : ScalarOnlyIf p r) : ScalarOnlyIf p (r.bind (·.srcC x o imm)) := by
  cases r with
  | none => exact scalarOnlyIf_none
  | some sh => exact scalarOnlyIf_srcC (h sh rfl)

end

section
variable (opc : Nat)

theorem scalar_shapeCtl (x : RForm) : ScalarOnlyIf (ScalarOpcode opc) (shapeCtl opc x) := by
  unfold shapeCtl
  simp only
  split <;> simp [ScalarOpcode]

theorem scalar_shapeInt (h : 0x040 ≤ opc) (x : RForm) : ScalarOnlyIf (ScalarOpcode opc) (shapeInt opc x) := by
  have hu : opc < 0x062 → ScalarOpcode opc := fun hlt => .inl ⟨h, by omega⟩
  unfold shapeInt
  simp only
  split <;> simp_all [scalarOnlyIf_bind_srcC]

theorem scalar_shapeFlt (x : RForm) : ScalarOnlyIf (ScalarOpcode opc) (shapeFlt opc x) := by
  unfold shapeFlt
  simp only
  split <;> simp [ScalarOpcode, shapeQuant, scalarOnlyIf_bind_srcC]

theorem not_scalar_shapeMat (x : RForm) : ScalarOnlyIf False (shapeMat opc x) := by
  unfold shapeMat
  simp only
  split <;> simp

theorem not_scalar_shapeOrd (x : RForm) : ScalarOnlyIf False (shapeOrd opc x) := by
  unfold shapeOrd
  simp only
  split <;> simp

theorem not_scalar_shapeCtx (x : RForm) : ScalarOnlyIf False (shapeCtx opc x) := by
  unfold shapeCtx
  simp only
  split <;> simp

theorem not_scalar_shapeWork (x : RForm) : ScalarOnlyIf False (shapeWork opc x) := by
  unfold shapeWork
  simp only
  split <;> simp

theorem not_scalar_shapeSys (x : RForm) : ScalarOnlyIf False (shapeSys opc x) := by
  unfold shapeSys
  simp only
  split <;> simp [apply_ite Shape.uok]

theorem not_scalar_shapeM (x : MForm) : ScalarOnlyIf False (shapeM opc x) := by
  unfold shapeM
  simp only
  split <;> simp

theorem not_scalar_shapeB (x : BForm) : ScalarOnlyIf False (shapeB opc x) := by
  unfold shapeB
  simp only
  split <;> simp

theorem not_scalar_shapeA (x : AForm) : ScalarOnlyIf False (shapeA opc x) := by
  unfold shapeA
  simp only
  split <;> simp

theorem not_scalar_shapeS (x : SForm) : ScalarOnlyIf False (shapeS opc x) := by
  unfold shapeS
  simp only
  split <;> simp

/-- Where a shape allows U = 1, its opcode is listed. -/
theorem scalar_shapeR (x : RForm) : ScalarOnlyIf (ScalarOpcode opc) (shapeR opc x) := by
  have himp {o : Option Shape} (h : ScalarOnlyIf False o) : ScalarOnlyIf (ScalarOpcode opc) o := fun sh e hu => (h sh e hu).elim
  simp only [shapeR, scalarOnlyIf_ite]
  exact ⟨fun _ => scalar_shapeCtl opc x, fun h => ⟨fun _ => scalar_shapeInt opc (Nat.not_lt.1 h) x, fun _ => ⟨fun _ => scalar_shapeFlt opc x,
    fun _ => ⟨fun _ => himp (not_scalar_shapeMat opc x), fun _ => ⟨fun _ => himp (not_scalar_shapeOrd opc x),
    fun _ => ⟨fun _ => himp (not_scalar_shapeCtx opc x), fun _ => ⟨fun _ => himp (not_scalar_shapeWork opc x),
    fun _ => himp (not_scalar_shapeSys opc x)⟩⟩⟩⟩⟩⟩⟩

theorem scalar_shapeI (x : IForm) : ScalarOnlyIf (ScalarOpcode opc) (shapeI opc x) := by
  simp +contextual [shapeI, ScalarOpcode]

theorem scalar_shape (f : Form) : ScalarOnlyIf (ScalarOpcode opc) (shape opc f) := by
  cases f with
  | r x => exact scalar_shapeR opc x
  | i x => exact scalar_shapeI opc x
  | m x => exact fun sh e hu => (not_scalar_shapeM opc x sh e hu).elim
  | b x => exact fun sh e hu => (not_scalar_shapeB opc x sh e hu).elim
  | a x => exact fun sh e hu => (not_scalar_shapeA opc x sh e hu).elim
  | s x => exact fun sh e hu => (not_scalar_shapeS opc x sh e hu).elim

end

/-- A legal form has a shape, which allows its U bit. -/
theorem shape_of_legal {opc : Nat} {f : Form} (h : legal opc f = true) : ∃ sh, shape opc f = some sh ∧ (f.u = true → sh.uok = true) := by
  unfold legal at h
  split at h
  · cases h
  · rename_i sh heq
    refine ⟨sh, heq, fun hu => ?_⟩
    simp only [hu, Bool.not_true, Bool.false_or, Bool.and_eq_true] at h
    exact h.1.1.1.1.1

/-- A legal form with U = 1 of each listed opcode. -/
def scalarForm (opc : Nat) : Form :=
  match opc with
  | 0x060 => .i { u := true, t := .z64 }
  | 0x012 => .r { u := true, ci := true }
  | 0x04C => .r { u := true, t := .z32 }
  | 0x04D => .r { u := true, t := .s32 }
  | 0x053 => .r { u := true, t := .z64, ci := true }
  | 0x0DB => .r { u := true, t := .f32, c := BitVec.ofNat 8 ElemType.s32.code }
  | 0x0DC => .r { u := true, t := .f32, c := BitVec.ofNat 8 ElemType.f16.code }
  | 0x0DD => .r { u := true, t := .f16, c := BitVec.ofNat 8 ElemType.f32.code }
  | _ => .r { u := true, t := if opc < 0x040 then .f64 else if opc < 0x0C0 then .z64 else .f32 }

/-- The listed opcodes in order. -/
def scalarOpcodes : List Nat := List.range' 0x00E 8 ++ List.range' 0x040 34 ++ List.range' 0x0C0 20 ++ List.range' 0x0DA 4

theorem mem_scalarOpcodes {opc : Nat} (h : ScalarOpcode opc) : opc ∈ scalarOpcodes := by
  unfold ScalarOpcode at h
  simp only [scalarOpcodes, List.mem_append, List.mem_range'_1]
  omega

theorem scalarForm_legal : ∀ opc ∈ scalarOpcodes, (scalarForm opc).u = true ∧ legal opc (scalarForm opc) = true := by decide

/-- Settles O52: a shape allows U = 1 only at a listed opcode, and `scalarForm` is legal at each of them. -/
theorem scalarBitOnlyWhereListed : Obligations.ScalarBitOnlyWhereListed := by
  unfold Obligations.ScalarBitOnlyWhereListed
  refine ⟨fun opc f hl hu => ?_, fun opc h => ⟨scalarForm opc, scalarForm_legal opc (mem_scalarOpcodes h)⟩⟩
  obtain ⟨sh, hsh, hok⟩ := shape_of_legal hl
  exact scalar_shape opc f sh hsh (hok hu)

end Sys2Proof
end

section
/-!
SUPPORT. Lane masks given lane by lane.
-/

namespace Sys2Proof.Machine

/-- A lane of a mask, for the lanes there are. -/
theorem getLsbD_maskOf (f : Nat → Bool) {l : Nat} (h : l < 32) : (maskOf f).getLsbD l = f l := by
  have hfold (n : Nat) :
      ((List.range n).foldl (fun m i => if f i then m ||| (1#32 <<< i) else m) 0#32).getLsbD l = (decide (l < n) && f l) := by
    induction n with
    | zero => simp
    | succ n ih =>
      have hstep (m : BitVec 32) : (if f n then m ||| (1#32 <<< n) else m).getLsbD l = (m.getLsbD l || (decide (l = n) && f n)) := by
        have hbit : (1#32 <<< n).getLsbD l = decide (l = n) := by
          rw [BitVec.getLsbD_shiftLeft, decide_eq_true h, Bool.true_and, BitVec.getLsbD_one, Bool.eq_iff_iff]
          simp
          omega
        cases hf : f n <;> simp [hbit]
      rw [List.range_succ, List.foldl_append, List.foldl_cons, List.foldl_nil, hstep, ih, Bool.eq_iff_iff]
      simp only [Bool.or_eq_true, Bool.and_eq_true, decide_eq_true_eq]
      constructor
      · rintro (⟨hl, hf⟩ | ⟨rfl, hf⟩)
        · exact ⟨by omega, hf⟩
        · exact ⟨by omega, hf⟩
      · rintro ⟨hl, hf⟩
        rcases Nat.lt_succ_iff_lt_or_eq.1 hl with hl | rfl
        · exact .inl ⟨hl, hf⟩
        · exact .inr ⟨rfl, hf⟩
  simpa [maskOf, h] using hfold 32

@[simp] theorem getElem_maskOf (f : Nat → Bool) {l : Nat} (h : l < 32) : (maskOf f)[l] = f l := getLsbD_maskOf f h

/-- A mask is told by its lanes. -/
theorem eq_maskOf {m : BitVec 32} {f : Nat → Bool} (h : ∀ l < 32, m.getLsbD l = f l) : m = maskOf f :=
  BitVec.eq_of_getLsbD_eq fun l hl => (h l hl).trans (getLsbD_maskOf f hl).symm

section
variable (f g : Nat → Bool)

@[simp] theorem maskOf_and : maskOf f &&& maskOf g = maskOf fun l => f l && g l :=
  eq_maskOf fun l hl => by simp [hl]

@[simp] theorem maskOf_or : maskOf f ||| maskOf g = maskOf fun l => f l || g l :=
  eq_maskOf fun l hl => by simp [hl]

@[simp] theorem maskOf_xor : maskOf f ^^^ maskOf g = maskOf fun l => f l != g l :=
  eq_maskOf fun l hl => by simp [hl]

@[simp] theorem maskOf_not : ~~~ maskOf f = maskOf fun l => !f l :=
  eq_maskOf fun l hl => by simp [hl]

@[simp] theorem invertIf_maskOf (b : Bool) : invertIf b (maskOf f) = maskOf fun l => Bool.xor b (f l) := by
  cases b <;> simp [invertIf]

end

end Sys2Proof.Machine
end

section
/-!
PROOF. The predicate instructions (O7).
-/

namespace Sys2Proof.Machine

/-- Predicate n in a lane; p15 holds in every lane (R66). -/
def Ctx.predBit (c : Ctx) (n : BitVec 8) (l : Nat) : Bool := n == 15 || (c.warp.regs.p.get 0 n.toNat).getLsbD l

theorem pred_eq_maskOf (c : Ctx) (n : BitVec 8) : c.warp.regs.pred n.toNat = maskOf (c.predBit n) := by
  refine eq_maskOf fun l hl => ?_
  by_cases hn : n = 15
  · subst hn
    rw [show (c.warp.regs.pred (15 : BitVec 8).toNat) = BitVec.allOnes 32 from rfl, BitVec.getLsbD_allOnes, decide_eq_true hl]
    rfl
  · have hn' : n.toNat ≠ 15 := fun h => hn (BitVec.eq_of_toNat_eq h)
    rw [Regs.pred, if_neg hn', Ctx.predBit, beq_false_of_ne hn, Bool.false_or]

theorem getLsbD_pred (c : Ctx) (n : BitVec 8) {l : Nat} (hl : l < 32) : (c.warp.regs.pred n.toNat).getLsbD l = c.predBit n l := by
  rw [pred_eq_maskOf, getLsbD_maskOf _ hl]

/-- The bits written to predicate D: in the active lanes, or in all lanes with U = 1 and the guard true in the lowest lane (R165, R166). -/
def bitsTo (value : Ctx → Nat → Bool) (c : Ctx) (s : State) : State :=
  if c.f.u then (if c.guard0 then writePred s c c.f.d.toNat 0xFFFFFFFF (maskOf (value c)) else s)
  else writePred s c c.f.d.toNat c.act (maskOf (value c))

theorem predOp_maskOf (value : Ctx → Nat → Bool) (c : Ctx) (s : State) : predOp c s (maskOf (value c)) = .done (bitsTo value c s) := by
  unfold predOp bitsTo
  split
  · split <;> rfl
  · rfl

/-- A predicate operation completes with the bits that it gives every lane. -/
theorem completes_predOp {opc : Nat} {f : Form} {body : Ctx → State → Res} {when_ : Ctx → State → Prop} {value : Ctx → Nat → Bool}
    (h : ∀ c s t, when_ c s → body c t = predOp c t (maskOf (value c))) : Completes (runIop opc f body) opc f when_ (bitsTo value) :=
  completes_of_body fun s c _ hw => (h c s _ hw).trans (predOp_maskOf value c _)

/-- PAND, POR and PXOR, by what they make of their sources. -/
theorem completes_predLogic {opc : Nat} {f : Form} {op : BitVec 32 → BitVec 32 → BitVec 32} {g : Bool → Bool → Bool}
    (hop : ∀ a b, op (maskOf a) (maskOf b) = maskOf fun l => g (a l) (b l)) :
    Completes (runIop opc f (predLogic op)) opc f always
      (bitsTo fun c l => g (Bool.xor (c.q.testBit 0) (c.predBit c.f.fa l)) (Bool.xor (c.q.testBit 1) (c.predBit c.f.fb l))) := by
  refine completes_predOp fun c s t _ => ?_
  have h0 : (c.q % 2 == 1) = c.q.testBit 0 := by rw [Nat.testBit_zero]; rfl
  have h1 : (c.q / 2 % 2 == 1) = c.q.testBit 1 := by rw [Nat.testBit_succ, Nat.testBit_zero]; rfl
  rw [predLogic, Ctx.pA, Ctx.pB, pred_eq_maskOf, pred_eq_maskOf, invertIf_maskOf, invertIf_maskOf, hop, h0, h1]

theorem plop3Body_eq (c : Ctx) (s : State) :
    plop3Body c s = predOp c s (maskOf fun l =>
      c.f.fc.getLsbD (4 * bit (c.predBit c.f.fa l) + 2 * bit (c.predBit c.f.fb l) + bit (c.predBit c.f.d l))) := by
  unfold plop3Body
  congr 1
  refine eq_maskOf fun l hl => ?_
  rw [getLsbD_maskOf _ hl, lutBit, Ctx.pA, Ctx.pB, Ctx.pD, getLsbD_pred c _ hl, getLsbD_pred c _ hl, getLsbD_pred c _ hl]

theorem psetBody_eq (c : Ctx) (s : State) :
    psetBody c s = predOp c s (maskOf fun l => if c.q = 1 then decide (c.srcA l = 0) else decide (c.srcA l ≠ 0)) := by
  unfold psetBody
  congr 2
  funext l
  rw [Bool.eq_iff_iff]
  by_cases hq : c.q = 1 <;> simp [hq]

theorem pselBody_eq (c : Ctx) (s : State) :
    pselBody c s = predOp c s (maskOf fun l => if c.predBit c.f.fc l then c.predBit c.f.fa l else c.predBit c.f.fb l) := by
  unfold pselBody
  rw [Ctx.pA, Ctx.pB, Ctx.pC, pred_eq_maskOf, pred_eq_maskOf, pred_eq_maskOf, maskOf_not, maskOf_and, maskOf_and, maskOf_or]
  congr 2
  funext l
  cases c.predBit c.f.fc l <;> simp

/-- PMASK with Q = 1 moves a uniform to predicate D. -/
theorem pmaskBody_toPred {c : Ctx} (hq : c.q = 1) (s : State) :
    pmaskBody c s = predOp c s (maskOf fun l => decide (l < 32) && c.uA.getLsbD l) := by
  unfold pmaskBody
  rw [if_pos hq]
  congr 1
  exact eq_maskOf fun l hl => by simp [hl]

/-- PMASK with Q = 0 moves predicate A to uniform D. -/
theorem pmaskBody_toUniform {c : Ctx} (hq : c.q ≠ 1) (s : State) :
    pmaskBody c s = .done (if c.guard0 then
      writeUD s c (BitVec.ofNat 64 (maskOf fun l => c.predBit c.f.fa l && (c.f.u || c.path.lmask.getLsbD l)).toNat) else s) := by
  have hmask : (if c.f.u then c.pA else c.pA &&& c.path.lmask)
      = maskOf fun l => c.predBit c.f.fa l && (c.f.u || c.path.lmask.getLsbD l) := by
    refine eq_maskOf fun l hl => ?_
    rw [Ctx.pA]
    cases c.f.u <;> simp [getLsbD_pred c _ hl]
  rw [pmaskBody, if_neg hq, oncePerPath, hmask, BitVec.ofNat_toNat]
  split <;> rfl

/-! ### PCOMB -/

/-- The active lanes in which predicate A holds. -/
theorem pA_and_act (c : Ctx) : c.pA &&& c.act = maskOf fun l => c.act.getLsbD l && c.predBit c.f.fa l :=
  eq_maskOf fun l hl => by rw [Ctx.pA, BitVec.getLsbD_and, getLsbD_pred c _ hl, Bool.and_comm]

/-- The lanes of a mask that satisfy a test. -/
theorem filter_lanesOf (m : BitVec 32) (f : Nat → Bool) : (lanesOf m).filter f = lanesOf (maskOf fun l => m.getLsbD l && f l) := by
  rw [lanesOf, lanesOf, List.filter_filter]
  refine List.filter_congr fun l hl => ?_
  rw [getLsbD_maskOf _ (List.mem_range.1 hl), Bool.and_comm]

theorem lanesOf_inj {m n : BitVec 32} (h : lanesOf m = lanesOf n) : m = n := by
  refine BitVec.eq_of_getLsbD_eq fun l hl => ?_
  have hm : l ∈ lanesOf m ↔ l ∈ lanesOf n := by rw [h]
  simpa [lanesOf, hl] using hm

theorem lanesOf_eq_nil {m : BitVec 32} : lanesOf m = [] ↔ m = 0 :=
  ⟨fun h => lanesOf_inj (h.trans (by decide)), fun h => by rw [h]; decide⟩

/-- What PCOMB finds of predicate A in the active lanes: any, all, or uniform. -/
def Ctx.vote (c : Ctx) : Bool :=
  let held := (lanesOf c.act).filter (c.predBit c.f.fa)
  if c.q = 0 then decide (held ≠ []) else if c.q = 1 then decide (held = lanesOf c.act)
  else decide (held = lanesOf c.act) || decide (held = [])

theorem pcombBody_vote {c : Ctx} (hq : c.q ≠ 3) (s : State) :
    pcombBody c s = .done (if c.act = 0 then s else writePred s c c.f.d.toNat c.act (if c.vote then 0xFFFFFFFF else 0)) := by
  have hheld : (lanesOf c.act).filter (c.predBit c.f.fa) = lanesOf (c.pA &&& c.act) := by rw [filter_lanesOf, pA_and_act]
  have hnone : lanesOf (c.pA &&& c.act) = [] ↔ c.pA &&& c.act = 0 := lanesOf_eq_nil
  have hall : lanesOf (c.pA &&& c.act) = lanesOf c.act ↔ c.pA &&& c.act = c.act := ⟨lanesOf_inj, fun h => by rw [h]⟩
  have hvote : c.vote = if c.q = 0 then c.pA &&& c.act != 0 else if c.q = 1 then c.pA &&& c.act == c.act
      else (c.pA &&& c.act == c.act) || !(c.pA &&& c.act != 0) := by
    simp only [Ctx.vote, hheld, ne_eq, hnone, hall]
    split
    · rw [Bool.eq_iff_iff]; simp
    · split <;> · rw [Bool.eq_iff_iff]; simp
  rw [pcombBody, hvote]
  split
  · rfl
  · rfl

theorem pcombBody_ballot {c : Ctx} (hq : c.q = 3) (s : State) :
    pcombBody c s = .done (if c.act = 0 then s
      else writeUD s c (BitVec.ofNat 64 (maskOf fun l => c.act.getLsbD l && c.predBit c.f.fa l).toNat)) := by
  rw [pcombBody, ← pA_and_act, BitVec.ofNat_toNat]
  split
  · rfl
  · rfl

/-- Settles O7: the body of each operation gives every lane the bit that the manual states. -/
theorem predicateLogic : Obligations.PredicateLogic := by
  unfold Obligations.PredicateLogic
  refine ⟨fun x => completes_predLogic maskOf_and, fun x => completes_predLogic maskOf_or, fun x => completes_predLogic maskOf_xor,
    fun x => ?pnot, fun x => completes_predOp fun c _ t _ => plop3Body_eq c t, fun x => completes_predOp fun c _ t _ => psetBody_eq c t,
    fun x => completes_predOp fun c _ t _ => pselBody_eq c t, fun x => completes_predOp fun c _ t hq => pmaskBody_toPred hq t,
    fun x => completes_of_body fun s c _ hq => pmaskBody_toUniform hq _, fun x => completes_of_body fun s c _ hq => pcombBody_ballot hq _,
    fun x => completes_of_body fun s c _ hq => pcombBody_vote hq _⟩
  case pnot =>
    refine completes_predOp (body := fun c s => predOp c s (~~~c.pA)) (value := fun c l => !c.predBit c.f.fa l) fun c _ t _ => ?_
    rw [Ctx.pA, pred_eq_maskOf, maskOf_not]

end Sys2Proof.Machine
end

section
/-!
PROOF. The branches (O11).
-/

namespace Sys2Proof.Machine

/-! ### Goals of lanes -/

namespace Ctx

variable (c : Ctx)

/-- The fall-through: the address after the instruction, with the window, ITER and depth of the path (R142). -/
def fallThrough : Goal :=
  { pc := c.path.pc + BitVec.ofNat 57 c.cur.len, wbase := c.path.wbase, wtop := c.path.wtop, iter := c.path.iter, depth := c.path.depth }

/-- A target: at or below the instruction it adds 1 to ITER (R140). -/
def aimed (pc : BitVec 57) (hi : BitVec 7) : Goal :=
  { c.fallThrough with pc := pc, pcHi := hi, iter := if hi = 0 ∧ pc.toNat ≤ c.path.pc.toNat then c.path.iter + 1 else c.path.iter }

/-- The instruction's address plus twice the signed offset (R61). -/
def offset : BitVec 57 := match c.f with | .b x => c.path.pc + x.ofs.signExtend 57 + x.ofs.signExtend 57 | _ => c.path.pc

/-- The fall-through of a lane that parks (R157, R158). -/
def parked : Goal := { c.fallThrough with iter := 0, park := true }

theorem stay_eq : c.stay = c.fallThrough := by
  rw [stay, fallThrough, fallPc, addPc, BitVec.ofInt_natCast]

theorem branch_eq (pc : BitVec 57) (hi : BitVec 7) : c.branch pc hi = c.aimed pc hi := by
  rw [branch, aimed, stay_eq]
  congr 1
  simp only [Bool.and_eq_true, decide_eq_true_eq, beq_iff_eq, and_comm]

theorem target_eq : c.target = c.offset := by
  unfold target offset
  cases c.f with
  | b x => exact (congrArg (c.path.pc + ·) BitVec.two_mul).trans (BitVec.add_assoc ..).symm
  | r | i | m | a | s => rfl

end Ctx

/-- The lanes whose guard is true move to their goals, and the others to one (R136). -/
def moveLanes (goal : Ctx → Nat → Goal) (stay : Ctx → Goal) (c : Ctx) (s : State) : State :=
  splitPath c s fun l => if c.act.getLsbD l then (goal c l, true) else (stay c, false)

/-- The goal at the offset of the instruction. -/
def Ctx.aimedOffset (c : Ctx) (_ : Nat) : Goal := c.aimed c.offset 0

/-- The goal of a lane at its pair or at uniform A (R159). -/
def Ctx.aimedA (c : Ctx) (l : Nat) : Goal := c.aimed ((c.srcA l).truncate 57) ((c.srcA l).extractLsb' 57 7)

/-! ### Transfers -/

section
variable {opc : Nat} {f : Form} {body : Ctx → State → Res} {goal : Ctx → Nat → Goal} {c : Ctx}

/-- A transfer of the lanes whose guard is true moves them, if there are any. -/
theorem transfers_transfer (hb : ∀ c s, body c s = transfer c s c.act (goal c) c.stay) :
    Transfers (runIop opc f body) opc f (fun c _ => c.act ≠ 0) (moveLanes goal Ctx.fallThrough) := by
  refine transfers_of_body fun s c _ hact => ?_
  rw [hb, transfer, if_neg hact, c.stay_eq]
  rfl

/-- With no lane whose guard is true a transfer has no effect. -/
theorem completes_transfer (hb : ∀ c s, body c s = transfer c s c.act (goal c) c.stay) :
    Completes (runIop opc f body) opc f (fun c _ => c.act = 0) fun _ s => s := by
  refine completes_of_body fun s c _ hact => ?_
  rw [hb, transfer, if_pos hact]

theorem braBody_eq (c : Ctx) (s : State) : braBody c s = transfer c s c.act c.aimedOffset c.stay := by
  rw [braBody, c.branch_eq, c.target_eq]
  rfl

theorem brxBody_eq (c : Ctx) (s : State) : brxBody c s = transfer c s c.act c.aimedA c.stay := by
  simp only [brxBody, c.branch_eq]
  rfl

theorem joinBody_eq (c : Ctx) (s : State) : joinBody c s = transfer c s c.act (fun _ => { c.parked with pc := c.offset }) c.stay := by
  rw [joinBody, c.target_eq, c.stay_eq]
  rfl

theorem loopBody_eq (c : Ctx) (s : State) : loopBody c s = .moved (moveLanes Ctx.aimedOffset Ctx.parked c s) := by
  rw [loopBody, c.branch_eq, c.target_eq, c.stay_eq]
  rfl

/-! ### BRAU -/

/-- Some lane, or under Q = 1 every lane of the path, passes the guard (R156). -/
def Ctx.passes (c : Ctx) : Prop := if c.q = 0 then c.act ≠ 0 else c.act = c.path.lmask ∧ c.path.lmask ≠ 0

theorem lmask_ne_zero_of_passes (h : c.passes) : c.path.lmask ≠ 0 := by
  unfold Ctx.passes at h
  split at h
  · intro hm
    exact h (by rw [Ctx.act, hm]; exact BitVec.zero_and)
  · exact h.2

/-- The lanes of a path that passes all move. -/
theorem brauBody_of_passes (h : c.passes) (s : State) :
    brauBody c s = .moved (splitPath c s fun l => if c.path.lmask.getLsbD l then (c.aimedOffset l, true) else (c.fallThrough, false)) := by
  have hgo : (if c.q = 0 then c.act != 0 else c.act == c.path.lmask) = true := by
    unfold Ctx.passes at h
    split at h <;> rename_i hq
    · simpa [hq] using h
    · simpa [hq] using h.1
  rw [brauBody, if_pos hgo, transfer, if_neg (lmask_ne_zero_of_passes h), c.branch_eq, c.target_eq, c.stay_eq]
  rfl

/-- A path that does not pass goes on. -/
theorem brauBody_of_not_passes (h : ¬ c.passes) (s : State) : brauBody c s = .done s := by
  unfold Ctx.passes at h
  unfold brauBody transfer
  split at h
  · rename_i hq
    simp only [hq, if_true]
    exact if_neg (by simpa using h)
  · rename_i hq
    simp only [if_neg hq]
    split
    · rename_i hall
      exact if_pos (by simpa [beq_iff_eq.1 hall] using h)
    · rfl

end

/-! ### The rows -/

theorem transfers_bra (x : BForm) : Transfers (execBra x) 0x002 (.b x) (fun c _ => c.act ≠ 0) (moveLanes Ctx.aimedOffset Ctx.fallThrough) :=
  transfers_transfer braBody_eq

theorem transfers_brx (x : BForm) : Transfers (execBrx x) 0x003 (.b x) (fun c _ => c.act ≠ 0) (moveLanes Ctx.aimedA Ctx.fallThrough) :=
  transfers_transfer brxBody_eq

theorem transfers_loop (x : BForm) : Transfers (execLoop x) 0x00A (.b x) always (moveLanes Ctx.aimedOffset Ctx.parked) :=
  transfers_of_body fun _ c _ _ => loopBody_eq c _

/-- Settles O11: each body is a transfer of the lanes whose guard is true, or of the whole path, to the goals that the manual states. -/
theorem branches : Obligations.Branches := by
  unfold Obligations.Branches
  exact ⟨transfers_bra, fun x => completes_transfer braBody_eq, transfers_brx, fun x => completes_transfer brxBody_eq,
    fun x => transfers_transfer joinBody_eq, fun x => completes_transfer joinBody_eq, transfers_loop,
    fun x => transfers_of_body fun _ c _ h => brauBody_of_passes h _, fun x => completes_of_body fun _ c _ h => brauBody_of_not_passes h _,
    fun g o => transfers_bra _, fun g m => transfers_brx _, fun g o => transfers_loop _, fun o => transfers_bra _,
    fun i o => transfers_bra _⟩

end Sys2Proof.Machine
end

section
/-!
SUPPORT. IOPs that take effect once for the path, and those that make accesses of their own.
-/

namespace Sys2Proof.Machine

theorem oncePerPath_on {c : Ctx} (h : c.guard0 = true) (s : State) (f : Unit → Res) : oncePerPath c s f = f () := if_pos h

theorem oncePerPath_off {c : Ctx} (h : c.guard0 = false) (s : State) (f : Unit → Res) : oncePerPath c s f = .done s :=
  if_neg (by simp [h])

/-- An IOP once for the path completes with no effect where its guard is false in the lowest lane. -/
theorem completes_oncePerPath_off {opc : Nat} {f : Form} {body : Ctx → State → Res} {g : Ctx → State → Unit → Res}
    (hb : ∀ c s, body c s = oncePerPath c s (g c s)) :
    Completes (runIop opc f body) opc f (fun c _ => c.guard0 = false) fun _ s => s :=
  completes_of_body fun _ c _ h => (hb c _).trans (oncePerPath_off h _ _)

/-- While no page is flipping owner, an IOP with accesses of its own runs as any other (R291). -/
theorem runIopFlip_of_still {opc : Nat} {f : Form} {body : Ctx → State → Res} {s : State} (h : s.flips = []) :
    runIopFlip opc f body s = runIop opc f body s := by
  rw [runIopFlip, h]
  rfl

end Sys2Proof.Machine
end

section
/-!
PROOF. Personalities, headers and emulation words (O29).
-/

namespace Sys2Proof.Machine

/-! ### PINSTALL and PEVICT (R128, R129) -/

/-- The path has claimed a number and waits for its installation. -/
def Ctx.Claiming (c : Ctx) : Prop := match c.path.wait with | some (.installing _) => True | _ => False

/-- The installation of the image at uniform A, with its status in D. -/
def installed (c : Ctx) (s : State) : State :=
  let r := install s { vf := c.warp.vf, asid := c.warp.asid } c.f.fc.toNat c.uA.toNat
  writeUD r.1 c (BitVec.ofNat 64 r.2)

section
variable {c : Ctx} {s : State}

theorem pinstallBody_claiming (hon : c.guard0 = true) (hw : c.Claiming) : pinstallBody c s = .done (installed c s) := by
  unfold Ctx.Claiming at hw
  split at hw
  · rename_i heq
    simp only [pinstallBody, oncePerPath_on hon, heq]
    rfl
  · exact hw.elim

/-- PINSTALL of a path that has claimed nothing. -/
theorem pinstallBody_fresh (hon : c.guard0 = true) (hw : ¬ c.Claiming) (hal : c.uA.toNat % 64 = 0) :
    pinstallBody c s =
      if (s.personalities.get {} c.f.fc.toNat).resident || (s.personalities.get {} c.f.fc.toNat).installing then .done (writeUD s c 1)
      else .wait (s.modPersonality c.f.fc.toNat fun p => { p with installing := true }) (.installing c.f.fc.toNat) := by
  rw [pinstallBody, oncePerPath_on hon]
  split
  · rename_i heq
    exact (hw (by simp only [Ctx.Claiming, heq])).elim
  · exact if_neg (not_not_intro hal)

theorem pevictBody_on (hon : c.guard0 = true) :
    pevictBody c s =
      if (s.personalities.get {} c.f.fc.toNat).installing then .done (writeUD s c 5)
      else if !(s.personalities.get {} c.f.fc.toNat).resident then .done (writeUD s c 2)
      else .done (writeUD (dropGazetteer (s.modPersonality c.f.fc.toNat fun p => { p with resident := false, tables := none, digest := [] })
        fun pid _ _ => pid == c.f.fc.toNat) c 0) := oncePerPath_on hon _ _

/-! ### PBIND, PQUERY and GZINV (R130, R132, R133) -/

theorem pbindBody_aligned (hon : c.guard0 = true) (hal : c.uA.toNat % 4096 = 0) :
    pbindBody c s = .done { s with spaces := s.spaces.adjust (State.spaceKey c.warp.vf c.warp.asid) fun a =>
      { a with bind := a.bind.put 0 c.f.fc.toNat c.uA } } :=
  (oncePerPath_on hon _ _).trans (if_neg (not_not_intro hal))

/-- The word of a personality number: whether it is bound in the address space, and what its image shows if it is resident. -/
def queryWord (c : Ctx) (s : State) : Word64 :=
  BitVec.ofNat 64 ((if binding s c.warp.vf c.warp.asid c.f.fc.toNat = 0 then 0 else 2)
    + if (s.personalities.get {} c.f.fc.toNat).resident then personalityWord c.f.fc.toNat (s.personalities.get {} c.f.fc.toNat) else 0)

theorem pqueryBody_on (hon : c.guard0 = true) : pqueryBody c s = .done (writeUD s c (queryWord c s)) := by
  have hbound (x : Word64) : 2 * bit (x != 0) = if x = 0 then 0 else 2 := by
    by_cases hx : x = 0 <;> simp [hx, bit]
  rw [pqueryBody, oncePerPath_on hon]
  dsimp only
  rw [hbound]
  rfl

/-- The Gazetteer entries that GZINV names are dropped. -/
def gazetteerDropped (c : Ctx) (s : State) : State :=
  dropGazetteer s fun pid asid line =>
    if c.q = 0 then true
    else if c.q = 1 then asid == c.uA.toNat % 2 ^ 16
    else if c.q = 2 then asid == c.uA.toNat % 2 ^ 16 && line / 64 == c.uB.toNat / 4096
    else pid == c.uA.toNat % 16

theorem gzinvBody_on (hon : c.guard0 = true) : gzinvBody c s = .done (gazetteerDropped c s) := by
  rw [gzinvBody, oncePerPath_on hon, gazetteerDropped]
  dsimp only
  congr 2
  funext pid asid line
  split
  · rename_i hq
    rw [if_pos hq]
  · rename_i hq
    rw [if_neg (by omega), if_pos hq]
  · rename_i hq
    rw [if_neg (by omega), if_neg (by omega), if_pos hq]
  · rename_i h0 h1 h2
    rw [if_neg h0, if_neg h1, if_neg h2]

/-! ### EMRET (R131) -/

/-- Where EMRET goes: uniform A, or the instruction after the emulated one. -/
def emretGoal (c : Ctx) : Word64 :=
  if c.q = 1 then c.uA else c.warp.regs.empc + BitVec.ofNat 64 (c.warp.regs.eminfo.toNat / 16 % 2 ^ 12 / 8)

/-- The warp leaves emulation state, and the path goes back. -/
def emulationEnded (c : Ctx) (s : State) : State :=
  (s.modRegs c.w fun r => { r with prog := r.prog + 1, paths := r.paths.map fun q => (q.1, { q.2 with emu := false })
                                   stack := r.stack.map fun q => { q with emu := false } }).modPath c.w c.p
    fun q => { q with pc := (emretGoal c).truncate 57, pcHi := (emretGoal c).extractLsb' 57 7, clause := none, wait := none, notes := [] }

theorem emretBody_emulating (hon : c.guard0 = true) (he : c.path.emu = true) : emretBody c s = .moved (emulationEnded c s) := by
  rw [emretBody, oncePerPath_on hon, he]
  rfl

theorem emretBody_outside (hon : c.guard0 = true) (he : c.path.emu = false) : emretBody c s = .trap .emul 2 := by
  rw [emretBody, oncePerPath_on hon, he]
  rfl

end

/-! ### Records leave the warps as they are (R444-R447) -/

@[simp] theorem warps_writeTrace (s : State) (core : Nat) (r : TraceRing) (bs : List Byte) : (writeTrace s core r bs).warps = s.warps :=
  State.setCells_keeps (·.warps) (fun _ _ _ => rfl) s _

/-- The record that follows a DROP record, into the ring as the DROP record left it. -/
def recordAfterDrop (s : State) (core : Nat) (bs : List Byte) : State :=
  match s.dbg.rings.find? core with
  | some r =>
    if r.room then writeTrace s core r bs
    else { s with dbg := { s.dbg with rings := s.dbg.rings.insert core { r with dropped := r.dropped + 1, lost := r.lost + 1 } } }
  | none => s

theorem warps_recordAfterDrop (s : State) (core : Nat) (bs : List Byte) : (recordAfterDrop s core bs).warps = s.warps := by
  unfold recordAfterDrop
  split
  · split
    · exact warps_writeTrace ..
    · rfl
  · rfl

@[simp] theorem warps_traceRecord (s : State) (core : Nat) (h : TraceHead) (type : Nat) (full : Bool) (aux : Nat) (pay : List Nat) :
    (traceRecord s core h type full aux pay).warps = s.warps := by
  unfold traceRecord
  split
  · rfl
  · dsimp only
    split
    · rfl
    · split
      · exact warps_writeTrace ..
      · exact (warps_recordAfterDrop ..).trans (warps_writeTrace ..)

@[simp] theorem warps_chooseTraced (s : State) (core w p : Nat) : (chooseTraced s core w p).warps = s.warps := by
  unfold chooseTraced
  split
  · rfl
  · dsimp only
    split
    · rfl
    · split
      · rfl
      · split <;> rfl

/-- The state with the path noted as its half's last in the ring of its core, if the core has one. -/
def noteLast (s : State) (x : Warp) (p : Nat) (q : Path) : State :=
  match s.dbg.rings.find? x.core, x.place with
  | some r, some pl =>
    { s with dbg := { s.dbg with rings := s.dbg.rings.insert x.core { r with last := r.last.insert pl.half (traceHead x p q) } } }
  | _, _ => s

@[simp] theorem warps_traceClause (s : State) (w p : Nat) (iops : Option Nat) (word : Nat) :
    (traceClause s w p iops word).warps = s.warps := by
  unfold traceClause
  split
  · rename_i x q _ _
    have hlast {t : State} (ht : t.warps = s.warps) : (noteLast t x p q).warps = s.warps := by
      unfold noteLast
      split <;> exact ht
    have h := hlast (warps_chooseTraced s x.core w p)
    change (if (noteLast (chooseTraced s x.core w p) x p q).isTraced w x q then _ else noteLast (chooseTraced s x.core w p) x p q).warps = _
    split
    · exact (warps_traceRecord ..).trans h
    · exact h
  · rfl

/-- A change of a path that exists depends on the path as it stands only. -/
theorem State.modPath_congr {s : State} {w p : Nat} {q : Path} {f g : Path → Path} (h : s.path? w p = some q) (hfg : f q = g q) :
    s.modPath w p f = s.modPath w p g := by
  obtain ⟨x, hx, hp⟩ := Option.bind_eq_some_iff.1 h
  have hx' : s.warps.find? w = some x := hx
  have hregs : x.regs.paths.adjust p f = x.regs.paths.adjust p g := by simp only [SMap.adjust, hp, hfg]
  simp only [State.modPath, State.modRegs, State.modWarp, SMap.adjust, hx'] at hregs ⊢
  rw [hregs]

/-! ### Headers and emulation words (R80, R118) -/

/-- A path in the clause that its header opens, at the instruction after the header. -/
def openedPath (h : Header) (pc : BitVec 57) (clause : Clause) (q : Path) : Path :=
  { q with pc := pc, clause := some clause, wait := none, yielded := h.yld, urgent := false, passed := 0 }

/-- The path has consumed the header of `len` bytes, and the clause of the header is open. -/
def headerOpened (h : Header) (len word : Nat) (k : Cur) (x : Warp) (q : Path) (s : State) : State :=
  let t := traceClause s k.w k.p (if len = 8 then some h.len else none) word
  let clause := beginClause t x q (addPc q.pc len).toNat (headerClause h)
  { t.modPath k.w k.p (fun q => openedPath h (addPc q.pc len) clause q) with
    cur := some { w := k.w, p := k.p } }

/-- The path has gone to the handler of the emulation word, which stands in the emulation registers. -/
def emulationEntered (e : EmuWord) (k : Cur) (x : Warp) (q : Path) (s : State) : State :=
  let to_ := binding s x.vf x.asid e.pid.toNat + BitVec.ofNat 64 (64 * e.eclass.toNat)
  let t := s.modRegs k.w fun r =>
    { (List.range 8).foldl (fun (r : Regs) i => r.setUni (56 + i) (e.ef.getD i 0)) r with
      empc := q.pc.zeroExtend 64, emword := e.word, eminfo := BitVec.ofNat 32 (e.eclass.toNat + 16 * e.bits + 2 ^ 16 * e.pid.toNat) }
  clauseBoundary { t.modPath k.w k.p (fun q =>
    { q with emu := true, pc := to_.truncate 57, pcHi := to_.extractLsb' 57 7, clause := none, wait := none, notes := [] }) with
    cur := none } k.w

section
variable {s : State} {k : Cur} {x : Warp} {q : Path}

/-- A header whose flags are clear opens its clause after it. -/
theorem header_opens {h : Header} {len word : Nat} (hk : s.cur = some k) (hx : s.warp? k.w = some x) (hq : s.path? k.w k.p = some q)
    (hc : q.clause.isSome = false) (hbad : headerBad h x = false) (hclear : x.regs.flagsClear h.waits = true) :
    header h len word s = .next (headerOpened h len word k x q s) := by
  simp only [header, hk, hq, Option.isSome_some, if_true, applyHeader, hx, hc, hbad, hclear, Bool.not_true, Bool.false_eq_true, if_false]
  have hq' : (traceClause s k.w k.p (if len = 8 then some h.len else none) word).path? k.w k.p = some q := by
    simpa only [State.path?, State.warp?, warps_traceClause] using hq
  exact congrArg (fun t : State => Host.Outcome.next { t with cur := some { w := k.w, p := k.p } })
    (State.modPath_congr (f := openedPath h (addPc q.pc len) _) (g := fun r => openedPath h (addPc r.pc len) _ r) hq' rfl)

/-- An emulation word in a bound space, outside emulation and with no write of its registers outstanding, goes to its handler. -/
theorem emulate_enters {e : EmuWord} (hk : s.cur = some k) (hx : s.warp? k.w = some x) (hq : s.path? k.w k.p = some q)
    (hfree : ∀ j < 8, Reg.uni (56 + j) ∉ busyRegs s k.w) (hbound : binding s x.vf x.asid e.pid.toNat ≠ 0) (he : q.emu = false)
    (hpaths : (x.regs.paths.any fun p => p.1 != k.p && p.2.emu) = false) (hstack : (x.regs.stack.any (·.emu)) = false) :
    emulate e s = .next (emulationEntered e k x q s) := by
  have hregs : ((List.range 8).map fun i => Reg.uni (56 + i)).filter (busyRegs s k.w).contains = [] := by
    rw [List.filter_eq_nil_iff]
    intro r hr
    obtain ⟨j, hj, rfl⟩ := List.mem_map.1 hr
    simpa using hfree j (List.mem_range.1 hj)
  simp only [emulate, hk, hx, hq, emulationStep, hregs, if_neg hbound, he, hpaths, hstack, Bool.or_self, Bool.false_eq_true, if_false]
  rfl

end

theorem execJ32Header_of_legal {glen : BitVec 5} {waits : BitVec 12} {sf1 sf2 : BitVec 4} {rlx : Bool}
    (h : j32HeaderOk glen.toNat sf1.toNat sf2.toNat = true) (s : State) :
    execJ32Header glen waits sf1 sf2 rlx s = header (j32HeaderOf glen waits sf1 sf2 rlx) 4
      (0xFC000000 + glen.toNat * 2 ^ 21 + waits.toNat * 2 ^ 9 + sf1.toNat * 2 ^ 5 + sf2.toNat * 2 + if rlx then 1 else 0) s := if_pos h

/-! ### The obligation -/

section
variable (x : RForm)

/-- PINSTALL runs its body while no page is flipping owner. -/
theorem execPinstall_ready {s : State} {c : Ctx} (hr : Ready 0x240 (.r x) s c) (hstill : s.flips = []) :
    execPinstall x s = .next (finish c s (pinstallBody c (prepare c s))) :=
  (runIopFlip_of_still hstill).trans (runIop_ready hr)

theorem flips_prepare (c : Ctx) (s : State) : (prepare c s).flips = s.flips := by rw [prepare_eq]

theorem waits_pinstall :
    Waits (execPinstall x) 0x240 (.r x)
      (prepared fun c s => s.flips = [] ∧ (c.guard0 = true ∧ ¬ c.Claiming ∧ c.uA.toNat % 64 = 0)
        ∧ (s.personalities.get {} c.f.fc.toNat).resident = false ∧ (s.personalities.get {} c.f.fc.toNat).installing = false)
      (fun c s => s.modPersonality c.f.fc.toNat fun p => { p with installing := true }) fun c _ => .installing c.f.fc.toNat := by
  intro s c hr ⟨hstill, ⟨hon, hw, hal⟩, hres, hins⟩
  rw [execPinstall_ready x hr (flips_prepare c s ▸ hstill), pinstallBody_fresh hon hw hal, hres, hins]
  rfl

theorem completes_pinstall_claiming :
    Completes (execPinstall x) 0x240 (.r x) (fun c s => s.flips = [] ∧ c.guard0 = true ∧ c.Claiming) installed := by
  intro s c hr ⟨hstill, hon, hw⟩
  rw [execPinstall_ready x hr hstill, pinstallBody_claiming hon hw]
  rfl

theorem completes_pinstall_taken :
    Completes (execPinstall x) 0x240 (.r x)
      (prepared fun c s => s.flips = [] ∧ (c.guard0 = true ∧ ¬ c.Claiming ∧ c.uA.toNat % 64 = 0)
        ∧ ((s.personalities.get {} c.f.fc.toNat).resident = true ∨ (s.personalities.get {} c.f.fc.toNat).installing = true))
      fun c s => writeUD s c 1 := by
  intro s c hr ⟨hstill, ⟨hon, hw, hal⟩, htaken⟩
  rw [execPinstall_ready x hr (flips_prepare c s ▸ hstill), pinstallBody_fresh hon hw hal, if_pos (Bool.or_eq_true_iff.2 htaken)]
  rfl

theorem completes_pinstall_off :
    Completes (execPinstall x) 0x240 (.r x) (fun c s => s.flips = [] ∧ c.guard0 = false) fun _ s => s := by
  intro s c hr ⟨hstill, hoff⟩
  rw [execPinstall_ready x hr hstill, pinstallBody, oncePerPath_off hoff]
  rfl

end

/-- Settles O29: each body is once for the path and answers by the state of the number; a header and an emulation word act on the path at
once. -/
theorem personalitiesAndRowsOfTheGuest : Obligations.PersonalitiesAndRowsOfTheGuest := by
  unfold Obligations.PersonalitiesAndRowsOfTheGuest
  refine ⟨waits_pinstall, completes_pinstall_claiming, completes_pinstall_taken, ?evict, ?evictAbsent, ?evictInstalling, ?bind, ?query, ?inv,
    ?emret, ?emretOutside, ?header, ?emulation, ?j32, ?j16, completes_pinstall_off, ?evictOff, ?bindOff, ?queryOff, ?invOff, ?emretOff⟩
  case evict =>
    refine fun x => completes_of_body (body := pevictBody) fun s c _ ⟨hon, hins, hres⟩ => ?_
    rw [pevictBody_on hon, hins, hres]
    rfl
  case evictAbsent =>
    refine fun x => completes_of_body (body := pevictBody) fun s c _ ⟨hon, hins, hres⟩ => ?_
    rw [pevictBody_on hon, hins, hres]
    rfl
  case evictInstalling =>
    refine fun x => completes_of_body (body := pevictBody) fun s c _ ⟨hon, hins⟩ => ?_
    rw [pevictBody_on hon, hins]
    rfl
  case bind => exact fun x => completes_of_body fun s c _ ⟨hon, hal⟩ => pbindBody_aligned hon hal
  case query => exact fun x => completes_of_body fun s c _ hon => pqueryBody_on hon
  case inv => exact fun x => completes_of_body fun s c _ ⟨hon, _⟩ => gzinvBody_on hon
  case emret => exact fun x => transfers_of_body fun s c _ ⟨hon, he⟩ => emretBody_emulating hon he
  case emretOutside => exact fun x => faults_of_body fun s c _ ⟨hon, he⟩ => emretBody_outside hon he
  case header =>
    exact fun glen waits sf1 sf2 rlx h s k x q hk hx hq hc hbad hclear =>
      (execJ32Header_of_legal h s).trans (header_opens hk hx hq hc hbad hclear)
  case emulation => exact fun e s k x q => emulate_enters
  case j32 => exact fun n pay s k x q => emulate_enters
  case j16 => exact fun pay s k x q => emulate_enters
  case evictOff => exact fun x => completes_oncePerPath_off (body := pevictBody) fun _ _ => rfl
  case bindOff => exact fun x => completes_oncePerPath_off (body := pbindBody) fun _ _ => rfl
  case queryOff => exact fun x => completes_oncePerPath_off (body := pqueryBody) fun _ _ => rfl
  case invOff => exact fun x => completes_oncePerPath_off (body := gzinvBody) fun _ _ => rfl
  case emretOff => exact fun x => completes_oncePerPath_off (body := emretBody) fun _ _ => rfl

end Sys2Proof.Machine
end

section
/-!
PROOF. The special registers, TRAP and TRET (O32).
-/

namespace Sys2Proof.Machine

/-! ### Selectors (R63, R415, R418) -/

/-- The selector may be used: one from 0x8000 on needs privileged mode. -/
def Ctx.SelAllowed (c : Ctx) : Prop := 0x8000 ≤ c.sel → c.warp.privileged = true

/-- No operation of the warp is outstanding, and its path has begun no wait for GSTAT. -/
def GstatIdle (c : Ctx) (s : State) : Prop :=
  c.guard0 = true ∧ openOps s c.w = [] ∧ match c.path.wait with | some (.gstatRead _ _ _) | some (.gstatWrite _) => False | _ => True

/-- The warp whose mode the lane has, with its trap. -/
def privilegedLane (c : Ctx) (s : State) : Option (Nat × Trap × Warp) :=
  c.trapped.bind fun w => (s.warp? w).bind fun x => x.trap.map fun t => (w, t, x)

/-- The selectors of one value for the path that do not name the trap, with that value. -/
def pathSelectors : List (Nat × (Ctx → State → Word64)) :=
  [(0x0001, fun c _ => c.warp.regs.gmode), (0x0010, fun c _ => c.path.wbase.zeroExtend 64), (0x0011, fun c _ => c.path.wtop.zeroExtend 64),
   (0x0012, fun c _ => c.path.iter.zeroExtend 64), (0x0013, fun c _ => BitVec.ofNat 64 c.p),
   (0x0015, fun c _ => BitVec.ofNat 64 c.warp.regs.warpId), (0x0016, fun c _ => BitVec.ofNat 64 c.warp.regs.wgid),
   (0x0020, fun _ s => BitVec.ofNat 64 s.clock), (0x0030, fun c _ => c.warp.regs.uimask), (0x0031, fun c _ => c.warp.regs.uipend),
   (0x0038, fun c _ => c.warp.regs.empc), (0x0039, fun c _ => c.warp.regs.emword), (0x003A, fun c _ => c.warp.regs.eminfo.zeroExtend 64),
   (0x0041, fun c s => ((s.space? c.warp.vf c.warp.asid).map fun a => a.nsbase.zeroExtend 64).getD 0),
   (0x8010, fun c s => BitVec.ofNat 64 (s.sys.tvec.get 0 (dieOf c.warp.core))),
   (0x8011, fun c s => BitVec.ofNat 64 ((s.sys.fwcore.find? (dieOf c.warp.core)).getD 0)),
   (0x8020, fun _ s => BitVec.ofNat 64 s.sys.grace), (0x8021, fun _ s => s.sys.fostat.zeroExtend 64)]

section
variable {c : Ctx} {s : State}

theorem selFault_eq_false (h : c.SelAllowed) : selFault c = false := by
  by_cases hs : 0x8000 ≤ c.sel
  · simp [selFault, h hs]
  · simp [selFault, hs]

theorem selAllowed_of_low {n : Nat} (h : c.sel = n) (hn : n < 0x8000) : c.SelAllowed := fun hge => absurd (h ▸ hge) (Nat.not_le.2 hn)

theorem selFault_of_unprivileged (h : 0x8000 ≤ c.sel ∧ c.warp.privileged = false) : selFault c = true := by simp [selFault, h]

theorem privileged_of_firmware {n : Nat} (h : c.warp.kind = .firmware n) : c.warp.privileged = true := by simp [Warp.privileged, h]

/-- Each listed selector reads the listed value. -/
theorem selectorValue_of_mem {p : Nat × (Ctx → State → Word64)} (hp : p ∈ pathSelectors) : selectorValue s c p.1 = p.2 c s := by
  simp only [pathSelectors, List.mem_cons, List.not_mem_nil, or_false] at hp
  rcases hp with rfl | rfl | rfl | rfl | rfl | rfl | rfl | rfl | rfl | rfl | rfl | rfl | rfl | rfl | rfl | rfl | rfl | rfl <;> rfl

theorem pathSelectors_ne {p : Nat × (Ctx → State → Word64)} (hp : p ∈ pathSelectors) : p.1 ≠ 0x14 ∧ p.1 ≠ 3 ∧ p.1 ≠ 2 := by
  have h : ∀ n ∈ pathSelectors.map Prod.fst, n ≠ 0x14 ∧ n ≠ 3 ∧ n ≠ 2 := by decide
  exact h p.1 (List.mem_map_of_mem hp)

theorem privilegedLane_eq_some {w : Nat} {t : Trap} {x : Warp} (h : privilegedLane c s = some (w, t, x)) :
    c.trapped = some w ∧ s.warp? w = some x ∧ x.trap = some t := by
  simp only [privilegedLane, Option.bind_eq_some_iff, Option.map_eq_some_iff, Prod.mk.injEq] at h
  obtain ⟨w', hw, x', hx, t', ht, rfl, rfl, rfl⟩ := h
  exact ⟨hw, hx, ht⟩

/-- The selectors of the trap read the trap of the warp whose mode the lane has. -/
theorem selectorValue_trap {w n : Nat} {t : Trap} {x : Warp} (h : privilegedLane c s = some (w, t, x)) (hlo : 0x8000 ≤ n) (hhi : n < 0x8008) :
    selectorValue s c n = trapSelector t x n := by
  obtain ⟨hw, hx, ht⟩ := privilegedLane_eq_some h
  have hv : ((c.trapped.bind s.warp?).bind fun x => x.trap.map fun t => trapSelector t x n) = some (trapSelector t x n) := by
    rw [hw, Option.bind_some, hx, Option.bind_some, ht, Option.map_some]
  have hdefault : selectorValue s c n =
      match (c.trapped.bind s.warp?).bind fun x => x.trap.map fun t => trapSelector t x n with
      | some v => v
      | none => Config.noTrap s.fresh := by
    interval_cases n <;> rfl
  rw [hdefault, hv]

/-! ### MFSR and MTSR (R200, R201, R418) -/

theorem mfsrBody_lane (h : c.sel = 0x14) :
    mfsrBody c s = .done (writeRow s c (c.f.km.getLsbD 3) c.f.d.toNat c.act fun l => BitVec.ofNat 32 l) := by
  rw [mfsrBody, selFault_eq_false (selAllowed_of_low h (by decide)), if_neg Bool.false_ne_true, if_pos h]

theorem mfsrBody_srst (h : c.sel = 3) :
    mfsrBody c s = .done (writeRow s c (c.f.km.getLsbD 3) c.f.d.toNat c.act fun l => c.warp.regs.srst.lane l) := by
  rw [mfsrBody, selFault_eq_false (selAllowed_of_low h (by decide)), if_neg Bool.false_ne_true, if_neg (by omega), if_pos h]

/-- MFSR of a selector that is not of lane scope. -/
theorem mfsrBody_path (ha : c.SelAllowed) (hl : c.sel ≠ 0x14) (hr : c.sel ≠ 3) :
    mfsrBody c s = oncePerPath c s fun _ =>
      if c.sel = 2 then readGstat c s else .done { writeUD s c (selectorValue s c c.sel) with fresh := s.fresh + 1 } := by
  rw [mfsrBody, selFault_eq_false ha, if_neg Bool.false_ne_true, if_neg hl, if_neg hr]

theorem mfsrBody_value (hon : c.guard0 = true) (ha : c.SelAllowed) (hl : c.sel ≠ 0x14) (hr : c.sel ≠ 3) (hg : c.sel ≠ 2) :
    mfsrBody c s = .done { writeUD s c (selectorValue s c c.sel) with fresh := s.fresh + 1 } := by
  rw [mfsrBody_path ha hl hr, oncePerPath_on hon, if_neg hg]

theorem readGstat_idle (h : GstatIdle c s) : readGstat c s = .done (writeUD s c c.warp.regs.gstat) := by
  obtain ⟨-, hops, hw⟩ := h
  unfold readGstat
  split
  · simp_all
  · rw [hops]

theorem writeGstat_idle (h : GstatIdle c s) : writeGstat c s = .done (s.modRegs c.w fun r => { r with gstat := gstatStored c.uA }) := by
  obtain ⟨-, hops, hw⟩ := h
  unfold writeGstat
  split
  · simp_all
  · rw [hops]

theorem mfsrBody_gstat (h : c.sel = 2) (hi : GstatIdle c s) : mfsrBody c s = .done (writeUD s c c.warp.regs.gstat) := by
  rw [mfsrBody_path (selAllowed_of_low h (by decide)) (by omega) (by omega), oncePerPath_on hi.1, if_pos h, readGstat_idle hi]

theorem mfsrBody_unprivileged (h : 0x8000 ≤ c.sel ∧ c.warp.privileged = false) : mfsrBody c s = .trap .illpriv (BitVec.ofNat 64 c.sel) :=
  if_pos (selFault_of_unprivileged h)

theorem mtsrBody_unprivileged (h : 0x8000 ≤ c.sel ∧ c.warp.privileged = false) : mtsrBody c s = .trap .illpriv (BitVec.ofNat 64 c.sel) :=
  if_pos (selFault_of_unprivileged h)

theorem mtsrBody_srst (h : c.sel = 3) :
    mtsrBody c s = .done (s.modRegs c.w fun r => { r with srst := Row.merge c.act (Row.ofFn fun l => (c.srcA l).truncate 32) r.srst }) := by
  unfold mtsrBody
  dsimp only
  rw [selFault_eq_false (selAllowed_of_low h (by decide)), if_neg Bool.false_ne_true, if_pos h]

/-- What MTSR of a selector other than SRSTATE does once for the path. -/
def mtsrPath (c : Ctx) (s : State) : Res :=
  match c.sel with
  | 0x0001 => .done (s.modRegs c.w fun r => { r with gmode := gmodeStored c.uA })
  | 0x0002 => writeGstat c s
  | 0x8010 =>
    (match c.warp.kind with
      | .firmware die => .done { s with sys := { s.sys with tvec := s.sys.tvec.put 0 die (c.uA.toNat / 4096 * 4096) } }
      | _ => .done s)
  | 0x8020 => .done { s with sys := { s.sys with grace := min c.uA.toNat 60000 } }
  | _ => .done s

theorem mtsrBody_path (ha : c.SelAllowed) (hr : c.sel ≠ 3) : mtsrBody c s = oncePerPath c s fun _ => mtsrPath c s := by
  unfold mtsrBody
  dsimp only
  rw [selFault_eq_false ha, if_neg Bool.false_ne_true, if_neg hr]
  rfl

theorem mtsrBody_on {n : Nat} (h : c.sel = n) (hon : c.guard0 = true) (hn : n ≠ 3) (ha : c.SelAllowed) : mtsrBody c s = mtsrPath c s := by
  rw [mtsrBody_path ha (h ▸ hn), oncePerPath_on hon]

/-! ### TRET (R420) -/

/-- What TRET of a lane does with the warp whose mode the lane has: resume, skip or hold. -/
def tretLane (c : Ctx) (w : Nat) (t : Trap) (x : Warp) (s : State) : Res :=
  match c.q with
  | 0 => .moved (leaveTrap s w c.w none)
  | 1 => .moved (leaveTrap { s with fresh := s.fresh + 1 } w c.w (some (skipPc s x t)))
  | _ => .moved (holdTrap s w c.w)

theorem tretBody_lane {w : Nat} {t : Trap} {x : Warp} (hon : c.guard0 = true) (h : privilegedLane c s = some (w, t, x)) :
    tretBody c s = tretLane c w t x { s with cur := none } := by
  obtain ⟨hw, hx, ht⟩ := privilegedLane_eq_some h
  rw [tretBody, oncePerPath_on hon]
  simp only [hw, hx, Option.bind_some, ht]
  rfl

theorem tretBody_untrapped (hon : c.guard0 = true) (h : c.trapped = none) : tretBody c s = .done s := by
  rw [tretBody, oncePerPath_on hon]
  simp only [h]

/-- The state after a control transfer that leaves the mode of the lane by `f`. -/
def modeLeft (f : Nat → Trap → Warp → Ctx → State → State) (c : Ctx) (s : State) : State :=
  match privilegedLane c s with | some (w, t, x) => f w t x c { s with cur := none } | none => s

/-- A TRET of a privileged lane leaves its mode as `tretLane` says. -/
theorem tretBody_leaves {f : Nat → Trap → Warp → Ctx → State → State} (hon : c.guard0 = true) (hl : (privilegedLane c s).isSome = true)
    (hf : ∀ w t x u, tretLane c w t x u = .moved (f w t x c u)) : tretBody c s = .moved (modeLeft f c s) := by
  obtain ⟨⟨w, t, x⟩, h⟩ := Option.isSome_iff_exists.1 hl
  rw [tretBody_lane hon h, hf, modeLeft, h]

end

/-! ### The obligation -/

section
variable (x : SForm)

theorem completes_mfsr_path {p : Nat × (Ctx → State → Word64)} (hp : p ∈ pathSelectors) :
    Completes (execMfsr x) 0x270 (.s x) (fun c _ => c.guard0 = true ∧ c.sel = p.1 ∧ c.SelAllowed)
      fun c s => { writeUD s c (p.2 c s) with fresh := s.fresh + 1 } :=
  completes_of_body (body := mfsrBody) fun s c _ ⟨hon, hsel, ha⟩ => by
    obtain ⟨hl, hr, hg⟩ := pathSelectors_ne hp
    rw [mfsrBody_value hon ha (hsel ▸ hl) (hsel ▸ hr) (hsel ▸ hg), hsel, selectorValue_of_mem hp]

/-- The value of the selected register of the trap. -/
def trapRead (c : Ctx) (s : State) : Word64 := match privilegedLane c s with | some (_, t, x) => trapSelector t x c.sel | none => 0

theorem completes_mfsr_trap :
    Completes (execMfsr x) 0x270 (.s x)
      (prepared fun c s => c.guard0 = true ∧ 0x8000 ≤ c.sel ∧ c.sel < 0x8008 ∧ c.warp.privileged = true
        ∧ (privilegedLane c s).isSome = true)
      fun c s => { writeUD s c (trapRead c s) with fresh := s.fresh + 1 } :=
  completes_of_body (body := mfsrBody) fun s c _ ⟨hon, hlo, hhi, hp, hl⟩ => by
    obtain ⟨⟨w, t, z⟩, h⟩ := Option.isSome_iff_exists.1 hl
    rw [mfsrBody_value hon (fun _ => hp) (by omega) (by omega) (by omega), selectorValue_trap h hlo hhi]
    simp only [trapRead, h]

theorem completes_mtsr_tvec (n : Nat) :
    Completes (execMtsr x) 0x271 (.s x) (fun c _ => c.sel = 0x8010 ∧ c.guard0 = true ∧ c.warp.kind = .firmware n)
      fun c s => { s with sys := { s.sys with tvec := s.sys.tvec.put 0 n (c.uA.toNat / 4096 * 4096) } } :=
  completes_of_body (body := mtsrBody) fun s c _ ⟨hsel, hon, hk⟩ => by
    rw [mtsrBody_on hsel hon (by decide) fun _ => privileged_of_firmware hk]
    simp only [mtsrPath, hsel, hk]

/-- A TRET of a privileged lane whose selector satisfies `p` leaves the mode of the lane by `f`. -/
theorem transfers_tret {p : Nat → Prop} {f : Nat → Trap → Warp → Ctx → State → State}
    (hf : ∀ c w t x u, p c.q → tretLane c w t x u = .moved (f w t x c u)) (y : RForm) :
    Transfers (execTret y) 0x273 (.r y) (prepared fun c s => c.guard0 = true ∧ p c.q ∧ (privilegedLane c s).isSome = true) (modeLeft f) :=
  transfers_of_body (body := tretBody) fun _ c _ ⟨hon, hq, hl⟩ => tretBody_leaves hon hl fun w t x u => hf c w t x u hq

end

/-- Settles O32: each body is computed at the selector, or at the mode of the lane. -/
theorem specialRegisters : Obligations.SpecialRegisters := by
  unfold Obligations.SpecialRegisters
  refine ⟨fun p hp x => completes_mfsr_path x hp, ?lane, ?srst, ?gstat, completes_mfsr_trap, ?mfsrPriv, ?srstSet, ?gmodeSet, ?gstatSet,
    completes_mtsr_tvec, ?graceSet, ?mtsrPriv, ?trap, ?resume, ?skip, ?hold, ?untrapped, ?mfsrOff, ?mtsrOff, ?trapOff, ?tretOff⟩
  case lane => exact fun x => completes_of_body fun s c _ h => mfsrBody_lane h
  case srst => exact fun x => completes_of_body fun s c _ h => mfsrBody_srst h
  case gstat => exact fun x => completes_of_body fun s c _ ⟨h, hi⟩ => mfsrBody_gstat h hi
  case mfsrPriv => exact fun x => faults_of_body fun s c _ h => mfsrBody_unprivileged h
  case srstSet => exact fun x => completes_of_body fun s c _ h => mtsrBody_srst h
  case gmodeSet =>
    refine fun x => completes_of_body (body := mtsrBody) fun s c _ ⟨h, hon⟩ => ?_
    rw [mtsrBody_on h hon (by decide) (selAllowed_of_low h (by decide))]
    simp only [mtsrPath, show c.sel = 1 from h]
  case gstatSet =>
    refine fun x => completes_of_body (body := mtsrBody) fun s c _ ⟨h, hi⟩ => ?_
    rw [mtsrBody_on h hi.1 (by decide) (selAllowed_of_low h (by decide))]
    simp only [mtsrPath, show c.sel = 2 from h]
    exact writeGstat_idle hi
  case graceSet =>
    refine fun x => completes_of_body (body := mtsrBody) fun s c _ ⟨h, hon, hp⟩ => ?_
    rw [mtsrBody_on h hon (by decide) fun _ => hp]
    simp only [mtsrPath, show c.sel = 0x8020 from h]
  case mtsrPriv => exact fun x => faults_of_body fun s c _ h => mtsrBody_unprivileged h
  case trap => exact fun x => faults_of_body (body := trapBody) fun s c _ hon => oncePerPath_on hon _ _
  case resume =>
    exact transfers_tret (p := (· = 0)) (f := fun w _ _ c s => leaveTrap s w c.w none) fun c w t x u hq => by simp only [tretLane, hq]
  case skip =>
    exact transfers_tret (p := (· = 1)) (f := fun w t x c s => leaveTrap { s with fresh := s.fresh + 1 } w c.w (some (skipPc s x t)))
      fun c w t x u hq => by simp only [tretLane, hq]
  case hold =>
    refine transfers_tret (p := (2 ≤ ·)) (f := fun w _ _ c s => holdTrap s w c.w) fun c w t x u hq => ?_
    obtain ⟨n, hn⟩ : ∃ n, c.q = n + 2 := ⟨c.q - 2, by omega⟩
    simp only [tretLane, hn]
  case untrapped => exact fun x => completes_of_body fun s c _ ⟨hon, h⟩ => tretBody_untrapped hon h
  case mfsrOff =>
    exact fun x => completes_of_body fun s c _ ⟨hoff, ha, hl, hr⟩ => (mfsrBody_path ha hl hr).trans (oncePerPath_off hoff _ _)
  case mtsrOff => exact fun x => completes_of_body fun s c _ ⟨hoff, ha, hr⟩ => (mtsrBody_path ha hr).trans (oncePerPath_off hoff _ _)
  case trapOff => exact fun x => completes_oncePerPath_off (body := trapBody) fun _ _ => rfl
  case tretOff => exact fun x => completes_oncePerPath_off (body := tretBody) fun _ _ => rfl

end Sys2Proof.Machine
end

section
/-!
PROOF. Stores are held (O16).
-/

namespace Sys2Proof.Machine

/-! ### The stores of an instruction (R281, R283) -/

/-- One store for each translated lane, of the low bytes of its D (ST, SCAT). -/
def vectorStores (c : Ctx) (s : State) : List StoreElem :=
  (hits s c .write (c.elems false)).map fun x =>
    { lanes := 1#32 <<< x.lane, va := x.va, pa := x.pa, bytes := c.storeBytes x.lane, exec := x.execPage c }

/-- One store for the path, of a value (STU, STP). -/
def pathStores (value : Ctx → Nat) (c : Ctx) (s : State) : List StoreElem :=
  (hits s c .write (c.elems true)).map fun x =>
    { lanes := c.path.lmask, va := x.va, pa := x.pa, bytes := leBytes c.esize (value c), exec := x.execPage c }

/-- The words that each lane of STV stores. -/
def wordCount (c : Ctx) : Nat := if c.qa = 0 then 4 else 8

/-- One store for each word of each translated lane (STV). -/
def wordStores (c : Ctx) (s : State) : List StoreElem :=
  (hits s c .write (c.elems false)).flatMap fun x => (List.range (wordCount c)).map fun i =>
    { lanes := 1#32 <<< x.lane, va := x.va + 4 * i, pa := x.pa + 4 * i, exec := x.execPage c
      bytes := leBytes 4 ((c.warp.regs.row (c.slot c.f.d.toNat + i)).lane x.lane).toNat }

/-- The state after the lines of stores have entered L1, if they can (R259). -/
def storesPlaced (next : Ctx → Bool) (elems : Ctx → State → List StoreElem) (c : Ctx) (s : State) : Option State :=
  entered c s (next c) (linesOf ((elems c s).map (·.pa)))

/-- The state in which the core holds the stores (R298). -/
def storesHeld (next : Ctx → Bool) (elems : Ctx → State → List StoreElem) (c : Ctx) (s : State) : State :=
  holdStores ((storesPlaced next elems c s).getD s) c (elems c s)

/-- `.strm`: lines enter L1 as next to be replaced (R281). -/
def streaming (c : Ctx) : Bool := c.qa == 1

/-- No line enters as next to be replaced. -/
def notStreaming (_ : Ctx) : Bool := false

section
variable {c : Ctx} {s : State}

/-- An instruction that has elements, none of which faults, reaches what it does with them (R264). -/
theorem elements_of_reaches {kind : Access} {n : Nat} {es : List Access1} (hr : Reaches s c kind n es) (r : Res) :
    (match (generalizing := false) es, eaFault es n with
      | [], _ => .done s
      | _, some (code, info) => .trap code info
      | _, none => r) = r := by
  obtain ⟨hne, hea, -⟩ := hr
  split
  · cases hne
  · simp [*] at hea
  · rfl

/-- Stores whose lines enter L1 are held. -/
theorem issueStores_of_placed {next : Ctx → Bool} {elems : Ctx → State → List StoreElem} (hp : (storesPlaced next elems c s).isSome = true)
    (f : State → Res) : issueStores c s (next c) (elems c s) f = f (storesHeld next elems c s) := by
  obtain ⟨t, ht⟩ := Option.isSome_iff_exists.1 hp
  rw [issueStores_of_entered ht, storesHeld, ht]
  rfl

theorem storeBody_done (hr : Reaches s c .write c.esize (c.elems false)) (hp : (storesPlaced streaming vectorStores c s).isSome = true) :
    storeBody c s = .done (storesHeld streaming vectorStores c s) := by
  refine (elements_of_reaches hr _).trans ?_
  obtain ⟨-, -, hall⟩ := hr
  rw [translateAll_of_hits hall]
  exact issueStores_of_placed hp _

theorem storeWordsBody_done (hr : Reaches s c .write (4 * wordCount c) (c.elems false))
    (hp : (storesPlaced notStreaming wordStores c s).isSome = true) : storeWordsBody c s = .done (storesHeld notStreaming wordStores c s) := by
  refine (elements_of_reaches hr _).trans ?_
  obtain ⟨-, -, hall⟩ := hr
  rw [translateAll_of_hits hall]
  exact issueStores_of_placed hp _

theorem storeUniformBody_done {pred : Bool} (hr : Reaches s c .write c.esize (c.elems true))
    (hp : (storesPlaced notStreaming (pathStores fun c => if pred then c.predWord.toNat else c.uD.toNat) c s).isSome = true) :
    storeUniformBody pred c s = .done (storesHeld notStreaming (pathStores fun c => if pred then c.predWord.toNat else c.uD.toNat) c s) := by
  refine (elements_of_reaches hr _).trans ?_
  obtain ⟨-, -, hall⟩ := hr
  rw [translateAll_of_hits hall]
  exact issueStores_of_placed hp _

/-- RV of the path's restart record is cleared (R279). -/
def restartCleared (c : Ctx) (s : State) : State := s.modPath c.w c.p fun q => { q with rst := q.rst &&& ~~~1#64 }

/-- With no restart record every lane of a SCAT is an element still to do (R279). -/
theorem elems_of_no_restart (hmask : restartMask c = 0) :
    ((c.elems false).filter fun e => !(restartMask c).getLsbD e.lane) = c.elems false := by
  simp [hmask]

theorem scatBody_done (hmask : restartMask c = 0) (hr : Reaches s c .write c.esize (c.elems false))
    (hp : (storesPlaced streaming vectorStores c s).isSome = true) :
    scatBody c s = .done (restartCleared c (storesHeld streaming vectorStores c s)) := by
  obtain ⟨hne, hea, hall⟩ := hr
  have helems := elems_of_no_restart hmask
  have hscan := scanElems_of_hits (c.elems false) hall
  unfold scatBody progressiveBody
  simp only [helems, Option.isNone_iff_eq_none.1 hea, Bool.false_eq_true, if_false, hscan]
  split
  · rename_i e heq
    obtain ⟨pa, x, hlook⟩ := lookupVa_of_hits hall (List.mem_of_find?_eq_some heq)
    simpa [hlook] using List.find?_some heq
  · unfold doElements
    simp only [hits_ne_nil hne hall, Bool.false_eq_true, if_false]
    exact issueStores_of_placed hp _

end

/-! ### The instructions -/

/-- The elements of a store reach memory, and its lines enter L1. -/
def StoreReady (n : Ctx → Nat) (uniform : Bool) (next : Ctx → Bool) (elems : Ctx → State → List StoreElem) (c : Ctx) (s : State) : Prop :=
  Reaches s c .write (n c) (c.elems uniform) ∧ (storesPlaced next elems c s).isSome = true

theorem accesses_st (x : MForm) :
    Accesses (execSt x) 0x181 (.m x) (StoreReady (·.esize) false streaming vectorStores) (storesHeld streaming vectorStores) :=
  accesses_of_body fun _ _ ⟨hr, hp⟩ => storeBody_done hr hp

theorem accesses_stv (x : MForm) :
    Accesses (execStv x) 0x183 (.m x) (StoreReady (4 * wordCount ·) false notStreaming wordStores) (storesHeld notStreaming wordStores) :=
  accesses_of_body fun _ _ ⟨hr, hp⟩ => storeWordsBody_done hr hp

theorem accesses_stu (x : MForm) :
    Accesses (execStu x) 0x187 (.m x) (StoreReady (·.esize) true notStreaming (pathStores (·.uD.toNat)))
      (storesHeld notStreaming (pathStores (·.uD.toNat))) :=
  accesses_of_body fun _ _ ⟨hr, hp⟩ => storeUniformBody_done (pred := false) hr hp

theorem accesses_stp (x : MForm) :
    Accesses (execStp x) 0x185 (.m x) (StoreReady (·.esize) true notStreaming (pathStores (·.predWord.toNat)))
      (storesHeld notStreaming (pathStores (·.predWord.toNat))) :=
  accesses_of_body fun _ _ ⟨hr, hp⟩ => storeUniformBody_done (pred := true) hr hp

theorem accesses_scat (x : MForm) :
    Accesses (execScat x) 0x189 (.m x) (fun c s => restartMask c = 0 ∧ StoreReady (·.esize) false streaming vectorStores c s)
      fun c s => restartCleared c (storesHeld streaming vectorStores c s) :=
  accesses_of_body fun _ _ ⟨hm, hr, hp⟩ => scatBody_done hm hr hp

/-- Settles O16: each body holds the stores of its translated elements, and the rows of J32 and J16 run ST and STU. -/
theorem storesAreHeld : Obligations.StoresAreHeld := by
  unfold Obligations.StoresAreHeld
  refine ⟨accesses_st, accesses_stv, accesses_stu, accesses_stp, accesses_scat, fun g d m z o => accesses_st _,
    fun g d m i z o => accesses_st _, fun g d m z o hd => ?_, fun d m o => accesses_st _, fun d m i => accesses_st _⟩
  have hrun : exec (.j32Stu g d m z o) = execStu (j32Mem g d m z o) := funext fun _ => if_pos hd
  exact hrun ▸ accesses_stu _

end Sys2Proof.Machine
end

section
/-!
SUPPORT. The steps of the machine, requests that a rate limiter grants, and writes that perform (R291, R297, R439).
-/

namespace Sys2Proof.Machine

theorem runEvent_of_some {f : State → Option State} {s t : State} (h : f s = some t) : runEvent f s = .next t := by
  rw [runEvent, h]

/-- With no page in flip, a step that makes accesses runs as any other (R291). -/
theorem runEventFlip_of_some {f : State → Option State} {s t : State} (hf : s.flips = []) (h : f s = some t) :
    runEventFlip f s = .next t := by
  rw [runEventFlip, hf]
  exact runEvent_of_some h

/-- A request that leaves its cluster changes only the limiter's tokens. -/
theorem charged_eq (who : Option (Nat × Nat)) (s : State) : ∃ sys, charged who s = { s with sys := sys } := by
  unfold charged
  split
  · exact ⟨_, rfl⟩
  · split
    · exact ⟨_, rfl⟩
    · exact ⟨_, rfl⟩

theorem spend_of_granted {s : State} {cluster vf : Nat} (h : Granted (some (cluster, vf)) s) :
    spend s cluster vf = some (charged (some (cluster, vf)) s) := by
  unfold spend charged
  simp only
  split
  · rfl
  · rename_i hlimit
    rcases h cluster vf rfl with h0 | hpos
    · exact absurd h0 hlimit
    · obtain ⟨n, hn⟩ := Nat.exists_eq_succ_of_ne_zero hpos.ne'
      simp only [hn, Nat.succ_eq_add_one, Nat.add_sub_cancel]

/-- A granted step runs on the state that its request has been counted in. -/
theorem limited_of_granted {who : State → Option (Nat × Nat)} {f : State → Option State} {s : State} (h : Granted (who s) s) :
    limited who f s = f (charged (who s) s) := by
  unfold limited
  split
  · rename_i cluster vf hwho
    rw [hwho] at h ⊢
    rw [spend_of_granted h, Option.bind_some]
  · rename_i hwho
    rw [hwho]
    rfl

/-- A step that is no request runs at once. -/
theorem limited_of_none {who : State → Option (Nat × Nat)} {f : State → Option State} {s : State} (h : who s = none) :
    limited who f s = f s := by
  rw [limited, h]

/-! ### Maps and writes -/

/-- Entries changed one by one keep their keys. -/
theorem SMap.find?_map {α β : Type} (f : α → β) (m : SMap α) (i : Nat) :
    SMap.find? (m.map fun kv => (kv.1, f kv.2)) i = (SMap.find? m i).map f := by
  induction m with
  | nil => rfl
  | cons kv m ih =>
    obtain ⟨k, v⟩ := kv
    simp only [List.map_cons, SMap.find?_cons, ih]
    split <;> rfl

/-- A write that performs takes the next place of the coherence order (R297). -/
theorem performed_perform (s : State) (wid : Nat) (core : Option Nat) (warp : Nat) (lanes : BitVec 32) (seq : Nat) (chan : Chan)
    (scope : Scope) (base size : Nat) (cells : List Host.Cell) :
    ∃ w, (perform s wid core warp lanes seq chan scope base size cells).performed = s.performed ++ [w] ∧ w.pos = s.performed.length + 1
      ∧ w.cells = cells ∧ w.wid = wid ∧ w.core = core := by
  have hllc := llcWrite_keeps (·.performed) (fun _ _ _ => rfl) s (NSet.insertAll [] (cells.map (·.1 / 64)))
  exact ⟨_, congrArg (· ++ [_]) hllc, rfl, rfl, rfl, rfl⟩

/-- A write that performs changes memory, the coherence orders, poison, the LLC's lines and the masks of copies, and nothing else. -/
theorem perform_eq (s : State) (wid : Nat) (core : Option Nat) (warp : Nat) (lanes : BitVec 32) (seq : Nat) (chan : Chan) (scope : Scope)
    (base size : Nat) (cells : List Host.Cell) :
    ∃ m p q l c, perform s wid core warp lanes seq chan scope base size cells
      = { s with mem := m, performed := p, poison := q, llc := l, copies := c } := by
  have h := perform_keeps (fun s => { s with mem := [], performed := [], poison := [], llc := [], copies := [] }) (fun _ _ _ _ _ _ => rfl)
    s wid core warp lanes seq chan scope base size cells
  generalize perform s wid core warp lanes seq chan scope base size cells = t at h
  exact ⟨_, _, _, _, _, congrArg (fun u =>
    { u with mem := t.mem, performed := t.performed, poison := t.poison, llc := t.llc, copies := t.copies }) h⟩

/-- An agent's write changes memory, the coherence orders, poison, the LLC and the numbers of writes, and nothing else. -/
theorem agentWrite_eq (s : State) (a : Nat) (bs : List Byte) (warp : Nat) (chan : Chan) :
    ∃ m p q l c n k, agentWrite s a bs warp chan
      = { s with mem := m, performed := p, poison := q, llc := l, copies := c, nextId := n, seq := k } := by
  obtain ⟨_, _, _, _, _, h⟩ := perform_eq { s with nextId := s.nextId + 1, seq := s.seq + 1 } s.nextId none warp 0 (s.seq + 1) chan .pod a
    bs.length (cellsAt a bs)
  exact ⟨_, _, _, _, _, _, _, h⟩

/-- A number that an agent has written reads back as its bytes. -/
theorem bytes_agentWriteLe (s : State) (a n x : Nat) : (agentWriteLe s a n x).bytes a n = leBytes n x := by
  apply List.ext_getElem
  · simp [State.bytes]
  · intro i hi hi'
    have hn : i < n := by simpa [State.bytes] using hi
    simp [State.bytes, agentWriteLe, byte_agentWrite, List.getD_eq_getElem?_getD, hn]

end Sys2Proof.Machine
end

section
/-!
PROOF. Reads return and writes perform (O38).
-/

namespace Sys2Proof.Machine

/-! ### Reads return (R299, R301) -/

/-- No page flips; the read of number `rid` is `r`, and no other has its number. -/
def OwnRead (rid : Nat) (r : Inflight) (s : State) : Prop :=
  s.flips = [] ∧ s.inflight.find? (·.rid == rid) = some r ∧ ∀ y ∈ s.inflight, y.rid = rid → y = r

/-- A weak read (R299). -/
def Inflight.IsWeak (r : Inflight) : Prop := match r.op with | .weak _ => True | _ => False

theorem Inflight.isWeak_iff (r : Inflight) : r.IsWeak ↔ ∃ q, r.op = .weak q := by
  unfold Inflight.IsWeak
  cases r.op <;> simp

/-- The elements of a read performed in order. -/
def performAll (r : Inflight) (s : State) : State × List Elem :=
  r.elems.foldl (fun acc e => ((performElem acc.1 r e).1, acc.2 ++ [(performElem acc.1 r e).2])) (s, [])

/-- A read in which one element has been replaced by its performed form. -/
def Inflight.withElem (r : Inflight) (e e' : Elem) : Inflight :=
  { r with elems := r.elems.map fun x => if x.lane == e.lane && x.idx == e.idx then e' else x }

/-- The state after a read has become `r'`: it returns where no element is left, and stays in flight otherwise. -/
def readAdvanced (rid : Nat) (r' : Inflight) (t : State) : State :=
  if r'.next.isNone then finishRead t r' else { t with inflight := t.inflight.map fun x => if x.rid == rid then r' else x }

theorem readAdvanced_of_done {rid : Nat} {r' : Inflight} {t : State} (h : r'.next = none) : readAdvanced rid r' t = finishRead t r' := by
  rw [readAdvanced, h]
  rfl

theorem readAdvanced_of_next {rid : Nat} {r' : Inflight} {t : State} {e : Elem} (h : r'.next = some e) :
    readAdvanced rid r' t = { t with inflight := t.inflight.map fun x => if x.rid == rid then r' else x } := by
  rw [readAdvanced, h]
  rfl

section
variable {rid : Nat} {r : Inflight} {s : State}

/-- A read that has an element to perform is the one that its request counts for. -/
theorem find?_request_of_next (h : OwnRead rid r s) (hn : r.next.isSome = true) :
    (s.inflight.find? fun y => y.rid == rid && y.next.isSome) = some r := by
  obtain ⟨-, hfind, hown⟩ := h
  rw [← hfind]
  refine List.find?_congr fun y hy => ?_
  by_cases hrid : y.rid = rid
  · simp [hown y hy hrid, hn]
  · simp [hrid]

/-- A read whose elements have all performed makes no request. -/
theorem find?_request_of_done (h : OwnRead rid r s) (hn : r.next = none) :
    (s.inflight.find? fun y => y.rid == rid && y.next.isSome) = none := by
  obtain ⟨-, -, hown⟩ := h
  refine List.find?_eq_none.2 fun y hy => ?_
  by_cases hrid : y.rid = rid
  · simp [hown y hy hrid, hn]
  · simp [hrid]

theorem readReturn_done (hfind : s.inflight.find? (·.rid == rid) = some r) (hn : r.next = none)
    (hstuck : ((s.warp? r.warp).any (·.stuck)) = false) : readReturn rid s = some (finishRead s r) := by
  unfold readReturn
  simp only [hfind, hn, hstuck, Bool.false_eq_true, if_false]

theorem readReturn_weak (hfind : s.inflight.find? (·.rid == rid) = some r) (hop : r.IsWeak)
    (hn : r.next.isSome = true) : readReturn rid s = some (finishRead (performAll r s).1 { r with elems := (performAll r s).2 }) := by
  obtain ⟨e, he⟩ := Option.isSome_iff_exists.1 hn
  obtain ⟨q, hq⟩ := r.isWeak_iff.1 hop
  unfold readReturn
  simp only [hfind, hq, he]
  rfl

/-- A strong read or an atomic performs its next element, and returns with the last. -/
theorem readReturn_strong {e : Elem} (hfind : s.inflight.find? (·.rid == rid) = some r) (hop : ¬r.IsWeak)
    (he : r.next = some e) (hen : readEnabled s r e = true) :
    readReturn rid s = some (readAdvanced rid (r.withElem e (performElem s r e).2) (performElem s r e).1) := by
  -- the side condition under which the arms of weak reads are passed over
  have hstrong : ∀ q, r.op ≠ .weak q := fun q hq => hop (r.isWeak_iff.2 ⟨q, hq⟩)
  unfold readReturn
  simp only [hfind, he, hen, Bool.not_true, Bool.false_eq_true, if_false]
  split
  · exact congrArg some (readAdvanced_of_done ‹_›).symm
  · exact congrArg some (readAdvanced_of_next ‹_›).symm

end

/-! ### Writes perform (R297, R298) -/

/-- The paths of a warp follow a store no longer (R302). -/
def Warp.unfollowing (wid : Nat) (x : Warp) : Warp :=
  { x with regs := { x.regs with paths := x.regs.paths.map fun q => (q.1, { q.2 with after := q.2.after.filter (· != wid) }) } }

section
variable {s : State} {h : Held} {wid : Nat}

/-- A store that performs leaves the held stores, and its number the paths that follow it. -/
theorem performHeld_eq (s : State) (h : Held) :
    ∃ m p q l c, performHeld s h = { s with mem := m, performed := p, poison := q, llc := l, copies := c
                                            held := s.held.filter (·.wid != h.wid)
                                            warps := s.warps.map fun x => (x.1, x.2.unfollowing h.wid) } := by
  obtain ⟨m, p, q, l, c, hp⟩ := perform_eq { s with held := s.held.filter (·.wid != h.wid) } h.wid (some h.core) h.warp h.lanes h.seq h.chan
    (h.scope.getD .pod) h.base h.size h.cells
  refine ⟨m, p, q, l, c, ?_⟩
  unfold performHeld
  simp only [hp]
  rfl

theorem byte_performHeld (s : State) (h : Held) (a : Nat) :
    (performHeld s h).byte a = ((h.cells.reverse.find? (·.1 == a)).map (·.2)).getD (s.byte a) :=
  byte_perform { s with held := s.held.filter (·.wid != h.wid) } h.wid (some h.core) h.warp h.lanes h.seq h.chan (h.scope.getD .pod) h.base
    h.size h.cells a

theorem performed_performHeld (s : State) (h : Held) :
    ∃ w, (performHeld s h).performed = s.performed ++ [w] ∧ w.pos = s.performed.length + 1 ∧ w.cells = h.cells ∧ w.wid = h.wid
      ∧ w.core = some h.core :=
  performed_perform { s with held := s.held.filter (·.wid != h.wid) } h.wid (some h.core) h.warp h.lanes h.seq h.chan (h.scope.getD .pod)
    h.base h.size h.cells

theorem warp?_performHeld (s : State) (h : Held) (w : Nat) : (performHeld s h).warp? w = (s.warp? w).map (Warp.unfollowing h.wid) := by
  obtain ⟨_, _, _, _, _, hp⟩ := performHeld_eq s h
  rw [hp]
  exact SMap.find?_map _ _ _

theorem held_performHeld (s : State) (h : Held) : (performHeld s h).held = s.held.filter (·.wid != h.wid) := by
  obtain ⟨_, _, _, _, _, hp⟩ := performHeld_eq s h
  rw [hp]

/-- What a write that performs leaves as it was: the tables besides memory, and the registers of every warp. -/
def WriteFrame (s t : State) : Prop :=
  t.wgs = s.wgs ∧ t.tlb = s.tlb ∧ t.inflight = s.inflight ∧ t.rings = s.rings ∧ t.work = s.work ∧ t.ui = s.ui ∧ t.eng = s.eng
    ∧ ∀ w x y, s.warp? w = some x → t.warp? w = some y →
        y.regs.u = x.regs.u ∧ y.regs.v = x.regs.v ∧ y.regs.p = x.regs.p ∧ y.regs.t = x.regs.t

theorem writeFrame_performHeld (s : State) (h : Held) : WriteFrame s (performHeld s h) := by
  have hwarps := warp?_performHeld s h
  obtain ⟨_, _, _, _, _, hp⟩ := performHeld_eq s h
  rw [hp] at hwarps ⊢
  refine ⟨rfl, rfl, rfl, rfl, rfl, rfl, rfl, fun w x y hx hy => ?_⟩
  rw [hwarps, hx] at hy
  cases hy
  exact ⟨rfl, rfl, rfl, rfl⟩

theorem writePerform_some (hfind : s.held.find? (·.wid == wid) = some h) (hmay : mayPerform s h = true) (hx : h.exec = none) :
    writePerform wid s = some (performHeld s h) := by
  unfold writePerform
  simp only [hfind, hmay, hx, Option.isNone_none, Bool.and_self, if_true]

theorem pageStoreStep_some {vf asid va : Nat} (hfind : s.held.find? (·.wid == wid) = some h) (hmay : mayPerform s h = true)
    (hx : h.exec = some (vf, asid, va)) : pageStoreStep wid s = some (performHeld (clearExec s vf asid va) h) := by
  unfold pageStoreStep
  simp only [hfind, hmay, hx, if_true]

end

/-! ### The steps -/

section
variable {rid wid : Nat} {r : Inflight} {h : Held} {s : State}

/-- A read with an element to perform runs once its request is granted (R439). -/
theorem memoryReadReturn_next (hown : OwnRead rid r s) (hn : r.next.isSome = true)
    (hg : Granted (requester s r.core r.warp) s) {t : State} (ht : readReturn rid (charged (requester s r.core r.warp) s) = some t) :
    execMemoryReadReturn rid s = .next t := by
  have hwho : ((s.inflight.find? fun y => y.rid == rid && y.next.isSome).bind fun y => requester s y.core y.warp)
      = requester s r.core r.warp := by
    rw [find?_request_of_next hown hn, Option.bind_some]
  have ⟨hf, _, _⟩ := hown
  refine runEventFlip_of_some hf ?_
  rw [limited_of_granted (by rwa [hwho]), hwho, ht]

theorem memoryReadReturn_done (hown : OwnRead rid r s) (hn : r.next = none)
    (hstuck : ((s.warp? r.warp).any (·.stuck)) = false) : execMemoryReadReturn rid s = .next (finishRead s r) := by
  have ⟨hf, hfind, _⟩ := hown
  refine runEventFlip_of_some hf ?_
  rw [limited_of_none (by rw [find?_request_of_done hown hn, Option.bind_none])]
  exact readReturn_done hfind hn hstuck

/-- The read is in flight as before its request is charged. -/
theorem find?_charged (hown : OwnRead rid r s) {who : Option (Nat × Nat)} :
    (charged who s).inflight.find? (·.rid == rid) = some r := by
  obtain ⟨_, h⟩ := charged_eq who s
  obtain ⟨-, hfind, -⟩ := hown
  rwa [h]

/-- A store that may perform does so once its request is granted (R439). -/
theorem writePerform_next (hfind : s.held.find? (·.wid == wid) = some h) (hmay : mayPerform s h = true) (hx : h.exec = none)
    (hg : Granted (requester s h.core h.warp) s) :
    execWritePerform wid s = .next (performHeld (charged (requester s h.core h.warp) s) h) := by
  have hwho : ((s.held.find? (·.wid == wid)).bind fun y => requester s y.core y.warp) = requester s h.core h.warp := by
    rw [hfind, Option.bind_some]
  obtain ⟨_, hc⟩ := charged_eq (requester s h.core h.warp) s
  refine runEvent_of_some ?_
  rw [limited_of_granted (by rwa [hwho]), hwho, hc]
  exact writePerform_some hfind hmay hx

end

/-- Settles O38: a granted step runs on the charged state, where a read performs its elements and a store its cells. -/
theorem readsReturnAndWritesPerform : Obligations.ReadsReturnAndWritesPerform := by
  unfold Obligations.ReadsReturnAndWritesPerform
  refine ⟨?weak, ?strong, ?done, ?bytes, ?frame, ?page⟩
  case weak =>
    intro rid r s ⟨⟨hown, hn, hg⟩, hop⟩
    exact memoryReadReturn_next hown hn hg (readReturn_weak (find?_charged hown) hop hn)
  case strong =>
    intro rid r e s ⟨⟨hown, hn, hg⟩, hop, he, hen⟩
    exact memoryReadReturn_next hown hn hg (readReturn_strong (find?_charged hown) hop he hen)
  case done =>
    intro rid r s ⟨hown, hn, hstuck⟩
    exact memoryReadReturn_done hown hn hstuck
  case bytes =>
    intro wid h s ⟨⟨hfind, hmay⟩, hx, hg⟩
    refine ⟨_, writePerform_next hfind hmay hx hg, ?_⟩
    obtain ⟨_, hc⟩ := charged_eq (requester s h.core h.warp) s
    rw [hc]
    exact ⟨byte_performHeld _ h, held_performHeld _ h, performed_performHeld _ h⟩
  case frame =>
    intro wid h s ⟨⟨hfind, hmay⟩, hx, hg⟩
    refine ⟨_, writePerform_next hfind hmay hx hg, ?_⟩
    obtain ⟨sys, hc⟩ := charged_eq (requester s h.core h.warp) s
    rw [hc]
    exact writeFrame_performHeld { s with sys := sys } h
  case page =>
    intro wid h vf asid va s ⟨⟨hfind, hmay⟩, hx⟩
    exact runEvent_of_some (pageStoreStep_some hfind hmay hx)

end Sys2Proof.Machine
end

section
/-!
PROOF. Scans complete, saves end, hosts restart (O44).
-/

namespace Sys2Proof.Machine

/-! ### Scans (R107-R109) -/

/-- The page of a scan. -/
def ScanReq.page (r : ScanReq) : Nat := r.va / 4096 * 4096

/-- The request has left the queue, and the start map of its page is gone. -/
def scanBegun (r : ScanReq) (s : State) : State :=
  { s with sys := { s.sys with scans := s.sys.scans.erase r
                               starts := s.sys.starts.filter fun x => !(x.vf == r.vf && x.asid == r.asid && x.page == r.page) } }

/-- The report of a scan. -/
def scanSaid (r : ScanReq) (pid reason off slot word : Nat) (s : State) : State :=
  addReport s r.vf .scan [scanReport r.page pid reason off slot word] none

/-- A personality that keeps start maps keeps one of the page (R110). -/
def startsKept (m : StartMap) (s : State) : State :=
  if keepsStarts s m.pid then { s with sys := { s.sys with starts := s.sys.starts ++ [m] } } else s

/-- The end of the scan of a page that passes: V of its entry is set. -/
def scanPassed (r : ScanReq) (l : Leaf1) (starts : NSet) (s : State) : State :=
  let t := if l.e.testBit 59 then s else agentWriteLe s l.epa 8 (l.e + 2 ^ 59)
  scanSaid r (l.e / 2 ^ 60) 0 0 0 0 (startsKept { vf := r.vf, asid := r.asid, page := r.page, pid := l.e / 2 ^ 60, offs := starts } t)

/-- The end of the scan of a page that fails: X of its entry is cleared. -/
def scanFailed (r : ScanReq) (l : Leaf1) (reason off slot word : Nat) (s : State) : State :=
  scanSaid r (l.e / 2 ^ 60) reason off slot word (if l.e.testBit 7 then agentWriteLe s l.epa 8 (l.e - 2 ^ 7) else s)

/-- The physical address of the page, under the key of its memory. -/
def scanKey (r : ScanReq) (l2 : Leaf2) (s : State) : Nat := memoryKey s r.vf l2.out

/-- The page translates, to one that is not flipping. -/
def ScanReaches (r : ScanReq) (l : Leaf1) (l2 : Leaf2) (s : State) : Prop :=
  walk1 s none r.vf r.asid r.page = .ok l ∧ walk2 s none r.vf l.out = .ok l2 ∧ scanKey r l2 s / 4096 ∉ s.flips

section
variable {die : Nat} {r : ScanReq} {l : Leaf1} {l2 : Leaf2} {s : State}

theorem scanDone_lost {f : WalkFail} (hr : s.sys.scans.find? (·.die == die) = some r)
    (hw : walk1 (scanBegun r s) none r.vf r.asid r.page = .fail f) :
    scanDone die s = some (scanSaid r 0 (Config.scanReason s.fresh).toNat 0 0 0 { scanBegun r s with fresh := s.fresh + 1 }) := by
  unfold scanBegun ScanReq.page at hw
  unfold scanDone
  simp only [hr, hw]
  rfl

theorem scanDone_pass {starts : NSet} (hr : s.sys.scans.find? (·.die == die) = some r) (h : ScanReaches r l l2 (scanBegun r s))
    (hv : scanPage (scanBegun r s) (l.e / 2 ^ 60) ((scanBegun r s).bytes (scanKey r l2 (scanBegun r s)) 4096) = .pass starts) :
    scanDone die s = some (scanPassed r l starts (scanBegun r s)) := by
  obtain ⟨hw1, hw2, hflip⟩ := h
  unfold scanKey scanBegun ScanReq.page at *
  unfold scanDone
  simp only [hr, hw1, hw2, hv, List.contains_eq_mem, hflip, decide_false, Bool.false_eq_true, if_false]
  rfl

theorem scanDone_fail {reason off slot len : Nat} (hr : s.sys.scans.find? (·.die == die) = some r)
    (h : ScanReaches r l l2 (scanBegun r s))
    (hv : scanPage (scanBegun r s) (l.e / 2 ^ 60) ((scanBegun r s).bytes (scanKey r l2 (scanBegun r s)) 4096) = .fail reason off slot len) :
    scanDone die s = some (scanFailed r l reason off slot
      (leNat ((((scanBegun r s).bytes (scanKey r l2 (scanBegun r s)) 4096).drop off).take len)) (scanBegun r s)) := by
  obtain ⟨hw1, hw2, hflip⟩ := h
  unfold scanKey scanBegun ScanReq.page at *
  unfold scanDone
  simp only [hr, hw1, hw2, hv, List.contains_eq_mem, hflip, decide_false, Bool.false_eq_true, if_false]
  rfl

end

/-- From `s` to `t` the entry at `epa` has been written with `e` where `write` says so, and no report, request or warp has changed. -/
def EntryWritten (epa e : Nat) (write : Bool) (s t : State) : Prop :=
  t.reports = s.reports ∧ t.sys.scans = s.sys.scans ∧ t.warps = s.warps
    ∧ (write = false → t.mem = s.mem) ∧ (write = true → t.bytes epa 8 = leBytes 8 e)

theorem entryWritten_if (epa e : Nat) (write : Bool) (s : State) :
    EntryWritten epa e write s (if write then agentWriteLe s epa 8 e else s) := by
  cases write with
  | false => exact ⟨rfl, rfl, rfl, fun _ => rfl, fun h => absurd h (by decide)⟩
  | true =>
    obtain ⟨_, _, _, _, _, _, _, hw⟩ := agentWrite_eq s epa (leBytes 8 e) 0 .gen
    refine ⟨?_, ?_, ?_, fun h => absurd h (by decide), fun _ => bytes_agentWriteLe s epa 8 e⟩
    all_goals simp only [if_true, agentWriteLe, hw]

theorem entryWritten_unless (epa e : Nat) (keep : Bool) (s : State) :
    EntryWritten epa e (!keep) s (if keep then s else agentWriteLe s epa 8 e) := by
  cases keep with
  | false => exact entryWritten_if epa e true s
  | true => exact entryWritten_if epa e false s

/-- A start map changes only the start maps. -/
theorem EntryWritten.startsKept {epa e : Nat} {write : Bool} {s t : State} (h : EntryWritten epa e write s t) (m : StartMap) :
    EntryWritten epa e write s (startsKept m t) := by
  unfold Machine.startsKept
  split
  · exact h
  · exact h

/-- From `s` to `t` a scan has ended: one report is made, and the entry at `epa` has been written with `e` where `write` says so. -/
def ScanEnd (r : ScanReq) (epa e : Nat) (write : Bool) (pid reason off slot word : Nat) (s t : State) : Prop :=
  t.reports = (scanSaid r pid reason off slot word s).reports ∧ t.sys.scans = s.sys.scans ∧ t.warps = s.warps
    ∧ (write = false → t.mem = s.mem) ∧ (write = true → t.bytes epa 8 = leBytes 8 e)

theorem EntryWritten.scanEnd {epa e : Nat} {write : Bool} {s t : State} (h : EntryWritten epa e write s t) (r : ScanReq)
    (pid reason off slot word : Nat) : ScanEnd r epa e write pid reason off slot word s (scanSaid r pid reason off slot word t) := by
  obtain ⟨hreports, hrest⟩ := h
  exact ⟨congrArg (· ++ [_]) hreports, hrest⟩

theorem scanEnd_passed (r : ScanReq) (l : Leaf1) (starts : NSet) (s : State) :
    ScanEnd r l.epa (l.e + 2 ^ 59) (!l.e.testBit 59) (l.e / 2 ^ 60) 0 0 0 0 s (scanPassed r l starts s) :=
  ((entryWritten_unless ..).startsKept _).scanEnd ..

theorem scanEnd_failed (r : ScanReq) (l : Leaf1) (reason off slot word : Nat) (s : State) :
    ScanEnd r l.epa (l.e - 2 ^ 7) (l.e.testBit 7) (l.e / 2 ^ 60) reason off slot word s (scanFailed r l reason off slot word s) :=
  (entryWritten_if ..).scanEnd ..

/-! ### Saves (R430) -/

/-- Every resident warp of the workgroup has been evicted. -/
def evictedAll (g : Workgroup) (s : State) : State :=
  g.warps.foldl (fun s w => if ((s.warp? w).bind (·.place)).isSome then commitEviction s w else s) s

/-- The workgroup as its image holds it, with the reasons that its warps had before (R430 step 5). -/
def preempted (g : Workgroup) (s : State) : Workgroup := { g with priorDorm := priorReasons (evictedAll g s) g }

/-- Each warp of the evicted workgroup is marked pre-empted in its record. -/
def markedAll (h : Nat) (g : Workgroup) (s : State) : Except State State :=
  updateEach ((evictedAll g s).modWg h fun _ => preempted g s) g.warps fun x => { x with regs := { x.regs with dorm := 12 } }

/-- A save whose workgroup has drained, whose records are written, and whose warps are marked. -/
def SaveComplete (h : Nat) (g : Workgroup) (r : SaveReq) (u : State) (s : State) : Prop :=
  (s.flips = [] ∧ s.wg? h = some g ∧ s.sys.saves.find? h = some r ∧ drained s h g = true)
    ∧ (g.warps.any fun w => (((evictedAll g s).warp? w).bind (·.faultVa)).isSome) = false ∧ markedAll h g s = .ok u

section
variable {h : Nat} {g : Workgroup} {r : SaveReq} {s u v : State} {records : List Byte}

theorem saveStep_gone (hw : s.wg? h = none) (hr : s.sys.saves.find? h = some r) : saveStep h s = some (finishSave s h 1 r) := by
  unfold saveStep
  simp only [hw, hr]

theorem saveStep_complete (hc : SaveComplete h g r u s) : saveStep h s = some (sealImage u h (preempted g s) r) := by
  obtain ⟨⟨-, hw, hr, hd⟩, hfault, hmark⟩ := hc
  unfold markedAll preempted evictedAll at *
  unfold saveStep
  simp only [hw, hr, hd, hfault, hmark, Bool.not_true, Bool.false_eq_true, if_false]

theorem ctxsvSave_complete (hc : SaveComplete h g r u s) : execCtxsvSave h s = .next (sealImage u h (preempted g s) r) := by
  have ⟨⟨hf, _⟩, _⟩ := hc
  exact runEventFlip_of_some hf (saveStep_complete hc)

/-- The image of a save under no key slot, whose records can be read (R430 steps 6 to 8, R437). -/
theorem sealImage_unprotected (hslot : r.slot = 0) (hread : readRecords u g.warps = (v, .ok records)) :
    sealImage u h g r = if (r.image.map (revokedKey v)).getD false then finishSave v h 6 r
      else keepImage v h g r 0 (imageBytes v g 0 0 0 records) := by
  unfold sealImage
  simp only [hslot, if_true, hread, sealCounter, nextCounter]

/-- In the memory of a restarted host the image is not kept (R437). -/
theorem ctxsvSave_refused (hc : SaveComplete h g r u s) (hslot : r.slot = 0) (hread : readRecords u g.warps = (v, .ok records))
    (hrev : (r.image.map (revokedKey v)).getD false = true) : execCtxsvSave h s = .next (finishSave v h 6 r) := by
  rw [ctxsvSave_complete hc, sealImage_unprotected (g := preempted g s) hslot hread, if_pos hrev]

theorem ctxsvSave_kept (hc : SaveComplete h g r u s) (hslot : r.slot = 0) (hread : readRecords u g.warps = (v, .ok records))
    (hrev : (r.image.map (revokedKey v)).getD false = false) :
    execCtxsvSave h s = .next (keepImage v h (preempted g s) r 0 (imageBytes v (preempted g s) 0 0 0 records)) := by
  rw [ctxsvSave_complete hc, sealImage_unprotected (g := preempted g s) hslot hread, if_neg (Bool.eq_false_iff.1 hrev)]

end

/-! ### A host's warm restart and the end of its grace (R437) -/

@[simp] theorem revoked_agentWrite (s : State) (a : Nat) (bs : List Byte) (warp : Nat) (chan : Chan) :
    (agentWrite s a bs warp chan).revoked = s.revoked := agentWrite_keeps (·.revoked) (fun _ _ _ _ _ _ _ _ => rfl) ..

@[simp] theorem revoked_agentWriteLe (s : State) (a n x : Nat) : (agentWriteLe s a n x).revoked = s.revoked := revoked_agentWrite ..

@[simp] theorem revoked_dropCalls (s : State) (w : Nat) : (dropCalls s w).revoked = s.revoked := rfl

@[simp] theorem revoked_queueSend (s : State) (x : Send) : (queueSend s x).revoked = s.revoked := rfl

@[simp] theorem revoked_markUsed (s : State) (c : Combined) (write : Bool) : (markUsed s c write).revoked = s.revoked := by
  refine List.foldlRecOn (motive := fun t : State => t.revoked = s.revoked) _ _ rfl fun t ht x _ => ?_
  simp only [apply_ite State.revoked, revoked_agentWriteLe, ite_self, ht]

theorem revoked_xlateNow (s : State) (vf asid va : Nat) (kind : Access) (ctx : Bool) :
    (xlateNow s vf asid va kind ctx).1.revoked = s.revoked := by
  unfold xlateNow
  split
  · refine (revoked_markUsed ..).trans ?_
    split <;> rfl
  · rfl

theorem revoked_queueWrite (s : State) (q : Queue) (va : Nat) (bs : List Byte) : (queueWrite s q va bs).1.revoked = s.revoked := by
  refine List.foldlRecOn (motive := fun acc : State × Bool => acc.1.revoked = s.revoked) _ _ rfl fun acc hacc p _ => ?_
  have hx := revoked_xlateNow acc.1 q.vf q.asid p.1 .write false
  split
  · exact hacc
  · split
    · rename_i heq
      rw [heq] at hx
      split
      · exact hx.trans hacc
      · exact (revoked_agentWrite ..).trans (hx.trans hacc)
    · rename_i heq
      rw [heq] at hx
      exact hx.trans hacc

theorem revoked_failCall (s : State) (w : Nat) : (failCall s w).revoked = s.revoked := by
  unfold failCall
  split
  · simp only [apply_ite State.revoked, State.modRegs_revoked, revoked_dropCalls, revoked_queueSend, revoked_queueWrite, ite_self]
  · rfl

/-- A restart revokes the host's pages, ends its session and starts its grace. -/
theorem hostRestart_outcome (ld : Nat) (s : State) :
    ld ∉ (hostRestart ld s).pkg.sessions ∧ ld ∈ (hostRestart ld s).revoked ∧ ((hostRestart ld s).sys.graceEnd.find? ld).isSome = true := by
  refine ⟨?session, ?revoked, ?grace⟩
  case session =>
    intro h
    obtain ⟨-, hne⟩ := (NSet.mem_erase _ _ _).1 h
    exact hne rfl
  case grace =>
    unfold hostRestart
    simp only [SMap.find?_insert_self, Option.isSome_some]
  case revoked =>
    have hmem : ld ∈ NSet.insert (discardHost s ld).revoked ld := (NSet.mem_insert _ _ _).2 (.inl rfl)
    unfold hostRestart
    simp only
    refine List.foldlRecOn (motive := fun t : State => ld ∈ t.revoked) _ _ ?_ fun t ht g _ => ht
    refine List.foldlRecOn (motive := fun t : State => ld ∈ t.revoked) _ _ hmem fun t ht w _ => ?_
    split
    · rwa [revoked_failCall]
    · exact ht

/-- What a kill changes of the package's system state: freshness entries and the bit maps of images. -/
def OnlyLineages (s t : State) : Prop := ∃ lineages maps, t.sys = { s.sys with lineages := lineages, maps := maps }

/-- Steps that keep the package's system state keep it when they are taken in turn. -/
theorem sys_foldl {α : Type} {f : State → α → State} (hf : ∀ s x, (f s x).sys = s.sys) (xs : List α) (s : State) :
    (xs.foldl f s).sys = s.sys :=
  List.foldlRecOn (motive := fun t : State => t.sys = s.sys) xs f rfl fun t ht x _ => (hf t x).trans ht

theorem sys_endSaves (s : State) (h st : Nat) : (endSaves s h st).sys = s.sys := rfl

theorem sys_dropInstalls (s : State) (mine : Nat → Bool) : (dropInstalls s mine).sys = s.sys := rfl

theorem sys_unpinAll (s : State) (os : List EngineOp) : (os.foldl (fun s o => unpin s o.id) s).sys = s.sys :=
  sys_foldl (f := fun s (o : EngineOp) => unpin s o.id) (fun _ _ => rfl) os s

theorem sys_modGrid (s : State) (n : Nat) (f : Grid → Grid) : (s.modGrid n f).sys = s.sys := rfl

theorem sys_tidyBuffer (s : State) : (tidyBuffer s).sys = s.sys := rfl

theorem sys_unpair (s : State) (h : Nat) : (unpair s h).sys = s.sys := by
  unfold unpair
  split <;> rfl

@[simp] theorem sys_modVec (s : State) (vf asid v : Nat) (f : Vec → Vec) : (s.modVec vf asid v f).sys = s.sys := rfl

theorem sys_endWarp (s : State) (w : Nat) : (endWarp s w).sys = s.sys := by
  unfold endWarp
  split
  · rfl
  · dsimp only
    refine sys_foldl (fun t v => ?_) (List.range 64) s
    simp only [apply_ite State.sys, sys_modVec, ite_self]

theorem onlyLineages_dropWorkgroup (s : State) (h : Nat) : OnlyLineages s (dropWorkgroup s h) := by
  rw [OnlyLineages, ← sys_unpair s h]
  exact ⟨_, _, rfl⟩

theorem onlyLineages_killWorkgroup (s : State) (h : Nat) (again : Bool) : OnlyLineages s (killWorkgroup s h again) := by
  unfold killWorkgroup
  split
  · exact ⟨_, _, rfl⟩
  · simp only
    generalize hk : endSaves _ _ _ = t
    have ht : t.sys = s.sys := by
      rw [← hk, sys_endSaves, sys_foldl sys_endWarp, sys_dropInstalls, sys_unpinAll, sys_tidyBuffer]
    obtain ⟨_, _, hd⟩ := onlyLineages_dropWorkgroup t h
    rw [ht] at hd
    exact ⟨_, _, hd⟩

/-- What GRACE_EXPIRY does for an image that was held (R437): its workgroup is killed, its grid launches nothing more, its key slot is
cleared. -/
def imageDestroyed (s : State) (i : HeldImage) : State :=
  let grid := ((s.wg? i.wg).map (·.grid)).getD 0
  let t := (killWorkgroup s i.wg false).modGrid grid fun g => { g with dies := [], again := [] }
  if i.slot = 0 then t else clearSlot t i.slot

/-- Destroying an image ends no grace period and holds no image. -/
theorem imageDestroyed_keeps (s : State) (i : HeldImage) :
    (imageDestroyed s i).sys.graceEnd = s.sys.graceEnd ∧ (imageDestroyed s i).sys.images = s.sys.images := by
  obtain ⟨_, _, hk⟩ := onlyLineages_killWorkgroup s i.wg false
  unfold imageDestroyed
  simp only
  split
  · rw [sys_modGrid, hk]
    exact ⟨rfl, rfl⟩
  · unfold clearSlot
    rw [sys_modGrid, hk]
    exact ⟨rfl, rfl⟩

/-- When the grace of a host ends, nothing is held for it, and its period is forgotten. -/
theorem graceExpiry_outcome {ld e : Nat} {s : State} (he : s.sys.graceEnd.find? ld = some e) (hclock : e ≤ s.clock) :
    ∃ t, graceExpiry ld s = some t ∧ t.sys.graceEnd = s.sys.graceEnd.erase ld ∧ t.sys.images = s.sys.images.filter (·.ld != ld) := by
  unfold graceExpiry
  simp only [he, Nat.not_lt.2 hclock, if_false]
  refine ⟨_, rfl, ?_⟩
  refine List.foldlRecOn (motive := fun t : State => t.sys.graceEnd = s.sys.graceEnd.erase ld
    ∧ t.sys.images = s.sys.images.filter (·.ld != ld)) _ _ ⟨rfl, rfl⟩ fun t ⟨hg, hi⟩ i _ => ?_
  obtain ⟨hg', hi'⟩ := imageDestroyed_keeps t i
  exact ⟨hg'.trans hg, hi'.trans hi⟩

/-- Settles O44: the scanner's verdict, the drained save and the restart are each computed on their state. -/
theorem scansSavesAndRestarts : Obligations.ScansSavesAndRestarts := by
  unfold Obligations.ScansSavesAndRestarts
  refine ⟨?lost, ?pass, ?fail, ?gone, ?save, ?refused, ?kept, ?restart, ?grace⟩
  case lost => exact fun die r f s ⟨hr, hw⟩ => runEvent_of_some (scanDone_lost hr hw)
  case pass =>
    intro die r l l2 starts s ⟨hr, hreach, hv⟩
    refine ⟨_, runEvent_of_some (scanDone_pass hr hreach hv), ?_⟩
    obtain ⟨hreports, hscans, hwarps, hsame, hset⟩ := scanEnd_passed r l starts (scanBegun r s)
    exact ⟨hreports, hscans, hwarps, fun h => hsame (by rw [h]; rfl), fun h => hset (by rw [h]; rfl)⟩
  case fail =>
    intro die r l l2 reason off slot len s ⟨hr, hreach, hv⟩
    exact ⟨_, runEvent_of_some (scanDone_fail hr hreach hv), scanEnd_failed r l reason off slot _ (scanBegun r s)⟩
  case gone => exact fun h r s ⟨hf, hw, hr⟩ => runEventFlip_of_some hf (saveStep_gone hw hr)
  case save => exact fun h g r u s hc => ctxsvSave_complete hc
  case refused => exact fun h g r u v records s ⟨hc, hslot, hread, hrev⟩ => ctxsvSave_refused hc hslot hread hrev
  case kept => exact fun h g r u v records s ⟨hc, hslot, hread, hrev⟩ => ctxsvSave_kept hc hslot hread hrev
  case restart => exact fun ld s hf => ⟨_, runEventFlip_of_some hf rfl, hostRestart_outcome ld s⟩
  case grace =>
    intro ld e s ⟨hf, he, hclock⟩
    obtain ⟨t, ht, hg, hi⟩ := graceExpiry_outcome he hclock
    refine ⟨t, runEventFlip_of_some hf ht, by rw [hg, SMap.find?_erase_self], fun i hm => ?_⟩
    rw [hi] at hm
    simpa using (List.mem_filter.1 hm).2

end Sys2Proof.Machine
end

section
/-!
SUPPORT. Translation, agents' writes and the reads of a queue neither read nor change the warps.
-/

namespace Sys2Proof.Machine

/-- The state with other warps. -/
def State.withWarps (s : State) (ws : SMap Warp) : State := { s with warps := ws }

section
variable (s : State) (ws : SMap Warp)

/-! ### Walks -/

theorem walk2From_withWarps (cluster : Option Nat) (vf ia n tbl : Nat) (used : List Used) :
    walk2From (s.withWarps ws) cluster vf ia n tbl used = walk2From s cluster vf ia n tbl used := by
  induction n generalizing tbl used with
  | zero => rfl
  | succ n ih =>
    unfold walk2From
    simp only [ih]
    rfl

theorem walk2_withWarps (cluster : Option Nat) (vf ia : Nat) : walk2 (s.withWarps ws) cluster vf ia = walk2 s cluster vf ia := by
  unfold walk2
  simp only [walk2From_withWarps]
  rfl

theorem walk1From_withWarps (cluster : Option Nat) (vf va n tbl : Nat) (used : List Used1) :
    walk1From (s.withWarps ws) cluster vf va n tbl used = walk1From s cluster vf va n tbl used := by
  induction n generalizing tbl used with
  | zero => rfl
  | succ n ih =>
    unfold walk1From
    simp only [ih, walk2_withWarps]
    rfl

theorem walk1_withWarps (cluster : Option Nat) (vf asid va : Nat) :
    walk1 (s.withWarps ws) cluster vf asid va = walk1 s cluster vf asid va := by
  unfold walk1
  simp only [walk1From_withWarps]
  rfl

theorem combine_withWarps (cluster : Option Nat) (vf asid va : Nat) (kind : Access) (ctx marks : Bool) :
    combine (s.withWarps ws) cluster vf asid va kind ctx marks = combine s cluster vf asid va kind ctx marks := by
  unfold combine
  simp only [walk1_withWarps, walk2_withWarps]
  rfl

/-! ### Agents' writes -/

/-- Two choices under one condition commute with other warps where their branches do. -/
theorem ite_withWarps {p : Prop} [Decidable p] {t u t' u' : State} (ht : t' = t.withWarps ws) (hu : u' = u.withWarps ws) :
    (if p then t' else u') = (if p then t else u).withWarps ws := by
  split
  · exact ht
  · exact hu

theorem llcFill_withWarps (slice line : Nat) (remote : Bool) :
    llcFill (s.withWarps ws) slice line remote = (llcFill s slice line remote).withWarps ws := by
  refine ite_withWarps ws rfl (ite_withWarps ws rfl (ite_withWarps ws rfl ?_))
  dsimp only [State.withWarps]
  split <;> rfl

theorem llcWrite_withWarps (lines : List Nat) : llcWrite (s.withWarps ws) lines = (llcWrite s lines).withWarps ws := by
  unfold llcWrite
  exact List.foldl_hom (State.withWarps · ws) (init := { s with
    copies := lines.foldl (fun m l => m.put 0 l 0) s.copies, llc := s.llc.filter fun l => !(l.remote && lines.contains l.line) })
    fun t l => ite_withWarps ws (llcFill_withWarps t ws ..) rfl

theorem setCells_withWarps (cs : List Host.Cell) : (s.withWarps ws).setCells cs = (s.setCells cs).withWarps ws :=
  List.foldl_hom (State.withWarps · ws) fun _ _ => rfl

theorem perform_withWarps (wid : Nat) (core : Option Nat) (warp : Nat) (lanes : BitVec 32) (seq : Nat) (chan : Chan) (scope : Scope)
    (base size : Nat) (cells : List Host.Cell) :
    perform (s.withWarps ws) wid core warp lanes seq chan scope base size cells
      = (perform s wid core warp lanes seq chan scope base size cells).withWarps ws := by
  unfold perform
  simp only [llcWrite_withWarps, setCells_withWarps]
  rfl

theorem agentWriteLe_withWarps (a n x : Nat) : agentWriteLe (s.withWarps ws) a n x = (agentWriteLe s a n x).withWarps ws :=
  perform_withWarps { s with nextId := s.nextId + 1, seq := s.seq + 1 } ws ..

/-! ### Translations made at once -/

theorem markUsed_withWarps (c : Combined) (write : Bool) : markUsed (s.withWarps ws) c write = (markUsed s c write).withWarps ws := by
  refine List.foldl_hom (State.withWarps · ws) fun t u => ?_
  simp only [agentWriteLe_withWarps, apply_ite (State.withWarps · ws)]
  rfl

/-- A state that comes with an answer, with other warps. -/
def answerWithWarps {α : Type} (r : State × α) : State × α := (r.1.withWarps ws, r.2)

theorem xlateNow_withWarps (vf asid va : Nat) (kind : Access) (ctx : Bool) :
    xlateNow (s.withWarps ws) vf asid va kind ctx = answerWithWarps ws (xlateNow s vf asid va kind ctx) := by
  unfold xlateNow
  rw [combine_withWarps]
  split
  · simp only [answerWithWarps, ← markUsed_withWarps, apply_ite (State.withWarps · ws)]
    rfl
  · rfl

theorem queueRead_withWarps (q : Queue) (va n : Nat) : queueRead (s.withWarps ws) q va n = answerWithWarps ws (queueRead s q va n) := by
  refine List.foldl_hom (answerWithWarps ws) (init := ((s, .ok []) : State × Except (FaultCode × Nat) (List Byte))) fun acc p => ?_
  obtain ⟨t, _ | bs⟩ := acc
  · rfl
  · simp only [answerWithWarps, xlateNow_withWarps]
    split
    · rfl
    · rcases xlateNow t q.vf q.asid p.1 .read with ⟨u, pa | f⟩
      · simp only [show hostPageLost (u.withWarps ws) q.vf pa = hostPageLost u q.vf pa from rfl]
        cases hostPageLost u q.vf pa <;> rfl
      · rfl

end
end Sys2Proof.Machine
end

section
/-!
PROOF. The scheduler's notes are current when the clock moves on (O57).
-/

namespace Sys2Proof.Machine

/-! ### States without the scheduler's notes -/

/-- A path without its age. -/
def Path.unnoted (q : Path) : Path := { q with age := none }

/-- A warp without its place in line and without its paths' ages. -/
def Warp.unnoted (x : Warp) : Warp :=
  { x with waitingSince := none, regs := { x.regs with paths := x.regs.paths.map fun q => (q.1, q.2.unnoted) } }

/-- A state of which the scheduler's notes have been erased. -/
def State.unnoted (s : State) : State := s.withWarps (s.warps.map fun n => (n.1, n.2.unnoted))

section
variable (s : State) (w : Nat) (x : Warp) (p : Nat) (q : Path)

theorem warp?_unnoted : s.unnoted.warp? w = (s.warp? w).map Warp.unnoted := SMap.find?_map Warp.unnoted s.warps w

/-- A test of warps that does not see the notes tests alike where they have been erased. -/
theorem map_warp?_unnoted {α : Type} {f : Warp → α} (hf : ∀ y, f y.unnoted = f y) : (s.unnoted.warp? w).map f = (s.warp? w).map f := by
  rw [warp?_unnoted, Option.map_map]
  exact Option.map_congr fun y _ => hf y

/-- A test of all paths of a warp that does not see their ages. -/
theorem all_paths_unnoted {f g : Nat × Path → Bool} (h : ∀ q, f (q.1, q.2.unnoted) = g q) : x.unnoted.regs.paths.all f = x.regs.paths.all g :=
  List.all_map.trans (congrArg (List.all x.regs.paths) (funext h))

/-! ### The end of a wait -/

theorem exited_unnoted : x.unnoted.exited = x.exited := by
  simp only [Warp.exited, Warp.unnoted, List.isEmpty_map]

theorem shufReady_unnoted (k : Nat) : shufReady s.unnoted x.unnoted k = shufReady s x k := by
  unfold shufReady
  rw [show s.unnoted.eng = s.eng from rfl]
  split
  · rfl
  · rw [warp?_unnoted]
    cases s.warp? _ with
    | none => rfl
    | some y =>
      simp only [Option.map_some, exited_unnoted]
      rfl

theorem haltReady_unnoted (wg n : Nat) (paths : BitVec 32) : haltReady s.unnoted wg n paths = haltReady s wg n paths := by
  have hin : warpIn s.unnoted wg n = warpIn s wg n := by
    unfold warpIn
    refine congrArg (Option.bind _) (funext fun v => ?_)
    rw [warp?_unnoted]
    cases s.warp? v with
    | none => rfl
    | some y =>
      simp only [Option.map_some, Option.filter_some, show y.unnoted.released = y.released from rfl]
      cases y.released <;> rfl
  unfold haltReady
  rw [hin]
  cases warpIn s wg n with
  | none => rfl
  | some v =>
    simp only [Option.bind_some, warp?_unnoted]
    cases s.warp? v with
    | none => rfl
    | some y => exact all_paths_unnoted y fun _ => rfl

theorem callState_unnoted : (callState s.unnoted x.unnoted).2 = (callState s x).2 := by
  unfold callState
  rw [show callSlotOf s.unnoted x.unnoted = callSlotOf s x from rfl, State.unnoted, queueRead_withWarps]
  rw [show x.unnoted.vf = x.vf from rfl, show x.unnoted.asid = x.asid from rfl]
  rcases queueRead s { vf := x.vf, asid := x.asid } (callSlotOf s x) 128 with ⟨t, _ | bs⟩ <;> rfl

theorem waitReady_unnoted (wt : Wait) : waitReady s.unnoted w x.unnoted p q.unnoted wt = waitReady s w x p q wt := by
  cases wt
  case shuf k => exact shufReady_unnoted s x k
  case halting wg n paths => exact haltReady_unnoted s wg n paths
  case emulation => exact all_paths_unnoted x fun _ => rfl
  case remote n r =>
    simp only [waitReady, warp?_unnoted]
    cases s.warp? n <;> rfl
  case callIdle =>
    simp only [waitReady, callState_unnoted]
  case callRead =>
    simp only [waitReady, callState_unnoted]
  all_goals rfl

theorem free_unnoted : q.unnoted.free s.unnoted w x.unnoted p = q.free s w x p := by
  have hready : waitReady s.unnoted w x.unnoted p q.unnoted = waitReady s w x p q := funext fun wt => waitReady_unnoted s w x p q wt
  unfold Path.free
  rw [hready]
  rfl

theorem mayStart_unnoted : mayStart s.unnoted x.unnoted = mayStart s x := by
  have hlane (t : Nat) := map_warp?_unnoted s t (f := fun y => (y.trap.bind (·.inner)).isNone) fun _ => rfl
  unfold mayStart
  rw [show x.unnoted.kind = x.kind from rfl]
  simp only [hlane]
  rfl

theorem chosenPath_unnoted : chosenPath x.unnoted.regs = chosenPath x.regs := by
  unfold chosenPath
  simp only [Warp.unnoted, List.find?_map, Option.map_map]
  rfl

theorem pendingDelivery_unnoted : pendingDelivery s.unnoted x.unnoted = pendingDelivery s x := by
  unfold pendingDelivery
  rw [chosenPath_unnoted]
  rfl

/-! ### Fetches -/

/-- What a fetch finds, whatever it has started where it finds nothing: a guest word, or a fault. -/
def Fetch.found : Fetch → Option (Option Guest)
  | .word g _ => some (some g)
  | .bad _ _ => some none
  | .first _ | .filling => none

theorem found_startFill (pid a : Nat) : (startFill s x pid a).found = none := by
  unfold startFill
  split <;> rfl

theorem found_fetchLine_unnoted (pid a : Nat) : (fetchLine s.unnoted x.unnoted pid a).found = (fetchLine s x pid a).found := by
  unfold fetchLine
  rw [show gazetteer s.unnoted x.unnoted pid a = gazetteer s x pid a from rfl,
    show s.unnoted.personalities = s.personalities from rfl]
  split
  · rfl
  · split
    · rfl
    · rw [found_startFill, found_startFill]

theorem raised_unnoted (vf asid page : Nat) (stage2 : Bool) (kind : Access) :
    (raiseRequest s.unnoted vf asid page stage2 kind).2 = (raiseRequest s vf asid page stage2 kind).2 := by
  unfold raiseRequest
  rw [show s.unnoted.ring? vf .pageRequest = s.ring? vf .pageRequest from rfl, show s.unnoted.requests = s.requests from rfl,
    show freeRid s.unnoted vf = freeRid s vf from rfl]
  split
  · rfl
  · split
    · rfl
    · split <;> rfl

/-- What a fetch finds on an absent page, by what raising the page request has answered (R275). -/
def fetchRaised (w p vf a : Nat) (r : State × Raised) : Fetch :=
  match r with
  | (s, .rid n) => parkFetch s w p (.requests vf [n])
  | (s, .full) => parkFetch s w p (.requestRoom vf [])
  | (_, .noRing) => .bad .pfault (BitVec.ofNat 64 a)

theorem found_fetchRaised (vf a : Nat) {r r' : State × Raised} (h : r.2 = r'.2) :
    (fetchRaised w p vf a r).found = (fetchRaised w p vf a r').found := by
  obtain ⟨t, b⟩ := r
  obtain ⟨t', b'⟩ := r'
  obtain rfl : b = b' := h
  cases b <;> rfl

theorem found_fetchVa_unnoted (a : Nat) : (fetchVa s.unnoted w p x.unnoted q.unnoted a).found = (fetchVa s w p x q a).found := by
  unfold fetchVa
  rw [show lookupVa s.unnoted x.unnoted q.unnoted a .fetch = lookupVa s x q a .fetch from rfl,
    show x.unnoted.privileged = x.privileged from rfl, show pageId s.unnoted x.unnoted a = pageId s x a from rfl]
  split
  · exact found_fetchLine_unnoted s x 0 a
  · split
    · exact found_fetchLine_unnoted s x _ a
    · rfl
    · rfl
    · rename_i st tb pg _
      exact found_fetchRaised w p x.vf a (raised_unnoted s x.vf x.asid pg st (if tb then .read else .fetch))
    · rfl

theorem found_fetchAt_unnoted : (fetchAt s.unnoted w p x.unnoted q.unnoted).found = (fetchAt s w p x q).found := by
  unfold fetchAt
  rw [show q.unnoted.pcHi = q.pcHi from rfl, show q.unnoted.clause = q.clause from rfl, show q.unnoted.pc = q.pc from rfl]
  split
  · rfl
  · split
    · rfl
    · exact found_fetchVa_unnoted s w x p q _

/-- A path may start a clause at what it has found: a fault, or a guest word that is no header whose flags it waits for. -/
def startsAt (x : Warp) : Option (Option Guest) → Bool
  | some (some g) => ((headerOf g).map fun h => headerBad h.1 x || x.regs.flagsClear h.1.waits).getD true
  | some none => true
  | none => false

theorem competes_eq : competes s w p x q = (mayStart s x && q.clause.isNone && !q.park && !q.halted && !q.stopped && q.free s w x p
    && (pendingDelivery s x).map (·.2) != some p && startsAt x (fetchAt s w p x q).found) := by
  unfold competes
  congr 1
  cases fetchAt s w p x q with
  | word g w8 =>
    simp only [Fetch.found, startsAt]
    cases headerOf g <;> rfl
  | bad | first | filling => rfl

theorem competes_unnoted : competes s.unnoted w p x.unnoted q.unnoted = competes s w p x q := by
  rw [competes_eq, competes_eq, mayStart_unnoted, free_unnoted, pendingDelivery_unnoted, found_fetchAt_unnoted]
  rfl

theorem activatable_unnoted : activatable s.unnoted w x.unnoted = activatable s w x := by
  have hpaths : x.unnoted.regs.paths.isEmpty = x.regs.paths.isEmpty := List.isEmpty_map ..
  have hany : (x.unnoted.regs.paths.any fun q => !q.2.park && !q.2.halted && !q.2.stopped && q.2.free s.unnoted w x.unnoted q.1)
      = x.regs.paths.any fun q => !q.2.park && !q.2.halted && !q.2.stopped && q.2.free s w x q.1 := by
    refine List.any_map.trans (congrArg (List.any x.regs.paths) (funext fun q => ?_))
    simp only [Function.comp_apply, free_unnoted]
    rfl
  unfold activatable
  rw [hpaths, hany]
  rfl

end

/-! ### What the scheduler notes -/

theorem unnoted_noteAge (s : State) (w : Nat) (x : Warp) (p : Nat) (q : Path) : (noteAge s w x p q).unnoted = q.unnoted := by
  unfold noteAge
  split_ifs <;> rfl

theorem age_noteAge (s : State) (w : Nat) (x : Warp) (p : Nat) (q : Path) : (noteAge s w x p q).age.isSome = competes s w p x q := by
  unfold noteAge
  cases hc : competes s w p x q <;> cases ha : q.age <;> simp [ha]

/-- What the scheduler notes of one warp. -/
def noteWarp (s : State) (w : Nat) (x : Warp) : Warp :=
  { noteWaiting s w x with regs := { (noteWaiting s w x).regs with
      paths := (noteWaiting s w x).regs.paths.map fun q => (q.1, noteAge s w x q.1 q.2) } }

theorem unnoted_noteWaiting (s : State) (w : Nat) (x : Warp) : (noteWaiting s w x).unnoted = x.unnoted := by
  unfold noteWaiting
  split_ifs <;> rfl

theorem waitingSince_noteWaiting (s : State) (w : Nat) (x : Warp) : (noteWaiting s w x).waitingSince.isSome = activatable s w x := by
  unfold noteWaiting
  cases ha : activatable s w x <;> cases hn : x.waitingSince <;> simp [hn]

theorem unnoted_noteWarp (s : State) (w : Nat) (x : Warp) : (noteWarp s w x).unnoted = x.unnoted := by
  rw [← unnoted_noteWaiting s w x]
  unfold noteWarp Warp.unnoted
  simp only [List.map_map, Function.comp_def, unnoted_noteAge]

theorem noteRunnable_eq (s : State) : noteRunnable s = s.withWarps (s.warps.map fun n => (n.1, noteWarp s n.1 n.2)) := rfl

theorem unnoted_noteRunnable (s : State) : (noteRunnable s).unnoted = s.unnoted := by
  rw [noteRunnable_eq]
  unfold State.unnoted State.withWarps
  simp only [List.map_map, Function.comp_def, unnoted_noteWarp]

/-- Noting changes neither who competes nor who may be activated. -/
theorem competes_noteRunnable (s : State) (w p : Nat) (x : Warp) (q : Path) :
    competes (noteRunnable s) w p (noteWarp s w x) (noteAge s w x p q) = competes s w p x q := by
  rw [← competes_unnoted, unnoted_noteRunnable, unnoted_noteWarp, unnoted_noteAge, competes_unnoted]

theorem activatable_noteRunnable (s : State) (w : Nat) (x : Warp) :
    activatable (noteRunnable s) w (noteWarp s w x) = activatable s w x := by
  rw [← activatable_unnoted, unnoted_noteRunnable, unnoted_noteWarp, activatable_unnoted]

/-- The scheduler's notes are current: the activatable warps stand in line, and the competing paths have an age. -/
def NotesCurrent (s : State) : Prop :=
  ∀ n ∈ s.warps, (activatable s n.1 n.2 = n.2.waitingSince.isSome) ∧ ∀ p ∈ n.2.regs.paths, competes s n.1 p.1 n.2 p.2 = p.2.age.isSome

theorem regs_noteWaiting (s : State) (w : Nat) (x : Warp) : (noteWaiting s w x).regs = x.regs := by
  unfold noteWaiting
  split_ifs <;> rfl

theorem notesCurrent_noteRunnable (s : State) : NotesCurrent (noteRunnable s) := by
  intro n hn
  obtain ⟨⟨w, x⟩, -, rfl⟩ := List.mem_map.1 hn
  refine ⟨(activatable_noteRunnable s w x).trans (waitingSince_noteWaiting s w x).symm, fun p hp => ?_⟩
  obtain ⟨⟨p, q⟩, -, rfl⟩ := List.mem_map.1 hp
  exact (competes_noteRunnable s w p x q).trans (age_noteAge s w x p q).symm

/-- A step that answers a next state ends with a tick of the clock. -/
theorem eq_tick_of_step {s t : State} (h : step s = .next t) : ∃ r, t = tick r := by
  unfold step onNext at h
  split at h
  · cases h
    exact ⟨_, rfl⟩
  · cases h
  · cases h

/-- Settles O57: a step ends by noting who competes and who may be activated, and neither depends on the notes. -/
theorem notesAreCurrentAfterEveryStep : Obligations.NotesAreCurrentAfterEveryStep := by
  unfold Obligations.NotesAreCurrentAfterEveryStep
  intro current s t h
  obtain ⟨r, rfl⟩ := eq_tick_of_step h
  exact ⟨noteRunnable r, notesCurrent_noteRunnable r, rfl, Nat.lt_add_right _ (Nat.lt_succ_self r.clock)⟩

end Sys2Proof.Machine
end

section
/-!
PROOF. Calls, returns, and the whole-path instructions (O12, O13, O14).
-/

namespace Sys2Proof.Machine

/-! ### Slots used beyond the operands -/

/-- Slots with no write outstanding that are in the register cache let an instruction go on (R39, R347). -/
theorem withSlots_of_ready {c : Ctx} {s : State} {slots : List Nat} (h : SlotsReady c s slots) (f : Unit → Res) :
    withSlots c s slots f = f () := by
  obtain ⟨hbusy, hheld⟩ := h
  have hfree : (slots.map Reg.slot).filter (busyRegs s c.w).contains = [] := by
    rw [List.filter_eq_nil_iff]
    intro r hr
    obtain ⟨n, hn, rfl⟩ := List.mem_map.1 hr
    simpa using hbusy n hn
  unfold withSlots
  rw [hfree]
  cases hw : s.warp? c.w with
  | none => rfl
  | some x =>
    rw [hw] at hheld
    simp only [List.isEmpty_iff.1 hheld]

/-- A transfer of the lanes whose guard is true moves them, if there are any (R142). -/
theorem transfer_of_active {c : Ctx} (h : c.act ≠ 0) (s : State) (goal : Nat → Goal) :
    transfer c s c.act goal c.stay = .moved (moveLanes (fun _ => goal) Ctx.fallThrough c s) := by
  rw [transfer, if_neg h, c.stay_eq]
  rfl

/-! ### Calls (R149, R160) -/

namespace Ctx

/-- The slide of a call. -/
def slide (c : Ctx) : Nat := c.f.d.toNat

/-- The callee's first slot. -/
def calleeBase (c : Ctx) : Nat := c.path.wbase.toNat + c.slide

/-- The frame of CALL: 0 stands for 256. -/
def frame (c : Ctx) : Nat := if c.f.fa = 0 then 256 else c.f.fa.toNat

/-- The frame of CALLX, in eights: 0 stands for 256. -/
def frameX (c : Ctx) : Nat := if c.q / 4 = 0 then 256 else 8 * (c.q / 4)

/-- The slots of the link record with their words (R149). -/
def linkRecord (c : Ctx) : List (Nat × Word32) :=
  [(c.calleeBase - 4, c.fallThrough.pc.truncate 32), (c.calleeBase - 3, (c.fallThrough.pc.extractLsb' 32 25).zeroExtend 32),
   (c.calleeBase - 2, BitVec.ofNat 32 ((c.path.wtop.toNat - c.path.wbase.toNat) * 256 + c.slide)), (c.calleeBase - 1, c.path.iter)]

/-- Where a call moves its lanes. -/
def callee (c : Ctx) (frame : Nat) (target : BitVec 57 × BitVec 7) : Goal :=
  { pc := target.1, pcHi := target.2, wbase := BitVec.ofNat 16 c.calleeBase, wtop := BitVec.ofNat 17 (c.calleeBase + frame), iter := 0
    depth := c.path.depth + 1 }

theorem slots_linkRecord {c : Ctx} (h : 4 ≤ c.calleeBase) :
    (List.range 4).map (fun i => c.calleeBase - 4 + i) = c.linkRecord.map (·.1) := by
  simp only [linkRecord, List.map_cons, List.map_nil, List.range_succ, List.range_zero, List.nil_append, List.cons_append,
    List.cons.injEq, and_true]
  omega

theorem words_linkRecord (c : Ctx) : linkWords c c.slide = c.linkRecord.map (·.2) := by
  simp only [linkWords, linkRecord, fallThrough, fallPc, addPc, BitVec.ofInt_natCast, List.map_cons, List.map_nil]
  rfl

end Ctx

section
variable {c : Ctx} {s : State} {frame : Ctx → Nat} {target : Ctx → Nat → BitVec 57 × BitVec 7}

/-- What a call needs in order to enter the callee. -/
def CallFits (frame : Ctx → Nat) (c : Ctx) (s : State) : Prop :=
  c.act ≠ 0 ∧ c.slide ≤ c.path.wtop.toNat - c.path.wbase.toNat ∧ c.calleeBase + frame c ≤ c.warp.regs.stackSize ∧ 4 ≤ c.calleeBase
    ∧ SlotsReady c (prepare c s) (c.linkRecord.map (·.1))

/-- The state in which the callee runs: the link record is written, the lanes have moved, the callee's frame is allocated. -/
def callEntered (frame : Ctx → Nat) (target : Ctx → Nat → BitVec 57 × BitVec 7) (c : Ctx) (s : State) : State :=
  allocateFrame
    (moveLanes (fun c l => c.callee (frame c) (target c l)) Ctx.fallThrough c
      (c.linkRecord.foldl (fun s n => s.modWarp c.w fun x => x.setRow n.1 c.act (Row.ofFn fun _ => n.2)) s))
    c.w c.calleeBase (c.calleeBase + frame c)

theorem callTo_of_fits (h : CallFits frame c s) :
    callTo c (prepare c s) c.slide (frame c) (target c) = .moved (callEntered frame target c (prepare c s)) := by
  obtain ⟨hact, hslide, hframe, hlink, hready⟩ := h
  have hbase : c.path.wbase.toNat + c.slide = c.calleeBase := rfl
  have hslots := Ctx.slots_linkRecord hlink
  have hzip : (c.linkRecord.map (·.1)).zip (linkWords c c.slide) = c.linkRecord := by
    rw [c.words_linkRecord]
    exact List.zip_unzip c.linkRecord
  simp only [callTo, hbase, if_neg hact, if_neg (Nat.not_lt.2 hslide), if_neg (Nat.not_lt.2 hframe), hslots, withSlots_of_ready hready,
    hzip, transfer_of_active hact]
  rfl

theorem callTo_of_wide {fr : Nat} {target : Nat → BitVec 57 × BitVec 7}
    (h : c.act ≠ 0 ∧ c.path.wtop.toNat - c.path.wbase.toNat < c.slide) :
    callTo c s c.slide fr target = .trap .regbound (BitVec.ofNat 64 c.slide) := by
  simp only [callTo, if_neg h.1, if_pos h.2]

theorem callTo_of_deep {fr : Nat} {target : Nat → BitVec 57 × BitVec 7} (hact : c.act ≠ 0)
    (hslide : c.slide ≤ c.path.wtop.toNat - c.path.wbase.toNat) (hdeep : c.warp.regs.stackSize < c.calleeBase + fr) :
    callTo c s c.slide fr target = .trap .winovf (BitVec.ofNat 64 (c.calleeBase + fr)) := by
  have hbase : c.path.wbase.toNat + c.slide = c.calleeBase := rfl
  simp only [callTo, hbase, if_neg hact, if_neg (Nat.not_lt.2 hslide), if_pos hdeep]

end

/-! #### A call by its body -/

section
variable {opc : Nat} {f : Form} {body : Ctx → State → Res} {frame : Ctx → Nat} {target : Ctx → Nat → BitVec 57 × BitVec 7}

theorem transfers_call (hb : ∀ c s, body c s = callTo c s c.slide (frame c) (target c)) :
    Transfers (runIop opc f body) opc f (CallFits frame) (callEntered frame target) :=
  transfers_of_body fun _ c _ h => (hb c _).trans (callTo_of_fits h)

theorem faults_call_wide (hb : ∀ c s, body c s = callTo c s c.slide (frame c) (target c)) :
    Faults (runIop opc f body) opc f (fun c _ => c.act ≠ 0 ∧ c.path.wtop.toNat - c.path.wbase.toNat < c.slide) .regbound
      fun c _ => BitVec.ofNat 64 c.slide :=
  faults_of_body fun _ c _ h => (hb c _).trans (callTo_of_wide h)

theorem faults_call_deep (hb : ∀ c s, body c s = callTo c s c.slide (frame c) (target c)) :
    Faults (runIop opc f body) opc f
      (fun c _ => c.act ≠ 0 ∧ c.slide ≤ c.path.wtop.toNat - c.path.wbase.toNat ∧ c.warp.regs.stackSize < c.calleeBase + frame c) .winovf
      fun c _ => BitVec.ofNat 64 (c.calleeBase + frame c) :=
  faults_of_body fun _ c _ h => (hb c _).trans (callTo_of_deep h.1 h.2.1 h.2.2)

end

/-- The target of CALL: the instruction's address plus twice the signed offset. -/
def Ctx.callTarget (c : Ctx) (_ : Nat) : BitVec 57 × BitVec 7 := (c.offset, 0)

theorem callBody_eq (c : Ctx) (s : State) : callBody c s = callTo c s c.slide c.frame c.callTarget := by
  rw [callBody, c.target_eq]
  rfl

theorem callxBody_eq (c : Ctx) (s : State) : callxBody c s = callTo c s c.slide c.frameX c.regTarget := by
  rw [callxBody, Nat.mul_comm]
  rfl

theorem transfers_call_row (x : BForm) : Transfers (execCall x) 0x004 (.b x) (CallFits Ctx.frame) (callEntered Ctx.frame Ctx.callTarget) :=
  transfers_call callBody_eq

/-- Settles O12: both bodies are one call, which checks the slide, then the frame, and then enters the callee. -/
theorem callsWriteLinkRecords : Obligations.CallsWriteLinkRecords := by
  unfold Obligations.CallsWriteLinkRecords
  exact ⟨transfers_call_row, fun x => transfers_call callxBody_eq, fun x => faults_call_wide callBody_eq,
    fun x => faults_call_wide callxBody_eq, fun x => faults_call_deep callBody_eq, fun x => faults_call_deep callxBody_eq,
    fun g a f o => transfers_call_row (j32CallOp g a f o)⟩

/-! ### Returns (R161) -/

namespace Ctx
variable (c : Ctx) (l : Nat)

/-- The caller's first slot, from the slide in the link record of a lane. -/
def callerBase : BitVec 16 := c.path.wbase - BitVec.ofNat 16 ((c.linkWord 2 l).toNat % 256)

/-- The end of the caller's window, from its frame in the link record. -/
def callerTop : BitVec 17 := BitVec.ofNat 17 ((c.callerBase l).toNat + (c.linkWord 2 l).toNat / 256 % 512)

/-- The return PC of the link record. -/
def returnPc : BitVec 57 := BitVec.ofNat 57 ((c.linkWord 3 l).toNat % 2 ^ 25 * 2 ^ 32 + (c.linkWord 4 l).toNat)

/-- Where a return moves a lane: the return PC, window and ITER of its link record. -/
def caller : Goal :=
  { pc := c.returnPc l, wbase := c.callerBase l, wtop := c.callerTop l, iter := c.linkWord 1 l, depth := c.path.depth - 1 }

theorem callerBase_eq : c.path.wbase - ((c.linkWord 2 l).truncate 8).zeroExtend 16 = c.callerBase l := by
  refine congrArg (c.path.wbase - ·) (BitVec.eq_of_toNat_eq ?_)
  simp

theorem callerTop_eq : (c.callerBase l).zeroExtend 17 + ((c.linkWord 2 l).extractLsb' 8 9).zeroExtend 17 = c.callerTop l := by
  apply BitVec.eq_of_toNat_eq
  simp [callerTop, Nat.shiftRight_eq_div_pow]

theorem returnPc_eq : (c.linkWord 3 l).truncate 25 ++ c.linkWord 4 l = c.returnPc l := by
  have hlt : (c.linkWord 3 l).toNat % 2 ^ 25 * 2 ^ 32 + (c.linkWord 4 l).toNat < 2 ^ 57 := by omega
  apply BitVec.eq_of_toNat_eq
  rw [returnPc, BitVec.toNat_ofNat, Nat.mod_eq_of_lt hlt, BitVec.toNat_append, Nat.shiftLeft_eq, BitVec.truncate_eq_setWidth,
    BitVec.toNat_setWidth, Nat.mul_comm, ← Nat.two_pow_add_eq_or_of_lt (c.linkWord 4 l).isLt, Nat.mul_comm]

end Ctx

section
variable {c : Ctx} {s : State}

/-- What a return needs in order to reach the callers. -/
def ReturnLinked (c : Ctx) (s : State) : Prop :=
  c.act ≠ 0 ∧ c.path.depth ≠ 0 ∧ SlotsReady c (prepare c s) ((List.range 4).map fun k => c.path.wbase.toNat - 4 + k)
    ∧ ((lanesOf c.act).all fun l => decide ((c.linkWord 2 l).toNat % 256 ≠ 0)) = true

/-- The state in which the callers run again: the lanes have moved, and the refills of their windows have started. -/
def returned (c : Ctx) (s : State) : State :=
  (NSet.insertAll [] ((lanesOf c.act).map fun l => (c.caller l).wbase.toNat * 2 ^ 17 + (c.caller l).wtop.toNat)).foldl
    (fun s k => refillWindow s c.w (k / 2 ^ 17) (k % 2 ^ 17)) (moveLanes Ctx.caller Ctx.fallThrough c s)

theorem retBody_of_linked (h : ReturnLinked c s) : retBody c (prepare c s) = .moved (returned c (prepare c s)) := by
  obtain ⟨hact, hdepth, hready, hslide⟩ := h
  have hno : ((lanesOf c.act).any fun l => (c.linkWord 2 l).toNat % 256 == 0) = false := by
    rw [List.any_eq_false]
    intro l hl
    simpa using of_decide_eq_true (List.all_eq_true.1 hslide l hl)
  simp only [retBody, if_neg hact, if_neg hdepth, withSlots_of_ready hready, hno, Bool.false_eq_true, if_false, Ctx.callerBase_eq,
    Ctx.callerTop_eq, Ctx.returnPc_eq, transfer_of_active hact]
  simp only [returned, moveLanes, Ctx.caller]

theorem retBody_of_outermost (h : c.act ≠ 0 ∧ c.path.depth = 0) : retBody c s = .trap .winovf 1 := by
  simp only [retBody, if_neg h.1, if_pos h.2]

end

theorem transfers_ret (x : BForm) : Transfers (execRet x) 0x006 (.b x) ReturnLinked returned :=
  transfers_of_body fun _ _ _ h => retBody_of_linked h

/-- Settles O13: a return reads where each lane goes from the link record, and moves the lanes as a transfer does. -/
theorem returnsRestoreCallers : Obligations.ReturnsRestoreCallers := by
  unfold Obligations.ReturnsRestoreCallers
  exact ⟨transfers_ret, fun x => faults_of_body fun _ _ _ h => retBody_of_outermost h, fun g => transfers_ret _, transfers_ret _⟩

/-! ### EXIT, YIELD, WAITF and NOP (R162, R163) -/

namespace Ctx
variable (c : Ctx)

/-- The lanes that stay when the active ones exit. -/
def lanesLeft : BitVec 32 := c.path.lmask &&& ~~~c.act

/-- The flags that WAITF names. -/
def namedFlags : List Nat :=
  (if c.q.testBit 0 then [c.f.fa.toNat] else []) ++ (if c.q.testBit 1 then [c.f.fb.toNat] else []) ++ if c.q.testBit 2 then [c.f.fc.toNat] else []

/-- The mask of the flags that WAITF names. -/
def namedMask : BitVec 12 := c.namedFlags.foldl (fun m n => m ||| (1#12 <<< n)) 0

/-- A flag that may be named adds its bit where it is. -/
theorem foldl_namedFlag (p : Prop) [Decidable p] (n : Nat) (m : BitVec 12) :
    (if p then [n] else []).foldl (fun m n => m ||| (1#12 <<< n)) m = m ||| (if p then 1#12 <<< n else 0) := by
  split <;> simp

theorem flagMask_eq : c.flagMask = c.namedMask := by
  simp only [flagMask, namedMask, namedFlags, List.foldl_append, foldl_namedFlag, BitVec.ofNat_eq_ofNat, BitVec.zero_or,
    Nat.testBit_eq_decide_div_mod_eq,
    decide_eq_true_eq, Nat.pow_zero, Nat.div_one, Nat.pow_one, Nat.reducePow]

end Ctx

section
variable {c : Ctx} {s : State}

/-- The exit of the active lanes is traced, and their interrupt blocks end (R403, R443). -/
def exitNoted (c : Ctx) (s : State) : State :=
  (traceRecord s c.warp.core (traceHead c.warp c.p c.path) 6 false 0 [c.path.bearing.toNat, c.act.toNat]).modWarp c.w fun x =>
    { x with uiLanes := x.uiLanes &&& ~~~c.act }

/-- The path goes on with the lanes that have not exited. -/
def pathThinned (c : Ctx) (s : State) : State := (exitNoted c s).modPath c.w c.p fun q => { q with lmask := c.lanesLeft }

/-- The registers of a warp once a path has left its table: the emulation state of a path in it ends for the warp (R162). -/
def pathErased (c : Ctx) (r : Regs) : Regs :=
  let rest := r.paths.erase c.p
  if c.path.emu then { r with paths := rest.map fun q => (q.1, { q.2 with emu := false }), stack := r.stack.map fun q => { q with emu := false } }
  else { r with paths := rest }

/-- The path has gone, and with the last one the warp's held stores are published. -/
def pathGone (c : Ctx) (s : State) : State :=
  let s := (exitNoted c s).modRegs c.w (pathErased c)
  if c.warp.regs.paths.length = 1 ∧ c.warp.regs.stack = [] then publishOwn s c.w else s

theorem exitBody_of_lanes_left (hact : c.act ≠ 0) (hleft : c.lanesLeft ≠ 0) : exitBody c s = .done (pathThinned c s) := by
  unfold Ctx.lanesLeft at hleft
  simp only [exitBody, if_neg hact, if_neg hleft]
  rfl

theorem exitBody_of_no_lanes_left (hact : c.act ≠ 0) (hleft : c.lanesLeft = 0) : exitBody c s = .moved (pathGone c s) := by
  unfold Ctx.lanesLeft at hleft
  simp only [exitBody, if_neg hact, if_pos hleft, Bool.and_eq_true, decide_eq_true_eq, List.isEmpty_iff]
  rfl

theorem exitBody_of_no_lanes (hact : c.act = 0) : exitBody c s = .done s := if_pos hact

theorem yieldBody_of_lanes (hact : c.act ≠ 0) :
    yieldBody c s = .done (s.modPath c.w c.p fun q => { q with age := some s.clock, yielded := true }) := if_neg hact

theorem yieldBody_of_no_lanes (hact : c.act = 0) : yieldBody c s = .done s := if_pos hact

theorem waitfBody_of_clear (h : c.act = 0 ∨ c.warp.regs.flagsClear c.namedMask = true) : waitfBody c s = .done s := by
  rw [waitfBody, c.flagMask_eq]
  exact if_pos (by simpa using h)

theorem waitfBody_of_unclear (h : c.act ≠ 0 ∧ c.warp.regs.flagsClear c.namedMask = false) :
    waitfBody c s = .wait s (.flags c.namedMask) := by
  rw [waitfBody, c.flagMask_eq]
  exact if_neg (by simpa using h)

end

theorem transfers_exit (x : RForm) : Transfers (execExit x) 0x007 (.r x) (fun c _ => c.act ≠ 0 ∧ c.lanesLeft = 0) pathGone :=
  transfers_of_body fun _ _ _ h => exitBody_of_no_lanes_left h.1 h.2

theorem completes_yield (x : RForm) : Completes (execYield x) 0x008 (.r x) (fun c _ => c.act ≠ 0)
    fun c s => s.modPath c.w c.p fun q => { q with age := some s.clock, yielded := true } :=
  completes_of_body fun _ _ _ h => yieldBody_of_lanes h

theorem completes_nop (x : RForm) : Completes (execNop x) 0x001 (.r x) always fun _ s => s := completes_of_body fun _ _ _ _ => rfl

/-- Settles O14: each body by the lanes that are active, those that stay, and the flags. -/
theorem exitYieldWaitNop : Obligations.ExitYieldWaitNop := by
  unfold Obligations.ExitYieldWaitNop
  exact ⟨fun x => completes_of_body fun _ _ _ h => exitBody_of_lanes_left h.1 h.2, transfers_exit,
    fun x => completes_of_body fun _ _ _ h => exitBody_of_no_lanes h, completes_yield,
    fun x => completes_of_body fun _ _ _ h => yieldBody_of_no_lanes h, fun x => completes_of_body fun _ _ _ h => waitfBody_of_clear h,
    fun x => waits_of_body fun _ _ _ h => waitfBody_of_unclear h, completes_nop, fun g => completes_nop _, fun g => transfers_exit _,
    fun g => completes_yield _, completes_nop _, transfers_exit _, completes_yield _⟩

end Sys2Proof.Machine
end

section
/-!
SUPPORT. Accesses on the CTX path and at a queue's addresses change no workgroup and no table of work distribution.
-/

namespace Sys2Proof.Machine

/-- The workgroups and the tables of work distribution are the same. -/
structure SameWork (s t : State) : Prop where
  wgs : t.wgs = s.wgs
  work : t.work = s.work

namespace SameWork
variable {s t u : State}

theorem refl (s : State) : SameWork s s := ⟨rfl, rfl⟩

theorem trans (h : SameWork s t) (h' : SameWork t u) : SameWork s u := ⟨h'.wgs.trans h.wgs, h'.work.trans h.work⟩

/-- Steps that keep the tables keep them when they are taken in turn, whatever they answer besides the state. -/
theorem foldl {α β : Type} {st : β → State} {f : β → α → β} (hf : ∀ b x, SameWork (st b) (st (f b x))) (xs : List α) (b : β) :
    SameWork (st b) (st (xs.foldl f b)) :=
  List.foldlRecOn (motive := fun c => SameWork (st b) (st c)) xs f (refl _) fun c hc x _ => hc.trans (hf c x)

theorem ite {p : Prop} [Decidable p] (ht : SameWork s t) (hu : SameWork s u) : SameWork s (if p then t else u) := by
  split
  · exact ht
  · exact hu

end SameWork

theorem sameWork_agentWrite (s : State) (a : Nat) (bs : List Byte) (warp : Nat) (chan : Chan) : SameWork s (agentWrite s a bs warp chan) :=
  ⟨agentWrite_keeps (·.wgs) (fun _ _ _ _ _ _ _ _ => rfl) .., agentWrite_keeps (·.work) (fun _ _ _ _ _ _ _ _ => rfl) ..⟩

theorem sameWork_markUsed (s : State) (c : Combined) (write : Bool) : SameWork s (markUsed s c write) := by
  exact SameWork.foldl (st := id) (fun t u => .ite (.refl t) (sameWork_agentWrite ..)) _ s

theorem sameWork_xlateNow (s : State) (vf asid va : Nat) (kind : Access) (ctx : Bool) : SameWork s (xlateNow s vf asid va kind ctx).1 := by
  unfold xlateNow
  split
  · refine SameWork.trans ?_ (sameWork_markUsed ..)
    exact .ite ⟨rfl, rfl⟩ ⟨rfl, rfl⟩
  · exact .refl s

theorem sameWork_queueWrite (s : State) (q : Queue) (va : Nat) (bs : List Byte) : SameWork s (queueWrite s q va bs).1 := by
  refine SameWork.foldl (st := Prod.fst) (fun acc p => ?_) _ (s, true)
  have hx := sameWork_xlateNow acc.1 q.vf q.asid p.1 .write false
  split
  · exact .refl _
  · generalize xlateNow acc.1 q.vf q.asid p.1 .write = r at hx
    obtain ⟨t, _ | _⟩ := r
    · dsimp only
      split
      · exact hx
      · exact hx.trans (sameWork_agentWrite ..)
    · exact hx

/-! ### The CTX path (R289) -/

theorem sameWork_recordWrite (s : State) (x : Warp) (pieces : List (Nat × List Byte)) : SameWork s (recordWrite s x pieces).1 := by
  refine SameWork.foldl (st := Prod.fst) (fun acc p => ?_) pieces (s, none)
  have hx := sameWork_xlateNow acc.1 x.vf x.asid (x.record.toNat + p.1) .write true
  dsimp only
  generalize xlateNow acc.1 x.vf x.asid (x.record.toNat + p.1) .write true = r at hx
  obtain ⟨t, _ | _⟩ := r
  · exact hx.trans (sameWork_agentWrite ..)
  · exact hx

theorem sameWork_recordRead (x : Warp) (n : Nat) (s : State) (o : Nat) : SameWork s (recordRead s x o n).1 := by
  induction n generalizing s o with
  | zero => exact .refl s
  | succ n ih =>
    have hx := sameWork_xlateNow s x.vf x.asid (x.record.toNat + o) .read true
    unfold recordRead
    dsimp only
    generalize xlateNow s x.vf x.asid (x.record.toNat + o) .read true = r at hx
    obtain ⟨t, _ | _⟩ := r
    · have ht := hx.trans (ih t (o + 64))
      dsimp only
      generalize recordRead t x (o + 64) n = r at ht
      obtain ⟨u, _ | _⟩ := r <;> exact ht
    · exact hx

theorem sameWork_zeroRecord (s : State) (x : Warp) : SameWork s (zeroRecord s x).1 := by
  refine SameWork.foldl (st := Prod.fst) (fun acc i => ?_) _ (s, none)
  have hx := sameWork_xlateNow acc.1 x.vf x.asid (x.record.toNat + 4096 * i) .write true
  split
  · exact .refl _
  · generalize xlateNow acc.1 x.vf x.asid (x.record.toNat + 4096 * i) .write true = r at hx
    obtain ⟨t, _ | _⟩ := r
    · exact hx.trans ⟨rfl, rfl⟩
    · exact hx

theorem sameWork_writeRecord (s : State) (x : Warp) (acc : Bool) : SameWork s (writeRecord s x acc).1 := by
  unfold writeRecord
  dsimp only
  generalize hf : List.foldl _ (s, ([] : List Nat), (none : Option Nat)) _ = slots
  have hslots : SameWork s slots.1 := by
    rw [← hf]
    refine SameWork.foldl (st := Prod.fst) (fun a n => ?_) _ (s, [], none)
    have hr := sameWork_recordWrite a.1 x (slotPieces x.regs n (x.regs.row n))
    split
    · generalize recordWrite a.1 x (slotPieces x.regs n (x.regs.row n)) = r at hr
      obtain ⟨t, _ | _⟩ := r <;> exact hr
    · exact .refl _
  exact hslots.trans (sameWork_recordWrite ..)

theorem sameWork_markRecord (s : State) (x : Warp) (dorm : Nat) (ctxf : Bool) : SameWork s (markRecord s x dorm ctxf) := by
  have hr := sameWork_recordRead x 1 s 64
  unfold markRecord
  generalize recordRead s x 64 1 = r at hr
  obtain ⟨t, _ | _⟩ := r
  · exact hr
  · exact hr.trans (sameWork_recordWrite ..)

theorem sameWork_faultDormant (s : State) (w : Nat) (x : Warp) (va : Nat) (pinned : List Nat) (unsaved : Bool) :
    SameWork s (faultDormant s w x va pinned unsaved) := by
  have hm : SameWork s (if unsaved then s else markRecord s x 9 true) := .ite (.refl s) (sameWork_markRecord ..)
  exact hm.trans ⟨rfl, rfl⟩

theorem sameWork_writeBack (s : State) (w : Nat) : SameWork s (writeBack s w) := by
  unfold writeBack
  split
  · exact .refl s
  · rename_i x _
    have hw := sameWork_writeRecord s x false
    split
    · exact .refl s
    · generalize writeRecord s x false = r at hw
      obtain ⟨t, pinned, _ | _⟩ := r
      · exact hw.trans ⟨rfl, rfl⟩
      · exact hw.trans (sameWork_faultDormant ..)

/-- A new warp takes its state into its record once `zero` has zeroed it. (The kernel would run `zeroRecord` on each case of `layRecord`.) -/
def layRecordBy (zero : State → Warp → State × Option Nat) (s : State) (w : Nat) : State :=
  match s.warp? w with
  | none => s
  | some x =>
    match zero s x with
    | (s, some va) => faultDormant s w x va x.dirty true
    | (s, none) => writeBack s w

theorem sameWork_layRecordBy {zero : State → Warp → State × Option Nat} (hzero : ∀ s x, SameWork s (zero s x).1) (s : State) (w : Nat) :
    SameWork s (layRecordBy zero s w) := by
  unfold layRecordBy
  split
  · exact .refl s
  · rename_i x _
    have hx := hzero s x
    generalize zero s x = r at hx ⊢
    obtain ⟨t, _ | _⟩ := r
    · exact hx.trans (sameWork_writeBack ..)
    · exact hx.trans (sameWork_faultDormant ..)

theorem sameWork_layRecord (s : State) (w : Nat) : SameWork s (layRecord s w) := sameWork_layRecordBy sameWork_zeroRecord s w

end Sys2Proof.Machine
end


section
/-!
PROOF. Kicks, dispatch, placement, completion, release and launch datagrams (O41).
-/

namespace Sys2Proof.Machine

theorem modQueue_of_queue? {n : Nat} {q : Queue} {s : State} (h : s.queue? n = some q) (f : Queue → Queue) :
    s.modQueue n f = { s with work := { s.work with queues := s.work.queues.insert n (f q) } } := by
  rw [State.modQueue, SMap.adjust, show s.work.queues.find? n = some q from h]

/-! ### Kicks (R465) -/

section
variable {f : Func} {v : Word64} {q : Queue} {s : State}

/-- The queue that a kick names, and the TAIL that it carries. -/
def kickQid (v : Word64) : Nat := v.toNat / 2 ^ 32 % 2 ^ 16
def kickTail (v : Word64) : Word32 := v.truncate 32

/-- A kick is ahead of TAIL, and not more than the ring beyond HEAD. -/
def KickAhead (v : Word64) (q : Queue) : Prop :=
  q.live = true ∧ (kickTail v - q.tail).toNat < 2 ^ 31 ∧ (kickTail v - q.head).toNat ≤ 2 ^ q.rlog

theorem kickQueue_of_ahead {n : Nat} {tail : Word32} (hq : s.queue? n = some q)
    (h : (q.live && decide ((tail - q.tail).toNat < 2 ^ 31) && decide ((tail - q.head).toNat ≤ 2 ^ q.rlog)) = true) :
    kickQueue s n tail = { s with work := { s.work with queues := s.work.queues.insert n { q with tail := tail, stuck := false } } } := by
  rw [kickQueue, modQueue_of_queue? hq, if_pos h]

theorem kick_ahead (hq : s.queue? (kickQid v) = some q) (hready : s.pkg.ready = true) (h : KickAhead v q) :
    kick (.vf q.vf) v s
      = { s with work := { s.work with queues := s.work.queues.insert (kickQid v) { q with tail := kickTail v, stuck := false } } } := by
  obtain ⟨hlive, htail, hhead⟩ := h
  have hown : (s.pkg.ready && Func.vf q.vf == Func.vf q.vf) = true := by simp [hready]
  have hahead : (q.live && decide ((kickTail v - q.tail).toNat < 2 ^ 31) && decide ((kickTail v - q.head).toNat ≤ 2 ^ q.rlog)) = true := by
    rw [hlive, decide_eq_true htail, decide_eq_true hhead]
    rfl
  unfold kick
  dsimp only
  rw [show s.queue? (v.toNat / 2 ^ 32 % 2 ^ 16) = some q from hq]
  exact (if_pos hown).trans (kickQueue_of_ahead hq hahead)

theorem kick_foreign (hq : s.queue? (kickQid v) = some q) (h : f ≠ .vf q.vf) : kick f v s = s := by
  have hown : ¬ (s.pkg.ready && f == .vf q.vf) = true := by simp [h]
  unfold kick
  dsimp only
  rw [show s.queue? (v.toNat / 2 ^ 32 % 2 ^ 16) = some q from hq]
  exact if_neg hown

end

/-! ### Dispatch (R365, R376) -/

section
variable {n : Nat} {q : Queue} {s t : State}

/-- The queue is live, and its dispatch has not stopped. -/
def DispatchReady (n : Nat) (q : Queue) (s : State) : Prop := s.flips = [] ∧ s.queue? n = some q ∧ q.live = true ∧ q.stuck = false

/-- The packet that has been read, if it could be. -/
def packetRead (r : State × Except (FaultCode × Nat) (List Byte)) : Option Packet :=
  match r.2 with | .ok bs => some (parsePacket bs) | .error _ => none

/-- HEAD moves on. -/
def headMoved (n : Nat) (s : State) : State := s.modQueue n fun q => { q with head := q.head + 1 }

/-- The address of the entry at HEAD. -/
def headEntry (q : Queue) : Nat := q.ring.toNat + 16 * (q.head.toNat % 2 ^ q.rlog)

theorem dispatch_entry (h : DispatchReady n q s) (hl : q.landed = []) (hq : q.head ≠ q.tail) : dispatch n s = some (dispatch.entry n s q) := by
  obtain ⟨-, hfind, hlive, hstuck⟩ := h
  simp only [dispatch, hfind, hlive, hstuck, hl, if_neg hq, Bool.not_true, Bool.or_self, Bool.false_eq_true, if_false]

theorem dispatch_landed {k : Nat} {rest : List (Nat × Word32)} (h : DispatchReady n q s) (hl : q.landed = (k, q.head) :: rest) :
    dispatch n s = some (dispatch.landed n s q k rest) := by
  obtain ⟨-, hfind, hlive, hstuck⟩ := h
  simp only [dispatch, hfind, hlive, hstuck, hl, Bool.not_true, Bool.or_self, Bool.false_eq_true, if_false, if_true]

theorem entry_read {bs : List Byte} (hr : queueRead s q (headEntry q) 16 = (t, .ok bs)) :
    dispatch.entry n s q = startGrid (queueRead (headMoved n t) q (numAt bs 0 8) 64).1 n (numAt bs 0 8)
      (packetRead (queueRead (headMoved n t) q (numAt bs 0 8) 64)) (some (numAt bs 8 8)) none none := by
  unfold dispatch.entry headMoved
  dsimp only
  rw [show queueRead s q (q.ring.toNat + 16 * (q.head.toNat % 2 ^ q.rlog)) 16 = (t, .ok bs) from hr]
  dsimp only
  rcases queueRead (t.modQueue n fun q => { q with head := q.head + 1 }) q (numAt bs 0 8) 64 with ⟨u, _ | _⟩ <;> rfl

theorem entry_unreadable {code : FaultCode} {va : Nat} (hr : queueRead s q (headEntry q) 16 = (t, .error (code, va))) :
    dispatch.entry n s q = addReport (t.modQueue n fun q => { q with stuck := true }) q.vf .trap
      [dispatchReport va q.head.toNat n q.asid (faultNumber code)] none := by
  unfold dispatch.entry
  dsimp only
  rw [show queueRead s q (q.ring.toNat + 16 * (q.head.toNat % 2 ^ q.rlog)) 16 = (t, .error (code, va)) from hr]

theorem landed_read (k : Nat) (rest : List (Nat × Word32)) :
    dispatch.landed n s q k rest
      = startGrid (queueRead (s.modQueue n fun q => { q with landed := rest }) q (q.land_.toNat + 2048 * k) 64).1 n (q.land_.toNat + 2048 * k)
          (packetRead (queueRead (s.modQueue n fun q => { q with landed := rest }) q (q.land_.toNat + 2048 * k) 64))
          (some (q.land_.toNat + 2048 * k + 64)) none (some k) := by
  unfold dispatch.landed
  dsimp only
  rcases queueRead (s.modQueue n fun q => { q with landed := rest }) q (q.land_.toNat + 2048 * k) 64 with ⟨u, _ | _⟩ <;> rfl

end

/-! ### Placement (R367, R368) -/

section
variable {g die w o cluster : Nat} {x : Grid} {again : Bool} {s : State}

/-- The records of workgroup slot `o` of a grid: where they begin, and their size. -/
def recordsBase (die o : Nat) (x : Grid) (q : Queue) : Nat :=
  let rs := recordSpan x.pk.accs x.pk.stack
  q.arena.toNat + die * q.arenasz + o % (q.wpart / (x.pk.wgw * rs)) * x.pk.wgw * rs

/-- Workgroup `w` of the grid is the next that the die launches, and `cluster` takes it. -/
def Launches (g die w o cluster : Nat) (x : Grid) (again : Bool) (s : State) : Prop :=
  s.flips = [] ∧ s.grid? g = some x ∧ x.cut = false ∧ x.reject = none
    ∧ (s.work.grids.any fun h => decide (h.1 < g) && h.2.qid == x.qid && !h.2.cut && !h.2.launchedOn die) = false
    ∧ nextWorkgroup x die = some (w, o, again)
    ∧ recordsMeet s x.qid (recordsBase die o x ((s.queue? x.qid).getD {})) (x.pk.wgw * recordSpan x.pk.accs x.pk.stack) = false
    ∧ (((List.range 8).map fun i => 8 * die + (s.work.lastCluster.get 7 die + 1 + i) % 8).find? fun c =>
        x.pk.near * 4096 ≤ nearFree s c) = some cluster

/-- The workgroup as it is placed. -/
def placedWg (g die w o cluster : Nat) (x : Grid) (s : State) : Workgroup :=
  { handle := freeHandle s die, wgid := BitVec.ofNat 32 w, grid := g, die := die, cluster := cluster
    ctxSlot := o % (((s.queue? x.qid).getD {}).wpart / (x.pk.wgw * recordSpan x.pk.accs x.pk.stack)), vf := x.vf, asid := x.asid
    warps := (List.range x.pk.wgw).map (s.nextId + ·), nearSize := x.pk.near * 4096, placed := s.clock, idem := x.pk.flags % 2 == 1
    producer := if x.pk.prod = 255 then none else some x.pk.prod }

/-- The workgroup has its handle, and the die has used the cluster. -/
def wgPlaced (g die w o cluster : Nat) (x : Grid) (s : State) : State :=
  { s with nextId := s.nextId + x.pk.wgw, wgs := s.wgs.insert (freeHandle s die) (placedWg g die w o cluster x s)
           work := { s.work with lastCluster := s.work.lastCluster.insert die (cluster % 8) } }

/-- What the grid notes of a placement on a die in a cycle. -/
def placementNoted (die w o clock : Nat) (again : Bool) (y : Grid) : Grid :=
  let y := { y with tstart := if y.dies.head? = some die then y.tstart.or (some clock) else y.tstart }
  if again then { y with again := y.again.erase (die, w), relaunch := y.relaunch + 1 }
  else { y with next := y.next.insert die (o + 1), lcnt := y.lcnt.insert die (y.lcnt.get 0 die + 1) }

theorem lcnt_placementNoted (die w o clock : Nat) (again : Bool) (y : Grid) :
    (placementNoted die w o clock again y).lcnt.get 0 die = if again then y.lcnt.get 0 die else y.lcnt.get 0 die + 1 := by
  unfold placementNoted
  cases again
  · exact (SMap.get_insert 0 y.lcnt die _ die).trans (if_pos rfl)
  · rfl

/-- A placement makes the workgroup, and then its warps with their records, which changes no table. -/
theorem placeWorkgroup_some (h : Launches g die w o cluster x again s) :
    ∃ t, placeWorkgroup g die s = some (t.modGrid g (placementNoted die w o t.clock again)) ∧ SameWork (wgPlaced g die w o cluster x s) t := by
  obtain ⟨-, hgrid, hcut, hreject, hearlier, hnext, hmeet, hcluster⟩ := h
  unfold placeWorkgroup
  simp only [hgrid, hcut, hreject, hearlier, hnext, hcluster, Option.isSome_none, Bool.or_self, Bool.false_eq_true, if_false]
  refine ⟨_, (if_neg (Bool.eq_false_iff.mp hmeet)).trans rfl, ?_⟩
  have hwarps : ∀ (f : Nat → Nat) (mk : Nat → Warp) (js : List Nat) (u : State), SameWork u (js.foldl (fun s j => s.setWarp (f j) (mk j)) u) :=
    fun f mk => SameWork.foldl (st := id) fun _ _ => ⟨rfl, rfl⟩
  exact (hwarps ..).trans (SameWork.foldl (st := id) sameWork_layRecord _ _)

/-- The next workgroup of a grid has what R367 gives it, and the grid has launched one more on the die, unless it launches it again. -/
theorem workgroup_placed (h : Launches g die w o cluster x again s) :
    ∃ t z, placeWorkgroup g die s = some t ∧ t.wg? (freeHandle s die) = some (placedWg g die w o cluster x s) ∧ t.grid? g = some z
      ∧ z.lcnt.get 0 die = if again then x.lcnt.get 0 die else x.lcnt.get 0 die + 1 := by
  obtain ⟨t, ht, hsame⟩ := placeWorkgroup_some h
  obtain ⟨-, hgrid, -⟩ := h
  have hgrids : t.work.grids = s.work.grids := by rw [hsame.work]; rfl
  refine ⟨_, placementNoted die w o t.clock again x, ht, ?_, ?_, lcnt_placementNoted ..⟩
  · change t.wgs.find? _ = _
    rw [hsame.wgs]
    exact SMap.find?_insert_self ..
  · change (SMap.adjust t.work.grids g _).find? g = _
    rw [SMap.find?_adjust_self, hgrids, show s.work.grids.find? g = some x from hgrid]
    rfl

end

/-! ### Completion and release (R162, R370) -/

section
variable {g w : Nat} {s : State}

theorem gridDone_of_finished {x : Grid} (hgrid : s.grid? g = some x) (h : gridFinished s g x = true) :
    gridDone g s = some (completeGrid s g x) := by
  rw [gridDone, hgrid]
  exact if_pos h

/-- The workgroup completes with its last warp. -/
def released (w wg : Nat) (s : State) : State :=
  match (endWarp s w).wg? wg with
  | some g => if g.warps.all fun n => ((endWarp s w).warp? n).isNone then dropWorkgroup (endWarp s w) wg else endWarp s w
  | none => endWarp s w

theorem releaseWarp_some {x : Warp} (hwarp : s.warp? w = some x) (h : mayRelease s w x = true) :
    releaseWarp w s = some (released w x.wg s) := by
  rw [releaseWarp, hwarp]
  exact if_neg (by simp [h])

theorem endWarp_released (s : State) (w : Nat) : (endWarp s w).warps.find? w = none := by
  unfold endWarp
  split
  · assumption
  · dsimp only
    rw [SMap.find?_erase_self]

theorem mem_endWarp (s : State) (w : Nat) : (endWarp s w).mem = s.mem := by
  unfold endWarp
  split
  · rfl
  · dsimp only
    refine List.foldlRecOn (motive := fun t : State => t.mem = s.mem) _ _ rfl fun t ht v _ => ?_
    split
    · exact ht
    · exact ht

theorem unpair_keeps (s : State) (h : Nat) : (unpair s h).warps = s.warps ∧ (unpair s h).mem = s.mem := by
  unfold unpair
  cases (s.wg? h).bind (·.pair) <;> exact ⟨rfl, rfl⟩

theorem dropWorkgroup_keeps (s : State) (h : Nat) : (dropWorkgroup s h).warps = s.warps ∧ (dropWorkgroup s h).mem = s.mem :=
  unpair_keeps s h

/-- A warp that is released is gone, and memory is as it was, whether its workgroup completes or not. -/
theorem released_keeps (w wg : Nat) (s : State) : (released w wg s).warps.find? w = none ∧ (released w wg s).mem = s.mem := by
  have hend : (endWarp s w).warps.find? w = none ∧ (endWarp s w).mem = s.mem := ⟨endWarp_released s w, mem_endWarp s w⟩
  obtain ⟨hwarps, hmem⟩ := dropWorkgroup_keeps (endWarp s w) wg
  unfold released
  split
  · split
    · rw [hwarps, hmem]
      exact hend
    · exact hend
  · exact hend

end

/-! ### Launch datagrams (R376) -/

section
variable {src : BitVec 128} {bs : List Byte} {s : State}

/-- The tenant that a datagram names, its sequence number, and its landing slot. -/
def datagramTenant (bs : List Byte) (s : State) : Tenant := s.work.tenants.get {} (numAt bs 0 2)
def datagramSeq (bs : List Byte) : Word32 := BitVec.ofNat 32 (numAt bs 4 4)
def datagramSlot (bs : List Byte) : Nat := (datagramSeq bs).toNat % 64

/-- A datagram that is not accepted is counted. -/
def datagramDropped (bs : List Byte) (s : State) : State :=
  let d := s.work.drops.get 0 (numAt bs 0 2)
  { s with work := { s.work with drops := s.work.drops.put 0 (numAt bs 0 2) (if d = 0xFFFFFFFF then d else d + 1) } }

theorem landDatagram_refused (hn : numAt bs 0 2 < 256) (h : datagramOk s src bs (datagramTenant bs s) = false) :
    landDatagram src bs s = datagramDropped bs s := by
  have hrefused : (!(decide (numAt bs 0 2 < 256) && datagramOk s src bs (s.work.tenants.get {} (numAt bs 0 2)))) = true := by
    rw [show datagramOk s src bs (s.work.tenants.get {} (numAt bs 0 2)) = false from h]
    simp
  exact (if_pos hrefused).trans (if_pos hn)

/-- The landing slot as the datagram's queue notes it. -/
def datagramNoted (bs : List Byte) (q : Queue) : Queue :=
  { q with landed := q.landed ++ [(datagramSlot bs, q.tail)], busy := NSet.insert q.busy (datagramSlot bs) }

/-- The tenant takes the datagram's sequence number, and its queue the landing slot. -/
def datagramLanded (bs : List Byte) (x : Tenant) (t : State) : State :=
  ({ t with work := { t.work with tenants := t.work.tenants.insert (numAt bs 0 2) { x with lastseq := datagramSeq bs } } }).modQueue x.qid
    (datagramNoted bs)

/-- The copy into the landing slot changes no table of work distribution. -/
theorem landDatagram_accepted (hn : numAt bs 0 2 < 256) (h : datagramOk s src bs (datagramTenant bs s) = true) :
    ∃ t, landDatagram src bs s = datagramLanded bs (datagramTenant bs s) t ∧ SameWork s t := by
  have haccepted : ¬ (!(decide (numAt bs 0 2 < 256) && datagramOk s src bs (s.work.tenants.get {} (numAt bs 0 2)))) = true := by
    rw [show datagramOk s src bs (s.work.tenants.get {} (numAt bs 0 2)) = true from h]
    simp [hn]
  exact ⟨_, (if_neg haccepted).trans rfl, ((sameWork_queueWrite ..).trans (sameWork_queueWrite ..)).trans (sameWork_queueWrite ..)⟩

theorem queue?_datagramLanded {q : Queue} {x : Tenant} {t : State} (h : t.queue? x.qid = some q) :
    (datagramLanded bs x t).queue? x.qid = some (datagramNoted bs q) :=
  (SMap.find?_adjust_self ..).trans (by rw [show t.work.queues.find? x.qid = some q from h]; rfl)

/-- An accepted datagram lands behind the host's entries, and the tenant has taken its sequence number. -/
theorem datagram_landed (hn : numAt bs 0 2 < 256) (h : datagramOk s src bs (datagramTenant bs s) = true) :
    ((landDatagram src bs s).work.tenants.get {} (numAt bs 0 2)).lastseq = datagramSeq bs
      ∧ (landDatagram src bs s).work.grids = s.work.grids
      ∧ ∀ q, s.queue? (datagramTenant bs s).qid = some q →
        (landDatagram src bs s).queue? (datagramTenant bs s).qid = some (datagramNoted bs q) := by
  obtain ⟨t, ht, hsame⟩ := landDatagram_accepted hn h
  rw [ht]
  refine ⟨?_, congrArg (·.grids) hsame.work, fun q hq => queue?_datagramLanded ?_⟩
  · exact congrArg Tenant.lastseq ((SMap.get_insert ..).trans (if_pos rfl))
  · rw [State.queue?, hsame.work]
    exact hq

end

/-- Settles O41: each event runs its function, which the lemmas above evaluate clause by clause. -/
theorem dispatchPlacementAndRelease : Obligations.DispatchPlacementAndRelease := by
  unfold Obligations.DispatchPlacementAndRelease
  refine ⟨fun v q s h => ?kick, fun f v q s h => ?foreign, fun n q t bs s h => ?entry, fun n q t code va s h => ?unreadable,
    fun n q k rest s h => ?landed, fun g die w o cluster x again s h => ?place, fun g x s h => ?complete, fun w x g s h => ?release,
    fun w x s h => ?gone, fun src bs s h => ?refused, fun src bs s h => ?accepted⟩
  case kick =>
    obtain ⟨⟨hq, hready⟩, hahead⟩ := h
    exact runEvent_of_some (congrArg some (kick_ahead hq hready hahead))
  case foreign =>
    obtain ⟨hq, hf⟩ := h
    exact runEvent_of_some (congrArg some (kick_foreign hq hf))
  case entry =>
    obtain ⟨hready, hl, hq, hr⟩ := h
    exact runEventFlip_of_some hready.1 ((dispatch_entry hready hl hq).trans (congrArg some (entry_read hr)))
  case unreadable =>
    obtain ⟨hready, hl, hq, hr⟩ := h
    exact runEventFlip_of_some hready.1 ((dispatch_entry hready hl hq).trans (congrArg some (entry_unreadable hr)))
  case landed =>
    obtain ⟨hready, hl⟩ := h
    exact runEventFlip_of_some hready.1 ((dispatch_landed hready hl).trans (congrArg some (landed_read k rest)))
  case place =>
    obtain ⟨t, z, ht, hwg, hgrid, hlcnt⟩ := workgroup_placed h
    exact ⟨t, runEventFlip_of_some h.1 ht, _, z, hwg, rfl, rfl, rfl, rfl, rfl, rfl, rfl, rfl, rfl, rfl, hgrid, hlcnt⟩
  case complete =>
    obtain ⟨hf, hgrid, hfin⟩ := h
    exact runEventFlip_of_some hf (gridDone_of_finished hgrid hfin)
  case release =>
    obtain ⟨⟨hwarp, hmay⟩, hwg⟩ := h
    refine runEvent_of_some ((releaseWarp_some hwarp hmay).trans (congrArg some ?_))
    rw [released, hwg]
  case gone =>
    obtain ⟨hwarp, hmay⟩ := h
    exact ⟨_, runEvent_of_some (releaseWarp_some hwarp hmay), released_keeps ..⟩
  case refused =>
    obtain ⟨hf, hn, hno⟩ := h
    exact runEventFlip_of_some hf (congrArg some (landDatagram_refused hn hno))
  case accepted =>
    obtain ⟨hf, hn, hok⟩ := h
    obtain ⟨hseq, hgrids, hqueue⟩ := datagram_landed hn hok
    exact ⟨_, runEventFlip_of_some hf rfl, hseq, hgrids,
      fun q hq => ⟨_, hqueue q hq, rfl, (NSet.mem_insert ..).mpr (.inl rfl), rfl, rfl⟩⟩

end Sys2Proof.Machine
end

section
/-!
SUPPORT. Numbers and words that agree modulo 2^w, and what a result of the type is made of (R171, R173).
-/

namespace Sys2Proof.Machine

namespace Ctx

variable {c : Ctx} {e f : Int} {x y : Word64}

theorem width_eq (c : Ctx) : c.width = 64 ∨ c.width = 32 := by
  unfold width
  split
  · exact .inl rfl
  · exact .inr rfl

theorem width_le (c : Ctx) : c.width ≤ 64 := by
  rcases c.width_eq with h | h <;> omega

/-! ### The type's reading of a word -/

theorem num_eq (c : Ctx) (x : Word64) :
    c.num x = if c.ty.signed then (x.setWidth c.width).toInt else (x.setWidth c.width).toNat := by
  unfold num width
  cases c.w64 <;> simp

theorem res_eq (c : Ctx) (e : Int) :
    c.res e = if c.ty.signed then (BitVec.ofInt c.width e).signExtend 64 else (BitVec.ofInt c.width e).setWidth 64 := by
  unfold res width
  cases c.w64 <;> simp

theorem typed_eq (c : Ctx) (x : Word64) :
    c.typed x = if c.ty.signed then (x.setWidth c.width).signExtend 64 else (x.setWidth c.width).setWidth 64 := by
  unfold typed width
  cases c.w64 <;> simp

theorem setWidth_typed (c : Ctx) (x : Word64) : (c.typed x).setWidth c.width = x.setWidth c.width := by
  have hw := c.width_le
  rw [typed_eq]
  refine BitVec.eq_of_getLsbD_eq fun i hi => ?_
  have hi' : i < 64 := by omega
  split
  · simp [BitVec.getElem_signExtend, hi, hi']
  · simp [hi, hi']

theorem typed_eq_typed_iff : c.typed x = c.typed y ↔ x.setWidth c.width = y.setWidth c.width := by
  refine ⟨fun h => ?_, fun h => by rw [typed_eq, typed_eq, h]⟩
  rw [← setWidth_typed c x, h, setWidth_typed]

theorem num_eq_num_iff : c.num x = c.num y ↔ x.setWidth c.width = y.setWidth c.width := by
  rw [num_eq, num_eq]
  split
  · exact BitVec.toInt_inj
  · rw [Int.ofNat_inj, BitVec.toNat_inj]

@[simp] theorem typed_typed : c.typed (c.typed x) = c.typed x := typed_eq_typed_iff.2 (setWidth_typed c x)

@[simp] theorem num_typed : c.num (c.typed x) = c.num x := num_eq_num_iff.2 (setWidth_typed c x)

/-! ### Agreement -/

/-- The number and the word agree modulo 2^w, so that they have one result under the type. -/
def Agrees (c : Ctx) (e : Int) (x : Word64) : Prop := BitVec.ofInt c.width e = x.setWidth c.width

theorem Agrees.res (h : c.Agrees e x) : c.res e = c.typed x := by
  rw [res_eq, typed_eq, show BitVec.ofInt c.width e = _ from h]

theorem agrees_num : c.Agrees (c.num x) x := by
  rw [Agrees, num_eq]
  split
  · exact BitVec.ofInt_toInt
  · rw [BitVec.ofInt_natCast, BitVec.ofNat_toNat, BitVec.setWidth_eq]

theorem Agrees.add (hx : c.Agrees e x) (hy : c.Agrees f y) : c.Agrees (e + f) (x + y) := by
  unfold Agrees at *
  rw [BitVec.ofInt_add, hx, hy, BitVec.setWidth_add _ _ c.width_le]

theorem Agrees.mul (hx : c.Agrees e x) (hy : c.Agrees f y) : c.Agrees (e * f) (x * y) := by
  unfold Agrees at *
  rw [BitVec.ofInt_mul, hx, hy, BitVec.setWidth_mul _ _ c.width_le]

theorem Agrees.neg (hx : c.Agrees e x) : c.Agrees (-e) (-x) := by
  unfold Agrees at *
  rw [BitVec.ofInt_neg, hx, BitVec.setWidth_neg_of_le c.width_le]

theorem Agrees.sub (hx : c.Agrees e x) (hy : c.Agrees f y) : c.Agrees (e - f) (x - y) := by
  rw [Int.sub_eq_add_neg, BitVec.sub_eq_add_neg]
  exact hx.add hy.neg

/-- A word agrees with what it reads as, signed or not. -/
theorem agrees_toNat : c.Agrees x.toNat x := by
  rw [Agrees, BitVec.ofInt_natCast, BitVec.ofNat_toNat]

theorem agrees_toInt : c.Agrees x.toInt x := BitVec.signExtend_eq_setWidth_of_le x c.width_le

theorem agrees_ofInt : c.Agrees e (BitVec.ofInt 64 e) := by
  rw [Agrees, ← agrees_toInt (c := c), BitVec.toInt_ofInt]
  refine BitVec.eq_of_toInt_eq ?_
  rw [BitVec.toInt_ofInt, BitVec.toInt_ofInt]
  exact (Int.bmod_bmod_of_dvd (Nat.pow_dvd_pow 2 c.width_le)).symm

end Ctx
end Sys2Proof.Machine
end

section
/-!
SUPPORT. Numbers given bit by bit, and results of the type that agree with a number bit by bit.
-/
namespace Sys2Proof.Machine

theorem bitsOf_succ (n : Nat) (f : Nat → Bool) : bitsOf (n + 1) f = if f n then bitsOf n f + 2 ^ n else bitsOf n f := by
  rw [bitsOf, List.range_succ, List.foldl_append, List.foldl_cons, List.foldl_nil, bitsOf]

theorem bitsOf_lt (n : Nat) (f : Nat → Bool) : bitsOf n f < 2 ^ n := by
  induction n with
  | zero => exact Nat.one_pos
  | succ n ih =>
    rw [bitsOf_succ, Nat.pow_succ]
    split <;> omega

theorem testBit_bitsOf (n : Nat) (f : Nat → Bool) (i : Nat) : (bitsOf n f).testBit i = (decide (i < n) && f i) := by
  induction n with
  | zero => simp [bitsOf]
  | succ n ih =>
    rw [bitsOf_succ]
    have hlt := bitsOf_lt n f
    rcases Nat.lt_trichotomy i n with hi | rfl | hi
    · have hi' : i < n + 1 := by omega
      split
      · simp [Nat.add_comm (bitsOf n f), Nat.testBit_two_pow_add_gt hi, ih, hi, hi']
      · simp [ih, hi, hi']
    · split
      · simp [Nat.add_comm (bitsOf i f), Nat.testBit_two_pow_add_eq, Nat.testBit_lt_two_pow hlt, *]
      · simp [*]
    · have h' : (if f n then bitsOf n f + 2 ^ n else bitsOf n f) < 2 ^ i := by
        have := Nat.pow_le_pow_right (n := 2) (by decide) hi
        rw [Nat.pow_succ] at this
        split <;> omega
      rw [Nat.testBit_lt_two_pow h']
      simp
      omega

theorem maskOf64_eq_bitsOf (f : Nat → Bool) : maskOf64 f = bitsOf 64 f := by
  have hsum (n : Nat) : ((List.range n).map fun i => if f i then 2 ^ i else 0).sum = bitsOf n f := by
    induction n with
    | zero => rfl
    | succ n ih =>
      rw [List.range_succ, List.map_append, List.sum_append, ih, bitsOf_succ]
      split <;> simp [*]
  exact hsum 64

theorem getLsbD_maskOf64 (f : Nat → Bool) (i : Nat) : (BitVec.ofNat 64 (maskOf64 f)).getLsbD i = (decide (i < 64) && f i) := by
  rw [BitVec.getLsbD_ofNat, maskOf64_eq_bitsOf, testBit_bitsOf]
  cases decide (i < 64) <;> rfl

namespace Ctx

variable {c : Ctx} {x : Word64}

theorem agrees_natCast {n : Nat} : c.Agrees n x ↔ ∀ i < c.width, n.testBit i = x.getLsbD i := by
  rw [Agrees, BitVec.ofInt_natCast]
  have hbit (i : Nat) (hi : i < c.width) : (BitVec.ofNat c.width n).getLsbD i = n.testBit i := by
    rw [BitVec.getLsbD_ofNat, decide_eq_true hi, Bool.true_and]
  have hbit' (i : Nat) (hi : i < c.width) : (x.setWidth c.width).getLsbD i = x.getLsbD i := by
    rw [BitVec.getLsbD_setWidth, decide_eq_true hi, Bool.true_and]
  refine ⟨fun h i hi => ?_, fun h => BitVec.eq_of_getLsbD_eq fun i hi => ?_⟩
  · rw [← hbit i hi, h, hbit' i hi]
  · rw [hbit i hi, h i hi, hbit' i hi]

/-- The bit pattern of an operand under the type (R180). -/
def low (c : Ctx) (x : Word64) : Nat := x.toNat % 2 ^ c.width

theorem low_eq : c.low x = (x.setWidth c.width).toNat := (BitVec.toNat_setWidth ..).symm

theorem low_lt : c.low x < 2 ^ c.width := Nat.mod_lt _ (Nat.two_pow_pos _)

theorem testBit_low (i : Nat) : (c.low x).testBit i = (decide (i < c.width) && x.getLsbD i) := by
  rw [low, Nat.testBit_mod_two_pow, BitVec.testBit_toNat]

/-- A count or a field's bounds are the same in the bit pattern. -/
theorem low_mod_two_pow {n : Nat} (h : n ≤ 32) : c.low x % 2 ^ n = x.toNat % 2 ^ n := by
  refine Nat.mod_mod_of_dvd _ (Nat.pow_dvd_pow 2 ?_)
  rcases c.width_eq with hw | hw <;> omega

end Ctx
end Sys2Proof.Machine
end

section
/-!
PROOF. The integer sums (O1).
-/
namespace Sys2Proof.Machine

theorem lanewise_eq (v : Ctx → Nat → Word64) (c : Ctx) (s : State) : lanewise c s (v c) = .done (lanesTo v c s) := by
  unfold lanewise lanesTo
  split
  · split <;> rfl
  · rfl

theorem lanewisePred_eq (v : Ctx → Nat → Bool) (c : Ctx) (s : State) : lanewisePred c s (v c) = .done (predTo v c s) := by
  unfold lanewisePred predTo
  split
  · split <;> rfl
  · rfl

/-- A lane-wise IOP completes with its lane values. -/
theorem completes_lanewise {opc : Nat} {f : Form} {body : Ctx → State → Res} {when_ : Ctx → State → Prop} {value : Ctx → Nat → Word64}
    (h : ∀ s c t, Ready opc f s c → when_ c s → body c t = lanewise c t (value c)) :
    Completes (runIop opc f body) opc f when_ (lanesTo value) :=
  completes_of_body fun s c hr hw => (h s c _ hr hw).trans (lanewise_eq value c _)

/-- An IOP that writes results of the type completes with the words that agree with them. -/
theorem completes_res {opc : Nat} {f : Form} {body : Ctx → State → Res} {e : Ctx → Nat → Int} {value : Ctx → Nat → Word64}
    (hb : ∀ c t, body c t = lanewise c t fun l => c.res (e c l)) (h : ∀ s c l, Ready opc f s c → c.Agrees (e c l) (value c l)) :
    Completes (runIop opc f body) opc f always (lanesTo fun c l => c.typed (value c l)) :=
  completes_lanewise fun s c t hr _ => (hb c t).trans (congrArg (lanewise c t) (funext fun l => (h s c l hr).res))

/-- The second slot of a row whose first slot has written k0 (R124). -/
theorem Completes.second {run : Run} {opc : Nat} {f : Form} {next : Ctx → State → State} (h : Completes run opc f always next)
    (k0 : Word32) : CompletesSecond (withK0 k0 run) k0 opc f next :=
  fun s c hr => h (firstSlot k0 s) c hr trivial

/-- The shape of an IOP whose legal forms have one shape. -/
theorem shape_of_ready_when {opc : Nat} {f : Form} {s : State} {c : Ctx} {b : Bool} {sh : Shape} (h : Ready opc f s c)
    (hsh : shape opc f = Shape.when b sh) : c.sh = sh :=
  (shape_of_when (hsh ▸ shape_of_ready h)).2

/-! ### Sums (R176) -/

namespace Ctx

variable {c : Ctx}

theorem lo_le_hi (c : Ctx) : c.lo ≤ c.hi := by
  unfold lo hi intLo intHi
  rcases c.width_eq with h | h <;> rw [h] <;> cases c.ty.signed <;> decide

/-- Clamping is the nearest value of the type. -/
theorem saturate_eq (c : Ctx) (e : Int) : saturate e c.lo c.hi = max c.lo (min c.hi e) := by
  have := c.lo_le_hi
  unfold saturate
  split
  · omega
  · split <;> omega

end Ctx

/-- The exact result clamped to the type's range under `.sat`, and the wrapped one otherwise. -/
def saturated (e : Ctx → Nat → Int) (x : Ctx → Nat → Word64) (c : Ctx) (l : Nat) : Word64 :=
  if c.q = 1 then c.typed (BitVec.ofInt 64 (max c.lo (min c.hi (e c l)))) else c.typed (x c l)

/-- IADD, ISUB, INEG and IABS, by what they make of A and b. -/
theorem completes_saturated {opc : Nat} {f : Form} {op : Int → Int → Int} {value : Ctx → Nat → Word64}
    (h : ∀ (c : Ctx) l, c.Agrees (op (c.num (c.srcA l)) (c.num (c.srcB c.ty.signed l))) (value c l)) :
    Completes (runIop opc f (intOp (fun a b _ => op a b) true)) opc f always
      (lanesTo (saturated (fun c l => op (c.num (c.srcA l)) (c.num (c.srcB c.ty.signed l))) value)) := by
  refine completes_lanewise fun s c t _ _ => congrArg (lanewise c t) (funext fun l => ?_)
  unfold saturated
  by_cases hq : c.q = 1
  · simp only [hq, beq_self_eq_true, Bool.and_self, if_true, Ctx.saturate_eq]
    exact Ctx.agrees_ofInt.res
  · simp only [hq, beq_eq_false_iff_ne.2 hq, Bool.and_false, Bool.false_eq_true, if_false]
    exact (h c l).res

/-- IOPs on the values of a, b and c that do not saturate. -/
theorem completes_intOp {opc : Nat} {f : Form} {op : Nat → Int → Int → Int → Int} {value : Ctx → Nat → Word64}
    (h : ∀ (c : Ctx) l, c.Agrees (op c.width (c.num (c.srcA l)) (c.num (c.srcB c.ty.signed l)) (c.num (c.srcC c.ty.signed l))) (value c l)) :
    Completes (runIop opc f fun c => intOp (op c.width) false c) opc f always (lanesTo fun c l => c.typed (value c l)) :=
  completes_res (fun _ _ => rfl) fun _ c l _ => h c l

theorem completes_iadd (x : RForm) :
    Completes (execIadd x) 0x040 (.r x) always
      (lanesTo (saturated (fun c l => c.num (c.srcA l) + c.num (c.srcB c.ty.signed l)) fun c l => c.srcA l + c.srcB c.ty.signed l)) :=
  completes_saturated fun _ _ => Ctx.agrees_num.add Ctx.agrees_num

theorem completes_isub (x : RForm) :
    Completes (execIsub x) 0x041 (.r x) always
      (lanesTo (saturated (fun c l => c.num (c.srcA l) - c.num (c.srcB c.ty.signed l)) fun c l => c.srcA l - c.srcB c.ty.signed l)) :=
  completes_saturated fun _ _ => Ctx.agrees_num.sub Ctx.agrees_num

theorem completes_ineg (x : RForm) :
    Completes (execIneg x) 0x044 (.r x) always (lanesTo (saturated (fun c l => -c.num (c.srcA l)) fun c l => -c.srcA l)) :=
  completes_saturated (op := fun a _ => -a) fun _ _ => Ctx.agrees_num.neg

/-- A magnitude is the word or its negation. -/
theorem Ctx.Agrees.natAbs {c : Ctx} {e : Int} {x y : Word64} (hx : c.Agrees e x) (hy : c.Agrees (-e) y) :
    c.Agrees e.natAbs (if e < 0 then y else x) := by
  split
  · rwa [Int.ofNat_natAbs_of_nonpos (by omega)]
  · rwa [Int.natAbs_of_nonneg (by omega)]

theorem completes_iabs (x : RForm) :
    Completes (execIabs x) 0x045 (.r x) always
      (lanesTo (saturated (fun c l => (c.num (c.srcA l)).natAbs) fun c l => if c.num (c.srcA l) < 0 then -c.srcA l else c.srcA l)) :=
  completes_saturated (op := fun a _ => a.natAbs) fun _ _ => Ctx.agrees_num.natAbs Ctx.agrees_num.neg

/-- The lesser of two numbers is the number of one of the words. -/
theorem Ctx.agrees_min {c : Ctx} {x y : Word64} : c.Agrees (min (c.num x) (c.num y)) (if c.num x ≤ c.num y then x else y) := by
  split
  · rw [min_eq_left ‹_›]
    exact agrees_num
  · rw [min_eq_right (by omega)]
    exact agrees_num

theorem Ctx.agrees_max {c : Ctx} {x y : Word64} : c.Agrees (max (c.num x) (c.num y)) (if c.num y ≤ c.num x then x else y) := by
  split
  · rw [max_eq_left ‹_›]
    exact agrees_num
  · rw [max_eq_right (by omega)]
    exact agrees_num

theorem completes_isum (x : RForm) :
    Completes (execIsum x) 0x042 (.r x) always
      (lanesTo fun c l => c.typed (c.srcA l + c.srcB c.ty.signed l + c.srcC c.ty.signed l)) :=
  completes_intOp (op := fun _ a b k => a + b + k) fun _ _ => (Ctx.agrees_num.add Ctx.agrees_num).add Ctx.agrees_num

theorem completes_imin (x : RForm) :
    Completes (execImin x) 0x046 (.r x) always
      (lanesTo fun c l => c.typed
        (if c.num (c.srcA l) ≤ c.num (c.srcB c.ty.signed l) then c.srcA l else c.srcB c.ty.signed l)) :=
  completes_intOp (op := fun _ a b _ => min a b) fun _ _ => Ctx.agrees_min

theorem completes_imax (x : RForm) :
    Completes (execImax x) 0x047 (.r x) always
      (lanesTo fun c l => c.typed
        (if c.num (c.srcB c.ty.signed l) ≤ c.num (c.srcA l) then c.srcA l else c.srcB c.ty.signed l)) :=
  completes_intOp (op := fun _ a b _ => max a b) fun _ _ => Ctx.agrees_max

/-! ### ICADD (R177) -/

/-- The carry or borrow in. -/
def Ctx.carryIn (c : Ctx) (l : Nat) : Int := if c.srcC false l = 1 then 1 else 0

/-- The exact sum or difference with the carry. -/
def Ctx.carried (c : Ctx) (l : Nat) : Int :=
  if c.q = 0 then c.num (c.srcA l) + c.num (c.srcB false l) + c.carryIn l
  else c.num (c.srcA l) - c.num (c.srcB false l) - c.carryIn l

/-- The sum or difference of the type. -/
def Ctx.carriedWord (c : Ctx) (l : Nat) : Word64 := c.typed (BitVec.ofInt 64 (c.carried l))

/-- The carry or borrow out. -/
def Ctx.carryOut (c : Ctx) (l : Nat) : Bool := if c.q = 0 then decide (2 ^ c.width ≤ c.carried l) else decide (c.carried l < 0)

/-- A truth value of each lane written to predicate C. -/
def predCTo (out : Ctx → Nat → Bool) (c : Ctx) (s : State) : State :=
  if c.f.u then (if c.guard0 then writePred s c c.f.fc.toNat 0xFFFFFFFF (if out c c.lane0 then 0xFFFFFFFF else 0) else s)
  else writePred s c c.f.fc.toNat c.act (maskOf (out c))

/-- A predicate as source C is 0 or 1 (R171). -/
theorem Ctx.srcC_of_pred {c : Ctx} (hc : c.sh.c = .pred) (hi : c.sh.ci = false) (l : Nat) :
    ((c.srcC false l).toNat : Int) = c.carryIn l := by
  have hs : c.srcC false l = if (c.warp.regs.pred c.f.fc.toNat).getLsbD l then 1 else 0 := by
    rw [Ctx.srcC, hi, hc]
    rfl
  rw [Ctx.carryIn, hs]
  split <;> rfl

theorem icaddBody_eq {c : Ctx} (h : ∀ l, ((c.srcC false l).toNat : Int) = c.carryIn l) (s : State) :
    icaddBody c s = .done (predCTo Ctx.carryOut c (lanesTo Ctx.carriedWord c s)) := by
  have hres (l : Nat) : c.res (c.carried l) = c.carriedWord l := Ctx.agrees_ofInt.res
  have hlanes : (lanewise c s fun l => c.res (c.carried l)) = .done (lanesTo Ctx.carriedWord c s) := by
    rw [funext hres]
    exact lanewise_eq Ctx.carriedWord c s
  simp only [Ctx.carried] at hlanes
  simp only [icaddBody, h, hlanes, predCTo, Ctx.carryOut, Ctx.carried]
  split
  · split <;> rfl
  · rfl

theorem completes_icadd (x : RForm) :
    Completes (execIcadd x) 0x043 (.r x) always fun c s =>
      predCTo Ctx.carryOut c (lanesTo Ctx.carriedWord c s) := by
  refine completes_of_body fun s c hr _ => icaddBody_eq (fun l => ?_) _
  have hsh := shape_of_ready_when hr rfl
  exact Ctx.srcC_of_pred (by rw [hsh]) (by rw [hsh]) l

/-- Settles O1: every sum is computed on numbers that agree with the operand words. -/
theorem integerSums : Obligations.IntegerSums := by
  unfold Obligations.IntegerSums
  exact ⟨completes_iadd, completes_isub, completes_isum, completes_icadd, completes_ineg, completes_iabs, completes_imin, completes_imax,
    fun _ _ _ => completes_iadd _, fun _ _ _ => completes_isub _, fun _ _ => completes_ineg _, fun _ _ _ _ => (completes_iadd _).second _⟩

end Sys2Proof.Machine
end

section
/-!
PROOF. The products (O2).
-/
namespace Sys2Proof.Machine

namespace Ctx

variable {c : Ctx} {x y : Word64}

/-- The floor of a quotient by a power of two is the quotient that rounds down. -/
theorem agrees_high {e : Int} : c.Agrees (e / 2 ^ c.width) (BitVec.ofInt 64 (Int.fdiv e (2 ^ c.width))) := by
  rw [Int.fdiv_eq_ediv_of_nonneg _ (by positivity)]
  exact agrees_ofInt

/-- A narrower word's number is the word's extension, signed or not. -/
theorem ofInt_extend {n : Nat} (v : BitVec n) (sx : Bool) :
    BitVec.ofInt 64 (if sx then v.toInt else v.toNat) = if sx then v.signExtend 64 else v.zeroExtend 64 := by
  cases sx with
  | true => rfl
  | false => exact (BitVec.ofInt_natCast ..).trans (BitVec.ofNat_toNat ..)

theorem agrees_extend {n : Nat} (v : BitVec n) (sx : Bool) :
    c.Agrees (if sx then v.toInt else v.toNat) (if sx then v.signExtend 64 else v.zeroExtend 64) :=
  ofInt_extend v sx ▸ agrees_ofInt

/-- A 32-bit word widened by the type (R178). -/
def wide (c : Ctx) (x : Word64) : Word64 :=
  if c.ty.signed then (x.truncate 32 : Word32).signExtend 64 else (x.truncate 32 : Word32).zeroExtend 64

theorem agrees_ext32 : c.Agrees (c.ext32 x) (c.wide x) := agrees_extend _ _

/-- A byte of a word, widened (R178). -/
def wideByte (sx : Bool) (x : Word64) (i : Nat) : Word64 :=
  if sx then (x.extractLsb' (8 * i) 8).signExtend 64 else (x.extractLsb' (8 * i) 8).zeroExtend 64

theorem agrees_byteNum {sx : Bool} {i : Nat} : c.Agrees (byteNum sx x i) (wideByte sx x i) := agrees_extend _ _

/-- A distance is the difference of the greater and the lesser word. -/
theorem agrees_distance :
    c.Agrees (c.num x - c.num y).natAbs (if c.num y ≤ c.num x then x - y else y - x) := by
  split
  · rw [Int.natAbs_of_nonneg (by omega)]
    exact agrees_num.sub agrees_num
  · rw [Int.ofNat_natAbs_of_nonpos (by omega), Int.neg_sub]
    exact agrees_num.sub agrees_num

end Ctx

theorem completes_imul (x : RForm) :
    Completes (execImul x) 0x048 (.r x) always (lanesTo fun c l => c.typed (c.srcA l * c.srcB c.ty.signed l)) :=
  completes_intOp (op := fun _ a b _ => a * b) fun _ _ => Ctx.agrees_num.mul Ctx.agrees_num

theorem completes_imulhi (x : RForm) :
    Completes (execImulhi x) 0x049 (.r x) always (lanesTo fun c l =>
      c.typed (BitVec.ofInt 64 (Int.fdiv (c.num (c.srcA l) * c.num (c.srcB c.ty.signed l)) (2 ^ c.width)))) :=
  completes_intOp (op := fun w a b _ => a * b / 2 ^ w) fun _ _ => Ctx.agrees_high

theorem completes_imad (x : RForm) :
    Completes (execImad x) 0x04A (.r x) always
      (lanesTo fun c l => c.typed (c.srcA l * c.srcB c.ty.signed l + c.srcC c.ty.signed l)) :=
  completes_intOp (op := fun _ a b k => a * b + k) fun _ _ => (Ctx.agrees_num.mul Ctx.agrees_num).add Ctx.agrees_num

theorem completes_imadw (x : RForm) :
    Completes (execImadw x) 0x04B (.r x) always
      (lanesTo fun c l => c.typed (c.wide (c.srcA l) * c.wide (c.srcB c.ty.signed l) + c.srcC c.ty.signed l)) :=
  completes_res (fun _ _ => rfl) fun _ _ _ _ => (Ctx.agrees_ext32.mul Ctx.agrees_ext32).add Ctx.agrees_num

theorem completes_sad (x : RForm) :
    Completes (execSad x) 0x04C (.r x) always (lanesTo fun c l => c.typed
      ((if c.num (c.srcB c.ty.signed l) ≤ c.num (c.srcA l) then c.srcA l - c.srcB c.ty.signed l else c.srcB c.ty.signed l - c.srcA l)
        + c.srcC c.ty.signed l)) :=
  completes_intOp (op := fun _ a b k => (a - b).natAbs + k) fun _ _ => Ctx.agrees_distance.add Ctx.agrees_num

/-- A product of bytes of A and b, each extended as its bit of Q says. -/
def Ctx.byteProduct (c : Ctx) (l i : Nat) : Word64 :=
  Ctx.wideByte (c.q.testBit 0) (c.srcA l) i * Ctx.wideByte (c.q.testBit 1) (c.srcB true l) i

/-- The qualifier of a legal IDOT4 holds two bits (R178). -/
theorem q_lt_of_idot4 {x : RForm} {s : State} {c : Ctx} (h : Ready 0x04D (.r x) s c) : c.q < 4 := by
  have hlegal : (if x.t == .s32 && x.q.toNat ≤ 3 then _ else none) = some c.sh := shape_of_ready h
  have hq : c.q = x.q.toNat := by
    obtain ⟨-, -, -, -, -, -, hf, -⟩ := h
    rw [Ctx.q, hf]
  split at hlegal
  · rename_i hx
    simp only [Bool.and_eq_true, decide_eq_true_eq] at hx
    omega
  · cases hlegal

theorem completes_idot4 (x : RForm) :
    Completes (execIdot4 x) 0x04D (.r x) always (lanesTo fun c l => c.typed
      (c.srcC true l + c.byteProduct l 0 + c.byteProduct l 1 + c.byteProduct l 2 + c.byteProduct l 3)) := by
  refine completes_res (fun _ _ => rfl) fun s c l hr => ?_
  have h0 : (c.q % 2 == 1) = c.q.testBit 0 := by rw [Nat.testBit_zero]; rfl
  have h1 : (c.q / 2 == 1) = c.q.testBit 1 := by
    have := q_lt_of_idot4 hr
    rw [Nat.testBit_succ, Nat.testBit_zero, Nat.mod_eq_of_lt (by omega)]
    rfl
  have hp (i : Nat) : c.Agrees (byteNum (c.q % 2 == 1) (c.srcA l) i * byteNum (c.q / 2 == 1) (c.srcB true l) i) (c.byteProduct l i) := by
    rw [h0, h1]
    exact Ctx.agrees_byteNum.mul Ctx.agrees_byteNum
  exact (((Ctx.agrees_num.add (hp 0)).add (hp 1)).add (hp 2)).add (hp 3)

/-- Settles O2: every product is computed on numbers that agree with the operand words. -/
theorem integerProducts : Obligations.IntegerProducts := by
  unfold Obligations.IntegerProducts
  exact ⟨completes_imul, completes_imulhi, completes_imad, completes_imadw, completes_sad, completes_idot4, fun _ _ => completes_imul _⟩

end Sys2Proof.Machine
end

section
/-!
PROOF. Compares, choices, constants and addresses (O3).
-/
namespace Sys2Proof.Machine

/-- A word whose fields are legal runs its IOP (R112, R124, R126). -/
theorem whenLegal_of {ok : Prop} [Decidable ok] (h : ok) (f : State → Host.Outcome State Fault Refusal) : whenLegal ok f = f :=
  funext fun _ => if_pos h

/-! ### ICMP and SEL (R179) -/

/-- The sources stand in the relation that Q names. -/
def Ctx.related (c : Ctx) (l : Nat) : Bool :=
  let a := c.num (c.srcA l)
  let b := c.num (c.srcB c.ty.signed l)
  match c.q with
  | 0 => decide (a = b) | 1 => decide (a ≠ b) | 2 => decide (a < b)
  | 3 => decide (a ≤ b) | 4 => decide (a > b) | _ => decide (a ≥ b)

theorem completes_icmp (x : RForm) : Completes (execIcmp x) 0x04E (.r x) always (predTo Ctx.related) := by
  have hcond (c : Ctx) (l : Nat) : intCond c.q (c.num (c.srcA l)) (c.num (c.srcB c.ty.signed l)) = c.related l := by
    unfold intCond Ctx.related
    rw [Bool.eq_iff_iff]
    split <;> simp [*]
  refine completes_of_body fun s c _ _ => ?_
  rw [icmpBody, funext (hcond c)]
  exact lanewisePred_eq Ctx.related c _

theorem completes_sel (x : RForm) :
    Completes (execSel x) 0x04F (.r x) always
      (lanesTo fun c l => c.typed (if c.srcC false l = 1 then c.srcA l else c.srcB false l)) :=
  completes_res (fun _ _ => rfl) fun _ _ _ _ => Ctx.agrees_num

/-! ### MOVI (R184) -/

/-- The old D with one 16-bit field replaced by the immediate's low bits. -/
def Ctx.fielded (c : Ctx) (imm : BitVec 24) (l : Nat) : Word64 :=
  BitVec.ofNat 64 (maskOf64 fun i => if 16 * c.q ≤ i ∧ i < 16 * c.q + 16 then imm.getLsbD (i - 16 * c.q) else (c.oldD l).getLsbD i)

theorem fielded_eq (c : Ctx) (imm : BitVec 24) (l : Nat) :
    (c.oldD l &&& ~~~(0xFFFF#64 <<< (16 * c.q))) ||| ((imm.zeroExtend 64 <<< (16 * c.q)) &&& (0xFFFF#64 <<< (16 * c.q))) = c.fielded imm l := by
  refine BitVec.eq_of_getLsbD_eq fun i hi => ?_
  have hfield : (0xFFFF#64 <<< (16 * c.q)).getLsbD i = decide (16 * c.q ≤ i ∧ i < 16 * c.q + 16) := by
    have hones (j : Nat) (hj : j < 64) : (0xFFFF#64).getLsbD j = decide (j < 16) := by
      rw [BitVec.getLsbD_ofNat, decide_eq_true hj, Bool.true_and]
      exact Nat.testBit_two_pow_sub_one 16 j
    rw [BitVec.getLsbD_shiftLeft, hones _ (by omega), decide_eq_true hi, Bool.eq_iff_iff]
    simp
    omega
  rw [Ctx.fielded, getLsbD_maskOf64, BitVec.getLsbD_or, BitVec.getLsbD_and, BitVec.getLsbD_and, BitVec.getLsbD_not, hfield]
  by_cases h : 16 * c.q ≤ i ∧ i < 16 * c.q + 16
  · simp [h, hi]
  · simp [h, hi]

/-- The immediate whole, or in one 16-bit field of D. -/
def Ctx.constant (imm : BitVec 24) (c : Ctx) (l : Nat) : Word64 :=
  if c.q = 0 then c.typed (imm.signExtend 64) else c.typed (c.fielded imm l)

theorem completes_movi (x : IForm) : Completes (execMovi x) 0x060 (.i x) always (lanesTo (Ctx.constant x.imm)) := by
  refine completes_lanewise fun s c t _ _ => congrArg (lanewise c t) (funext fun l => ?_)
  unfold Ctx.constant
  split
  · exact (Ctx.agrees_extend x.imm true).res
  · exact fielded_eq c x.imm l ▸ Ctx.agrees_num.res

/-! ### LEA (R185) -/

theorem ofInt_mul_two_pow (e : Int) (n : Nat) : BitVec.ofInt 64 (e * 2 ^ n) = BitVec.ofInt 64 e <<< n := by
  rw [BitVec.ofInt_mul, BitVec.shiftLeft_eq_mul_twoPow, show ((2 : Int) ^ n) = ((2 ^ n : Nat) : Int) by simp, BitVec.ofInt_natCast]
  congr 1
  exact BitVec.eq_of_toNat_eq (by simp)

theorem completes_lea (x : RForm) :
    Completes (execLea x) 0x061 (.r x) always (lanesTo fun c l =>
      c.val c.sh.b (c.f.km.getLsbD 1) c.f.fb.toNat l + (c.wide (c.srcA l) <<< c.q) + (if c.sh.ci then c.f.fc.signExtend 64 else 0)) := by
  refine completes_lanewise fun s c t _ _ => congrArg (lanewise c t) (funext fun l => ?_)
  have hwide : BitVec.ofInt 64 (c.ext32 (c.srcA l)) = c.wide (c.srcA l) := Ctx.ofInt_extend _ _
  simp only [BitVec.ofInt_add, ofInt_mul_two_pow, hwide, BitVec.ofInt_natCast, BitVec.ofNat_toNat, BitVec.setWidth_eq]
  split <;> rfl

/-- A write to p15 is discarded (R66). -/
theorem warp?_writePred_true (s : State) (c : Ctx) (m x : BitVec 32) (w : Nat) : (writePred s c 15 m x).warp? w = s.warp? w := by
  unfold writePred
  by_cases h : w = c.w
  · rw [h, State.warp?_modRegs_self]
    exact Option.map_id'
  · exact State.warp?_modRegs_of_ne h

/-- Settles O3: the rows run the four IOPs on their own operands. -/
theorem comparesAndMoves : Obligations.ComparesAndMoves := by
  unfold Obligations.ComparesAndMoves
  refine ⟨completes_icmp, completes_sel, completes_movi, completes_lea, fun g cc p m i h => ?icmpi, fun m n cc h => ?icmp16,
    fun _ _ _ => completes_movi _, fun _ _ _ => completes_movi _, fun _ _ => completes_movi _, warp?_writePred_true⟩
  case icmpi =>
    have hrun : exec (.j32Icmpi g cc p m i) = withK0 _ (execIcmp _) := whenLegal_of h _
    exact hrun ▸ (completes_icmp _).second _
  case icmp16 =>
    have hlegal : cc.toNat ≤ 5 ∨ (8 ≤ cc.toNat ∧ cc.toNat ≤ 13) := by omega
    have hrun : exec (.j16Icmp m n cc) = execIcmp (j16IcmpOp m n cc) := whenLegal_of hlegal _
    exact hrun ▸ completes_icmp _

end Sys2Proof.Machine
end

section
/-!
PROOF. Logic, counts of bits and moves (O4).
-/
namespace Sys2Proof.Machine

/-- An IOP on the bit patterns of its operands, by the word that agrees with what it makes of them. -/
theorem completes_bitOp {opc : Nat} {f : Form} {op : Nat → Nat → Nat → Nat → Nat → Nat} {value : Ctx → Nat → Word64}
    (h : ∀ (c : Ctx) l, c.Agrees
      (op c.width (c.low (c.srcA l)) (c.low (c.srcB false l)) (c.low (c.srcC false l)) (c.low (c.oldD l)) : Nat) (value c l)) :
    Completes (runIop opc f (bitOp op)) opc f always (lanesTo fun c l => c.typed (value c l)) :=
  completes_res (fun _ _ => rfl) fun _ c l _ => h c l

namespace Ctx

variable {c : Ctx} {x y z : Word64}

/-! ### Bit by bit (R180) -/

theorem agrees_and : c.Agrees (c.low x &&& c.low y : Nat) (x &&& y) :=
  agrees_natCast.2 fun i hi => by simp [testBit_low, hi]

theorem agrees_or : c.Agrees (c.low x ||| c.low y : Nat) (x ||| y) :=
  agrees_natCast.2 fun i hi => by simp [testBit_low, hi]

theorem agrees_xor : c.Agrees (c.low x ^^^ c.low y : Nat) (x ^^^ y) :=
  agrees_natCast.2 fun i hi => by simp [testBit_low, hi]

/-- Numbers given by the same bits below w agree. -/
theorem agrees_bitsOf {f g : Nat → Bool} (h : ∀ i < c.width, f i = g i) :
    c.Agrees (bitsOf c.width f) (BitVec.ofNat 64 (maskOf64 g)) :=
  agrees_natCast.2 fun i hi => by
    have hi' : i < 64 := Nat.lt_of_lt_of_le hi c.width_le
    rw [testBit_bitsOf, getLsbD_maskOf64, decide_eq_true hi, decide_eq_true hi', h i hi]

theorem agrees_lop3 {lut : BitVec 8} :
    c.Agrees (lop3 lut c.width (c.low x) (c.low y) (c.low z)) (BitVec.ofNat 64 (maskOf64 fun i =>
      lut.getLsbD (4 * bit (x.getLsbD i) + 2 * bit (y.getLsbD i) + bit (z.getLsbD i)))) :=
  agrees_bitsOf fun i hi => by simp only [testBit_low, hi, decide_true, Bool.true_and, lutBit]

theorem agrees_brev :
    c.Agrees (brev c.width (c.low x)) (BitVec.ofNat 64 (maskOf64 fun i => decide (i < c.width) && x.getLsbD (c.width - 1 - i))) :=
  agrees_bitsOf fun i hi => by
    have hi' : c.width - 1 - i < c.width := by omega
    simp only [testBit_low, hi, hi', decide_true, Bool.true_and]

/-! ### Counts (R183) -/

theorem agrees_ofNat {n : Nat} : c.Agrees n (BitVec.ofNat 64 n) := BitVec.ofInt_natCast (w := 64) n ▸ agrees_ofInt

theorem popc_low : popc c.width (c.low x) = (List.range c.width).countP fun i => x.getLsbD i := by
  rw [popc, ← List.countP_eq_length_filter]
  refine List.countP_congr fun i hi => ?_
  rw [testBit_low, decide_eq_true (List.mem_range.1 hi), Bool.true_and]

end Ctx

/-- The first numbers that satisfy a test, up to the first that does not. -/
theorem length_takeWhile_range {p : Nat → Bool} {k n : Nat} (hk : k ≤ n) (h : ∀ i < k, p i = true) (hn : k < n → p k = false) :
    ((List.range n).takeWhile p).length = k := by
  obtain ⟨m, rfl⟩ := Nat.exists_eq_add_of_le hk
  rw [List.range_add, List.takeWhile_append_of_pos fun i hi => h i (List.mem_range.1 hi)]
  cases m with
  | zero => simp
  | succ m =>
    have hp : p k = false := hn (by omega)
    simp [List.range_succ_eq_map, hp]

/-- Leading zeros: the highest one bit stands at the logarithm. -/
theorem clz_eq {w a : Nat} (h : a < 2 ^ w) : clz w a = if a = 0 then w else w - 1 - a.log2 := by
  unfold clz
  split
  · rename_i h0
    exact length_takeWhile_range (Nat.le_refl w) (fun i _ => by simp [h0]) fun hw => absurd hw (Nat.lt_irrefl w)
  · rename_i h0
    have hlog : a.log2 < w := (Nat.log2_lt h0).2 h
    refine length_takeWhile_range (by omega) (fun i hi => ?_) fun _ => ?_
    · have hzero : a.testBit (w - 1 - i) = false :=
        Nat.testBit_lt_two_pow ((Nat.log2_lt h0).1 (by omega))
      rw [hzero]
      rfl
    · rw [show w - 1 - (w - 1 - a.log2) = a.log2 by omega, Nat.testBit_log2 h0]
      rfl

/-- Trailing zeros: the lowest one bit. -/
theorem ctz_eq (w a : Nat) : ctz w a = ((List.range w).find? fun i => a.testBit i).getD w := by
  unfold ctz
  cases hf : (List.range w).find? fun i => a.testBit i with
  | none =>
    have hno := List.find?_eq_none.1 hf
    exact length_takeWhile_range (Nat.le_refl w) (fun i hi => by simpa using hno i (List.mem_range.2 hi)) fun hw => absurd hw (Nat.lt_irrefl w)
  | some k =>
    obtain ⟨hk, hmem, hlow⟩ := List.find?_range_eq_some.1 hf
    exact length_takeWhile_range (List.mem_range.1 hmem).le hlow fun _ => by simp [hk]

theorem Ctx.ctz_low {c : Ctx} {x : Word64} :
    ctz c.width (c.low x) = ((List.range c.width).find? fun i => x.getLsbD i).getD c.width := by
  rw [ctz_eq]
  congr 1
  refine List.find?_congr fun i hi => ?_
  rw [Ctx.testBit_low, decide_eq_true (List.mem_range.1 hi), Bool.true_and]

/-! ### The instructions -/

theorem completes_and (x : RForm) :
    Completes (execAnd x) 0x050 (.r x) always (lanesTo fun c l => c.typed (c.srcA l &&& c.srcB false l)) :=
  completes_bitOp (op := fun _ a b _ _ => a &&& b) fun _ _ => Ctx.agrees_and

theorem completes_or (x : RForm) :
    Completes (execOr x) 0x051 (.r x) always (lanesTo fun c l => c.typed (c.srcA l ||| c.srcB false l)) :=
  completes_bitOp (op := fun _ a b _ _ => a ||| b) fun _ _ => Ctx.agrees_or

theorem completes_xor (x : RForm) :
    Completes (execXor x) 0x052 (.r x) always (lanesTo fun c l => c.typed (c.srcA l ^^^ c.srcB false l)) :=
  completes_bitOp (op := fun _ a b _ _ => a ^^^ b) fun _ _ => Ctx.agrees_xor

theorem completes_lop3 (x : RForm) :
    Completes (execLop3 x) 0x053 (.r x) always (lanesTo fun c l => c.typed (BitVec.ofNat 64 (maskOf64 fun i =>
      x.c.getLsbD (4 * bit ((c.srcA l).getLsbD i) + 2 * bit ((c.srcB false l).getLsbD i) + bit ((c.oldD l).getLsbD i))))) :=
  completes_bitOp (op := fun w a b _ d => lop3 x.c w a b d) fun _ _ => Ctx.agrees_lop3

theorem completes_brev (x : RForm) :
    Completes (execBrev x) 0x05B (.r x) always (lanesTo fun c l => c.typed
      (BitVec.ofNat 64 (maskOf64 fun i => decide (i < c.width) && (c.srcA l).getLsbD (c.width - 1 - i)))) :=
  completes_bitOp (op := fun w a _ _ _ => brev w a) fun _ _ => Ctx.agrees_brev

theorem completes_popc (x : RForm) :
    Completes (execPopc x) 0x05C (.r x) always (lanesTo fun c l => c.typed
      (BitVec.ofNat 64 ((List.range c.width).countP fun i => (c.srcA l).getLsbD i))) :=
  completes_bitOp (op := fun w a _ _ _ => popc w a) fun _ _ => Ctx.popc_low ▸ Ctx.agrees_ofNat

theorem completes_clz (x : RForm) :
    Completes (execClz x) 0x05D (.r x) always (lanesTo fun c l => c.typed (BitVec.ofNat 64
      (if c.low (c.srcA l) = 0 then c.width else c.width - 1 - (c.low (c.srcA l)).log2))) :=
  completes_bitOp (op := fun w a _ _ _ => clz w a) fun _ _ => clz_eq Ctx.low_lt ▸ Ctx.agrees_ofNat

theorem completes_ctz (x : RForm) :
    Completes (execCtz x) 0x05E (.r x) always (lanesTo fun c l => c.typed (BitVec.ofNat 64
      (((List.range c.width).find? fun i => (c.srcA l).getLsbD i).getD c.width))) :=
  completes_bitOp (op := fun w a _ _ _ => ctz w a) fun _ _ => Ctx.ctz_low ▸ Ctx.agrees_ofNat

theorem completes_mov (x : RForm) :
    Completes (execMov x) 0x05F (.r x) always (lanesTo fun c l => c.typed (if c.q = 1 then c.uB else c.srcA l)) :=
  completes_res (fun _ _ => rfl) fun _ _ _ _ => Ctx.agrees_num

/-- Settles O4: every result agrees, bit by bit or as a count, with what the IOP makes of its operands' bit patterns. -/
theorem logicAndCounts : Obligations.LogicAndCounts := by
  unfold Obligations.LogicAndCounts
  exact ⟨completes_and, completes_or, completes_xor, completes_lop3, completes_brev, completes_popc, completes_clz, completes_ctz,
    fun _ _ _ _ => (completes_and _).second _, fun _ _ _ _ => (completes_or _).second _, fun _ _ _ _ => (completes_xor _).second _,
    fun _ _ => completes_and _, fun _ _ => completes_or _, fun _ _ => completes_xor _, completes_mov, fun _ _ => completes_mov _⟩

end Sys2Proof.Machine
end

section
/-!
PROOF. Shifts, rotates and bit fields (O5).
-/
namespace Sys2Proof.Machine

namespace Ctx

variable {c : Ctx} {x y k : Word64} {e : Int} {n : Nat}

/-! ### Counts and words under the type -/

/-- The count of a shift, or the position of a field: b[7:0] (R181, R182). -/
def count (x : Word64) : Nat := (x.truncate 8 : BitVec 8).toNat

/-- The length of a field: b[15:8] (R182). -/
def fieldLen (x : Word64) : Nat := (x.extractLsb' 8 8).toNat

theorem toNat_mod_count : y.toNat % 256 = count y := (BitVec.toNat_setWidth 8 y).symm

theorem toNat_div_mod_fieldLen : y.toNat / 256 % 256 = fieldLen y := by
  rw [fieldLen, BitVec.extractLsb'_toNat, Nat.shiftRight_eq_div_pow]

theorem low_mod_count : c.low y % 256 = count y := by
  rw [show 256 = 2 ^ 8 from rfl, low_mod_two_pow (by decide)]
  exact toNat_mod_count

theorem low_div_mod_fieldLen : c.low y / 256 % 256 = fieldLen y := by
  have hfield (n : Nat) : n / 256 % 256 = n % 2 ^ 16 / 256 := by omega
  rw [hfield, low_mod_two_pow (by decide), ← hfield]
  exact toNat_div_mod_fieldLen

/-- The low w bits of a word, with zeros above or with the sign above. -/
def zeroLow (c : Ctx) (x : Word64) : Word64 := if c.w64 then x else (x.truncate 32 : Word32).zeroExtend 64
def signLow (c : Ctx) (x : Word64) : Word64 := if c.w64 then x else (x.truncate 32 : Word32).signExtend 64

theorem toNat_zeroLow : (c.zeroLow x).toNat = c.low x := by
  unfold zeroLow low width
  cases c.w64 <;> simp <;> omega

theorem toInt_signLow : (c.signLow x).toInt = (x.setWidth c.width).toInt := by
  unfold signLow width
  cases c.w64
  · simp [BitVec.toInt_signExtend_of_le]
  · simp

/-- Agreement is modulo 2^w. -/
theorem Agrees.emod (h : c.Agrees e x) : c.Agrees (e % 2 ^ c.width) x := by
  refine Eq.trans (BitVec.eq_of_toNat_eq ?_) h
  rw [BitVec.toNat_ofInt, BitVec.toNat_ofInt]
  simp

/-! ### Shifts (R181) -/

theorem agrees_shl : c.Agrees (shl c.width (c.low x) (c.low y)) (x <<< count y) := by
  rw [agrees_natCast]
  intro i hi
  have hi' : i < 64 := Nat.lt_of_lt_of_le hi c.width_le
  have hsub : i - count y < c.width := by omega
  rw [shl, low_mod_count, Nat.testBit_mod_two_pow, Nat.testBit_mul_two_pow, testBit_low, BitVec.getLsbD_shiftLeft, decide_eq_true hi,
    decide_eq_true hi', decide_eq_true hsub, Bool.eq_iff_iff]
  simp

theorem agrees_shr : c.Agrees (shr c.width (c.low x) (c.low y)) (c.zeroLow x >>> count y) := by
  rw [shr, low_mod_count, ← toNat_zeroLow, ← Nat.shiftRight_eq_div_pow, ← BitVec.toNat_ushiftRight]
  exact agrees_toNat

end Ctx

/-- The sign of a w-bit number is all that a shift by w or more leaves. -/
theorem toInt_ediv_two_pow_min {w : Nat} (v : BitVec w) (n : Nat) : v.toInt / 2 ^ min n w = v.toInt / 2 ^ n := by
  rcases Nat.le_total n w with h | h
  · rw [Nat.min_eq_left h]
  · have hlo : -((2 : Int) ^ w) ≤ v.toInt ∧ v.toInt < 2 ^ w := by
      have h1 := BitVec.toInt_lt (x := v)
      have h2 := BitVec.le_toInt v
      have h3 : (2 : Int) ^ (w - 1) ≤ 2 ^ w := pow_le_pow_right₀ (by decide) (by omega)
      omega
    have hpow : (2 : Int) ^ w ≤ 2 ^ n := pow_le_pow_right₀ (by decide) h
    have hpos : (0 : Int) < 2 ^ w := by positivity
    rw [Nat.min_eq_right h]
    rcases lt_or_ge v.toInt 0 with hneg | hnn
    · rw [Int.ediv_eq_neg_one_of_neg_of_le hneg (by omega), Int.ediv_eq_neg_one_of_neg_of_le hneg (by omega)]
    · rw [Int.ediv_eq_zero_of_lt hnn (by omega), Int.ediv_eq_zero_of_lt hnn (by omega)]

/-- The number that a bit pattern holds as a signed value. -/
theorem toInt_eq_ite {w : Nat} (v : BitVec w) (h : 0 < w) :
    v.toInt = if v.toNat < 2 ^ (w - 1) then (v.toNat : Int) else (v.toNat : Int) - 2 ^ w := by
  obtain ⟨m, rfl⟩ : ∃ m, w = m + 1 := ⟨w - 1, by omega⟩
  rw [BitVec.toInt_eq_toNat_cond, Nat.add_sub_cancel, Nat.pow_succ]
  push_cast
  split <;> split <;> omega

/-- ROT on a bit pattern is the rotation of its word. -/
theorem rot_eq {w : Nat} (v : BitVec w) (hw : 0 < w) (b : Nat) : rot w v.toNat b = (v.rotateLeft (b % 256)).toNat := by
  have hn : b % 256 % w < w := Nat.mod_lt _ hw
  rw [BitVec.toNat_rotateLeft, rot]
  generalize b % 256 % w = n at hn
  have hlt : v.toNat / 2 ^ (w - n) < 2 ^ n := by
    rw [Nat.div_lt_iff_lt_mul (Nat.two_pow_pos _), ← Nat.pow_add, show n + (w - n) = w by omega]
    exact v.isLt
  have hsplit : v.toNat * 2 ^ n % 2 ^ w = 2 ^ n * (v.toNat % 2 ^ (w - n)) := by
    rw [Nat.mul_comm, ← Nat.mul_mod_mul_left, ← Nat.pow_add, show n + (w - n) = w by omega]
  rw [Nat.shiftLeft_eq, Nat.shiftRight_eq_div_pow, hsplit, Nat.two_pow_add_eq_or_of_lt hlt]

namespace Ctx

variable {c : Ctx} {x y k : Word64}

theorem width_pos (c : Ctx) : 0 < c.width := by
  rcases c.width_eq with h | h <;> omega

theorem agrees_sar : c.Agrees (sar c.width (c.low x) (c.low y)) ((c.signLow x).sshiftRight (count y)) := by
  have hsar : (sar c.width (c.low x) (c.low y) : Int) = ((c.signLow x).sshiftRight (count y)).toInt % 2 ^ c.width := by
    rw [sar, low_mod_count, low_eq, ← toInt_eq_ite _ c.width_pos, toInt_ediv_two_pow_min, BitVec.toInt_sshiftRight, toInt_signLow,
      Int.shiftRight_eq_div_pow, Int.toNat_of_nonneg (Int.emod_nonneg _ (by positivity))]
    simp
  rw [hsar]
  exact agrees_toInt.emod

/-- A word of w bits rotated. -/
def rotated (c : Ctx) (x : Word64) (n : Nat) : Word64 :=
  if c.w64 then x.rotateLeft n else ((x.truncate 32 : Word32).rotateLeft n).zeroExtend 64

theorem setWidth_rotated (n : Nat) : (c.rotated x n).setWidth c.width = (x.setWidth c.width).rotateLeft n := by
  unfold rotated width
  cases c.w64 <;> simp

theorem agrees_rot : c.Agrees (rot c.width (c.low x) (c.low y)) (c.rotated x (count y)) := by
  rw [Agrees, low_eq, rot_eq _ c.width_pos, low_mod_count, setWidth_rotated, BitVec.ofInt_natCast, BitVec.ofNat_toNat, BitVec.setWidth_eq]

/-- The pair a:b of FSHF. -/
def funnelPair (c : Ctx) (x y : Word64) : BitVec 128 :=
  if c.w64 then x ++ y else ((x.truncate 32 : Word32) ++ (y.truncate 32 : Word32)).zeroExtend 128

theorem toNat_funnelPair : (c.funnelPair x y).toNat = c.low x * 2 ^ c.width + c.low y := by
  have happend {n : Nat} (u v : BitVec n) : (u ++ v).toNat = u.toNat * 2 ^ n + v.toNat := by
    rw [BitVec.toNat_append, ← Nat.shiftLeft_add_eq_or_of_lt v.isLt, Nat.shiftLeft_eq]
  unfold funnelPair low width
  cases c.w64
  · simp [happend]
    omega
  · simp [happend, Nat.mod_eq_of_lt x.isLt, Nat.mod_eq_of_lt y.isLt]

/-- The pair shifted, and the word that FSHF takes from it. -/
def funnel (c : Ctx) (left : Bool) (x y : Word64) (n : Nat) : Word64 :=
  (if left then (c.funnelPair x y <<< n) >>> c.width else c.funnelPair x y >>> n).truncate 64

theorem agrees_fshf {left : Bool} :
    c.Agrees (fshf left c.width (c.low x) (c.low y) (c.low k)) (c.funnel left x y (min (count k) c.width)) := by
  have hw := c.width_le
  rw [agrees_natCast]
  intro i hi
  have hi' : i < 64 := Nat.lt_of_lt_of_le hi hw
  rw [fshf, low_mod_count, ← toNat_funnelPair, funnel, BitVec.getLsbD_setWidth, decide_eq_true hi', Bool.true_and]
  generalize hn : min (count k) c.width = n
  cases left with
  | true =>
    simp only [if_true]
    have hpair : c.width + i < 128 := by omega
    rw [Nat.testBit_mod_two_pow, Nat.testBit_div_two_pow, Nat.testBit_mul_two_pow, BitVec.testBit_toNat, BitVec.getLsbD_ushiftRight,
      BitVec.getLsbD_shiftLeft, Nat.add_comm i, decide_eq_true hi, decide_eq_true hpair, Bool.eq_iff_iff]
    simp
  | false =>
    simp only [Bool.false_eq_true, if_false]
    rw [Nat.testBit_mod_two_pow, Nat.testBit_div_two_pow, BitVec.testBit_toNat, BitVec.getLsbD_ushiftRight, decide_eq_true hi]
    simp [Nat.add_comm]

/-! ### Bit fields (R182) -/

/-- The position and the length of a field, no more than the width. -/
def pos (c : Ctx) (y : Word64) : Nat := min (count y) c.width
def len (c : Ctx) (y : Word64) : Nat := min (fieldLen y) c.width

theorem len_le (c : Ctx) (y : Word64) : c.len y ≤ 64 := Nat.le_trans (Nat.min_le_right ..) c.width_le

/-- A word moved down to a position, with the type's fill above. -/
def movedDown (c : Ctx) (x : Word64) (n : Nat) : Word64 :=
  if c.ty.signed then (c.signLow x).sshiftRight n else c.zeroLow x >>> n

theorem num_ediv_emod (x : Word64) (p : Nat) {n : Nat} (hn : n ≤ 64) :
    c.num x / 2 ^ p % 2 ^ n = ((c.movedDown x p).setWidth n).toNat := by
  rw [num_eq, movedDown]
  split
  · rw [← toInt_signLow, ← BitVec.signExtend_eq_setWidth_of_le _ hn, BitVec.signExtend, BitVec.toNat_ofInt, BitVec.toInt_sshiftRight,
      Int.shiftRight_eq_div_pow, Int.toNat_of_nonneg (Int.emod_nonneg _ (by positivity))]
    simp
  · rw [← low_eq, ← toNat_zeroLow, BitVec.toNat_setWidth, BitVec.toNat_ushiftRight, Nat.shiftRight_eq_div_pow]
    push_cast
    rfl

end Ctx

/-- Moving a field up to the top and down again extends it. -/
theorem shiftLeft_ushiftRight (x : Word64) {n : Nat} (hn : n ≤ 64) : (x <<< (64 - n)) >>> (64 - n) = (x.setWidth n).zeroExtend 64 := by
  refine BitVec.eq_of_getLsbD_eq fun i hi => ?_
  have hin : 64 - n + i < 64 ↔ i < n := by omega
  simp [hi, hin]

theorem shiftLeft_sshiftRight (x : Word64) {n : Nat} (hn : n ≤ 64) :
    (x <<< (64 - n)).sshiftRight (64 - n) = (x.setWidth n).signExtend 64 := by
  refine BitVec.eq_of_getLsbD_eq fun i hi => ?_
  have hin : 64 - n + i < 64 ↔ i < n := by omega
  have htop : (x <<< (64 - n)).msb = (x.setWidth n).msb := by
    rw [BitVec.msb_shiftLeft, BitVec.getMsbD_eq_getLsbD, BitVec.msb_eq_getLsbD_last, BitVec.getLsbD_setWidth,
      show 64 - 1 - (64 - n) = n - 1 by omega, Bool.eq_iff_iff]
    simp
  rw [BitVec.getLsbD_sshiftRight, BitVec.getLsbD_signExtend, htop]
  by_cases hn' : i < n
  · simp [hi, hin, hn']
  · simp [hi, hin, hn']

/-- A field as a signed number: the highest of its bits is its sign. -/
theorem toInt_eq_ite_top {n : Nat} (v : BitVec n) :
    (if 0 < n ∧ (2 : Int) ^ (n - 1) ≤ v.toNat then (v.toNat : Int) - 2 ^ n else v.toNat) = v.toInt := by
  rcases Nat.eq_zero_or_pos n with rfl | hn
  · simp [BitVec.of_length_zero]
  · have htop : (2 : Int) ^ (n - 1) ≤ v.toNat ↔ ¬ v.toNat < 2 ^ (n - 1) := by
      rw [Nat.not_lt]
      exact_mod_cast Iff.rfl
    rw [toInt_eq_ite v hn]
    by_cases h : v.toNat < 2 ^ (n - 1) <;> simp [hn, htop, h]

namespace Ctx

variable {c : Ctx} {x y z : Word64}

/-- The field that BFE extracts. -/
def extracted (c : Ctx) (x y : Word64) : Word64 :=
  let moved := c.movedDown x (c.pos y)
  let k := 64 - c.len y
  if c.ty.signed then (moved <<< k).sshiftRight k else (moved <<< k) >>> k

theorem agrees_bfi : c.Agrees (bfi c.width (c.low x) (c.low y) (c.low z)) (BitVec.ofNat 64 (maskOf64 fun i =>
    if c.pos y ≤ i ∧ i < c.pos y + c.len y then x.getLsbD (i - c.pos y) else z.getLsbD i)) := by
  refine agrees_bitsOf fun i hi => ?_
  have hsub : i - c.pos y < c.width := by omega
  simp only [low_mod_count, low_div_mod_fieldLen, testBit_low]
  change (if decide (c.pos y ≤ i) && decide (i < min (c.pos y + c.len y) c.width) then decide (i - c.pos y < c.width) && _ else _) = _
  simp only [hsub, hi, decide_true, Bool.true_and, Bool.and_eq_true, decide_eq_true_eq, Nat.lt_min, and_true]
  rfl

theorem agrees_extracted :
    c.Agrees (if c.ty.signed then ((c.movedDown x (c.pos y)).setWidth (c.len y)).toInt else ((c.movedDown x (c.pos y)).setWidth (c.len y)).toNat)
      (c.extracted x y) := by
  rw [extracted, shiftLeft_sshiftRight _ (c.len_le _), shiftLeft_ushiftRight _ (c.len_le _)]
  exact agrees_extend _ _

end Ctx

theorem bfeBody_eq (c : Ctx) (s : State) :
    bfeBody c s = lanewise c s fun l => c.typed (c.extracted (c.srcA l) (c.srcB false l)) := by
  refine congrArg (lanewise c s) (funext fun l => Eq.trans ?_ (Ctx.agrees_extracted.res))
  have hpos : min ((c.srcB false l).toNat % 256) c.width = c.pos (c.srcB false l) := congrArg (min · c.width) Ctx.toNat_mod_count
  have hlen : min ((c.srcB false l).toNat / 256 % 256) c.width = c.len (c.srcB false l) :=
    congrArg (min · c.width) Ctx.toNat_div_mod_fieldLen
  simp only [hpos, hlen, Ctx.num_ediv_emod _ _ (c.len_le _), ← toInt_eq_ite_top]
  cases c.ty.signed <;> simp

/-! ### The instructions -/

theorem completes_shl (x : RForm) :
    Completes (execShl x) 0x054 (.r x) always (lanesTo fun c l => c.typed (c.srcA l <<< Ctx.count (c.srcB false l))) :=
  completes_bitOp (op := fun w a b _ _ => shl w a b) fun _ _ => Ctx.agrees_shl

theorem completes_shr (x : RForm) :
    Completes (execShr x) 0x055 (.r x) always
      (lanesTo fun c l => c.typed (c.zeroLow (c.srcA l) >>> Ctx.count (c.srcB false l))) :=
  completes_bitOp (op := fun w a b _ _ => shr w a b) fun _ _ => Ctx.agrees_shr

theorem completes_sar (x : RForm) :
    Completes (execSar x) 0x056 (.r x) always
      (lanesTo fun c l => c.typed ((c.signLow (c.srcA l)).sshiftRight (Ctx.count (c.srcB false l)))) :=
  completes_bitOp (op := fun w a b _ _ => sar w a b) fun _ _ => Ctx.agrees_sar

/-- A rotated 64-bit word is the result itself; a rotated 32-bit word is extended by the type. -/
theorem Ctx.typed_rotated (c : Ctx) (x : Word64) (n : Nat) :
    c.typed (c.rotated x n)
      = if c.w64 then x.rotateLeft n else c.typed (((x.truncate 32 : Word32).rotateLeft n).zeroExtend 64) := by
  unfold rotated typed
  cases c.w64 <;> rfl

theorem completes_rot (x : RForm) :
    Completes (execRot x) 0x057 (.r x) always (lanesTo fun c l =>
      if c.w64 then (c.srcA l).rotateLeft (Ctx.count (c.srcB false l))
      else c.typed ((((c.srcA l).truncate 32 : Word32).rotateLeft (Ctx.count (c.srcB false l))).zeroExtend 64)) := by
  simp only [← Ctx.typed_rotated]
  exact completes_bitOp (op := fun w a b _ _ => rot w a b) fun _ _ => Ctx.agrees_rot

theorem completes_fshf (x : RForm) :
    Completes (execFshf x) 0x058 (.r x) always (lanesTo fun c l => c.typed
      (c.funnel (x.q == 1) (c.srcA l) (c.srcB false l) (min (Ctx.count (c.srcC false l)) c.width))) :=
  completes_bitOp (op := fun w a b k _ => fshf (x.q == 1) w a b k) fun _ _ => Ctx.agrees_fshf

theorem completes_bfe (x : RForm) :
    Completes (execBfe x) 0x059 (.r x) always (lanesTo fun c l => c.typed (c.extracted (c.srcA l) (c.srcB false l))) :=
  completes_lanewise fun _ c t _ _ => bfeBody_eq c t

theorem completes_bfi (x : RForm) :
    Completes (execBfi x) 0x05A (.r x) always (lanesTo fun c l => c.typed (BitVec.ofNat 64 (maskOf64 fun i =>
      if c.pos (c.srcB false l) ≤ i ∧ i < c.pos (c.srcB false l) + c.len (c.srcB false l) then
        (c.srcA l).getLsbD (i - c.pos (c.srcB false l)) else (c.oldD l).getLsbD i))) :=
  completes_bitOp (op := fun w a b _ d => bfi w a b d) fun _ _ => Ctx.agrees_bfi

/-- Settles O5: every shift and every field agrees with what the IOP makes of its operands' bit patterns. -/
theorem shiftsAndFields : Obligations.ShiftsAndFields := by
  unfold Obligations.ShiftsAndFields
  exact ⟨completes_shl, completes_shr, completes_sar, completes_rot, completes_fshf, completes_bfe, completes_bfi,
    fun _ _ _ _ => completes_shl _, fun _ _ _ _ => completes_shr _, fun _ _ _ _ => completes_sar _, fun _ _ _ _ => completes_rot _,
    fun _ _ => completes_shl _, fun _ _ => completes_shr _, fun _ _ => completes_sar _⟩

end Sys2Proof.Machine
end

section
/-!
PROOF. The exchanges between lanes (O6).
-/
namespace Sys2Proof.Machine

/-! ### LXCH (R188) -/

/-- The lane that b names, if it is a lane of the path. -/
def Ctx.source (c : Ctx) (l : Nat) : Option Nat :=
  let n : Word32 := (c.srcB (c.q == 1) l).truncate 32
  let i : Int := if c.q = 0 then n.toNat else if c.q = 1 then l + n.toInt else (Nat.xor l n.toNat : Nat)
  if 0 ≤ i ∧ i ≤ 31 ∧ c.path.lmask.getLsbD i.toNat = true then some i.toNat else none

theorem lxchBody_eq (c : Ctx) (s : State) : lxchBody c s = lanewise c s fun l => c.srcA ((c.source l).getD l) := by
  refine congrArg (lanewise c s) (funext fun l => ?_)
  unfold Ctx.source
  simp only
  generalize (if c.q = 0 then _ else _ : Int) = i
  have hrange : (0 ≤ i && i < 32 && c.path.lmask.getLsbD i.toNat) = true ↔ 0 ≤ i ∧ i ≤ 31 ∧ c.path.lmask.getLsbD i.toNat = true := by
    have hi : i < 32 ↔ i ≤ 31 := by omega
    simp only [Bool.and_eq_true, decide_eq_true_eq, and_assoc, hi]
  split
  · rw [if_pos (hrange.1 ‹_›)]
    rfl
  · rw [if_neg fun h => ‹¬ _› (hrange.2 h)]
    rfl

/-! ### PERM (R189) -/

/-- Four bytes in their places are the word of the four bytes. -/
theorem bytes_append (b0 b1 b2 b3 : BitVec 8) :
    b0.zeroExtend 64 <<< 0 ||| b1.zeroExtend 64 <<< 8 ||| b2.zeroExtend 64 <<< 16 ||| b3.zeroExtend 64 <<< 24
      = (b3 ++ b2 ++ b1 ++ b0).zeroExtend 64 := by
  have hout (b : BitVec 8) (j : Nat) (h : 8 ≤ j) : b.getLsbD j = false := BitVec.getLsbD_of_ge b j h
  refine BitVec.eq_of_getLsbD_eq fun i hi => ?_
  rw [BitVec.getLsbD_setWidth, BitVec.getLsbD_append, BitVec.getLsbD_append, BitVec.getLsbD_append]
  simp only [BitVec.getLsbD_or, BitVec.getLsbD_shiftLeft, BitVec.getLsbD_setWidth, Nat.sub_sub, Nat.reduceAdd]
  split_ifs
  all_goals grind

/-- The byte of b:a that the old D selects, or its sign (R189). -/
def Ctx.selected (c : Ctx) (l i : Nat) : BitVec 8 :=
  let x : Word64 := ((c.srcB false l).truncate 32 : Word32) ++ ((c.srcA l).truncate 32 : Word32)
  let b := x.extractLsb' (8 * ((c.oldD l).extractLsb' (4 * i) 3).toNat) 8
  if (c.oldD l).getLsbD (4 * i + 3) then (if b.msb then 0xFF else 0) else b

theorem permBody_eq (c : Ctx) (s : State) : permBody c s = lanewise c s fun l =>
    (c.selected l 3 ++ c.selected l 2 ++ c.selected l 1 ++ c.selected l 0 : BitVec 32).zeroExtend 64 :=
  congrArg (lanewise c s) (funext fun _ => bytes_append ..)

/-! ### BCAST (R190) -/

/-- The value of the lane that b names, 0 for a lane outside the path. -/
def Ctx.sent (c : Ctx) : Word64 :=
  let src := ((c.srcB false c.lane0).truncate 5 : BitVec 5).toNat
  c.typed (if c.path.lmask.getLsbD src then c.srcA src else 0)

theorem bcastBody_eq (c : Ctx) (s : State) :
    bcastBody c s = if c.q = 0 then lanewise c s fun _ => c.sent else if c.act = 0 then .done s else .done (writeUD s c c.sent) := by
  have hsrc : (c.srcB false c.lane0).toNat % 32 = ((c.srcB false c.lane0).truncate 5 : BitVec 5).toNat :=
    (BitVec.toNat_setWidth 5 _).symm
  simp only [bcastBody, hsrc, Ctx.agrees_num.res, Ctx.sent]

/-! ### WRED and WSCAN (R191, R192) -/

/-- The operation of WRED on two values of the type. -/
def Ctx.combine (c : Ctx) (op : Nat) (x y : Word64) : Word64 :=
  match op with
  | 0 => x + y
  | 1 => if c.num x ≤ c.num y then x else y
  | 2 => if c.num x ≤ c.num y then y else x
  | 3 => x &&& y
  | 4 => x ||| y
  | _ => x ^^^ y

/-- A word of the type stands for a number: modulo 2^w, and exactly where the operation compares. -/
structure Ctx.Stands (c : Ctx) (op : Nat) (e : Int) (x : Word64) : Prop where
  typed : c.typed x = x
  agrees : c.Agrees e x
  exact : op = 1 ∨ op = 2 → e = c.num x

namespace Ctx

variable {c : Ctx} {op : Nat} {e f : Int} {x y : Word64}

theorem Agrees.typed (h : c.Agrees e x) : c.Agrees e (c.typed x) := Eq.trans h (setWidth_typed c x).symm

theorem stands_num : c.Stands op (c.num x) (c.typed x) := ⟨typed_typed, agrees_num.typed, fun _ => num_typed.symm⟩

/-- Bitwise operations see only the low bits. -/
theorem Agrees.bits {g : ∀ {n : Nat}, BitVec n → BitVec n → BitVec n}
    (hg : ∀ {m n : Nat} (u v : BitVec m), (g u v).setWidth n = g (u.setWidth n) (v.setWidth n))
    (hx : c.Agrees e x) (hy : c.Agrees f y) : c.Agrees (g (BitVec.ofInt 64 e) (BitVec.ofInt 64 f)).toInt (g x y) := by
  have he : (BitVec.ofInt 64 e).setWidth c.width = x.setWidth c.width := (agrees_ofInt (c := c) (e := e)).symm.trans hx
  have hf : (BitVec.ofInt 64 f).setWidth c.width = y.setWidth c.width := (agrees_ofInt (c := c) (e := f)).symm.trans hy
  refine Eq.trans (agrees_toInt (c := c)) ?_
  rw [hg, hg, he, hf]

theorem Stands.reduce (hx : c.Stands op e x) (hy : c.Stands op f y) : c.Stands op (reduceOp op e f) (c.typed (c.combine op x y)) := by
  obtain ⟨-, hxa, hxe⟩ := hx
  obtain ⟨-, hya, hye⟩ := hy
  match op with
  | 0 => exact ⟨typed_typed, (hxa.add hya).typed, by omega⟩
  | 1 =>
    have h : reduceOp 1 e f = c.num (c.combine 1 x y) := by
      rw [hxe (.inl rfl), hye (.inl rfl), reduceOp, combine]
      split <;> omega
    exact h ▸ stands_num
  | 2 =>
    have h : reduceOp 2 e f = c.num (c.combine 2 x y) := by
      rw [hxe (.inr rfl), hye (.inr rfl), reduceOp, combine]
      split <;> omega
    exact h ▸ stands_num
  | 3 => exact ⟨typed_typed, (hxa.bits (g := (· &&& ·)) (fun _ _ => BitVec.setWidth_and) hya).typed, by omega⟩
  | 4 => exact ⟨typed_typed, (hxa.bits (g := (· ||| ·)) (fun _ _ => BitVec.setWidth_or) hya).typed, by omega⟩
  | n + 5 => exact ⟨typed_typed, (hxa.bits (g := (· ^^^ ·)) (fun _ _ => BitVec.setWidth_xor) hya).typed, by omega⟩

/-- A reduction over lanes. -/
theorem Stands.foldl (h : c.Stands op e x) (ls : List Nat) :
    c.res ((ls.map fun m => c.num (c.srcA m)).foldl (reduceOp op) e)
      = (ls.map fun m => c.typed (c.srcA m)).foldl (fun x y => c.typed (c.combine op x y)) x := by
  rw [List.foldl_map, List.foldl_map]
  have hfold := List.foldl_rel (l := ls) (r := c.Stands op) h fun m _ e x hx => hx.reduce (stands_num (x := c.srcA m))
  exact hfold.agrees.res.trans hfold.typed

/-- A number in the type's range is read back from its word. -/
theorem num_ofInt (hlo : c.lo ≤ e) (hhi : e ≤ c.hi) : c.num (BitVec.ofInt 64 e) = e := by
  rw [num_eq, ← agrees_ofInt (c := c)]
  unfold lo intLo at hlo
  unfold hi intHi at hhi
  split
  · rename_i hs
    rw [if_pos hs] at hlo hhi
    exact BitVec.toInt_ofInt_eq_self c.width_pos hlo (by omega)
  · rename_i hs
    rw [if_neg hs] at hlo hhi
    rw [BitVec.toNat_ofInt]
    push_cast
    rw [Int.emod_eq_of_lt hlo (by omega), Int.toNat_of_nonneg hlo]

/-- The operation of WSCAN: add, min, max or or (R192). -/
def scanOp (c : Ctx) : Nat := if c.q % 4 = 3 then 4 else c.q % 4

/-- The neutral word of the operation of WSCAN. -/
def identity (c : Ctx) : Word64 :=
  if c.scanOp = 1 then BitVec.ofInt 64 c.hi else if c.scanOp = 2 then BitVec.ofInt 64 c.lo else 0

theorem stands_identity (c : Ctx) :
    c.Stands c.scanOp (if c.scanOp = 1 then c.hi else if c.scanOp = 2 then c.lo else 0) (c.typed c.identity) := by
  have hstands (e : Int) (hlo : c.lo ≤ e) (hhi : e ≤ c.hi) : c.Stands c.scanOp e (c.typed (BitVec.ofInt 64 e)) :=
    ⟨typed_typed, agrees_ofInt.typed, fun _ => (num_typed.trans (num_ofInt hlo hhi)).symm⟩
  unfold identity
  split
  · exact hstands c.hi c.lo_le_hi le_rfl
  · split
    · exact hstands c.lo le_rfl c.lo_le_hi
    · exact ⟨typed_typed, (agrees_ofInt (e := 0)).typed, by omega⟩

/-- The combination of A over the active lanes up to a lane, or before it. -/
def scanned (c : Ctx) (l : Nat) : Word64 :=
  (((lanesOf c.act).filter fun m => if c.q < 4 then decide (m ≤ l) else decide (m < l)).map fun m => c.typed (c.srcA m)).foldl
    (fun x y => c.typed (c.combine c.scanOp x y)) (c.typed c.identity)

end Ctx

theorem wscanBody_eq (c : Ctx) (s : State) : wscanBody c s = lanewise c s c.scanned :=
  congrArg (lanewise c s) (funext fun _ => c.stands_identity.foldl _)

/-- The combination of A over the active lanes written to uniform D; nothing with no lane active. -/
def reducedTo (c : Ctx) (s : State) : State :=
  match (lanesOf c.act).map fun l => c.typed (c.srcA l) with
  | [] => s
  | x :: rest => writeUD s c (rest.foldl (fun x y => c.typed (c.combine c.q x y)) x)

theorem wredBody_eq (c : Ctx) (s : State) : wredBody c s = .done (reducedTo c s) := by
  unfold wredBody reducedTo
  cases lanesOf c.act with
  | nil => rfl
  | cons m ls => exact congrArg (fun x => Res.done (writeUD s c x)) (Ctx.stands_num.foldl ls)

/-! ### MATCH (R193) -/

theorem matchBody_eq (c : Ctx) (s : State) : matchBody c s = lanewise c s fun l =>
    BitVec.ofNat 64 (maskOf64 fun m => c.act.getLsbD m && c.typed (c.srcA m) == c.typed (c.srcA l)) := by
  refine congrArg (lanewise c s) (funext fun l => BitVec.eq_of_getLsbD_eq fun m hm => ?_)
  have hsame : (c.num (c.srcA m) == c.num (c.srcA l)) = (c.typed (c.srcA m) == c.typed (c.srcA l)) := by
    rw [Bool.eq_iff_iff, beq_iff_eq, beq_iff_eq, Ctx.num_eq_num_iff, Ctx.typed_eq_typed_iff]
  rw [BitVec.getLsbD_setWidth, getLsbD_maskOf64, ← hsame]
  by_cases h : m < 32
  · rw [getLsbD_maskOf _ h]
  · rw [BitVec.getLsbD_of_ge _ _ (Nat.not_lt.1 h), BitVec.getLsbD_of_ge _ _ (Nat.not_lt.1 h), Bool.false_and]

/-- Settles O6: each body gives every lane the value that the manual states, and reductions agree with the exact ones. -/
theorem laneExchanges : Obligations.LaneExchanges := by
  unfold Obligations.LaneExchanges
  refine ⟨fun x => completes_lanewise fun _ c t _ _ => lxchBody_eq c t, fun x => completes_lanewise fun _ c t _ _ => permBody_eq c t,
    fun x => completes_lanewise fun _ c t _ hq => (bcastBody_eq c t).trans (if_pos hq), fun x => ?uniform,
    fun x => completes_of_body fun _ c _ _ => wredBody_eq c _, fun x => completes_lanewise fun _ c t _ _ => wscanBody_eq c t,
    fun x => completes_lanewise fun _ c t _ _ => matchBody_eq c t⟩
  case uniform =>
    refine completes_of_body fun s c _ hq => (bcastBody_eq c _).trans ((if_neg hq).trans ?_)
    split <;> rfl

end Sys2Proof.Machine
end

section
/-!
PROOF. The floating-point arithmetic, compares and classes (O8).
-/
namespace Sys2Proof.Machine

/-! ### The frame of a lane-wise floating-point IOP (R199, R201) -/

theorem floatOp_eq (f : Ctx → Nat → FLane → Nat × FLane) (c : Ctx) (s : State) : floatOp f c s = .done (floatTo f c s) := by
  rw [floatOp, lanewise_eq fun c l => BitVec.ofNat 64 (laneValue 0 ((c.floatLanes (f c)).map fun o => (o.1, o.2.1)) l)]
  rfl

/-- A lane-wise floating-point IOP completes with the patterns, flags and states of its lanes. -/
theorem completes_floatOp {opc : Nat} {form : Form} {body : Ctx → State → Res} {f : Ctx → Nat → FLane → Nat × FLane}
    (hb : body = floatOp f) : Completes (runIop opc form body) opc form always (floatTo f) :=
  completes_of_body fun _ c _ _ => hb ▸ floatOp_eq f c _

/-! ### Arithmetic (R207) -/

theorem completes_fadd (x : RForm) :
    Completes (execFadd x) 0x0C0 (.r x) always
      (floatTo fun c l st => addValue c.fenv c.ty (c.fsrc c.ty 0 l) (c.fsrc c.ty 1 l) st) := completes_floatOp rfl

theorem completes_fsub (x : RForm) :
    Completes (execFsub x) 0x0C1 (.r x) always
      (floatTo fun c l st => addValue c.fenv c.ty (c.fsrc c.ty 0 l) (c.fsrc c.ty 1 l).negate st) := completes_floatOp rfl

theorem completes_fmul (x : RForm) :
    Completes (execFmul x) 0x0C2 (.r x) always
      (floatTo fun c l st => mulValue c.fenv c.ty (c.fsrc c.ty 0 l) (c.fsrc c.ty 1 l) st) := completes_floatOp rfl

theorem completes_ffma (x : RForm) :
    Completes (execFfma x) 0x0C3 (.r x) always
      (floatTo fun c l st => fmaValue c.fenv c.ty (c.fsrc c.ty 0 l) (c.fsrc c.ty 1 l) (c.fsrc c.ty 2 l) st) := completes_floatOp rfl

theorem completes_fmin (x : RForm) :
    Completes (execFmin x) 0x0C4 (.r x) always
      (floatTo fun c l st => minMaxValue false c.fenv c.ty (c.fsrc c.ty 0 l) (c.fsrc c.ty 1 l) st) := completes_floatOp rfl

theorem completes_fmax (x : RForm) :
    Completes (execFmax x) 0x0C5 (.r x) always
      (floatTo fun c l st => minMaxValue true c.fenv c.ty (c.fsrc c.ty 0 l) (c.fsrc c.ty 1 l) st) := completes_floatOp rfl

/-! ### FCMP and FCLASS (R208) -/

/-- A source of the compare is a NaN. -/
def Ctx.unordered (c : Ctx) (l : Nat) : Bool := (c.fsrc c.ty 0 l).isNan || (c.fsrc c.ty 1 l).isNan

/-- The sources stand in the relation that Q names. -/
def Ctx.floatRelated (c : Ctx) (l : Nat) : Bool :=
  let a := c.fsrc c.ty 0 l
  let b := c.fsrc c.ty 1 l
  match c.q with
  | 0 => !c.unordered l && a.same b
  | 1 => c.unordered l || !a.same b
  | 2 => !c.unordered l && a.lt b
  | 3 => !c.unordered l && (a.lt b || a.same b)
  | 4 => !c.unordered l && b.lt a
  | 5 => !c.unordered l && (b.lt a || a.same b)
  | 6 => !c.unordered l
  | _ => c.unordered l

/-- The compare of a lane is invalid. -/
def Ctx.invalidCompare (c : Ctx) (l : Nat) : Bool :=
  (c.fsrc c.ty 0 l).isSignalling || (c.fsrc c.ty 1 l).isSignalling
    || (c.unordered l && (c.q == 2 || c.q == 3 || c.q == 4 || c.q == 5))

/-- The qualifier of format R holds three bits (R57). -/
theorem Ctx.q_lt_of_r {c : Ctx} {x : RForm} (hf : c.f = .r x) : c.q < 8 := by
  rw [Ctx.q, hf]
  exact x.q.isLt

theorem floatCond_eq {c : Ctx} (hq : c.q < 8) (l : Nat) : floatCond c.q (c.fsrc c.ty 0 l) (c.fsrc c.ty 1 l) = c.floatRelated l := by
  have hu : ((c.fsrc c.ty 0 l).isNan || (c.fsrc c.ty 1 l).isNan) = c.unordered l := rfl
  unfold floatCond Ctx.floatRelated
  rw [hu]
  generalize c.q = q at hq
  interval_cases q <;> cases c.unordered l <;> rfl

theorem ordered_qualifier (q : Nat) : (decide (2 ≤ q) && decide (q ≤ 5)) = (q == 2 || q == 3 || q == 4 || q == 5) := by
  rw [Bool.eq_iff_iff]
  simp only [Bool.and_eq_true, Bool.or_eq_true, decide_eq_true_eq, beq_iff_eq]
  omega

/-- The union of equal flags over lanes is raised where some lane raises them. -/
theorem foldl_or_flag (e : Exc) (p : Nat → Bool) (ls : List Nat) (e0 : Exc) :
    ls.foldl (fun x l => x ||| if p l then e else 0) e0 = e0 ||| if ls.any p then e else 0 := by
  induction ls generalizing e0 with
  | nil => exact (BitVec.or_zero).symm
  | cons l ls ih =>
    rw [List.foldl_cons, ih, List.any_cons, BitVec.or_assoc]
    cases p l <;> cases ls.any p <;> simp

theorem completes_fcmp (x : RForm) :
    Completes (execFcmp x) 0x0C6 (.r x) always fun c s =>
      raiseExc (predTo Ctx.floatRelated c s) c (if c.runLanes.any c.invalidCompare then Exc.iv else 0) := by
  refine completes_of_body fun s c hr _ => ?_
  obtain ⟨-, -, -, -, -, -, hf, -⟩ := hr
  have hflags : _ = if c.runLanes.any c.invalidCompare then Exc.iv else 0 :=
    (foldl_or_flag Exc.iv c.invalidCompare c.runLanes 0).trans BitVec.zero_or
  simp only [fcmpBody, floatCond_eq (Ctx.q_lt_of_r hf), Bool.and_assoc, ordered_qualifier]
  rw [lanewisePred_eq Ctx.floatRelated, ← hflags]
  rfl

/-- The bit of a number, as a shift of 1. -/
theorem ofNat_two_pow (n : Nat) : BitVec.ofNat 64 (2 ^ n) = 1#64 <<< n :=
  BitVec.eq_of_toNat_eq (by simp [Nat.shiftLeft_eq])

theorem completes_fclass (x : RForm) :
    Completes (execFclass x) 0x0C7 (.r x) always
      (lanesTo fun c l => 1#64 <<< floatClass c.ty ((c.srcA l).toNat % 2 ^ c.ty.bits)) :=
  completes_lanewise fun _ c t _ _ => congrArg (lanewise c t) (funext fun _ => ofNat_two_pow _)

/-! ### Rounding to an integer, scaling and exponents (R209) -/

/-- The exponent of a number, and what FGETEXP gives for the others. -/
def exponentValue (x : FNum) (st : FLane) : Nat × FLane :=
  match x with
  | .fin d => if d.m = 0 then (0xFFFFFFFF80000000, st.raise Exc.iv) else ((BitVec.ofInt 64 (d.e + d.m.log2)).toNat, st)
  | _ => (0x7FFFFFFF, st.raise Exc.iv)

theorem fgetexpBody_eq : fgetexpBody = floatOp fun c l st => exponentValue (c.fsrc c.ty 0 l) st := by
  refine congrArg floatOp (funext fun c => funext fun l => funext fun st => ?_)
  cases c.fsrc c.ty 0 l <;> rfl

/-- Settles O8: each body is the rounding that the statement names, FCMP by its relation and flags, FCLASS by its bit. -/
theorem floatArithmetic : Obligations.FloatArithmetic := by
  unfold Obligations.FloatArithmetic
  exact ⟨completes_fadd, completes_fsub, completes_fmul, completes_ffma, completes_fmin, completes_fmax, completes_fcmp, completes_fclass,
    fun _ => completes_floatOp rfl, fun _ => completes_floatOp rfl, fun _ => completes_floatOp fgetexpBody_eq,
    fun _ => completes_floatOp rfl, fun _ _ _ _ _ => completes_ffma _, fun _ _ _ _ _ => completes_ffma _,
    fun _ _ _ => completes_fadd _, fun _ _ _ => completes_fmul _, fun _ _ _ => completes_ffma _, fun _ _ => completes_fsub _,
    fun _ _ => completes_fmin _, fun _ _ => completes_fmax _⟩

end Sys2Proof.Machine
end

section
/-!
PROOF. The special functions (O9).
-/
namespace Sys2Proof.Machine

section
variable (env : FEnv) (t : ElemType) (st : FLane)

/-- A NaN that no source gives is the canonical one (R204). -/
theorem invalid_nil : invalid env t [] st = (canonicalNan t, st.raise Exc.iv) := by
  unfold invalid nanResult
  split <;> rfl

/-- FRCP, FRSQ and FLOG2 of a zero divide by zero, and FSQRT keeps it (R210). -/
theorem special_zero {d : Dyad} (h : d.m = 0) :
    frcpValue env t (.fin d) st = (withSign t d.neg (infPattern t), st.raise Exc.dz)
      ∧ frsqValue env t (.fin d) st = (withSign t d.neg (infPattern t), st.raise Exc.dz)
      ∧ flog2Value env t (.fin d) st = (withSign t true (infPattern t), st.raise Exc.dz)
      ∧ (fsqrtValue env t (.fin d) st).1 = withSign t d.neg 0 ∧ (d.neg = true → (fsqrtValue env t (.fin d) st).2 = st) := by
  refine ⟨if_pos h, if_pos h, if_pos h, ?_⟩
  rw [show fsqrtValue env t (.fin d) st = _ from if_pos h]
  cases hn : d.neg with
  | true => exact ⟨rfl, fun _ => rfl⟩
  | false => simp [roundTo, Dyad.toApprox, h, hn]

/-- FRSQ, FSQRT and FLOG2 of a number below zero are invalid (R210). -/
theorem special_negative {d : Dyad} (h : d.m ≠ 0) (hn : d.neg = true) :
    frsqValue env t (.fin d) st = (canonicalNan t, st.raise Exc.iv) ∧ fsqrtValue env t (.fin d) st = (canonicalNan t, st.raise Exc.iv)
      ∧ flog2Value env t (.fin d) st = (canonicalNan t, st.raise Exc.iv) := by
  simp only [frsqValue, fsqrtValue, flog2Value, if_neg h, if_pos hn, invalid_nil, and_self]

/-- The same of minus infinity. -/
theorem special_minus_infinity :
    frsqValue env t (.inf true) st = (canonicalNan t, st.raise Exc.iv) ∧ fsqrtValue env t (.inf true) st = (canonicalNan t, st.raise Exc.iv)
      ∧ flog2Value env t (.inf true) st = (canonicalNan t, st.raise Exc.iv) :=
  ⟨invalid_nil env t st, invalid_nil env t st, invalid_nil env t st⟩

/-- The functions of an infinity (R210). -/
theorem special_infinity (n : Bool) :
    frcpValue env t (.inf n) st = (withSign t n 0, st)
      ∧ fsinValue false env t (.inf n) st = (canonicalNan t, st.raise Exc.iv)
      ∧ fsinValue true env t (.inf n) st = (canonicalNan t, st.raise Exc.iv)
      ∧ (n = true → fexp2Value env t (.inf n) st = (0, st))
      ∧ (n = false → frsqValue env t (.inf n) st = (0, st) ∧ fsqrtValue env t (.inf n) st = (infPattern t, st)
        ∧ fexp2Value env t (.inf n) st = (infPattern t, st) ∧ flog2Value env t (.inf n) st = (infPattern t, st)) := by
  refine ⟨rfl, invalid_nil env t st, invalid_nil env t st, ?_, ?_⟩
  · rintro rfl
    rfl
  · rintro rfl
    exact ⟨rfl, rfl, rfl, rfl⟩

end

/-- Settles O9: completion by the frame of the lane-wise IOPs, the special results by the kind of the source. -/
theorem specialFunctions : Obligations.SpecialFunctions := by
  unfold Obligations.SpecialFunctions
  refine ⟨⟨fun _ => completes_floatOp rfl, fun _ => completes_floatOp rfl, fun _ => completes_floatOp rfl, fun _ => completes_floatOp rfl,
    fun _ => completes_floatOp rfl, fun _ => completes_floatOp rfl, fun _ => completes_floatOp rfl, fun _ => completes_floatOp rfl⟩,
    fun env t x st => ?_⟩
  cases x with
  | nan => exact ⟨False.elim, False.elim, nofun⟩
  | inf n =>
    refine ⟨False.elim, ?_, ?_⟩
    · rintro rfl
      exact special_minus_infinity env t st
    · rintro _ ⟨⟩
      exact special_infinity env t st n
  | fin d => exact ⟨special_zero env t st, fun h => special_negative env t st h.1 h.2, nofun⟩

end Sys2Proof.Machine
end

section
/-!
PROOF. The packed instructions and the conversions (O10).
-/
namespace Sys2Proof.Machine

/-! ### HDOT2 (R211) -/

/-- A term of a sum is an infinity of a sign. -/
def infiniteTerm (n : Bool) (x : Option FNum) : Bool := match x with | some (.inf m) => m == n | _ => false

/-- The sign of a term that is an infinity. -/
def infinitySign (x : Option FNum) : Option Bool := x.bind fun x => if x.isInf then some x.neg else none

theorem infinitySign_eq_some {n : Bool} {x : Option FNum} : infinitySign x = some n ↔ infiniteTerm n x = true := by
  match x with
  | none => simp [infinitySign, infiniteTerm]
  | some (.nan ..) => simp [infinitySign, infiniteTerm, FNum.isInf]
  | some (.inf m) => simp [infinitySign, infiniteTerm, FNum.isInf, FNum.neg]
  | some (.fin d) => simp [infinitySign, infiniteTerm, FNum.isInf]

/-- The signs of the infinities among terms hold a sign where some term is an infinity of that sign. -/
theorem contains_infinitySigns (n : Bool) (xs : List (Option FNum)) :
    (xs.filterMap infinitySign).contains n = xs.any (infiniteTerm n) := by
  rw [Bool.eq_iff_iff, List.contains_iff_mem, List.mem_filterMap, List.any_eq_true]
  simp only [infinitySign_eq_some]

namespace Ctx
variable (c : Ctx) (l : Nat)

/-- Element i of a packed source. -/
def half (x : Word64) (i : Nat) : FNum := element c.fenv c.ty x i

/-- The two products and the FP32 addend of HDOT2. -/
def dotTerm (i : Nat) : Option FNum := (c.half (c.srcA l) i).mul (c.half (c.srcB false l) i)
def dotAddend : FNum := readFloat .f32 c.fenv.daz ((c.srcC false l).toNat % 2 ^ 32)
def dotData : List FNum :=
  [c.half (c.srcA l) 0, c.half (c.srcA l) 1, c.half (c.srcB false l) 0, c.half (c.srcB false l) 1, c.dotAddend l]
def dotTerms : List (Option FNum) := [c.dotTerm l 0, c.dotTerm l 1, some (c.dotAddend l)]

/-- A product is invalid, or the terms hold opposite infinities. -/
def invalidDot : Bool :=
  (c.dotTerms l).any (·.isNone) || ((c.dotTerms l).any (infiniteTerm true) && (c.dotTerms l).any (infiniteTerm false))

end Ctx

theorem hdot2Body_eq : hdot2Body = floatOp fun c l st =>
    nanOr c.fenv .f32 (c.dotData l) (if c.invalidDot l then st.raise Exc.iv else st) fun st =>
      writeFloat c.fenv .f32 false false (c.dotData l)
        (addOption c.fenv.down (addOption c.fenv.down (c.dotTerm l 0) (c.dotTerm l 1)) (some (c.dotAddend l))) st := by
  refine congrArg floatOp (funext fun c => funext fun l => funext fun st => ?_)
  have hbad : ((c.dotTerm l 0).isNone || (c.dotTerm l 1).isNone || (((c.dotTerms l).filterMap infinitySign).contains true
      && ((c.dotTerms l).filterMap infinitySign).contains false)) = c.invalidDot l := by
    rw [contains_infinitySigns, contains_infinitySigns, Ctx.invalidDot]
    simp [Ctx.dotTerms]
  rw [← hbad]
  rfl

/-! ### CVT (R213) -/

theorem completes_cvt (x : RForm) :
    Completes (execCvt x) 0x0DA (.r x) always (floatTo fun c l st => convert c.fenv c.ty (convSource c.fenv c.tsrc (c.srcA l)) st) :=
  completes_floatOp rfl

/-- Settles O10: each body is the frame of the lane-wise IOPs with the elements that the statement names. -/
theorem packedAndConversions : Obligations.PackedAndConversions := by
  unfold Obligations.PackedAndConversions
  exact ⟨fun _ => completes_floatOp rfl, fun _ => completes_floatOp rfl, fun _ => completes_floatOp rfl, fun _ => completes_floatOp rfl,
    fun _ => completes_floatOp rfl, fun _ => completes_floatOp hdot2Body_eq, completes_cvt, fun _ => completes_floatOp rfl,
    fun _ => completes_floatOp rfl, fun _ => completes_floatOp rfl, fun _ _ => completes_cvt _, fun _ _ => completes_cvt _⟩

end Sys2Proof.Machine
end

section
/-!
PROOF. The quantising instructions and the Hadamard converter (O24).
-/
namespace Sys2Proof.Machine

/-! ### The operand descriptor (R218) -/

section
variable {c : Ctx} {s : State} {t : ElemType} {f : State → List Byte → List Byte → Res}

theorem withDesc_of_no_lanes (h : c.act = 0) : withDesc c s t f = .done s := if_pos h

theorem withDesc_of_misaligned (ha : c.act ≠ 0) (h : c.uB.toNat % 32 ≠ 0) :
    withDesc c s t f = .trap .align (BitVec.ofNat 64 c.uB.toNat) := by
  simp only [withDesc, if_neg ha, bne_iff_ne.2 h, if_true]

theorem withDesc_of_described (ha : c.act ≠ 0) (h : c.uB.toNat % 32 = 0) {r : State × (List Byte × List Byte)}
    (hr : described c s c.uB.toNat (some t) = some r) : withDesc c s t f = f r.1 r.2.1 r.2.2 := by
  simp only [withDesc, if_neg ha, h, bne_self_eq_false, Bool.false_eq_true, if_false, loadDesc_of_described hr]

end

/-- A lane is active, and the descriptor at S(B) is aligned and legal for the format. -/
def DescReady (t : Ctx → ElemType) (c : Ctx) (s : State) : Prop :=
  c.act ≠ 0 ∧ c.uB.toNat % 32 = 0 ∧ (described c s c.uB.toNat (some (t c))).isSome = true

/-- The effect under the descriptor at S(B) and its codebook. -/
def underDesc (t : Ctx → ElemType) (next : List Byte → List Byte → Ctx → State → State) (c : Ctx) (s : State) : State :=
  match described c s c.uB.toNat (some (t c)) with
  | some (s, d, book) => next d book c s
  | none => s

section
variable {opc : Nat} {form : Form} {body : Ctx → State → Res} {t : Ctx → ElemType}
  {next : List Byte → List Byte → Ctx → State → State} {f : Ctx → State → List Byte → List Byte → Res}

/-- An IOP under a legal descriptor completes with its effect under it. -/
theorem accesses_underDesc (hb : ∀ c s, body c s = withDesc c s (t c) fun s d book => .done (next d book c s)) :
    Accesses (runIop opc form (afterOverflow body)) opc form (DescReady t) (underDesc t next) := by
  refine accesses_of_body fun s c ⟨hact, hal, hsome⟩ => ?_
  obtain ⟨r, hr⟩ := Option.isSome_iff_exists.1 hsome
  rw [hb, withDesc_of_described hact hal hr, underDesc, hr]

/-- With no lane active it has no effect. -/
theorem accesses_underDesc_idle (hb : ∀ c s, body c s = withDesc c s (t c) (f c)) :
    Accesses (runIop opc form (afterOverflow body)) opc form (fun c _ => c.act = 0) fun _ s => s :=
  accesses_of_body fun s c h => (hb c s).trans (withDesc_of_no_lanes h)

/-- With a lane active, a descriptor off 32-byte alignment faults. -/
theorem faults_underDesc_misaligned (hb : ∀ c s, body c s = withDesc c s (t c) (f c)) :
    Faults (runIop opc form (afterOverflow body)) opc form
      (fun c _ => c.act ≠ 0 ∧ c.uB.toNat % 32 ≠ 0 ∧ ∀ r, c.path.wait ≠ some (.reads r)) .align
      fun c _ => BitVec.ofNat 64 c.uB.toNat := by
  refine faults_of_body fun s c _ ⟨hact, hal, hwait⟩ => ?_
  have hbody : afterOverflow body c (prepare c s) = body c (prepare c s) := by
    unfold afterOverflow
    split
    · exact absurd ‹_› (hwait _)
    · rfl
  rw [hbody, hb, withDesc_of_misaligned hact hal]

end

/-! ### QNT and QNTH (R221) -/

namespace Ctx
variable (c : Ctx)

/-- The stochastic state that a lane starts from (R201). -/
def laneStart (l : Nat) : FLane := { sr := c.warp.regs.srst.lane l }

/-- The sources of a lane block, after the transform for QNTH. -/
def quantBlock (transform : Bool) (nb k : Nat) : List FNum :=
  let xs := (blockLanes nb k).map c.quantSource
  if !transform then xs
  else if xs.any FNum.isNan then xs.map fun _ => .nan false false (2 ^ 22) 23
  else hadamardAll c.quantEnv.down (if nb = 16 then 2 else 3) xs

/-- The scale of a block from its lanes in LaneMask(), under a descriptor and its codebook. -/
def quantScale (transform : Bool) (d book : List Byte) (k : Nat) : Nat × Scale × Exc :=
  blockScale c.ty (descSfmt d) book (((List.range (descBlk d)).zip (c.quantBlock transform (descBlk d) k)).filterMap fun y =>
    if c.path.lmask.getLsbD (descBlk d * k + y.1) then some y.2 else none)

/-- The elements of the active lanes of a block. -/
def quantCodes (transform : Bool) (d book : List Byte) (k : Nat) : List (Nat × Nat × FLane) :=
  ((List.range (descBlk d)).zip (c.quantBlock transform (descBlk d) k)).filterMap fun y =>
    let l := descBlk d * k + y.1
    if c.act.getLsbD l then some (l, quantElement c.quantEnv c.ty book (c.quantScale transform d book k).2.1 y.2 (c.laneStart l)) else none

end Ctx

/-- The elements in D, and the scales of the blocks in the bytes of S(C) where C names a uniform. -/
def quantisedTo (transform : Bool) (d book : List Byte) (c : Ctx) (s : State) : State :=
  let ks := blocksOf (descBlk d) c.act
  let s := writeElements c s (ks.flatMap (c.quantCodes transform d book)) (ks.foldl (fun x k => x ||| (c.quantScale transform d book k).2.2) 0)
  if c.hasC = true ∧ descSfmt d ≠ 0 then
    writeUni s c c.f.fc.toNat (ks.foldl (fun (w : Word64) k =>
      (w &&& ~~~((0xFF : Word64) <<< (8 * k))) ||| (BitVec.ofNat 64 (c.quantScale transform d book k).1 <<< (8 * k))) c.uC)
  else s

theorem qntBody_eq (transform : Bool) (c : Ctx) (s : State) :
    qntBody transform c s = withDesc c s c.ty fun s d book => .done (quantisedTo transform d book c s) := by
  refine congrArg (withDesc c s c.ty) (funext fun s => funext fun d => funext fun book => ?_)
  have hblock (k : Nat) : (if transform then
        (if ((blockLanes (descBlk d) k).map c.quantSource).any FNum.isNan then
          ((blockLanes (descBlk d) k).map c.quantSource).map fun _ => FNum.nan false false (2 ^ 22) 23
        else hadamardAll c.quantEnv.down (if descBlk d = 16 then 2 else 3) ((blockLanes (descBlk d) k).map c.quantSource))
      else (blockLanes (descBlk d) k).map c.quantSource) = c.quantBlock transform (descBlk d) k := by
    cases transform <;> rfl
  have hput : (c.hasC && descSfmt d != 0) = true ↔ c.hasC = true ∧ descSfmt d ≠ 0 := by
    rw [Bool.and_eq_true, bne_iff_ne]
  simp only [hblock, List.flatMap_map, List.foldl_map, hput]
  rfl

/-! ### QSCALE, DQNT and CBLD (R222-R224) -/

/-- The elements in D under the scales that S(C) gives. -/
def scaledTo (d book : List Byte) (c : Ctx) (s : State) : State :=
  writeElements c s ((lanesOf c.act).map fun l =>
    (l, quantElement c.quantEnv c.ty book (c.givenScale (descSfmt d) (l / descBlk d)) (c.quantSource l) (c.laneStart l))) 0

theorem qscaleBody_eq (c : Ctx) (s : State) : qscaleBody c s = withDesc c s c.ty fun s d book => .done (scaledTo d book c s) := rfl

/-- One word of each active lane in D, with the flags and states of the lanes. -/
def wordsTo (c : Ctx) (outs : List (Nat × Nat × FLane)) (s : State) : State :=
  keepLanes c (writeVec s c (c.f.km.getLsbD 3) c.f.d.toNat 1 c.act fun l => BitVec.ofNat 64 (laneValue (0, ({} : FLane)) outs l).1)
    (outs.map fun o => (o.1, o.2.2))

/-- The number that the scale of S(C) stands for; a NaN of E4M3 keeps its sign and fraction (R204, R223). -/
def Ctx.scaleNumber (c : Ctx) (sfmt k : Nat) : FNum :=
  match c.givenScale sfmt k with
  | .nan => if sfmt = 2 then readFloat .e4m3 false (c.uC.toNat / 2 ^ (8 * k) % 256) else .nan false false (2 ^ 22) 23
  | .val d => .fin d

theorem Ctx.givenScaleNum_eq (c : Ctx) : c.givenScaleNum = c.scaleNumber := by
  funext sfmt k
  unfold Ctx.givenScaleNum Ctx.scaleNumber
  cases c.givenScale sfmt k <;> rfl

/-- The values of the elements times their scales, as FP32. -/
def dequantisedTo (d book : List Byte) (c : Ctx) : State → State :=
  wordsTo c ((lanesOf c.act).map fun l =>
    let x := decodeElement c.ty book ((c.srcA l).toNat / 2 ^ (c.ty.bits * c.q))
    let z := c.scaleNumber (descSfmt d) (l / descBlk d)
    (l, nanOr c.quantEnv .f32 [x, z] (c.laneStart l) fun t => writeFloat c.quantEnv .f32 false true [x, z] (x.mul z) t))

theorem dqntBody_eq (c : Ctx) (s : State) : dqntBody c s = withDesc c s c.ty fun s d book => .done (dequantisedTo d book c s) := by
  rw [dqntBody, c.givenScaleNum_eq]
  rfl

/-- Two codebook entries of each active lane in D. -/
def entriesTo (_ book : List Byte) (c : Ctx) (s : State) : State :=
  writeVec s c (c.f.km.getLsbD 3) c.f.d.toNat 1 c.act fun l =>
    let a := (c.srcA l).toNat / 2 ^ (8 * c.q)
    BitVec.ofNat 64 (bookWord book (a / 16 % 16) * 2 ^ 16 + bookWord book (a % 16))

theorem cbldBody_eq (c : Ctx) (s : State) : cbldBody c s = withDesc c s .cb4 fun s d book => .done (entriesTo d book c s) := rfl

/-- Settles O24: each body runs under its descriptor, and its effect there is the one that the statement names. -/
theorem quantisedElements : Obligations.QuantisedElements := by
  unfold Obligations.QuantisedElements
  exact ⟨fun _ => accesses_underDesc (qntBody_eq false), fun _ => accesses_underDesc (qntBody_eq true), fun _ => accesses_underDesc dqntBody_eq,
    fun _ => accesses_underDesc qscaleBody_eq, fun _ => completes_of_body fun _ _ _ _ => rfl, fun _ => accesses_underDesc cbldBody_eq,
    fun _ => accesses_underDesc_idle (qntBody_eq false), fun _ => accesses_underDesc_idle (qntBody_eq true),
    fun _ => accesses_underDesc_idle dqntBody_eq, fun _ => accesses_underDesc_idle qscaleBody_eq,
    fun _ => accesses_underDesc_idle cbldBody_eq, fun _ => faults_underDesc_misaligned (qntBody_eq false),
    fun _ => faults_underDesc_misaligned dqntBody_eq⟩

end Sys2Proof.Machine
end

section
/-!
SUPPORT. Checks in order, and instructions that act once where any lane passes the guard (R229, R291, R323).
-/
namespace Sys2Proof.Machine

/-! ### Checks in order -/

section
variable {fs : List (Option (FaultCode × Word64))} {f : Unit → Res}

@[simp] theorem checked_nil : checked [] f = f () := rfl

@[simp] theorem checked_none : checked (none :: fs) f = checked fs f := rfl

@[simp] theorem checked_some (code : FaultCode) (info : Word64) : checked (some (code, info) :: fs) f = .trap code info := rfl

end

/-! ### Instructions that act once where any lane passes the guard (R229) -/

section
variable {c : Ctx} {s : State}

theorem oncePerAny_on (h : c.act ≠ 0) (f : Unit → Res) : oncePerAny c s f = f () := if_neg h

theorem oncePerAny_off (h : c.act = 0) (f : Unit → Res) : oncePerAny c s f = .done s := if_pos h

end

/-- With no lane active such an instruction has no effect. -/
theorem completes_oncePerAny_off {opc : Nat} {f : Form} {body : Ctx → State → Res} {g : Ctx → State → Unit → Res}
    (hb : ∀ c s, body c s = oncePerAny c s (g c s)) : Completes (runIop opc f body) opc f (fun c _ => c.act = 0) fun _ s => s :=
  completes_of_body fun _ c _ h => (hb c _).trans (oncePerAny_off h _)

theorem accesses_oncePerAny_off {opc : Nat} {f : Form} {body : Ctx → State → Res} {g : Ctx → State → Unit → Res}
    (hb : ∀ c s, body c s = oncePerAny c s (g c s)) :
    Accesses (runIop opc f (afterOverflow body)) opc f (fun c _ => c.act = 0) fun _ s => s :=
  accesses_of_body fun _ c h => (hb c _).trans (oncePerAny_off h _)

/-- With no page in flip, an IOP that makes accesses at once completes as its body says. -/
theorem completes_of_still {opc : Nat} {f : Form} {body : Ctx → State → Res} {when_ : Ctx → State → Prop} {next : Ctx → State → State}
    (hf : ∀ c s, when_ c s → s.flips = []) (h : Completes (runIop opc f body) opc f when_ next) :
    Completes (runIopFlip opc f body) opc f when_ next := fun s c hr hw =>
  (runIopFlip_of_still (hf c s hw)).trans (h s c hr hw)

end Sys2Proof.Machine
end

section
/-!
PROOF. The matrix operations in the engine queue (O25): a record that has not been loaded refutes the statement.
-/
namespace Sys2Proof.Machine

/-- MLDA from a record that is not valid faults on its STATUS (R232). -/
theorem faults_mlda_of_invalid (x : AForm) (n : Nat) :
    Faults (execMlda x) 0x144 (.a x) (fun c _ => c.act ≠ 0 ∧ tensorFault (c.warp.regs.tensor c.f.fa.toNat) = some n) .tshape
      fun _ _ => BitVec.ofNat 64 n :=
  faults_of_body (body := mldaBody) fun s c _ ⟨hact, hn⟩ => by
    unfold mldaBody engineBody shapeFault
    simp only [if_neg hact, hn, Option.map_some, checked_some]

/-! ### A record that has not been loaded -/

/-- A box of 64 by 64 BF16 elements whose STATUS is 0. -/
def unloadedBox : BitVec 512 := tput (tput (tput 0 256 16 64) 272 16 64) 288 4 ElemType.bf16.code

/-- MLDA of a0 from t0. -/
def mldaForm : AForm := { t := .bf16 }

/-- A path of 32 lanes with a window of 64 slots. -/
def mldaPath : Path := { pc := 0x1000, lmask := 0xFFFFFFFF, wtop := 64 }

/-- A warp on core 0 with four accumulators and the record in t0. -/
def mldaWarp : Warp :=
  { regs := { t := [(0, unloadedBox)], decl := 4 * 2 ^ 44, dorm := 0, paths := [(0, mldaPath)] }
    place := some { core := 0, half := 0, slot := 0 } }

/-- The warp's path issues. -/
def mldaState : State := { State.reset with warps := [(1, mldaWarp)], cur := some { w := 1, p := 0 } }

/-- The context in which the path issues it. -/
def mldaCtx : Ctx :=
  { w := 1, p := 0, warp := mldaWarp, path := mldaPath, cur := { w := 1, p := 0 }, opc := 0x144, f := .a mldaForm
    sh := (shape 0x144 (.a mldaForm)).getD {} }

theorem ready_mlda : Ready 0x144 (.a mldaForm) mldaState mldaCtx := by decide +kernel

/-- The record passes the shape check of MLDA, and its STATUS is that of a record that has not been loaded (R232, R245). -/
theorem unloadedBox_shape : boxFault unloadedBox .bf16 = none ∧ tensorFault unloadedBox = some 0 := by decide +kernel

/-- Refutes O25: its clauses on MLDA and MSTA do not ask for a valid record, and MLDA faults on the STATUS of one that has not been loaded
(R232) where the statement puts an operation in the queue. -/
theorem not_matrixOperationsQueue : ¬ Obligations.MatrixOperationsQueue := by
  unfold Obligations.MatrixOperationsQueue
  rintro ⟨-, -, -, -, hmlda, -⟩
  obtain ⟨hbox, hstatus⟩ := unloadedBox_shape
  have hfree : mldaCtx.act ≠ 0 ∧ Room mldaCtx mldaState := by decide +kernel
  have hbound : (accBound mldaCtx false 0).isNone = true := by decide +kernel
  have hcompletes := hmlda mldaForm mldaState mldaCtx ready_mlda ⟨hfree, hbound, Option.isNone_iff_eq_none.2 hbox⟩
  have htraps := faults_mlda_of_invalid mldaForm 0 mldaState mldaCtx ready_mlda ⟨hfree.1, hstatus⟩
  have hsame := Host.Outcome.next.inj (hcompletes.symm.trans htraps)
  exact absurd (congrArg (·.eng.queue.length) hsame) (by decide +kernel)

end Sys2Proof.Machine
end

section
/-!
PROOF. Batches and tensor shape records (O26).
-/
namespace Sys2Proof.Machine

section
variable {c : Ctx} {s : State}

/-! ### MFENCE and MWAIT (R247-R249) -/

/-- The open batch of the warp, closed under what MFENCE attaches to it. -/
def closedBatch (c : Ctx) (s : State) : Batch :=
  { c.warp.openBatch with closed := true, tb := if c.q % 2 = 1 then some c.uA.toNat else none
                          cart := if 2 ≤ c.q then some c.uC.toNat else none
                          pidx := c.p, core := c.warp.core, times := { c.warp.openBatch.times with tclose := s.clock } }

/-- The warp's open batch has been closed, and D holds its number. -/
def batchNumbered (c : Ctx) (s : State) : State :=
  writeUD (s.modWarp c.w fun x => { x.setOpen (closedBatch c s) with regs := { x.regs with blast := (closedBatch c s).b } }) c
    ((closedBatch c s).b.zeroExtend 64)

/-- A closed batch with no operation completes at once. -/
def batchClosed (c : Ctx) (s : State) : State :=
  match c.warp.openBatch.ops, (batchNumbered c s).warp? c.w with
  | [], some x => completeBatch (batchNumbered c s) c.w x (closedBatch c s)
  | _, _ => batchNumbered c s

theorem mfenceBody_closes (hon : c.act ≠ 0) (hal : 2 ≤ c.q → c.uC.toNat % 64 = 0)
    (hroom : (c.warp.batches.filter fun b => b.closed && !b.ops.isEmpty).length < 16) : mfenceBody c s = .done (batchClosed c s) := by
  have hok : ¬(2 ≤ c.q ∧ c.uC.toNat % 64 ≠ 0) := fun ⟨hq, hne⟩ => hne (hal hq)
  unfold mfenceBody
  rw [oncePerAny_on hon]
  simp only [decide_eq_true_eq, hok, Nat.not_le.2 hroom, if_false]
  rfl

/-- The batches that MWAIT waits for. -/
def pendingBatches (c : Ctx) (s : State) : List Nat := (c.warp.batches.filter (·.pending s)).map (·.b.toNat)

/-- How many batches the batch number in A lies behind the last one. -/
def batchAge (c : Ctx) : Nat := (c.warp.regs.blast - (c.uA.truncate 16 : BitVec 16)).toNat

/-- The status word of the first of the last sixteen batches that has failed, or 0. -/
def firstFailure (c : Ctx) : Word64 :=
  (((List.range 16).map fun i => c.warp.regs.bring.get 0 ((c.warp.regs.blast.toNat + i + 1) % 16)).find? fun x => x.getLsbD 0).getD 0

theorem mwaitBody_all (hon : c.act ≠ 0) (hq : c.q = 1) (h : pendingBatches c s = []) :
    mwaitBody c s = .done (writeUD (pruneBatches s c.w) c (firstFailure c)) := by
  unfold pendingBatches at h
  unfold mwaitBody
  rw [oncePerAny_on hon]
  simp only [if_pos hq, h]
  rfl

/-- MWAIT of one batch: of one too old it answers 2, of one that is pending it waits, of another it writes the status. -/
theorem mwaitBody_one (hon : c.act ≠ 0) (hq : c.q ≠ 1) :
    mwaitBody c s =
      if 15 < batchAge c then .done (writeUD s c 2)
      else if (pendingBatches c s).contains (c.uA.truncate 16 : BitVec 16).toNat then .wait s (.batch [(c.uA.truncate 16 : BitVec 16).toNat])
      else .done (writeUD s c (c.warp.regs.bring.get 0 ((c.uA.truncate 16 : BitVec 16).toNat % 16))) := by
  unfold mwaitBody
  rw [oncePerAny_on hon, if_neg hq]
  rfl

/-! ### MFMT (R253) -/

/-- The entries of the format-block cache that `f` holds of have been dropped. -/
def blocksDropped (f : FormatEntry → Bool) (s : State) : State :=
  { s with eng := { s.eng with blocks := s.eng.blocks.filter fun e => !f e } }

/-- A legal descriptor with its codebook, read from memory, and the state after the reads (R218, R253). -/
def descRead (c : Ctx) (s : State) (va : Nat) : Option (State × (List Byte × List Byte)) :=
  (fetched c s va 32).bind fun r =>
    if descCheck r.2 none ≠ none then none
    else if descFmt r.2 = .cb4 then
      (fetched c r.1 (descBook r.2) 32).bind fun k => if bookBad k.2 then none else some (k.1, (r.2, k.2))
    else some (r.1, (r.2, []))

/-- Both descriptors of the block at S(C). -/
def blockRead (c : Ctx) (s : State) : Option (State × (List Byte × List Byte) × (List Byte × List Byte)) :=
  (descRead c s c.uC.toNat).bind fun r => (descRead c r.1 (c.uC.toNat + 32)).map fun q => (q.1, r.2, q.2)

/-- The entry of the block holds what has been read. -/
def blockRefilled (c : Ctx) (s : State) : State :=
  match blockRead c s with
  | some (s, x, y) => cacheDesc (cacheDesc (blocksDropped (·.for_ c.warp c.uC.toNat) s) c.warp c.uC.toNat x) c.warp (c.uC.toNat + 32) y
  | none => s

/-- How MFMT reads a descriptor (R218, R253). -/
def readDesc (c : Ctx) (s : State) (va : Nat) (f : State → List Byte × List Byte → Res) : Res :=
  fetchBytes c s va 32 fun s d =>
    match descCheck d none with
    | some n => .trap .fmtblk (BitVec.ofNat 64 n)
    | none =>
      if descFmt d == .cb4 then fetchBytes c s (descBook d) 32 fun s k => if bookBad k then .trap .fmtblk 4 else f s (d, k)
      else f s (d, [])

theorem readDesc_of_descRead {va : Nat} {f : State → List Byte × List Byte → Res} {r : State × (List Byte × List Byte)}
    (h : descRead c s va = some r) : readDesc c s va f = f r.1 r.2 := by
  unfold descRead at h
  simp only [Option.bind_eq_some_iff] at h
  obtain ⟨d, hd, h⟩ := h
  unfold readDesc
  rw [fetchBytes_of_fetched hd]
  split at h
  · cases h
  · rename_i hcheck
    simp only [Decidable.not_not.1 hcheck]
    split at h
    · rename_i hfmt
      simp only [Option.bind_eq_some_iff] at h
      obtain ⟨k, hk, h⟩ := h
      rw [if_pos (beq_iff_eq.2 hfmt), fetchBytes_of_fetched hk]
      split at h
      · cases h
      · cases h
        exact if_neg ‹_›
    · rename_i hfmt
      cases h
      exact if_neg (hfmt ∘ beq_iff_eq.1)

theorem mfmtBody_eq (hon : c.act ≠ 0) : mfmtBody c s =
    if c.qa6 = 2 then .done (blocksDropped (fun e => e.core == c.warp.core && e.half == c.warp.half) s)
    else if c.qa6 = 1 then .done (blocksDropped (·.for_ c.warp c.uC.toNat) s)
    else if c.uC.toNat % 64 ≠ 0 then .trap .align (BitVec.ofNat 64 c.uC.toNat)
    else readDesc c s c.uC.toNat fun s a => readDesc c s (c.uC.toNat + 32) fun s b =>
      .done (cacheDesc (cacheDesc (blocksDropped (·.for_ c.warp c.uC.toNat) s) c.warp c.uC.toNat a) c.warp (c.uC.toNat + 32) b) :=
  oncePerAny_on hon _

theorem mfmtBody_refills (hon : c.act ≠ 0) (h1 : c.qa6 ≠ 1) (h2 : c.qa6 ≠ 2) (hal : c.uC.toNat % 64 = 0)
    (h : (blockRead c s).isSome = true) : mfmtBody c s = .done (blockRefilled c s) := by
  obtain ⟨r, hr⟩ := Option.isSome_iff_exists.1 h
  rw [blockRefilled, hr, mfmtBody_eq hon, if_neg h2, if_neg h1, if_neg (not_not_intro hal)]
  simp only [blockRead, Option.bind_eq_some_iff, Option.map_eq_some_iff] at hr
  obtain ⟨x, hx, y, hy, rfl⟩ := hr
  rw [readDesc_of_descRead hx, readDesc_of_descRead hy]

/-! ### TLD, TST and TMOD (R232, R233) -/

/-- The record in a t-register has been loaded. -/
def recordLoaded (n : BitVec 8) (c : Ctx) : Bool := tStatus (c.warp.regs.tensor n.toNat) != 0

theorem notLoaded_of_loaded {n : BitVec 8} (h : recordLoaded n c = true) : notLoaded (c.warp.regs.tensor n.toNat) = none :=
  if_neg (bne_iff_ne.1 h)

theorem notLoaded_of_unloaded {n : BitVec 8} (h : recordLoaded n c = false) :
    notLoaded (c.warp.regs.tensor n.toNat) = some (.tshape, 0) :=
  if_pos (by simpa [recordLoaded] using h)

/-- The eight words of a record, of each translated element. -/
def recordWords (xs : List Access2) : List (Nat × Access2) :=
  xs.flatMap fun x => (List.range 8).map fun i => (i, { x with pa := x.pa + 8 * i, va := x.va + 8 * i })

/-- The read of the record has issued. -/
def recordReadIssued (c : Ctx) (s : State) : State :=
  issueRead (withCached c s .gen 0 ((hits s c .read (tensorElem c)).map (·.pa))) c (.weak .gen) 8 c.path.lmask
    (recordWords (hits s c .read (tensorElem c))) (.tensor c.f.d.toNat) [.tensor c.f.d.toNat]

theorem tldBody_done (hon : c.act ≠ 0) (hr : Reaches s c .read 64 (tensorElem c)) (hc : Clean s 64 (hits s c .read (tensorElem c)))
    (hcached : (cached c s .gen 0 ((hits s c .read (tensorElem c)).map (·.pa))).isSome = true) :
    tldBody c s = .done (recordReadIssued c s) := by
  obtain ⟨-, hea, hall⟩ := hr
  obtain ⟨t, ht⟩ := Option.isSome_iff_exists.1 hcached
  unfold tldBody
  rw [oncePerAny_on hon]
  simp only [Option.isNone_iff_eq_none.1 hea, translateAll_of_hits hall, poisonedElem_of_clean hc, withLines_of_cached ht]
  rw [recordReadIssued, withCached, ht]
  rfl

/-- The store of the record in tD. -/
def recordStores (c : Ctx) (s : State) : List StoreElem :=
  (hits s c .write (tensorElem c)).map fun x =>
    { lanes := c.path.lmask, va := x.va, pa := x.pa, exec := x.execPage c, bytes := leBytes 64 (c.warp.regs.tensor c.f.d.toNat).toNat }

theorem tstBody_done (hon : c.act ≠ 0) (hl : recordLoaded c.f.d c = true) (hr : Reaches s c .write 64 (tensorElem c))
    (hp : (storesPlaced notStreaming recordStores c s).isSome = true) : tstBody c s = .done (storesHeld notStreaming recordStores c s) := by
  obtain ⟨-, hea, hall⟩ := hr
  unfold tstBody
  rw [oncePerAny_on hon]
  simp only [notLoaded_of_loaded hl, Option.isNone_iff_eq_none.1 hea, checked_none, checked_nil, translateAll_of_hits hall]
  exact issueStores_of_placed hp _

theorem tstBody_unloaded (hon : c.act ≠ 0) (hl : recordLoaded c.f.d c = false) : tstBody c s = .trap .tshape 0 := by
  unfold tstBody
  rw [oncePerAny_on hon]
  simp only [notLoaded_of_unloaded hl, checked_some]

theorem tmodBody_unloaded (hon : c.act ≠ 0) (hl : recordLoaded c.f.fa c = false) : tmodBody c s = .trap .tshape 0 := by
  unfold tmodBody
  rw [oncePerAny_on hon, notLoaded_of_unloaded hl, checked_some]

theorem tmodBody_done (hon : c.act ≠ 0) (hl : recordLoaded c.f.fa c = true) : tmodBody c s =
    .done (s.modRegs c.w fun r => { r with t := r.t.put 0 c.f.d.toNat (tmodValue (c.q == 0) (r.tensor c.f.fa.toNat) c.uB) }) := by
  unfold tmodBody
  rw [oncePerAny_on hon, notLoaded_of_loaded hl, checked_none, checked_nil]

end

/-- Settles O26: each body is computed under its checks; MFENCE runs with no page in flip. -/
theorem batchesAndTensorRecords : Obligations.BatchesAndTensorRecords := by
  unfold Obligations.BatchesAndTensorRecords
  refine ⟨?fence, ?waitAll, ?old, ?status, ?waits, ?dropAll, ?dropOne, ?refill, ?tld, ?tst, ?tstUnloaded, ?tmodUnloaded, ?tmod, ?fenceOff,
    ?waitOff, ?mfmtOff, ?tldOff, ?tstOff, ?tmodOff⟩
  case fence =>
    exact fun x => completes_of_still (fun _ _ h => h.1) <| completes_of_body fun s c _ ⟨_, hon, hal, hroom⟩ => mfenceBody_closes hon hal hroom
  case waitAll => exact fun x => completes_of_body fun s c _ ⟨hon, hq, h⟩ => mwaitBody_all hon hq h
  case old =>
    exact fun x => completes_of_body fun s c _ ⟨hon, hq, h⟩ => (mwaitBody_one hon hq).trans (if_pos h)
  case status =>
    exact fun x => completes_of_body fun s c _ ⟨hon, hq, hage, h⟩ =>
      (mwaitBody_one hon hq).trans ((if_neg (Nat.not_lt.2 hage)).trans (if_neg (h ∘ List.contains_iff_mem.1)))
  case waits =>
    exact fun x => waits_of_body fun s c _ ⟨hon, hq, hage, h⟩ =>
      (mwaitBody_one hon hq).trans ((if_neg (Nat.not_lt.2 hage)).trans (if_pos (List.contains_iff_mem.2 h)))
  case dropAll => exact fun x => accesses_of_body fun s c ⟨hon, hq⟩ => (mfmtBody_eq hon).trans (if_pos hq)
  case dropOne =>
    exact fun x => accesses_of_body fun s c ⟨hon, hq⟩ => (mfmtBody_eq hon).trans ((if_neg (by omega)).trans (if_pos hq))
  case refill => exact fun x => accesses_of_body fun s c ⟨hon, h1, h2, hal, h⟩ => mfmtBody_refills hon h1 h2 hal h
  case tld => exact fun x => accesses_of_body fun s c ⟨hon, hr, hc, hcached⟩ => tldBody_done hon hr hc hcached
  case tst => exact fun x => accesses_of_body fun s c ⟨hon, hl, hr, hp⟩ => tstBody_done hon hl hr hp
  case tstUnloaded =>
    refine fun x => faults_of_body (body := afterOverflow tstBody) fun s c _ ⟨hon, hwait, hl⟩ => ?_
    unfold afterOverflow
    split
    · exact absurd ‹_› (hwait _)
    · exact tstBody_unloaded hon hl
  case tmodUnloaded => exact fun x => faults_of_body fun s c _ ⟨hon, hl⟩ => tmodBody_unloaded hon hl
  case tmod => exact fun x => completes_of_body fun s c _ ⟨hon, hl⟩ => tmodBody_done hon hl
  case fenceOff =>
    exact fun x => completes_of_still (fun _ _ h => h.1) <| completes_of_body fun s c _ ⟨_, hoff⟩ => oncePerAny_off hoff _
  case waitOff => exact fun x => completes_oncePerAny_off (body := mwaitBody) fun _ _ => rfl
  case mfmtOff => exact fun x => accesses_oncePerAny_off (body := mfmtBody) fun _ _ => rfl
  case tldOff => exact fun x => accesses_oncePerAny_off (body := tldBody) fun _ _ => rfl
  case tstOff => exact fun x => accesses_oncePerAny_off (body := tstBody) fun _ _ => rfl
  case tmodOff => exact fun x => completes_oncePerAny_off (body := tmodBody) fun _ _ => rfl

end Sys2Proof.Machine
end

section
/-!
PROOF. Barriers, copies and the engines (O40).
-/
namespace Sys2Proof.Machine

/-! ### Barriers and credits (R311, R315, R316) -/

/-- The barrier in its next phase, with the arrivals that were held. -/
def Barrier.nextPhase (b : Barrier) : Barrier :=
  { b with arrived := b.later.foldl (fun m x => m.put 0 x.1 (x.2.headD 0)) [], later := b.later.foldl (fun m x => m.put [] x.1 x.2.tail) []
           phases := b.phases + 1 }

/-- The credit has left the queue. -/
def creditTaken (k : Nat) (s : State) : State := { s with eng := { s.eng with credits := s.eng.credits.filter (·.k != k) } }

/-- The record that a credit names has noted the operations behind it, and the fault that it carries. -/
def Credit.noted (x : Credit) (g : Workgroup) : Workgroup :=
  let g := g.modTb x.ofs fun t => { t with now := NSet.insertAll t.now x.ops }
  match x.err with | some (code, va) => g.markTb x.ofs code va | none => g

/-- A copy's credit that found no live record is kept for CPYW. -/
def creditLost (w : Warp) : Warp :=
  if w.copyFault = 0 then { w with copyFault := BitVec.ofNat 64 (1 + faultNumber .tbstate * 2 ^ 5) } else w

section
variable {s : State} {k : Nat} {x : Credit} {g : Workgroup}

theorem phaseStep_of_ready {key : BarrierKey} {b : Barrier} (hb : s.barriers.find? (·.key == key) = some b)
    (hr : barrierReady s b = true) : phaseStep key s = some (s.setBarrier b.nextPhase) := by
  unfold phaseStep
  simp only [hb, hr, if_true]
  rfl

theorem creditStep_of_live {r : TbRoot} (hx : s.eng.credits.find? (·.k == k) = some x) (hg : s.wg? x.wg = some g)
    (hr : g.tbRoot? x.ofs = some r) : creditStep k s = some ((creditTaken k s).modWg x.wg fun _ =>
      if x.arrive then (x.noted g).arriveTb x.ofs else (x.noted g).creditTb x.ofs x.bytes) := by
  have hg' : (creditTaken k s).wg? x.wg = some g := hg
  unfold creditTaken at hg' ⊢
  unfold creditStep
  simp only [hx, hg', hr]
  rfl

theorem creditStep_of_no_workgroup (hx : s.eng.credits.find? (·.k == k) = some x) (hg : s.wg? x.wg = none) :
    creditStep k s = some (creditTaken k s) := by
  have hg' : (creditTaken k s).wg? x.wg = none := hg
  unfold creditTaken at hg' ⊢
  unfold creditStep
  simp only [hx, hg']

theorem creditStep_of_no_record (hx : s.eng.credits.find? (·.k == k) = some x) (hg : s.wg? x.wg = some g) (hr : g.tbRoot? x.ofs = none) :
    creditStep k s = some (if x.arrive then creditTaken k s else (creditTaken k s).modWarp x.warp creditLost) := by
  have hg' : (creditTaken k s).wg? x.wg = some g := hg
  unfold creditTaken at hg' ⊢
  unfold creditStep
  simp only [hx, hg', hr]
  split <;> rfl

end

/-! ### Copies (R319, R329, R332, R335) -/

/-- The copy's cluster has served its workgroup. -/
def turnTaken (x : Copy) (s : State) : State := { s with eng := { s.eng with turn := s.eng.turn.insert x.cluster x.wg } }

/-- A copy that does not quantise. -/
def Copy.Plain (x : Copy) : Prop := match x.kind with | .quantise .. => False | _ => True

/-- How the next chunk of a copy that does not quantise goes. -/
def Copy.chunk (x : Copy) (s : State) : Moved := moveChunk x.agent x.kind (x.kind.total x.n) (x.off + 512) 8192 { s := s, off := x.off }

/-- The copy after a chunk: it goes on where the chunk ended, or ends with its fault; a discarded write leaves its mark (R331, R332). -/
def Copy.after (x : Copy) (m : Moved) : Copy :=
  { x with off := if m.err.isSome then x.kind.total x.n else m.off, wrote := true, exc := x.exc ||| 0
           err := m.err.or (if m.drop then some (faultNumber .tbstate, 5) else x.err) }

/-- The copy has left its cluster's queue. -/
def copyGone (id : Nat) (s : State) : State := { s with eng := { s.eng with copies := s.eng.copies.filter (·.id != id) } }

section
variable {s t : State} {id : Nat} {x : Copy}

theorem copyStart_of_next {n : Nat} (h : nextStart s n = some x) : copyStart n s = some (setCopy s { x with started := true }) := by
  rw [copyStart, h, Option.map_some]

theorem copyChunk_of_plain (hx : s.eng.copies.find? (·.id == id) = some x) (hst : x.started = true) (hm : x.moved = false)
    (hturn : inTurn s x.cluster = some x.wg) (hp : x.Plain) (hlate : x.late = []) (hf : (x.chunk s).flip = false) :
    copyChunk id s = some (turnTaken x (setCopy (x.chunk s).s (x.after (x.chunk s)))) := by
  unfold copyChunk
  simp only [hx, hst, hm, hturn, Bool.not_true, bne_self_eq_false, Bool.or_self, Bool.false_eq_true, if_false]
  obtain ⟨id, cluster, core, warp, wg, vf, asid, kind, n, tb, flag, started, wrote, off, late, exc, err⟩ := x
  obtain rfl : started = true := hst
  obtain rfl : late = [] := hlate
  unfold Copy.chunk at hf ⊢
  cases kind with
  | quantise => exact hp.elim
  | _ => exact (if_neg (Bool.eq_false_iff.1 hf)).trans rfl

/-- A copy that has moved and carries neither flags nor a fault leaves its queue, and its credits leave, once its flag has cleared. -/
theorem copyComplete_of_done (hx : s.eng.copies.find? (·.id == id) = some x) (hst : x.started = true) (hm : x.moved = true) (hexc : x.exc = 0)
    (herr : x.err = none) (hstuck : ((s.warp? x.warp).map (·.stuck)).getD false = false) (hflag : flagDone s x.warp x.flag = .ok t) :
    copyComplete id s = some (copyCredits (copyGone id t) x) := by
  have hcomplete : x.complete false = (·.flagDone x.flag) := by
    funext w
    simp only [Copy.complete, hexc, decide_true, Bool.true_or, if_true]
  have hsaved : (if x.flag.isNone && x.exc = 0 then Except.ok s else updateSaved s x.warp (x.complete false)) = .ok t := by
    rw [← hflag, hcomplete, hexc]
    cases hfl : x.flag <;> simp [flagDone]
  unfold copyComplete
  simp only [hx, hst, hm, hstuck, herr, Option.filter_none, Option.isSome_none, hsaved, Bool.not_true, Bool.or_self, Bool.false_eq_true,
    if_false]
  rfl

/-- A copy's chunk runs once its request is granted (R439). -/
theorem execCopyChunk_of_granted (hx : s.eng.copies.find? (·.id == id) = some x) (hg : Granted (some (x.cluster, x.vf)) s)
    (ht : copyChunk id (charged (some (x.cluster, x.vf)) s) = some t) : execCopyChunk id s = .next t := by
  have hwho : ((s.eng.copies.find? (·.id == id)).map fun x => (x.cluster, x.vf)) = some (x.cluster, x.vf) := by rw [hx, Option.map_some]
  refine runEvent_of_some ?_
  rw [limited_of_granted (by rwa [hwho]), hwho, ht]

end

/-! ### Lines that arrive (R234, R235, R238, R250) -/

/-- The operation `o` of warp `x` waits for the line, under the operand code of `n`. -/
def Fetches (id line : Nat) (o : EngineOp) (x : Warp) (n : Nat × Nat) (s : State) : Prop :=
  s.eng.queue.find? (·.id == id) = some o ∧ o.need.find? (·.1 == line) = some n ∧ s.warp? o.warp = some x

/-- The operation builds a product table. -/
def EngineOp.isTable (o : EngineOp) : Bool := match o.kind with | .mptb _ _ => true | _ => false

/-- The agent of an operation's fetch: a codebook is read on the GEN path (R238). -/
def EngineOp.fetcher (o : EngineOp) (x : Warp) : Agent := { o.agent x with chan := if o.isTable then .gen else .mat }

/-- The line of an operation lies in the near store's window. -/
def EngineOp.windowed (o : EngineOp) (x : Warp) (line : Nat) (s : State) : Bool := !o.isTable && (windowOfs s x.vf x.asid line).isSome

/-- The fault of a line has discarded the operation. -/
def opDiscarded (o : EngineOp) (n : Nat × Nat) (code : FaultCode) (va : Nat) (t : State) : State :=
  setOp t { o with need := [], ready := t.clock, err := some (faultNumber code, n.2, va) }

/-- A line has arrived for every operation of the quad that waits for it, and is pinned where a way is left (R234, R235). -/
def lineShared (o : EngineOp) (x : Warp) (line pa : Nat) (t : State) : State :=
  let ops := quadOps t o x line
  let r := sharedRead t (ops.map (·.core)) pa 64
  let u := if pinRoom t (dieOf o.core) (pa / 64) then pinLine r.1 (dieOf o.core) (pa / 64) (ops.map (·.id)) else r.1
  ops.foldl (fun s p => arrive s line r.2 p) u

/-- The translation of an operation's line. -/
def EngineOp.address (o : EngineOp) (x : Warp) (line : Nat) (s : State) : EngineRes Nat := engineAddr s (o.fetcher x) line false

section
variable {s t : State} {id line pa : Nat} {o : EngineOp} {x : Warp} {n : Nat × Nat} {bs : List Byte}

/-- A fetch runs once its request is granted (R439). -/
theorem execTileFetchArrive_of_granted (h : Fetches id line o x n s) (hg : Granted (some (clusterOf o.core, x.vf)) s)
    (ht : fetchStep id line (charged (some (clusterOf o.core, x.vf)) s) = some t) : execTileFetchArrive id line s = .next t := by
  obtain ⟨ho, -, hx⟩ := h
  have hwho : ((s.eng.queue.find? (·.id == id)).bind fun o => requester s o.core o.warp) = some (clusterOf o.core, x.vf) := by
    rw [ho, Option.bind_some, requester, hx, Option.map_some]
  refine runEvent_of_some ?_
  rw [limited_of_granted (by rwa [hwho]), hwho, ht]

theorem Fetches.charged (h : Fetches id line o x n s) (who : Option (Nat × Nat)) : Fetches id line o x n (charged who s) := by
  obtain ⟨_, hc⟩ := charged_eq who s
  rwa [hc]

/-- A codebook is never looked for in the window. -/
theorem windowed_eq : o.windowed x line s = (if o.isTable then none else windowOfs s x.vf x.asid line).isSome := by
  unfold EngineOp.windowed
  cases o.isTable <;> rfl

theorem fetchStep_of_window (h : Fetches id line o x n s) (hw : o.windowed x line s = true)
    (hr : engineReadPiece s (o.fetcher x) line 64 = .ok t bs) : fetchStep id line s = some (arrive t line bs o) := by
  obtain ⟨ho, hn, hx⟩ := h
  obtain ⟨ofs, hofs⟩ := Option.isSome_iff_exists.1 (windowed_eq.symm.trans hw)
  unfold fetchStep
  simp only [ho, hn, hx]
  split
  · split
    · cases hr.symm.trans ‹_›
      rfl
    · cases hr.symm.trans ‹_›
    · cases hr.symm.trans ‹_›
  · cases hofs.symm.trans ‹_›

theorem fetchStep_of_fault {code : FaultCode} {va : Nat} (h : Fetches id line o x n s) (hw : o.windowed x line s = false)
    (ha : o.address x line s = .fault t code va) : fetchStep id line s = some (opDiscarded o n code va t) := by
  obtain ⟨ho, hn, hx⟩ := h
  have hwin := Option.isSome_eq_false_iff.1 (windowed_eq.symm.trans hw)
  unfold fetchStep
  simp only [ho, hn, hx]
  split
  · cases (Option.isNone_iff_eq_none.1 hwin).symm.trans ‹_›
  · split
    · cases ha.symm.trans ‹_›
    · cases ha.symm.trans ‹_›
      rfl
    · cases ha.symm.trans ‹_›

/-- A fetch outside the window whose line translates and is not poisoned: a codebook is loaded, another line shared, once it has room or its
operation heads its queue. -/
theorem fetchStep_of_address (h : Fetches id line o x n s) (hw : o.windowed x line s = false) (ha : o.address x line s = .ok t pa)
    (hp : poisoned t pa (if o.isTable then 32 else 64) = false) :
    fetchStep id line s =
      let u := llcRead t (dieOf o.core) (pa / 64)
      if o.isTable then some (arrive (weakNow u o.core .gen pa 32).1 line (weakNow u o.core .gen pa 32).2 o)
      else if !pinRoom u (dieOf o.core) (pa / 64) && !((u.eng.queue.find? (·.core == o.core)).map (·.id) == some id) then none
      else some (lineShared o x line pa u) := by
  obtain ⟨ho, hn, hx⟩ := h
  have hwin := Option.isSome_eq_false_iff.1 (windowed_eq.symm.trans hw)
  unfold fetchStep
  simp only [ho, hn, hx]
  split
  · cases (Option.isNone_iff_eq_none.1 hwin).symm.trans ‹_›
  · split
    · cases ha.symm.trans ‹_›
    · cases ha.symm.trans ‹_›
    · cases ha.symm.trans ‹_›
      exact if_neg (Bool.eq_false_iff.1 hp)

theorem fetchStep_of_table (h : Fetches id line o x n s) (hw : o.windowed x line s = false) (ha : o.address x line s = .ok t pa)
    (htab : o.isTable = true) (hp : poisoned t pa 32 = false) :
    fetchStep id line s = some (arrive (weakNow (llcRead t (dieOf o.core) (pa / 64)) o.core .gen pa 32).1 line
      (weakNow (llcRead t (dieOf o.core) (pa / 64)) o.core .gen pa 32).2 o) :=
  (fetchStep_of_address h hw ha (by rwa [if_pos htab])).trans (if_pos htab)

theorem fetchStep_of_shared (h : Fetches id line o x n s) (hw : o.windowed x line s = false) (ha : o.address x line s = .ok t pa)
    (htab : o.isTable = false) (hp : poisoned t pa 64 = false)
    (hroom : pinRoom (llcRead t (dieOf o.core) (pa / 64)) (dieOf o.core) (pa / 64) = true
      ∨ ((llcRead t (dieOf o.core) (pa / 64)).eng.queue.find? (·.core == o.core)).map (·.id) = some id) :
    fetchStep id line s = some (lineShared o x line pa (llcRead t (dieOf o.core) (pa / 64))) := by
  rw [fetchStep_of_address h hw ha (by rwa [htab])]
  rcases hroom with hroom | hhead
  · simp only [htab, hroom, Bool.not_true, Bool.false_and, Bool.false_eq_true, if_false]
  · simp only [htab, hhead, beq_self_eq_true, Bool.not_true, Bool.and_false, Bool.false_eq_true, if_false]

end

/-! ### The head of an engine queue (R226, R248) -/

/-- The operation has left its queue, and its pins the LLC; the engine is free from now on (R235, R243). -/
def opPopped (core : Nat) (o : EngineOp) (s : State) : State :=
  unpin { s with eng := { s.eng with queue := s.eng.queue.filter (·.id != o.id), free := s.eng.free.put 0 core s.clock } } o.id

/-- The operation's flag clears, and its batch loses it with its error, if any. -/
def opLeft (core : Nat) (o : EngineOp) (s t : State) (e : Option (Nat × Nat × Nat)) : State :=
  let t := t.modWarp o.warp (·.flagDone o.flag)
  if o.batch then leaveBatch t o (s.eng.free.get 0 core) e else t

section
variable {s : State} {core : Nat} {o : EngineOp} {x : Warp}

theorem engineStep_of_error {e : Nat × Nat × Nat} (ho : s.eng.queue.find? (·.core == core) = some o) (hr : opReady s o = true)
    (hx : s.warp? o.warp = some x) (he : o.err = some e) : engineStep core s = some (opLeft core o s (opPopped core o s) (some e)) := by
  have hx' : (opPopped core o s).warp? o.warp = some x := hx
  unfold opPopped at hx'
  unfold engineStep
  simp only [ho, hr, hx', he]
  rfl

theorem engineStep_of_effect {r : State × Option (Nat × Nat × Nat)} (ho : s.eng.queue.find? (·.core == core) = some o)
    (hr : opReady s o = true) (hx : s.warp? o.warp = some x) (he : o.err = none) (hl : o.lanes ≠ 0)
    (hp : performOp (opPopped core o s) o x = some r) : engineStep core s = some (opLeft core o s r.1 r.2) := by
  have hx' : (opPopped core o s).warp? o.warp = some x := hx
  obtain ⟨l, hl⟩ := Nat.exists_eq_succ_of_ne_zero fun h => hl (BitVec.eq_of_toNat_eq h)
  unfold opPopped at hx' hp
  unfold engineStep
  simp only [ho, hr, hx', he, hl, hp]
  rfl

end

/-- Settles O40: each step is computed on its state, on the charged one where it is a request of a VF. -/
theorem barriersCopiesAndEngines : Obligations.BarriersCopiesAndEngines := by
  unfold Obligations.BarriersCopiesAndEngines
  refine ⟨?phase, ?credit, ?creditGone, ?creditLost, ?start, ?chunk, ?complete, ?window, ?table, ?shared, ?fault, ?effect, ?error⟩
  case phase => exact fun key b s ⟨hb, hr⟩ => runEvent_of_some (phaseStep_of_ready hb hr)
  case credit => exact fun k x g r s ⟨hx, hg, hr⟩ => runEvent_of_some (creditStep_of_live hx hg hr)
  case creditGone => exact fun k x s ⟨hx, hg⟩ => runEvent_of_some (creditStep_of_no_workgroup hx hg)
  case creditLost => exact fun k x g s ⟨hx, hg, hr⟩ => runEvent_of_some (creditStep_of_no_record hx hg hr)
  case start => exact fun n x s h => runEvent_of_some (copyStart_of_next h)
  case chunk =>
    rintro id x m s ⟨⟨hx, hst, hm, hturn, hg⟩, hp, hlate, rfl, hf⟩
    refine execCopyChunk_of_granted hx hg ?_
    obtain ⟨_, hc⟩ := charged_eq (some (x.cluster, x.vf)) s
    exact copyChunk_of_plain (by rwa [hc]) hst hm (by rwa [hc]) hp hlate hf
  case complete =>
    exact fun id x t s ⟨hf, hx, hst, hm, hexc, herr, hstuck, hflag⟩ =>
      runEventFlip_of_some hf (copyComplete_of_done hx hst hm hexc herr hstuck hflag)
  case window =>
    exact fun id line o x n t bs s ⟨⟨ho, hn, hx, hg⟩, hw, hr⟩ =>
      execTileFetchArrive_of_granted ⟨ho, hn, hx⟩ hg (fetchStep_of_window (Fetches.charged ⟨ho, hn, hx⟩ _) hw hr)
  case table =>
    exact fun id line o x n t pa s ⟨⟨ho, hn, hx, hg⟩, hw, ha, htab, hp⟩ =>
      execTileFetchArrive_of_granted ⟨ho, hn, hx⟩ hg (fetchStep_of_table (Fetches.charged ⟨ho, hn, hx⟩ _) hw ha htab hp)
  case shared =>
    exact fun id line o x n t pa s ⟨⟨ho, hn, hx, hg⟩, hw, ha, htab, hp, hroom⟩ =>
      execTileFetchArrive_of_granted ⟨ho, hn, hx⟩ hg (fetchStep_of_shared (Fetches.charged ⟨ho, hn, hx⟩ _) hw ha htab hp hroom)
  case fault =>
    exact fun id line o x n t code va s ⟨⟨ho, hn, hx, hg⟩, hw, ha⟩ =>
      execTileFetchArrive_of_granted ⟨ho, hn, hx⟩ hg (fetchStep_of_fault (Fetches.charged ⟨ho, hn, hx⟩ _) hw ha)
  case effect =>
    exact fun core o x r s ⟨⟨hf, ho, hr⟩, hx, he, hl, hp⟩ => runEventFlip_of_some hf (engineStep_of_effect ho hr hx he hl hp)
  case error =>
    exact fun core o x e s ⟨⟨hf, ho, hr⟩, hx, he⟩ => runEventFlip_of_some hf (engineStep_of_error ho hr hx he)

end Sys2Proof.Machine
end

section
/-!
PROOF. Addresses that fault (O17).
-/

namespace Sys2Proof.Machine

/-! ### The first address that faults (R264) -/

/-- An element with a bit of [63:57] set. -/
def beyondSpace (_ : Ctx) (e : Access1) : Bool := decide (2 ^ 57 ≤ e.va)

/-- An element whose address is no multiple of the access size. -/
def unaligned (n : Ctx → Nat) (c : Ctx) (e : Access1) : Bool := decide (e.va % n c ≠ 0)

/-- The address of the first element in lane order that meets a test. -/
def firstAddress (uniform : Bool) (p : Ctx → Access1 → Bool) (c : Ctx) (_ : State) : Word64 :=
  BitVec.ofNat 64 ((((c.elems uniform).find? (p c)).map (·.va)).getD 0)

/-- Some address is beyond the address space. -/
def HasBeyond (uniform : Bool) (c : Ctx) (_ : State) : Prop := ((c.elems uniform).any fun e => decide (2 ^ 57 ≤ e.va)) = true

/-- Every address is within the address space, and some is unaligned. -/
def HasUnaligned (uniform : Bool) (n : Ctx → Nat) (c : Ctx) (_ : State) : Prop :=
  ((c.elems uniform).all fun e => decide (e.va < 2 ^ 57)) = true ∧ ((c.elems uniform).any fun e => decide (e.va % n c ≠ 0)) = true

/-- Where some element meets a test, there is a first one. -/
theorem find?_of_any {α : Type} {xs : List α} {p : α → Bool} (h : xs.any p = true) : ∃ x, xs.find? p = some x :=
  Option.isSome_iff_exists.1 (List.find?_isSome.2 (List.any_eq_true.1 h))

section
variable {c : Ctx} {s : State} {uniform : Bool} {n : Ctx → Nat}

theorem eaFault_of_beyond (h : HasBeyond uniform c s) :
    eaFault (c.elems uniform) (n c) = some (.pfault, firstAddress uniform beyondSpace c s) := by
  obtain ⟨e, he⟩ := find?_of_any h
  have hfirst : (c.elems uniform).find? (beyondSpace c) = some e := he
  simp only [eaFault, firstAddress, he, hfirst, Option.map_some, Option.getD_some]

theorem eaFault_of_unaligned (h : HasUnaligned uniform n c s) :
    eaFault (c.elems uniform) (n c) = some (.align, firstAddress uniform (unaligned n) c s) := by
  obtain ⟨hall, hany⟩ := h
  have hnone : ((c.elems uniform).find? fun e => decide (2 ^ 57 ≤ e.va)) = none := by
    simpa only [List.find?_eq_none, List.all_eq_true, decide_eq_true_eq, Nat.not_le] using hall
  have htest : (fun e : Access1 => e.va % n c != 0) = unaligned n c := funext fun e => by simp [unaligned, bne, Bool.beq_eq_decide_eq]
  obtain ⟨e, he⟩ := find?_of_any (p := unaligned n c) hany
  simp only [eaFault, firstAddress, hnone, htest, he, Option.map_some, Option.getD_some]

end

/-! ### Bodies that check their addresses first (R264, R278, R307) -/

/-- An instruction that checks its elements first traps where one faults. -/
theorem elements_of_fault {es : List Access1} {n : Nat} {code : FaultCode} {info : Word64} (h : eaFault es n = some (code, info)) (s : State)
    (r : Res) :
    (match (generalizing := false) es, eaFault es n with
      | [], _ => Res.done s
      | _, some (code, info) => Res.trap code info
      | _, none => r) = Res.trap code info := by
  split
  · cases h
  · rename_i heq
    cases heq.symm.trans h
    rfl
  · rename_i heq
    cases heq.symm.trans h

/-- Where `free` holds, the body traps on the fault of its elements. -/
def TrapsOnElements (free : Ctx → Prop) (uniform : Bool) (n : Ctx → Nat) (body : Ctx → State → Res) : Prop :=
  ∀ c s code info, free c → eaFault (c.elems uniform) (n c) = some (code, info) → body c s = .trap code info

/-- What O17 states of one instruction: PFAULT at the first address beyond the space, otherwise ALIGN at the first one unaligned. -/
def ChecksAddresses (free : Ctx → Prop) (run : MForm → Run) (opc : Nat) (uniform : Bool) (n : Ctx → Nat) : Prop :=
  (∀ x, Faults (run x) opc (.m x) (fun c s => free c ∧ HasBeyond uniform c s) .pfault (firstAddress uniform beyondSpace))
    ∧ ∀ x, Faults (run x) opc (.m x) (fun c s => free c ∧ HasUnaligned uniform n c s) .align (firstAddress uniform (unaligned n))

theorem TrapsOnElements.checksAddresses {free : Ctx → Prop} {uniform : Bool} {n : Ctx → Nat} {body : Ctx → State → Res}
    (h : TrapsOnElements free uniform n body) (opc : Nat) : ChecksAddresses free (fun x => runIop opc (.m x) body) opc uniform n :=
  ⟨fun _ => faults_of_body fun s c _ ⟨hf, hb⟩ => h c _ _ _ hf (eaFault_of_beyond (s := s) hb),
    fun _ => faults_of_body fun s c _ ⟨hf, hu⟩ => h c _ _ _ hf (eaFault_of_unaligned (s := s) hu)⟩

/-- A path that has not waited for its earlier reads makes no refresh before its access (R259, R300). -/
theorem afterOverflow_of_no_reads {body : Ctx → State → Res} {c : Ctx} (h : ∀ r, c.path.wait ≠ some (.reads r)) (s : State) :
    afterOverflow body c s = body c s := by
  unfold afterOverflow
  split
  · exact absurd ‹_› (h _)
  · rfl

/-- The path has not waited for its earlier reads. -/
def NoReadsAwaited (c : Ctx) : Prop := ∀ r, c.path.wait ≠ some (.reads r)

theorem TrapsOnElements.afterOverflow {uniform : Bool} {n : Ctx → Nat} {body : Ctx → State → Res}
    (h : TrapsOnElements (fun _ => True) uniform n body) : TrapsOnElements NoReadsAwaited uniform n (afterOverflow body) :=
  fun c s code info hf he => (afterOverflow_of_no_reads hf s).trans (h c s code info trivial he)

/-- The bytes that LDV and STV access in a lane. -/
def wordsBytes (c : Ctx) : Nat := if c.qa = 0 then 16 else 32

theorem wordsBytes_eq (c : Ctx) : 4 * (if c.qa = 0 then 4 else 8) = wordsBytes c := by
  unfold wordsBytes
  split <;> rfl

theorem trapsOnElements_load (q : Chan) : TrapsOnElements (fun _ => True) false (·.esize) (loadBody q) :=
  fun _ s _ _ _ h => elements_of_fault h s _

theorem trapsOnElements_loadUniform (q : Chan) (pred : Bool) : TrapsOnElements (fun _ => True) true (·.esize) (loadUniformBody q pred) :=
  fun _ s _ _ _ h => elements_of_fault h s _

theorem trapsOnElements_loadNoFault : TrapsOnElements (fun _ => True) false (·.esize) loadNoFaultBody :=
  fun _ s _ _ _ h => elements_of_fault h s _

theorem trapsOnElements_sample : TrapsOnElements (fun _ => True) false (·.esize) sampleBody :=
  fun _ s _ _ _ h => elements_of_fault h s _

theorem trapsOnElements_store : TrapsOnElements (fun _ => True) false (·.esize) storeBody :=
  fun _ s _ _ _ h => elements_of_fault h s _

theorem trapsOnElements_storeUniform (pred : Bool) : TrapsOnElements (fun _ => True) true (·.esize) (storeUniformBody pred) :=
  fun _ s _ _ _ h => elements_of_fault h s _

theorem trapsOnElements_loadWords : TrapsOnElements (fun _ => True) false wordsBytes loadWordsBody :=
  fun c s _ _ _ h => elements_of_fault ((wordsBytes_eq c).symm ▸ h) s _

theorem trapsOnElements_storeWords : TrapsOnElements (fun _ => True) false wordsBytes storeWordsBody :=
  fun c s _ _ _ h => elements_of_fault ((wordsBytes_eq c).symm ▸ h) s _

theorem trapsOnElements_atomic (uniform cas red : Bool) : TrapsOnElements (fun _ => True) uniform (·.esize) (atomicBody uniform cas red) :=
  fun _ s _ _ _ h => elements_of_fault h s _

theorem trapsOnElements_sts : TrapsOnElements (fun _ => True) false (·.esize) stsBody :=
  fun _ s _ _ _ h => elements_of_fault h s _

/-- An LDS that has not issued its loads checks its addresses (R309). -/
theorem trapsOnElements_lds : TrapsOnElements (fun c => ∀ r, c.path.wait ≠ some (.loaded r)) false (·.esize) ldsBody := by
  intro c s code info hf h
  unfold ldsBody
  split
  · exact absurd ‹_› (hf _)
  · exact elements_of_fault h s _

/-- Settles O17: every body checks its elements first, and `eaFault` finds the first address that faults. -/
theorem addressFaults : Obligations.AddressFaults := by
  unfold Obligations.AddressFaults
  exact ⟨(trapsOnElements_load .gen).afterOverflow.checksAddresses 0x180, trapsOnElements_store.afterOverflow.checksAddresses 0x181,
    trapsOnElements_loadWords.afterOverflow.checksAddresses 0x182, trapsOnElements_storeWords.afterOverflow.checksAddresses 0x183,
    (trapsOnElements_loadUniform .gen true).afterOverflow.checksAddresses 0x184,
    (trapsOnElements_storeUniform true).afterOverflow.checksAddresses 0x185,
    (trapsOnElements_loadUniform .gen false).afterOverflow.checksAddresses 0x186,
    (trapsOnElements_storeUniform false).afterOverflow.checksAddresses 0x187, trapsOnElements_loadNoFault.afterOverflow.checksAddresses 0x18A,
    (trapsOnElements_load .con).checksAddresses 0x190, (trapsOnElements_loadUniform .con false).checksAddresses 0x191,
    trapsOnElements_sample.checksAddresses 0x192, (trapsOnElements_atomic false false false).checksAddresses 0x1E6,
    (trapsOnElements_atomic true false false).checksAddresses 0x1E7, (trapsOnElements_atomic false true false).checksAddresses 0x1E8,
    (trapsOnElements_atomic false false true).checksAddresses 0x1E9, trapsOnElements_sts.checksAddresses 0x1E5,
    trapsOnElements_lds.checksAddresses 0x1E4⟩

end Sys2Proof.Machine
end
section
/-!
PROOF. Prefetches and cache maintenance (O18).
-/

namespace Sys2Proof.Machine

/-! ### Caches keep what memory holds -/

/-- Memory, the held stores and the coherence orders are as they were. -/
def SameData (s t : State) : Prop := t.mem = s.mem ∧ t.held = s.held ∧ t.performed = s.performed

namespace SameData

theorem refl (s : State) : SameData s s := ⟨rfl, rfl, rfl⟩

theorem trans {s t u : State} (h : SameData s t) (h' : SameData t u) : SameData s u := by
  obtain ⟨hm, hh, hp⟩ := h
  obtain ⟨hm', hh', hp'⟩ := h'
  exact ⟨hm'.trans hm, hh'.trans hh, hp'.trans hp⟩

theorem foldl {α : Type} {f : State → α → State} (hf : ∀ s x, SameData s (f s x)) (xs : List α) (s : State) : SameData s (xs.foldl f s) :=
  List.foldlRecOn (motive := SameData s) xs f (refl s) fun t ht x _ => ht.trans (hf t x)

end SameData

theorem sameData_llcFill (s : State) (slice line : Nat) (remote : Bool) : SameData s (llcFill s slice line remote) := by
  obtain ⟨_, _, h⟩ := llcFill_eq s slice line remote
  rw [h]
  exact .refl s

theorem sameData_llcRead (s : State) (die line : Nat) : SameData s (llcRead s die line) := by
  have home := sameData_llcFill s (64 * homeDie line + stopIndex line) line false
  have far := sameData_llcFill (llcFill s (64 * homeDie line + stopIndex line) line false) (64 * die + stopIndex line) line true
  unfold llcRead
  simp only
  split
  · split
    · exact home
    · split
      · exact home.trans far
      · exact home.trans far
  · split
    · exact sameData_llcFill ..
    · exact .refl s

theorem sameData_l1Victim (s : State) (core : Nat) : SameData s (l1Victim s core).1 := by
  unfold l1Victim
  simp only
  split <;> exact ⟨rfl, rfl, rfl⟩

theorem sameData_l1Fill (s : State) (core line : Nat) (next : Bool) : SameData s (l1Fill s core line next).1 := by
  have hv := sameData_l1Victim s core
  unfold l1Fill
  simp only
  split
  · exact .refl s
  · split
    · exact .refl s
    · split
      · rename_i h
        rwa [h] at hv
      · rename_i h
        rw [h] at hv
        split
        · exact hv
        · split
          · exact hv
          · exact .refl s

/-! ### PREF and PREFU (R286) -/

/-- The start of the line of an element. -/
def Access1.line (e : Access1) : Access1 := { e with va := e.va / 64 * 64 }

/-- A line enters a core's L1, unless the core would have to pass a boundary. -/
def l1Offer (core : Nat) (s : State) (line : Nat) : State :=
  match l1Fill s core line false with | (t, false) => t | (_, true) => s

theorem sameData_l1Offer (core : Nat) (s : State) (line : Nat) : SameData s (l1Offer core s line) := by
  have hf := sameData_l1Fill s core line false
  unfold l1Offer
  split
  · rename_i h
    rwa [h] at hf
  · exact .refl s

/-- The lines that translate at once have entered the LLC, and L1 under Q = 0. -/
def linesPrefetched (uniform : Bool) (c : Ctx) (s : State) : State :=
  let pas := prefetchable c s ((c.elems uniform).map Access1.line)
  let s := (linesOf pas).foldl (fun s l => llcRead s (dieOf c.warp.core) l) s
  if c.qa = 0 then (l1Lines false pas).foldl (l1Offer c.warp.core) s else s

theorem sameData_linesPrefetched (uniform : Bool) (c : Ctx) (s : State) : SameData s (linesPrefetched uniform c s) := by
  have hread := SameData.foldl (fun s l => sameData_llcRead s (dieOf c.warp.core) l)
    (linesOf (prefetchable c s ((c.elems uniform).map Access1.line))) s
  unfold linesPrefetched
  simp only
  split
  · exact hread.trans (.foldl (sameData_l1Offer _) _ _)
  · exact hread

theorem prefBody_done (uniform : Bool) (c : Ctx) (s : State) : prefBody uniform c s = .done (linesPrefetched uniform c s) := rfl

/-! ### CWB (R286) -/

/-- The lines of the elements, as a TLB translates them. -/
def writtenLines (c : Ctx) (s : State) : List Nat := linesOf ((hits s c .write ((c.elems false).map Access1.line)).map (·.pa))

/-- The lines are in memory; `.inv` has dropped them from the LLC. -/
def linesWrittenBack (c : Ctx) (s : State) : State := if c.qa = 1 then llcDrop s (writtenLines c s).contains else s

theorem sameData_linesWrittenBack (c : Ctx) (s : State) : SameData s (linesWrittenBack c s) := by
  unfold linesWrittenBack
  split <;> exact ⟨rfl, rfl, rfl⟩

/-- Bytes are in range exactly where their lines are. -/
theorem eaFault_of_lines {es : List Access1} (h : (eaFault (es.map Access1.line) 1).isNone = true) : eaFault es 1 = none := by
  have hbytes : ∀ es : List Access1, eaFault es 1 = none ↔ ∀ e ∈ es, e.va < 2 ^ 57 := by
    intro es
    unfold eaFault
    split
    · rename_i e he
      have hmem := List.mem_of_find?_eq_some he
      have hbig := List.find?_some he
      simp only [decide_eq_true_eq] at hbig
      exact ⟨fun h => (Option.some_ne_none _ h).elim, fun h => absurd (h e hmem) (Nat.not_lt.2 hbig)⟩
    · rename_i he
      simpa [Nat.mod_one] using he
  rw [Option.isNone_iff_eq_none, hbytes] at h
  refine (hbytes es).2 fun e he => ?_
  have hline := h e.line (List.mem_map_of_mem he)
  simp only [Access1.line] at hline
  omega

theorem cwbBody_done {c : Ctx} {s : State} (hr : Reaches s c .write 1 ((c.elems false).map Access1.line)) :
    cwbBody c s = .done (linesWrittenBack c s) := by
  obtain ⟨-, hea, hall⟩ := hr
  unfold cwbBody
  simp only [eaFault_of_lines hea]
  exact translateAll_of_hits hall

/-! ### CINV (R286) -/

/-- The line at uniform A, unless the core holds unpublished stores in it. -/
def namedLines (c : Ctx) (s : State) : List Nat :=
  (linesOf (prefetchable c s [{ lane := c.lane0, va := c.uA.toNat }])).filter fun l => !(heldLines s c.warp.core).contains l

/-- Each byte of the lines, at its latest performed write. -/
def latestBytes (s : State) (lines : List Nat) : List BoundTerm :=
  lines.flatMap fun l => (List.range 64).map fun i => .byte (64 * l + i) (latestPos s (64 * l + i) fun _ => true)

/-- Lines have left the caches that Q names, and the core's bound is at what has performed to them. -/
def linesInvalidated (c : Ctx) (s : State) : State :=
  let core := c.warp.core
  if c.act = 0 then s
  else if c.q = 0 then
    raiseBound { s with l1 := s.l1.filter fun l => l.owner != core || (heldLines s core).contains l.line } (boundKey core .gen)
      [.reread s.performed.length (heldLines s core)]
  else if c.q = 1 then
    raiseBound { s with con := s.con.filter (·.owner != clusterOf core) } (boundKey core .con) [.reread s.performed.length []]
  else
    raiseBound { s with l1 := s.l1.filter fun l => !(l.owner == core && (namedLines c s).contains l.line) } (boundKey core .gen)
      (latestBytes s (namedLines c s))

theorem sameData_linesInvalidated (c : Ctx) (s : State) : SameData s (linesInvalidated c s) := by
  unfold linesInvalidated
  simp only
  split
  · exact .refl s
  · split
    · exact ⟨rfl, rfl, rfl⟩
    · split <;> exact ⟨rfl, rfl, rfl⟩

theorem cinvBody_done (c : Ctx) (s : State) : cinvBody c s = .done (linesInvalidated c s) := by
  unfold cinvBody linesInvalidated
  split
  · rfl
  · split <;> rename_i hq
    · rw [if_pos hq]
    · rw [if_neg (by omega), if_pos hq]
    · rw [if_neg ‹_›, if_neg ‹_›]
      rfl

/-- Settles O18: each body is done with the caches changed, and no cache operation changes memory, a held store or a coherence order. -/
theorem cacheMaintenance : Obligations.CacheMaintenance := by
  unfold Obligations.CacheMaintenance
  refine ⟨⟨fun x => completes_of_body fun s c _ _ => prefBody_done false c _, fun x => completes_of_body fun s c _ _ => prefBody_done true c _,
    fun x => completes_of_body fun s c hready hr => ?cwb, fun x => completes_of_body fun s c _ _ => cinvBody_done c _⟩,
    fun c s => ⟨sameData_linesPrefetched false c s, sameData_linesPrefetched true c s, sameData_linesWrittenBack c s,
      sameData_linesInvalidated c s⟩⟩
  case cwb => exact cwbBody_done ((prepare_issuing (warp?_of_ready hready)).reaches hr)

end Sys2Proof.Machine
end
section
/-!
SUPPORT. Sets and maps in rising order; near-store granules that take their steps in turn (R288, R313).
-/

namespace Sys2Proof.Machine

/-! ### Rising sets, and an entry replaced twice -/

/-- A number added to a rising set keeps it rising. -/
theorem NSet.pairwise_insert {s : NSet} (h : s.Pairwise (· < ·)) (i : Nat) : (NSet.insert s i).Pairwise (· < ·) := by
  induction s with
  | nil => exact List.pairwise_singleton ..
  | cons k s ih =>
    obtain ⟨hk, hs⟩ := List.pairwise_cons.1 h
    simp only [NSet.insert]
    split
    · refine List.pairwise_cons.2 ⟨fun j hj => ?_, h⟩
      rcases List.mem_cons.1 hj with rfl | hj
      · assumption
      · exact (hk j hj).trans' ‹_›
    · split
      · exact h
      · refine List.pairwise_cons.2 ⟨fun j hj => ?_, ih hs⟩
        rcases (NSet.mem_insert s i j).1 hj with rfl | hj
        · omega
        · exact hk j hj

theorem NSet.nodup_insertAll (xs : List Nat) : (NSet.insertAll [] xs).Nodup := by
  have hrising : (NSet.insertAll [] xs).Pairwise (· < ·) :=
    List.foldlRecOn (motive := fun s : NSet => s.Pairwise (· < ·)) xs NSet.insert .nil fun _ hs i _ => NSet.pairwise_insert hs i
  exact hrising.imp Nat.ne_of_lt

/-- The later of two entries of a key stands. -/
@[simp] theorem SMap.insert_insert {α : Type} (m : SMap α) (i : Nat) (x y : α) :
    SMap.insert (SMap.insert m i x) i y = SMap.insert m i y := by
  induction m with
  | nil => simp [SMap.insert]
  | cons kv m ih =>
    obtain ⟨k, v⟩ := kv
    simp only [SMap.insert]
    split
    · simp [SMap.insert]
    · split
      · simp [SMap.insert]
      · simp only [SMap.insert, if_neg ‹¬i < k›, if_neg ‹¬i = k›, ih]

/-! ### One granule's step -/

section
variable {op : NearOp} {g : Workgroup} {n m : Nat} {es : List NearElem}

/-- The granule is in the state that the operation needs, and in no live record that it would write. -/
def GranuleReady (op : NearOp) (g : Workgroup) (n : Nat) : Prop :=
  op.ready (g.full.contains n) = true ∧ (op.writes && g.tbGranule n) = false

/-- The data of elements written one by one leave the bits and the records of the allocation. -/
theorem setNear_all_keeps (es : List NearElem) (g : Workgroup) :
    (es.foldl (fun g e => g.setNear e.off e.data) g).full = g.full ∧ (es.foldl (fun g e => g.setNear e.off e.data) g).tbs = g.tbs :=
  List.foldlRecOn (motive := fun t : Workgroup => t.full = g.full ∧ t.tbs = g.tbs) es _ ⟨rfl, rfl⟩ fun _ ht _ _ => ht

theorem contains_setFullBit (h : m ≠ n) (g : Workgroup) (b : Bool) : (g.setFullBit n b).full.contains m = g.full.contains m := by
  rw [Bool.eq_iff_iff, List.contains_iff_mem, List.contains_iff_mem]
  unfold Workgroup.setFullBit
  cases b with
  | true => simp [NSet.mem_insert, h]
  | false => simp [NSet.mem_erase, h]

/-- The step of a granule keeps the live records, and the bits of the other granules. -/
theorem granuleStep_keeps (op : NearOp) (es : List NearElem) (g : Workgroup) (h : m ≠ n) :
    (granuleStep op n es g).1.tbs = g.tbs ∧ (granuleStep op n es g).1.full.contains m = g.full.contains m := by
  obtain ⟨hfull, htbs⟩ := setNear_all_keeps es g
  cases op with
  | read | readFull => exact ⟨rfl, rfl⟩
  | readEmpty | setEmpty | setFull => exact ⟨rfl, contains_setFullBit h g _⟩
  | write => exact ⟨htbs, congrArg (·.contains m) hfull⟩
  | writeFull | writeEmpty => exact ⟨htbs, (contains_setFullBit h _ _).trans (congrArg (·.contains m) hfull)⟩

theorem GranuleReady.granuleStep (hr : GranuleReady op g m) (h : m ≠ n) : GranuleReady op (granuleStep op n es g).1 m := by
  obtain ⟨hready, htb⟩ := hr
  obtain ⟨htbs, hfull⟩ := granuleStep_keeps op es g h
  exact ⟨hfull ▸ hready, by rw [Workgroup.tbGranule, htbs]; exact htb⟩

theorem stepGranule_of_ready {s : State} {wg : Nat} (hg : s.wg? wg = some g) (hr : GranuleReady op g n) (todo : List NearElem)
    (got : List (Nat × List Byte)) :
    stepGranule s wg op n todo got
      = ({ s with wgs := s.wgs.insert wg (granuleStep op n (todo.filter fun e => e.off / 16 == n) g).1 },
          todo.filter fun e => e.off / 16 != n, got ++ (granuleStep op n (todo.filter fun e => e.off / 16 == n) g).2) := by
  obtain ⟨hready, htb⟩ := hr
  simp only [stepGranule, hg, hready, htb, Bool.not_true, Bool.or_self, Bool.false_eq_true, if_false]

end

/-! ### Granules in turn -/

/-- The granules take their steps in order, each with the elements that name it: the allocation, and what has been read. -/
def granulesStepped (op : NearOp) (es : List NearElem) (ns : List Nat) (r : Workgroup × List (Nat × List Byte)) :
    Workgroup × List (Nat × List Byte) :=
  ns.foldl (fun acc n =>
    let r := granuleStep op n (es.filter fun e => e.off / 16 == n) acc.1
    (r.1, acc.2 ++ r.2)) r

/-- Granules that are ready all step, and their elements are done. -/
theorem foldl_stepGranule {wg : Nat} {op : NearOp} {es : List NearElem} (n : Nat) (ns : List Nat) {s : State} {g : Workgroup}
    {todo : List NearElem} (got : List (Nat × List Byte)) (hd : (n :: ns).Nodup) (hg : s.wg? wg = some g)
    (hr : ∀ m ∈ n :: ns, GranuleReady op g m)
    (hes : ∀ m ∈ n :: ns, (todo.filter fun e => e.off / 16 == m) = es.filter fun e => e.off / 16 == m) :
    (n :: ns).foldl (fun (acc : State × List NearElem × List (Nat × List Byte)) n => stepGranule acc.1 wg op n acc.2.1 acc.2.2) (s, todo, got)
      = ({ s with wgs := s.wgs.insert wg (granulesStepped op es (n :: ns) (g, got)).1 },
          todo.filter fun e => !(n :: ns).contains (e.off / 16), (granulesStepped op es (n :: ns) (g, got)).2) := by
  have hstep := stepGranule_of_ready hg (hr n List.mem_cons_self) todo got
  rw [hes n List.mem_cons_self] at hstep
  rw [List.foldl_cons, hstep]
  induction ns generalizing n s g todo got with
  | nil => simp [granulesStepped, bne, Bool.beq_eq_decide_eq]
  | cons m ns ih =>
    obtain ⟨hn, hd'⟩ := List.nodup_cons.1 hd
    have hne : ∀ k ∈ m :: ns, k ≠ n := fun k hk h => hn (h ▸ hk)
    have hrest : ∀ k ∈ m :: ns,
        ((todo.filter fun e => e.off / 16 != n).filter fun e => e.off / 16 == k) = es.filter fun e => e.off / 16 == k := by
      intro k hk
      rw [← hes k (List.mem_cons_of_mem n hk), List.filter_filter]
      refine List.filter_congr fun e _ => ?_
      by_cases h : e.off / 16 = k
      · simp [h, hne k hk]
      · simp [h]
    have hready : ∀ k ∈ m :: ns, GranuleReady op (granuleStep op n (es.filter fun e => e.off / 16 == n) g).1 k := fun k hk =>
      (hr k (List.mem_cons_of_mem n hk)).granuleStep (hne k hk)
    have hg' : State.wg? { s with wgs := s.wgs.insert wg (granuleStep op n (es.filter fun e => e.off / 16 == n) g).1 } wg
        = some (granuleStep op n (es.filter fun e => e.off / 16 == n) g).1 := SMap.find?_insert_self ..
    have hnext := stepGranule_of_ready hg' (hready m List.mem_cons_self) (todo.filter fun e => e.off / 16 != n)
      (got ++ (granuleStep op n (es.filter fun e => e.off / 16 == n) g).2)
    rw [hrest m List.mem_cons_self] at hnext
    rw [List.foldl_cons, hnext, ih m _ hd' hg' hready hrest hnext]
    simp only [SMap.insert_insert, List.filter_filter]
    refine congrArg (Prod.mk _) (congrArg (Prod.mk · _) (List.filter_congr fun e _ => ?_))
    simp only [List.contains_cons, Bool.not_or, bne, Bool.and_comm]

end Sys2Proof.Machine
end

section
/-!
PROOF. Near-store accesses (O19).
-/

namespace Sys2Proof.Machine

/-- The allocation that the path accesses. -/
def nearWg (c : Ctx) (s : State) : Workgroup := (s.wg? c.warp.wg).getD { handle := 0 }

/-- The instruction has elements in an allocation, none faults, nothing is pending, and every granule is ready (R287, R288). -/
def NearFits (uniform : Bool) (op : Ctx → NearOp) (c : Ctx) (s : State) : Prop :=
  (c.nearElems uniform (op c)).isEmpty = false ∧ (s.wg? c.warp.wg).isSome = true
    ∧ (nearFault (op c) (nearWg c s) (c.nearElems uniform (op c))).isNone = true ∧ Quiet s c
    ∧ ((c.nearElems uniform (op c)).all fun e => (op c).ready ((nearWg c s).full.contains (e.off / 16))) = true

/-- A release has published (R288). -/
def nearReleased (op : NearOp) (c : Ctx) (s : State) : State :=
  if op = .writeFull ∨ op = .writeEmpty then boundary s c.warp.core .clus else s

/-- The loads have landed, and an acquire has refreshed (R288). -/
def nearLanded (uniform : Bool) (op : NearOp) (c : Ctx) (s : State) (got : List (Nat × List Byte)) : State :=
  let s := if op.writes then s else nearLand uniform c s got
  if op = .readFull ∨ op = .readEmpty then refresh s c.warp.core .clus else s

/-- Every granule has taken its step. -/
def nearDone (uniform : Bool) (op : Ctx → NearOp) (c : Ctx) (s : State) : State :=
  let s := nearReleased (op c) c s
  let es := c.nearElems uniform (op c)
  let r := granulesStepped (op c) es (granulesOf es) (nearWg c s, [])
  nearLanded uniform (op c) c { s with wgs := s.wgs.insert c.warp.wg r.1 } r.2

section
variable {uniform : Bool} {c : Ctx} {s : State} {op : NearOp} {g : Workgroup} {es : List NearElem}

theorem wg?_nearReleased (op : NearOp) (c : Ctx) (s : State) (n : Nat) : (nearReleased op c s).wg? n = s.wg? n := by
  unfold nearReleased
  split <;> rfl

theorem held_boundary_of_none (h : s.held = []) (core : Nat) (sc : Scope) : (boundary s core sc).held = [] := by
  show s.held.map _ = []
  rw [h, List.map_nil]

theorem held_nearReleased (h : s.held = []) : (nearReleased op c s).held = [] := by
  unfold nearReleased
  split
  · exact held_boundary_of_none h ..
  · exact h

/-- With no store left to perform, nothing is published that has not performed. -/
theorem publishedWids_of_none (h : s.held = []) (core : Nat) : publishedWids s core = [] := by
  rw [publishedWids, h]
  rfl

/-- An instruction with elements in an allocation reaches what it does with them. -/
theorem elements_of_wg {o : Option Workgroup} (s : State) (hne : es.isEmpty = false) (hg : o = some g) (f : Workgroup → Res) :
    (match (generalizing := false) es, o with
      | [], _ => Res.done s
      | _, none => Res.done s
      | _, some g => f g) = f g := by
  subst hg
  split
  · cases hne
  · cases ‹some g = none›
  · cases ‹some g = some _›
    rfl

/-- Elements without a fault write no granule of a live record. -/
theorem tbStopped_of_no_fault (h : nearFault op g es = none) : tbStopped op g es = false := by
  unfold nearFault at h
  simp only at h
  split at h
  · cases h
  · split at h
    · cases h
    · split at h
      · cases h
      · exact Bool.eq_false_iff.2 ‹_›

/-- Elements that fit name granules that are ready. -/
theorem granuleReady_of_fits (hstop : tbStopped op g es = false) (hr : (es.all fun e => op.ready (g.full.contains (e.off / 16))) = true)
    {n : Nat} (hn : n ∈ granulesOf es) : GranuleReady op g n := by
  obtain ⟨e, he, rfl⟩ : ∃ e ∈ es, e.off / 16 = n := by simpa [granulesOf, NSet.mem_insertAll] using hn
  refine ⟨List.all_eq_true.1 hr e he, ?_⟩
  cases hw : op.writes with
  | false => rfl
  | true => simpa [tbStopped, hw] using fun h => (List.any_eq_false.1 (by simpa [tbStopped, hw] using hstop)) e he h

/-- All granules of elements that fit step in turn, and no element is left. -/
theorem stepAll_of_fits {wg : Nat} (hne : es.isEmpty = false) (hg : s.wg? wg = some g) (hstop : tbStopped op g es = false)
    (hr : (es.all fun e => op.ready (g.full.contains (e.off / 16))) = true) :
    (granulesOf es).foldl (fun (acc : State × List NearElem × List (Nat × List Byte)) n => stepGranule acc.1 wg op n acc.2.1 acc.2.2) (s, es, [])
      = ({ s with wgs := s.wgs.insert wg (granulesStepped op es (granulesOf es) (g, [])).1 }, [],
          (granulesStepped op es (granulesOf es) (g, [])).2) := by
  have hmem : ∀ e ∈ es, e.off / 16 ∈ granulesOf es := fun e he =>
    (NSet.mem_insertAll ..).2 (.inr (List.mem_map_of_mem (f := fun e : NearElem => e.off / 16) he))
  have hready : ∀ n ∈ granulesOf es, GranuleReady op g n := fun n hn => granuleReady_of_fits hstop hr hn
  have hdone : (es.filter fun e => !(granulesOf es).contains (e.off / 16)) = [] :=
    List.filter_eq_nil_iff.2 fun e he => by simpa using hmem e he
  have hnodup : (granulesOf es).Nodup := NSet.nodup_insertAll _
  generalize hns : granulesOf es = ns at *
  cases ns with
  | nil =>
    obtain ⟨e, es', rfl⟩ := List.exists_cons_of_ne_nil (l := es) (by rintro rfl; cases hne)
    exact absurd (hmem e List.mem_cons_self) List.not_mem_nil
  | cons n ns => rw [foldl_stepGranule n ns [] hnodup hg hready fun _ _ => rfl, hdone]

theorem nearBody_done {op : Ctx → NearOp} (h : NearFits uniform op c s) : nearBody uniform (op c) c s = .done (nearDone uniform op c s) := by
  obtain ⟨hne, hsome, hf, ⟨hwait, hreads, hheld⟩, hr⟩ := h
  obtain ⟨g, hg⟩ := Option.isSome_iff_exists.1 hsome
  have hnear : nearWg c s = g := by rw [nearWg, hg, Option.getD_some]
  rw [hnear] at hf hr
  have hfault := Option.isNone_iff_eq_none.1 hf
  have hstop := tbStopped_of_no_fault hfault
  have hheld' := held_nearReleased (op := op c) (c := c) hheld
  have hg' : (nearReleased (op c) c s).wg? c.warp.wg = some g := (wg?_nearReleased ..).trans hg
  have hnear' : nearWg c (nearReleased (op c) c s) = g := by rw [nearWg, hg', Option.getD_some]
  have hsteps := stepAll_of_fits hne hg' hstop hr
  have hpublish : (if (op c == .writeFull || op c == .writeEmpty) = true then boundary s c.warp.core .clus else s) = nearReleased (op c) c s := by
    simp only [nearReleased, Bool.or_eq_true, beq_iff_eq]
  have hfollows : (if (op c).writes = true then c.path.after.filter fun w => (nearReleased (op c) c s).held.any (·.wid == w) else []) = [] := by
    simp [hheld']
  refine (elements_of_wg s hne hg _).trans ?_
  simp only [hwait, hfault, hreads, hpublish, hfollows, publishedWids_of_none hheld', hstop, hsteps, List.isEmpty_nil, Bool.not_true,
    Bool.and_false, Bool.false_eq_true, if_false, ite_self, List.append_nil]
  simp only [nearDone, nearLanded, hnear', Bool.or_eq_true, beq_iff_eq]

end

/-! ### Faults (R264, R287, R313) -/

/-- An offset that is no multiple of the access size. -/
def nearUnaligned (_ : Ctx) (_ : State) (e : NearElem) : Bool := decide (e.off % e.size ≠ 0)

/-- An offset at or beyond the allocation. -/
def nearBeyond (c : Ctx) (s : State) (e : NearElem) : Bool := decide ((nearWg c s).nearSize ≤ e.off)

/-- An offset in a live record of a transaction barrier. -/
def nearLive (c : Ctx) (s : State) (e : NearElem) : Bool := (nearWg c s).tbGranule (e.off / 16)

/-- Some element of an instruction that starts meets a test. -/
def NearHas (op : Ctx → NearOp) (p : Ctx → State → NearElem → Bool) (c : Ctx) (s : State) : Prop :=
  (s.wg? c.warp.wg).isSome = true ∧ c.path.wait = none ∧ ((c.nearElems false (op c)).any (p c s)) = true

/-- No element meets a test. -/
def NearHasNone (op : Ctx → NearOp) (p : Ctx → State → NearElem → Bool) (c : Ctx) (s : State) : Prop :=
  ((c.nearElems false (op c)).any (p c s)) = false

/-- The offset of the first element that meets a test. -/
def nearFirst (op : Ctx → NearOp) (p : Ctx → State → NearElem → Bool) (c : Ctx) (s : State) : Word64 :=
  BitVec.ofNat 64 ((((c.nearElems false (op c)).find? (p c s)).map (·.off)).getD 0)

section
variable {op : Ctx → NearOp} {c : Ctx} {s : State}

theorem find?_of_any_false {α : Type} {xs : List α} {p : α → Bool} (h : xs.any p = false) : xs.find? p = none :=
  List.find?_eq_none.2 fun x hx => by simpa using List.any_eq_false.1 h x hx

/-- The first test of `nearFault`. -/
theorem nearUnaligned_eq (c : Ctx) (s : State) : (fun e : NearElem => e.off % e.size != 0) = nearUnaligned c s :=
  funext fun e => by simp [nearUnaligned, bne, Bool.beq_eq_decide_eq]

theorem nearFault_of_unaligned (h : NearHas op nearUnaligned c s) :
    nearFault (op c) (nearWg c s) (c.nearElems false (op c)) = some (.align, nearFirst op nearUnaligned c s) := by
  obtain ⟨-, -, hany⟩ := h
  obtain ⟨e, he⟩ := find?_of_any hany
  simp only [nearFault, nearFirst, nearUnaligned_eq c s, he, Option.map_some, Option.getD_some]

theorem nearFault_of_beyond (ha : NearHasNone op nearUnaligned c s) (h : NearHas op nearBeyond c s) :
    nearFault (op c) (nearWg c s) (c.nearElems false (op c)) = some (.nsbound, nearFirst op nearBeyond c s) := by
  obtain ⟨-, -, hany⟩ := h
  obtain ⟨e, he⟩ := find?_of_any hany
  have he' : ((c.nearElems false (op c)).find? fun e => decide ((nearWg c s).nearSize ≤ e.off)) = some e := he
  simp only [nearFault, nearFirst, nearUnaligned_eq c s, find?_of_any_false ha, he, he', Option.map_some, Option.getD_some]

theorem nearFault_of_live (hw : (op c).writes = true) (ha : NearHasNone op nearUnaligned c s) (hb : NearHasNone op nearBeyond c s)
    (h : NearHas op nearLive c s) : nearFault (op c) (nearWg c s) (c.nearElems false (op c)) = some (.tbstate, 5) := by
  obtain ⟨-, -, hany⟩ := h
  have hb' : ((c.nearElems false (op c)).find? fun e => decide ((nearWg c s).nearSize ≤ e.off)) = none := find?_of_any_false hb
  have hstop : tbStopped (op c) (nearWg c s) (c.nearElems false (op c)) = true := by rw [tbStopped, hw]; exact hany
  simp only [nearFault, nearUnaligned_eq c s, find?_of_any_false ha, hb', hstop, if_true]

/-- A near-store instruction that starts traps on the fault of its elements. -/
theorem nearBody_of_fault {p : Ctx → State → NearElem → Bool} {code : FaultCode} {info : Word64} (h : NearHas op p c s)
    (hf : nearFault (op c) (nearWg c s) (c.nearElems false (op c)) = some (code, info)) : nearBody false (op c) c s = .trap code info := by
  obtain ⟨hsome, hwait, hany⟩ := h
  obtain ⟨g, hg⟩ := Option.isSome_iff_exists.1 hsome
  have hnear : nearWg c s = g := by rw [nearWg, hg, Option.getD_some]
  have hne : (c.nearElems false (op c)).isEmpty = false := by
    obtain ⟨e, he, -⟩ := List.any_eq_true.1 hany
    exact List.isEmpty_eq_false_iff.2 (List.ne_nil_of_mem he)
  rw [hnear] at hf
  refine (elements_of_wg s hne hg _).trans ?_
  simp only [hwait, hf]

end

/-! ### The instructions -/

theorem nearFits_prepare {uniform : Bool} {op : Ctx → NearOp} {c : Ctx} {s : State} (h : NearFits uniform op c s) :
    NearFits uniform op c (prepare c s) := by
  rw [prepare_eq]
  exact h

section
variable {opc : Nat} {f : Form} {op : Ctx → NearOp}

theorem completes_near (uniform : Bool) :
    Completes (runIop opc f fun c => nearBody uniform (op c) c) opc f (NearFits uniform op) (nearDone uniform op) :=
  completes_of_body fun _ _ _ h => nearBody_done (nearFits_prepare h)

/-- A fault of the elements on the state before the instruction is its fault. -/
theorem faults_near {p : Ctx → State → NearElem → Bool} {when_ : Ctx → State → Prop} {code : FaultCode} {info : Ctx → State → Word64}
    (hp : ∀ c s, when_ c s → NearHas op p c s)
    (hf : ∀ c s, when_ c s → nearFault (op c) (nearWg c s) (c.nearElems false (op c)) = some (code, info c s)) :
    Faults (runIop opc f fun c => nearBody false (op c) c) opc f when_ code info :=
  faults_of_body fun s c _ h => by
    rw [prepare_eq]
    exact nearBody_of_fault (s := { s with warps := (prepare c s).warps }) (p := fun c _ => p c s) (hp c s h) (hf c s h)

theorem faults_near_unaligned :
    Faults (runIop opc f fun c => nearBody false (op c) c) opc f (NearHas op nearUnaligned) .align (nearFirst op nearUnaligned) :=
  faults_near (fun _ _ h => h) fun _ _ h => nearFault_of_unaligned h

theorem faults_near_beyond :
    Faults (runIop opc f fun c => nearBody false (op c) c) opc f (fun c s => NearHasNone op nearUnaligned c s ∧ NearHas op nearBeyond c s)
      .nsbound (nearFirst op nearBeyond) :=
  faults_near (fun _ _ ⟨_, h⟩ => h) fun _ _ ⟨ha, h⟩ => nearFault_of_beyond ha h

theorem faults_near_live (hw : ∀ c, (op c).writes = true) :
    Faults (runIop opc f fun c => nearBody false (op c) c) opc f
      (fun c s => NearHasNone op nearUnaligned c s ∧ NearHasNone op nearBeyond c s ∧ NearHas op nearLive c s) .tbstate fun _ _ => 5 :=
  faults_near (fun _ _ ⟨_, _, h⟩ => h) fun c _ ⟨ha, hb, h⟩ => nearFault_of_live (hw c) ha hb h

end

theorem writes_nearStoreOp (c : Ctx) : c.nearStoreOp.writes = true := by
  unfold Ctx.nearStoreOp
  split <;> rfl

/-- Settles O19: granules that are ready step in turn, each leaving the bits of the others; and the first check that fails faults. -/
theorem nearStoreSteps : Obligations.NearStoreSteps := by
  unfold Obligations.NearStoreSteps
  exact ⟨fun x => completes_near (op := (·.nearLoadOp)) false, fun x => completes_near (op := (·.nearStoreOp)) false,
    fun x => completes_near (op := (·.nearLoadOp)) true, fun x => completes_near (op := (·.nearStoreOp)) true,
    fun x => completes_near (op := fun c => if c.qa = 0 then .setEmpty else .setFull) false,
    fun g d m z o => completes_near (op := (·.nearLoadOp)) false, fun g d m z o => completes_near (op := (·.nearStoreOp)) false,
    fun x => faults_near_unaligned, fun x => faults_near_unaligned, fun x => faults_near_beyond, fun x => faults_near_beyond,
    fun x => faults_near_live writes_nearStoreOp⟩

end Sys2Proof.Machine
end
section
/-!
PROOF. Strong accesses and atomics (O21).
-/

namespace Sys2Proof.Machine

/-! ### LDS (R301, R309) -/

/-- The strong read of every lane is in flight, behind what the core has published to its lines. -/
def strongReadIssued (c : Ctx) (s : State) : State :=
  let xs := hits s c .read (c.elems false)
  let o := openStrong c s xs
  lastAfter (issueRead o.1 c (.strong c.scope (c.qa != 0)) c.esize (lanesMask xs) (xs.map fun x => (0, x))
    (.vector (c.slot c.f.d.toNat) c.eslots c.ty) (c.destRegs c.eslots)) o.2 []

/-- The elements can be read, and nothing is pending. -/
def StrongReadable (c : Ctx) (s : State) : Prop :=
  Reaches s c .read c.esize (c.elems false) ∧ Clean s c.esize (hits s c .read (c.elems false)) ∧ Quiet s c

/-- The path waits for its strong read, and every read of it has returned. -/
def StrongReturned (c : Ctx) (s : State) : Prop :=
  (match c.path.wait with | some (.loaded _) => (pendingReads s c.w c.path.lmask).isEmpty | _ => false) = true

section
variable {c : Ctx} {s : State}

/-- Where the elements are clean and reach the access, LDS comes to its read. -/
theorem ldsBody_of_readable (h : StrongReadable c s) (hq : c.qa ≠ 2) :
    ldsBody c s = if c.qa = 0 then .done (strongReadIssued c s) else .wait (strongReadIssued c s) (.loaded ((strongReadIssued c s).nextId - 1)) := by
  obtain ⟨hr, hc, hwait, -, -⟩ := h
  have hbody := elements_of_reaches hr
  obtain ⟨-, -, hall⟩ := hr
  unfold ldsBody
  simp only [hwait]
  refine (hbody _).trans ?_
  rw [translateAll_of_hits hall, poisonedElem_of_clean hc]
  simp only [if_neg hq]
  rfl

theorem ldsBody_of_returned (h : StrongReturned c s) : ldsBody c s = .done (refresh s c.warp.core c.scope) := by
  unfold StrongReturned at h
  unfold ldsBody
  split at h
  · rename_i hwait
    simp only [hwait, h, if_true]
  · cases h

end

/-! ### FENCE.sc before an access, where nothing is pending (R302) -/

/-- Where nothing is pending the boundary and the refresh are made at once. -/
theorem seqCst_of_quiet {c : Ctx} {s : State} (h : Quiet s c) (f : State → Res) :
    seqCst c s f = f (refresh (boundary s c.warp.core c.scope) c.warp.core c.scope) := by
  obtain ⟨hwait, hreads, hheld⟩ := h
  have hb := held_boundary_of_none hheld c.warp.core c.scope
  have hstrong : strongWrites (boundary s c.warp.core c.scope) c.w c.path.lmask = [] := by
    rw [strongWrites, hb]
    rfl
  simp only [seqCst, hwait, afterReads, hreads, publishedWids_of_none hb, hstrong, List.append_nil]

/-! ### STS (R301, R309) -/

/-- The state in which STS stores: a sequentially consistent one makes a boundary and a refresh first. -/
def storeOpened (c : Ctx) (s : State) : State :=
  if c.qa = 2 then refresh (boundary s c.warp.core c.scope) c.warp.core c.scope else s

/-- The strong stores of every lane are held, behind those of lower lanes and what has been published. -/
def strongStoresHeld (c : Ctx) (s : State) : State :=
  let xs := hits s c .write (c.elems false)
  let s := storeOpened c s
  let o := openStrong c (if c.qa = 0 then s else boundary s c.warp.core c.scope) xs
  holdStrong c (nextSeq o.1) (NSet.insertAll c.path.after (o.2 ++ if c.qa = 0 then [] else publishedWids o.1 c.warp.core)) xs

theorem stsBody_of_writable {c : Ctx} {s : State} (hr : Reaches s c .write c.esize (c.elems false)) (hq : Quiet s c) :
    stsBody c s = .done (strongStoresHeld c s) := by
  refine (elements_of_reaches hr _).trans ?_
  obtain ⟨-, -, hall⟩ := hr
  rw [translateAll_of_hits hall, strongStoresHeld, storeOpened]
  simp only [seqCst_of_quiet hq]
  split <;> rfl

/-! ### Atomics (R308) -/

/-- The operand of a lane: uniform D, or D and for eight bytes the register after it. -/
def atomicOperand (uniform : Bool) (c : Ctx) (l : Nat) : Word64 :=
  let word (i : Nat) := (c.warp.regs.row (c.slot (c.f.d.toNat + i))).lane l
  if uniform then c.uD else if c.eslots = 2 then word 1 ++ word 0 else (word 0).zeroExtend 64

/-- The new value of a lane of CAS, which stands after the operand. -/
def casValue (c : Ctx) (l : Nat) : Word64 :=
  let word (i : Nat) := (c.warp.regs.row (c.slot (c.f.d.toNat + i))).lane l
  if c.eslots = 2 then word 3 ++ word 2 else (word 1).zeroExtend 64

/-- The atomics of the elements are in flight, behind what the core has published to their lines. -/
def atomicsIssued (uniform cas : Bool) (dest : Ctx → Dest) (busy : Ctx → List Reg) (c : Ctx) (s : State) : State :=
  let xs := hits s c .write (c.elems uniform)
  let o := openStrong c s xs
  lastAfter (issueRead o.1 c
    (.atomic c.atomOp cas c.ty c.scope (xs.map fun x => (x.lane, atomicOperand uniform c x.lane, if cas then casValue c x.lane else 0))) c.esize
    (if uniform then c.path.lmask else lanesMask xs) (xs.map fun x => (0, x)) (dest c) (busy c)) o.2 xs

/-- The elements can be written, and none is poisoned. -/
def AtomicAble (uniform : Bool) (c : Ctx) (s : State) : Prop :=
  Reaches s c .write c.esize (c.elems uniform) ∧ Clean s c.esize (hits s c .write (c.elems uniform))

/-- Where an atomic returns the old values: nowhere, to uniform D or to the vector D. -/
def atomicDest (uniform red : Bool) (c : Ctx) : Dest :=
  if red then .none else if uniform then .uniform c.f.d.toNat c.ty else .vector (c.slot c.f.d.toNat) c.eslots c.ty

/-- The registers that an atomic writes. -/
def atomicBusy (uniform red : Bool) (c : Ctx) : List Reg :=
  if red then [] else if uniform then [.uni c.f.d.toNat] else c.destRegs c.eslots

theorem atomicBody_of_able {uniform cas : Bool} (red : Bool) {c : Ctx} {s : State} (h : AtomicAble uniform c s) :
    atomicBody uniform cas red c s = .done (atomicsIssued uniform cas (atomicDest uniform red) (atomicBusy uniform red) c s) := by
  obtain ⟨hr, hc⟩ := h
  refine (elements_of_reaches hr _).trans ?_
  obtain ⟨-, -, hall⟩ := hr
  rw [translateAll_of_hits hall, poisonedElem_of_clean hc]
  cases cas <;> rfl

/-! ### The instructions -/

section
variable {c : Ctx} {s : State}

theorem strongReadable_prepare (hw : s.warp? c.w = some c.warp) (h : StrongReadable c s) : StrongReadable c (prepare c s) := by
  obtain ⟨hr, hc, hq⟩ := h
  have hi := prepare_issuing hw
  refine ⟨hi.reaches hr, by rw [hi.hits]; exact hi.clean hc, ?_⟩
  rw [prepare_eq]
  exact hq

theorem atomicAble_prepare {uniform : Bool} (hw : s.warp? c.w = some c.warp) (h : AtomicAble uniform c s) :
    AtomicAble uniform c (prepare c s) := by
  obtain ⟨hr, hc⟩ := h
  have hi := prepare_issuing hw
  exact ⟨hi.reaches hr, by rw [hi.hits]; exact hi.clean hc⟩

theorem quiet_prepare (h : Quiet s c) : Quiet (prepare c s) c := by
  rw [prepare_eq]
  exact h

theorem strongReturned_prepare (h : StrongReturned c s) : StrongReturned c (prepare c s) := by
  rw [prepare_eq]
  exact h

end

theorem completes_atomic {opc : Nat} {f : Form} (uniform cas red : Bool) :
    Completes (runIop opc f (atomicBody uniform cas red)) opc f (AtomicAble uniform)
      (atomicsIssued uniform cas (atomicDest uniform red) (atomicBusy uniform red)) :=
  completes_of_body fun _ _ hready h => atomicBody_of_able red (atomicAble_prepare (warp?_of_ready hready) h)

theorem execJ32Atom_of_legal {g : BitVec 4} {d : BitVec 6} {m : BitVec 5} {z : BitVec 2} {o : BitVec 9} (h : z.toNat ≤ 1) :
    exec (.j32Atom g d m z o) = execAtom { j32Mem g d m z o with sc := 5 } := funext fun _ => if_pos h

/-- Settles O21: the elements reach the access, which opens with the publication to its lines and leaves its reads in flight or its stores
held. -/
theorem strongAccessesAndAtomics : Obligations.StrongAccessesAndAtomics := by
  unfold Obligations.StrongAccessesAndAtomics
  refine ⟨fun x => ?read, fun x => ?acquire, fun x => ?returned, fun x => ?store, fun x => completes_atomic false false false,
    fun x => completes_atomic true false false, fun x => completes_atomic false true false, fun x => completes_atomic false false true,
    fun g d m z o hz => ?guest⟩
  case read =>
    exact completes_of_body fun s c hready ⟨hq, h⟩ =>
      (ldsBody_of_readable (strongReadable_prepare (warp?_of_ready hready) h) (by omega)).trans (if_pos hq)
  case acquire =>
    exact waits_of_body fun s c hready ⟨hq, h⟩ =>
      (ldsBody_of_readable (strongReadable_prepare (warp?_of_ready hready) h) (by omega)).trans (if_neg (by omega))
  case returned => exact completes_of_body fun s c _ h => ldsBody_of_returned (strongReturned_prepare h)
  case store =>
    exact completes_of_body fun s c hready ⟨hr, hq⟩ =>
      stsBody_of_writable ((prepare_issuing (warp?_of_ready hready)).reaches hr) (quiet_prepare hq)
  case guest =>
    rw [execJ32Atom_of_legal hz]
    exact completes_atomic false false false

end Sys2Proof.Machine
end
section
/-!
PROOF. Walks, answers to page requests, and granules (O39).
-/

namespace Sys2Proof.Machine

/-! ### Walks (R272, R273) -/

/-- The walk has left the walker, and its request has been counted. -/
def walkLeft (k : Nat) (w : Walk) (s : State) : State :=
  { charged (some (clusterOf w.core, w.vf)) s with walks := s.walks.filter (·.k != k) }

/-- The translation is in both TLBs, and its non-leaf entries in the walker's cache; its entries are marked. -/
def walkCached (w : Walk) (c : Combined) (s : State) : State :=
  let t := cacheWalk (markUsed s c (w.kind == .write)) (clusterOf w.core) w.vf c
  { t with tlb := addTlb (addTlb t.tlb (c.entry (.core w.core) w.vf w.asid w.va (w.kind == .write)) 64)
                    (c.entry (.cluster (clusterOf w.core)) w.vf w.asid w.va (w.kind == .write)) 4096 }

/-- What the walk finds. -/
def walkAnswer (k : Nat) (w : Walk) (s : State) : WalkRes Combined :=
  combine (walkLeft k w s) (some (clusterOf w.core)) w.vf w.asid w.va w.kind false

/-- The path has a note of the walk that failed. -/
def walkNoted (k : Nat) (w : Walk) (f : WalkFail) (s : State) : State :=
  (walkLeft k w s).modPath w.warp w.path fun q => { q with notes := q.notes ++ [{ va := w.va, kind := w.kind, fail := f }] }

section
variable {k : Nat} {w : Walk} {s : State}

/-- A granted walk is done on the state in which its request has been counted. -/
theorem execWalkComplete_of_granted {t : State} (hw : s.walks.find? (·.k == k) = some w) (hg : Granted (some (clusterOf w.core, w.vf)) s)
    (h : walkDone k (charged (some (clusterOf w.core, w.vf)) s) = some t) : execWalkComplete k s = .next t := by
  have hwho : ((s.walks.find? (·.k == k)).map fun x => (clusterOf x.core, x.vf)) = some (clusterOf w.core, w.vf) := by
    rw [hw, Option.map_some]
  refine runEvent_of_some ?_
  rw [limited_of_granted (by rwa [hwho]), hwho]
  exact h

/-- Counting a request leaves the walks. -/
theorem walks_charged (who : Option (Nat × Nat)) (s : State) : (charged who s).walks = s.walks := by
  obtain ⟨_, h⟩ := charged_eq who s
  rw [h]

theorem walkDone_of_ok {c : Combined} (hw : s.walks.find? (·.k == k) = some w) (ha : walkAnswer k w s = .ok c) :
    walkDone k (charged (some (clusterOf w.core, w.vf)) s) = some (walkCached w c (walkLeft k w s)) := by
  unfold walkAnswer walkLeft at ha
  unfold walkDone
  simp only [walks_charged, hw, ha]
  rfl

theorem walkDone_of_fail {f : WalkFail} (hw : s.walks.find? (·.k == k) = some w) (ha : walkAnswer k w s = .fail f) :
    walkDone k (charged (some (clusterOf w.core, w.vf)) s) = some (walkNoted k w f s) := by
  unfold walkAnswer walkLeft at ha
  unfold walkDone
  simp only [walks_charged, hw, ha]
  rfl

end

/-! ### Answers to page requests (R277) -/

/-- The entry of the request is free, and every path has learnt of the answer. -/
def requestFreed (vf rid : Nat) (r : PageRequest) (ok : Bool) (s : State) : State :=
  { s with requests := s.requests.filter fun x => !(x.vf == vf && x.rid == rid)
           warps := s.warps.map fun y => (y.1, { y.2 with regs := { y.2.regs with
             paths := y.2.regs.paths.map fun z => (z.1, z.2.answered vf r ok) } }) }

theorem pageAnswer_of_outstanding {vf rid : Nat} {r : PageRequest} (ok : Bool) {s : State}
    (h : s.requests.find? (fun r => r.vf == vf && r.rid == rid) = some r) : pageAnswer vf rid ok s = requestFreed vf rid r ok s := by
  simp only [pageAnswer, h]
  rfl

theorem pageAnswer_of_none {vf rid : Nat} (ok : Bool) {s : State} (h : s.requests.find? (fun r => r.vf == vf && r.rid == rid) = none) :
    pageAnswer vf rid ok s = s := by
  simp only [pageAnswer, h]

/-! ### Granules (R288, R313) -/

/-- The granule has taken its step: the allocation has changed, and the path keeps the elements left and what has been read. -/
def granuleStepped (w p n : Nat) (x : Warp) (g : Workgroup) (op : NearOp) (todo : List NearElem) (got : List (Nat × List Byte)) (s : State) :
    State :=
  let r := granuleStep op n (todo.filter fun e => e.off / 16 == n) g
  ({ s with wgs := s.wgs.insert x.wg r.1 }).modPath w p fun q =>
    { q with wait := some (.granules op (todo.filter fun e => e.off / 16 != n) (got ++ r.2)) }

theorem granuleEvent_of_ready {w p n : Nat} {x : Warp} {q : Path} {g : Workgroup} {op : NearOp} {todo : List NearElem}
    {got : List (Nat × List Byte)} {s : State} (hx : s.warp? w = some x) (hp : s.path? w p = some q)
    (hq : q.wait = some (.granules op todo got)) (hg : s.wg? x.wg = some g) (hn : (todo.any fun e => e.off / 16 == n) = true)
    (hr : GranuleReady op g n) : granuleEvent w p n s = some (granuleStepped w p n x g op todo got s) := by
  have hstep := stepGranule_of_ready hg hr todo got
  obtain ⟨hready, htb⟩ := hr
  simp only [granuleEvent, hx, hp, hq, hg, hn, hready, htb, hstep, Bool.not_false, Bool.and_self, if_true]
  rfl

/-- Settles O39: each step is computed on its state, the walk's on the charged one. -/
theorem walksAnswersAndGranules : Obligations.WalksAnswersAndGranules := by
  unfold Obligations.WalksAnswersAndGranules
  refine ⟨?found, ?failed, ?success, ?invalid, ?noSuccess, ?noInvalid, ?granule⟩
  case found => exact fun k w c s ⟨⟨hw, hg⟩, ha⟩ => execWalkComplete_of_granted hw hg (walkDone_of_ok hw ha)
  case failed => exact fun k w f s ⟨⟨hw, hg⟩, ha⟩ => execWalkComplete_of_granted hw hg (walkDone_of_fail hw ha)
  case success => exact fun vf rid r s h => congrArg Host.Outcome.next (pageAnswer_of_outstanding true h)
  case invalid => exact fun vf rid r s h => congrArg Host.Outcome.next (pageAnswer_of_outstanding false h)
  case noSuccess => exact fun vf rid s h => congrArg Host.Outcome.next (pageAnswer_of_none true h)
  case noInvalid => exact fun vf rid s h => congrArg Host.Outcome.next (pageAnswer_of_none false h)
  case granule =>
    exact fun w p n x q g op todo got s ⟨hx, hp, hq, hg, hn, hready, htb⟩ =>
      runEvent_of_some (granuleEvent_of_ready hx hp hq hg hn ⟨hready, htb⟩)

end Sys2Proof.Machine
end

section
/-!
PROOF. Registers of the host and accesses from outside (O45).
-/

namespace Sys2Proof.Machine

/-! ### Register writes (R464) -/

section
variable {f : Func} {ofs n : Nat} {v : Word64} {s : State}

theorem execRegisterWrite_of_still (hf : s.flips = []) : execRegisterWrite f ofs n v s = .next (registerWrite f ofs n v s) :=
  runEventFlip_of_some hf rfl

theorem takesWrites_of_ready (h : s.pkg.ready = true) (f : Func) : s.takesWrites f = true := by rw [State.takesWrites, h, Bool.true_or]

/-- A write of a register at its offset and of its width takes effect. -/
theorem registerWrite_of_wellFormed (hr : s.pkg.ready = true) (hat : registerAt f ofs = some (ofs, n)) :
    registerWrite f ofs n v s = writeRegister f ofs v s := by
  simp only [registerWrite, takesWrites_of_ready hr, hat, hr, ne_eq, not_true, or_self, Bool.not_true, Bool.true_or, Bool.false_eq_true,
    if_false, if_true]

/-- A write of a part of a register is counted. -/
theorem registerWrite_of_malformed {a k : Nat} (hr : s.pkg.ready = true) (hat : registerAt f ofs = some (a, k)) (h : ofs ≠ a ∨ n ≠ k) :
    registerWrite f ofs n v s = countRefusal s f := by
  simp only [registerWrite, takesWrites_of_ready hr, hat, h, Bool.not_true, Bool.false_eq_true, if_false, if_true]

/-- A write that the function does not take, or where no register is, is ignored. -/
theorem registerWrite_of_ignored (h : s.takesWrites f = false ∨ registerAt f ofs = none) : registerWrite f ofs n v s = s := by
  unfold registerWrite
  split
  · rfl
  · rename_i ht
    have hnone : registerAt f ofs = none := h.resolve_left fun h => ht (by rw [h]; rfl)
    rw [hnone]

theorem registerAt_svcBase (f : Func) : registerAt f 0x060 = some (0x060, 8) := by cases f <;> rfl

/-- SVCBASE is written also in recovery mode (R462, R469). -/
theorem registerWrite_svcBase (ht : s.takesWrites f = true) :
    registerWrite f 0x060 8 v s = s.modFunc f fun g => { g with svcBase := v &&& ~~~0xFFF } := by
  simp only [registerWrite, ht, registerAt_svcBase, ne_eq, not_true, or_self, Bool.not_true, Bool.false_eq_true, if_false, beq_self_eq_true,
    Bool.or_true, if_true]
  cases f <;> rfl

theorem func_modFunc (s : State) (f : Func) (g : FuncRegs → FuncRegs) : (s.modFunc f g).func f = g (s.func f) := by
  simp [State.func, State.modFunc, SMap.get]

end

/-! ### Register reads (R464, R466) -/

section
variable {f : Func} {ofs ld : Nat} {s : State}

/-- The register page lies below the management page. -/
theorem uirefuseRead_low (h : ofs < 0x1000) (f : Func) (s : State) : uirefuseRead f ofs s = uirefuseRead.page f ofs s := by
  cases f with
  | pf ld => exact (if_neg (by omega)).trans (if_neg (by omega))
  | vf n => rfl

theorem read_refuse (hr : s.pkg.ready = true) (f : Func) :
    uirefuseRead f 0x030 s = (s.modFunc f fun g => { g with refuse := 0 }).emit (.value ((s.func f).refuse.zeroExtend 64)) := by
  rw [uirefuseRead_low (by decide), uirefuseRead.page, hr]
  rfl

/-- A register of the page other than UIREFUSE returns its value. -/
theorem read_register (hr : s.pkg.ready = true) (hlow : ofs < 0x1000) (h : ofs ≠ 0x030) (f : Func) :
    uirefuseRead f ofs s = s.emit (.value (BitVec.ofNat 64 (readRegister s f ofs))) := by
  rw [uirefuseRead_low hlow, uirefuseRead.page, hr]
  exact if_neg h

theorem read_trapCi (hr : s.pkg.ready = true) (f : Func) : uirefuseRead f 0x050 s = s.emit (.value ((s.func f).trapCi.zeroExtend 64)) := by
  have hval : readRegister s f 0x050 = (s.func f).trapCi.toNat := by cases f <;> rfl
  rw [read_register hr (by decide) (by decide), hval, BitVec.ofNat_toNat]

theorem read_scanCi (hr : s.pkg.ready = true) (f : Func) : uirefuseRead f 0x058 s = s.emit (.value ((s.func f).scanCi.zeroExtend 64)) := by
  have hval : readRegister s f 0x058 = (s.func f).scanCi.toNat := by cases f <;> rfl
  rw [read_register hr (by decide) (by decide), hval, BitVec.ofNat_toNat]

theorem read_svcBase (hr : s.pkg.ready = true) (f : Func) : uirefuseRead f 0x060 s = s.emit (.value (s.func f).svcBase) := by
  have hval : readRegister s f 0x060 = (s.func f).svcBase.toNat := by cases f <;> rfl
  rw [read_register hr (by decide) (by decide), hval, BitVec.ofNat_toNat, BitVec.setWidth_eq]

/-- A write-only register reads as zero. -/
theorem readRegister_writeOnly (h : ofs ∈ [0x000, 0x008, 0x010, 0x018, 0x020, 0x038, 0x048]) (s : State) (f : Func) :
    readRegister s f ofs = 0 := by
  simp only [List.mem_cons, List.not_mem_nil, or_false] at h
  rcases h with rfl | rfl | rfl | rfl | rfl | rfl | rfl <;> cases f <;> rfl

theorem writeOnly_low (h : ofs ∈ [0x000, 0x008, 0x010, 0x018, 0x020, 0x038, 0x048]) : ofs < 0x1000 ∧ ofs ≠ 0x030 := by
  simp only [List.mem_cons, List.not_mem_nil, or_false] at h
  omega

/-- A register of the management page returns its value, but in recovery mode to the PF of device 0 alone (R462). -/
theorem read_management (h : s.pkg.recovery = false ∨ ld = 0) (hlo : 0x1000 ≤ ofs) (hhi : ofs < 0x1100) :
    uirefuseRead (.pf ld) ofs s = s.emit (.value (BitVec.ofNat 64 (readManagement s ofs))) := by
  have hthere : (s.pkg.recovery && ld != 0) = false := by
    rcases h with h | h
    · rw [h, Bool.false_and]
    · rw [h]
      exact Bool.and_false _
  refine (if_neg (by omega)).trans ((if_pos hlo).trans ?_)
  rw [hthere]
  rfl

/-- The logical device to whose PF a tenant's drops are shown (R466). -/
def dropOwner (n : Nat) (s : State) : Option Nat := (s.queue? (s.work.tenants.get {} n).qid).map fun q => (s.vfs.get {} q.vf).dev

theorem tdropRead_of_owner {n : Nat} (hr : s.pkg.ready = true) (ho : dropOwner n s = some ld) :
    tdropRead ld n s
      = ({ s with work := { s.work with drops := s.work.drops.put 0 n 0 } } : State).emit (.value ((s.work.drops.get 0 n).zeroExtend 64)) := by
  refine if_neg (c := (!s.pkg.ready || dropOwner n s != some ld) = true) ?_
  simp [hr, ho]

theorem tdropRead_of_other {n : Nat} (h : s.pkg.ready = false ∨ dropOwner n s ≠ some ld) : tdropRead ld n s = s.emit (.value 0) := by
  refine if_pos (c := (!s.pkg.ready || dropOwner n s != some ld) = true) ?_
  simpa using h

theorem pwrcapWrite_clamps (hr : s.pkg.ready = true) (l : BitVec 16) :
    pwrcapWrite 0 l s
      = { s with pkg := { s.pkg with limit := if l.toNat < 1200 then 1200 else if 2800 < l.toNat then 2800 else l.toNat } } := by
  have hclamp : max 1200 (min 2800 l.toNat) = if l.toNat < 1200 then 1200 else if 2800 < l.toNat then 2800 else l.toNat := by
    split
    · omega
    · split <;> omega
  rw [pwrcapWrite, if_pos ⟨rfl, hr⟩, hclamp]

end

/-! ### Flips (R291, R464) -/

/-- The device has no flip in progress, and boot is complete. -/
def FlipIdle (ld : Nat) (s : State) : Prop := s.pkg.ready = true ∧ (s.pkg.flips.get {} ld).busy = false

/-- The page is exposed to the device's host, and stands on the given side. -/
def PageStands (ld page : Nat) (host : Bool) (s : State) : Prop := s.pkg.exposed.find? page = some (ld, host)

/-- FLIPSTAT of the device is as given. -/
def flipNoted (ld : Nat) (x : Flip) (s : State) : State := { s with pkg := { s.pkg with flips := s.pkg.flips.insert ld x } }

/-- The page is flipping, its translations are dropped, and FLIPSTAT is busy. -/
def flipBegun (ld page : Nat) (toHost : Bool) (s : State) : State :=
  flipNoted ld { page := page, toHost := toHost, busy := true } (dropPhysical { s with flips := s.flips ++ [page] } page)

/-- FLIPSTAT shows an error. -/
def flipRefused (ld page : Nat) (toHost : Bool) (s : State) : State :=
  flipNoted ld { s.pkg.flips.get {} ld with page := page, toHost := toHost, err := true } s

section
variable {ld page : Nat} {toHost : Bool} {s : State}

theorem flip_notIgnored (hi : FlipIdle ld s) : ¬(!s.pkg.ready || (s.pkg.flips.get {} ld).busy) = true := by
  simp [hi.1, hi.2]

theorem flipreq_begins (hi : FlipIdle ld s) (h : PageStands ld page (!toHost) s) : flipreq ld page toHost s = flipBegun ld page toHost s := by
  have hpage : s.pkg.exposed.find? page = some (ld, !toHost) := h
  refine (if_neg (flip_notIgnored hi)).trans ?_
  rw [hpage]
  exact if_pos ⟨rfl, Bool.not_ne_self toHost⟩

theorem flipreq_refused (hi : FlipIdle ld s) (h : ¬PageStands ld page (!toHost) s) : flipreq ld page toHost s = flipRefused ld page toHost s := by
  refine (if_neg (flip_notIgnored hi)).trans ?_
  split
  · rename_i d host hpage
    refine if_neg fun ⟨hd, hside⟩ => h ?_
    rw [PageStands, hpage, hd, Bool.eq_not_of_ne hside]
  · rfl

/-- The flip is done: the page is on the other side, and no cache holds its lines. -/
def flipFinished (ld : Nat) (s : State) : State :=
  let x := s.pkg.flips.get {} ld
  let t := llcDrop s fun line => line / 64 == x.page
  { t with l1 := s.l1.filter (fun l => l.line / 64 != x.page), flips := s.flips.filter (· != x.page)
           pkg := { s.pkg with exposed := s.pkg.exposed.insert x.page (ld, x.toHost)
                               flips := s.pkg.flips.insert ld { x with busy := false, done := true } } }

theorem flipDone_of_still (hb : (s.pkg.flips.get {} ld).busy = true) (hp : pageBusy s (s.pkg.flips.get {} ld).page = false) :
    flipDone ld s = some (flipFinished ld s) := by
  simp only [flipDone, hb, hp, Bool.not_true, Bool.or_self, Bool.false_eq_true, if_false]
  rfl

/-- What O45 states of a flip that is done. -/
theorem flipFinished_keeps (ld : Nat) (s : State) :
    (flipFinished ld s).pkg.exposed.find? (s.pkg.flips.get {} ld).page = some (ld, (s.pkg.flips.get {} ld).toHost)
      ∧ (flipFinished ld s).pkg.flips.find? ld = some { s.pkg.flips.get {} ld with busy := false, done := true }
      ∧ (s.pkg.flips.get {} ld).page ∉ (flipFinished ld s).flips ∧ (flipFinished ld s).mem = s.mem ∧ (flipFinished ld s).warps = s.warps :=
  ⟨SMap.find?_insert_self .., SMap.find?_insert_self .., by simp [flipFinished], rfl, rfl⟩

end

/-! ### Accesses from outside (R262, R290, R457) -/

/-- The bytes stand at an address, and every other byte is as it was. -/
def BytesWritten (a : Nat) (bs : List Byte) (s t : State) : Prop :=
  (∀ i < bs.length, t.byte (a + i) = bs.getD i 0) ∧ ∀ b, (b < a ∨ a + bs.length ≤ b) → t.byte b = s.byte b

theorem bytesWritten_agentWrite (s : State) (a : Nat) (bs : List Byte) : BytesWritten a bs s (agentWrite s a bs) := by
  refine ⟨fun i hi => ?_, fun b hb => ?_⟩
  · rw [byte_agentWrite, if_pos (by omega), Nat.add_sub_cancel_left]
  · rw [byte_agentWrite, if_neg (by omega)]

/-- Lines that leave the LLC leave every byte; no data write none. -/
theorem bytesWritten_hostSnoop (ld a : Nat) (bs : List Byte) (s : State) : BytesWritten (hostKey ld a) bs s (hostSnoop ld a bs s) := by
  unfold hostSnoop
  simp only
  split
  · rename_i h
    obtain rfl := List.isEmpty_iff.1 h
    exact ⟨fun i hi => absurd hi (Nat.not_lt_zero i), fun _ _ => rfl⟩
  · exact bytesWritten_agentWrite (llcDrop s _) (hostKey ld a) bs

section
variable {qp vf asid va n : Nat} {s t : State}

theorem execRdmaAccess_of_still (hf : s.flips = []) (x : OuterAccess) :
    execRdmaAccess qp vf asid va x s = .next (rdmaAccess qp vf asid va x s) := runEventFlip_of_some hf rfl

/-- The queue pair is one of the 65,536, and not in error. -/
theorem qpUsable (he : qp ∉ s.pkg.errorQps) (hq : qp < 65536) : ¬(s.pkg.errorQps.contains qp = true ∨ 65536 ≤ qp) := by
  rintro (h | h)
  · exact he (List.contains_iff_mem.1 h)
  · omega

theorem rdmaAccess_reads {bs : List Byte} (he : qp ∉ s.pkg.errorQps) (hq : qp < 65536)
    (hr : queueRead s { vf := vf, asid := asid } va n = (t, .ok bs)) : rdmaAccess qp vf asid va (.read n) s = t.emit (.bytes bs) := by
  simp only [rdmaAccess, if_neg (qpUsable he hq), hr]

theorem rdmaAccess_fails {e : FaultCode × Nat} (he : qp ∉ s.pkg.errorQps) (hq : qp < 65536)
    (hr : queueRead s { vf := vf, asid := asid } va n = (t, .error e)) :
    rdmaAccess qp vf asid va (.read n) s
      = ({ t with pkg := { t.pkg with errorQps := NSet.insert t.pkg.errorQps qp } } : State).emit (.nak qp) := by
  simp only [rdmaAccess, if_neg (qpUsable he hq), hr]

theorem rdmaAccess_ignored (he : qp ∈ s.pkg.errorQps) (x : OuterAccess) : rdmaAccess qp vf asid va x s = s :=
  if_pos (.inl (List.contains_iff_mem.2 he))

end

/-- Settles O45: each input is computed on its state. -/
theorem hostRegistersAndAccesses : Obligations.HostRegistersAndAccesses := by
  unfold Obligations.HostRegistersAndAccesses
  refine ⟨?wellFormed, ?malformed, ?ignored, ?svcBase, ?refuse, ?trapCi, ?scanCi, ?svcBaseRead, ?flipStat, ?writeOnly, ?bootStat, ?pkgNo, ?pwrCap,
    ?drops, ?noDrops, ?clamp, ?otherCap, ?toHost, ?toDevice, ?toHostErr, ?toDeviceErr, ?flipDone, ?snoop, ?cxlWrite, ?cxlRead, ?cxlHidden,
    ?peerWrite, ?peerRead, ?peerSend, ?rdmaRead, ?rdmaNak, ?rdmaError⟩
  case wellFormed =>
    exact fun f ofs n v s ⟨hf, hr, hat⟩ => (execRegisterWrite_of_still hf).trans (congrArg _ (registerWrite_of_wellFormed hr hat))
  case malformed =>
    exact fun f ofs n v a k s ⟨hf, hr, hat, h⟩ => (execRegisterWrite_of_still hf).trans (congrArg _ (registerWrite_of_malformed hr hat h))
  case ignored => exact fun f ofs n v s ⟨hf, h⟩ => (execRegisterWrite_of_still hf).trans (congrArg _ (registerWrite_of_ignored h))
  case svcBase =>
    refine fun f v s ⟨hf, ht⟩ => ⟨_, (execRegisterWrite_of_still hf).trans (congrArg _ (registerWrite_svcBase ht)), ?_, rfl, rfl, rfl⟩
    rw [func_modFunc]
  case refuse => exact fun f s hr => congrArg Host.Outcome.next (read_refuse hr f)
  case trapCi => exact fun f s hr => congrArg Host.Outcome.next (read_trapCi hr f)
  case scanCi => exact fun f s hr => congrArg Host.Outcome.next (read_scanCi hr f)
  case svcBaseRead => exact fun f s hr => congrArg Host.Outcome.next (read_svcBase hr f)
  case flipStat => exact fun ld s hr => congrArg Host.Outcome.next (read_register (ofs := 0x040) hr (by decide) (by decide) (.pf ld))
  case writeOnly =>
    intro f ofs s ⟨hr, h⟩
    obtain ⟨hlow, hne⟩ := writeOnly_low h
    refine congrArg Host.Outcome.next ((read_register hr hlow hne f).trans ?_)
    rw [readRegister_writeOnly h]
    rfl
  case bootStat => exact fun ld s h => congrArg Host.Outcome.next (read_management (ofs := 0x1000) h (by decide) (by decide))
  case pkgNo => exact fun ld s h => congrArg Host.Outcome.next (read_management (ofs := 0x1008) h (by decide) (by decide))
  case pwrCap => exact fun ld s h => congrArg Host.Outcome.next (read_management (ofs := 0x1010) h (by decide) (by decide))
  case drops => exact fun ld n s ⟨hr, ho⟩ => congrArg Host.Outcome.next (tdropRead_of_owner hr ho)
  case noDrops => exact fun ld n s h => congrArg Host.Outcome.next (tdropRead_of_other h)
  case clamp => exact fun l s hr => congrArg Host.Outcome.next (pwrcapWrite_clamps hr l)
  case otherCap => exact fun ld l s h => congrArg Host.Outcome.next (if_neg fun ⟨h0, _⟩ => h h0)
  case toHost => exact fun ld p s ⟨hi, h⟩ => congrArg Host.Outcome.next (flipreq_begins (toHost := true) hi h)
  case toDevice => exact fun ld p s ⟨hi, h⟩ => congrArg Host.Outcome.next (flipreq_begins (toHost := false) hi h)
  case toHostErr => exact fun ld p s ⟨hi, h⟩ => congrArg Host.Outcome.next (flipreq_refused (toHost := true) hi h)
  case toDeviceErr => exact fun ld p s ⟨hi, h⟩ => congrArg Host.Outcome.next (flipreq_refused (toHost := false) hi h)
  case flipDone => exact fun ld s ⟨hb, hp⟩ => ⟨_, runEvent_of_some (flipDone_of_still hb hp), flipFinished_keeps ld s⟩
  case snoop => exact fun ld a bs s _ => ⟨_, rfl, bytesWritten_hostSnoop ld a bs s⟩
  case cxlWrite => exact fun ld a bs s h => ⟨_, congrArg Host.Outcome.next (if_pos h), bytesWritten_agentWrite s a bs⟩
  case cxlRead => exact fun ld a n s h => congrArg Host.Outcome.next (if_pos h)
  case cxlHidden => exact fun ld a x s h => congrArg Host.Outcome.next (if_neg (Bool.eq_false_iff.1 h))
  case peerWrite => exact fun p a bs s h => ⟨_, congrArg Host.Outcome.next (if_pos h), bytesWritten_agentWrite s a bs⟩
  case peerRead => exact fun p a n s h => congrArg Host.Outcome.next (if_pos h)
  case peerSend => exact fun p asid vf target v pay s _ => rfl
  case rdmaRead =>
    exact fun qp vf asid va n t bs s ⟨hf, he, hq, hr⟩ =>
      (execRdmaAccess_of_still hf _).trans (congrArg _ (rdmaAccess_reads he hq hr))
  case rdmaNak =>
    exact fun qp vf asid va n t e s ⟨hf, he, hq, hr⟩ =>
      (execRdmaAccess_of_still hf _).trans (congrArg _ (rdmaAccess_fails he hq hr))
  case rdmaError => exact fun qp vf asid va x s ⟨hf, he⟩ => (execRdmaAccess_of_still hf _).trans (congrArg _ (rdmaAccess_ignored he x))

end Sys2Proof.Machine
end

section
/-!
PROOF. Services of queues, ports and tables (O47).
-/

namespace Sys2Proof.Machine

/-! ### The frame of a service (R440, R469) -/

section
variable {svc st : Nat} {r : SvcReq} {f : State → Served} {s t : State} {res : List Word64}

/-- A request that is new and well-formed, and that the mode of the package lets through, comes to what its service says. -/
theorem serve_of_new (hlog : s.sys.log.find? (logKey r) = none) (hc : r.clean = true) (hm : s.pkg.recovery = true → svc = 0xF0) :
    serve svc r f s
      = match f (taken r s) with
        | .refuse st => answer (taken r s) r svc st []
        | .ok t res => answer t r svc 0 res
        | .later t => t := by
  have hlog' : (taken r s).sys.log.find? (logKey r) = none := hlog
  have hmode : ((taken r s).pkg.recovery && svc != 0xF0) = false := by
    cases hrec : s.pkg.recovery with
    | false => exact congrArg (· && svc != 0xF0) hrec
    | true => rw [hm hrec]; exact Bool.and_false _
  change (match (taken r s).sys.log.find? (logKey r) with | some bs => _ | none => _) = _
  rw [hlog']
  refine (if_neg (by rw [hc]; decide)).trans ((if_neg (Bool.eq_false_iff.1 hmode)).trans ?_)
  rfl

theorem serve_of_ok (hlog : s.sys.log.find? (logKey r) = none) (hc : r.clean = true) (hm : s.pkg.recovery = true → svc = 0xF0)
    (h : f (taken r s) = .ok t res) : serve svc r f s = answer t r svc 0 res := by rw [serve_of_new hlog hc hm, h]

theorem serve_of_refuse (hlog : s.sys.log.find? (logKey r) = none) (hc : r.clean = true) (hm : s.pkg.recovery = true → svc = 0xF0)
    (h : f (taken r s) = .refuse st) : serve svc r f s = answer (taken r s) r svc st [] := by rw [serve_of_new hlog hc hm, h]

end

section
variable {run : Run} {svc st : Nat} {r : SvcReq} {f : State → Served} {when_ : State → Prop} {effect : State → State}
  {res : State → List Word64}

/-- A run of the frame serves the request where its service gives a state and results. -/
theorem serves_of_ok (hrun : ∀ s, when_ (taken r s) → run s = .next (serve svc r f s)) (h : ∀ s, when_ s → f s = .ok (effect s) (res s)) :
    Serves run svc r when_ effect res := fun s hlog hc hm hw =>
  (hrun s hw).trans (congrArg _ (serve_of_ok hlog hc hm (h _ hw)))

theorem refuses_of_refuse (hrun : ∀ s, run s = .next (serve svc r f s)) (h : ∀ s, when_ s → f s = .refuse st) :
    Refuses run svc r when_ st := fun s hlog hc hm hw => (hrun s).trans (congrArg _ (serve_of_refuse hlog hc hm (h _ hw)))

end

/-! ### The checks of a service (R470) -/

section
variable {ok : Bool} {f : Served} {g : Nat → Served} {r : SvcReq} {s : State} {vf asid : Nat}

theorem whenArgs_of (h : ok = true) : whenArgs ok f = f := if_pos h

theorem whenAllowed_of (h : ok = true) : whenAllowed ok f = f := if_pos h

theorem whenAllowed_of_not (h : ok = false) : whenAllowed ok f = .refuse 4 := if_neg (Bool.eq_false_iff.1 h)

theorem whenUnlocked_of (h : s.configLocked vf = false) : whenUnlocked s vf f = f := if_neg (Bool.eq_false_iff.1 h)

theorem withAsid_of (h : vfOfAsid r s asid = some vf) : withAsid r s asid g = g vf := by rw [withAsid, h]

end

/-! ### Queues (R365, R372) -/

/-- The arguments of QCREATE are well formed. -/
def QueueArgs (r : SvcReq) : Prop :=
  onlyFields r.a5 [(0, 16), (16, 8), (24, 4), (32, 4), (40, 5), (48, 2)] = true ∧ argBits r.a5 40 5 ≤ 16 ∧ r.a0.toNat % 4096 = 0
    ∧ r.a1.toNat % 4096 = 0 ∧ r.a2.toNat % 4096 = 0 ∧ r.a4.toNat % 4096 = 0

/-- The VF of the queue that QCREATE makes. -/
def queueVf (r : SvcReq) : Nat := vfArg r (argBits r.a5 16 8)

/-- The queue that QCREATE makes. -/
def newQueue (r : SvcReq) : Queue :=
  { ring := r.a0, arena := r.a1, arenasz := r.a2.toNat, call := r.a3, land_ := r.a4, nodeq := argBits r.a5 48 2, asid := argBits r.a5 0 16
    vf := queueVf r, davail := BitVec.ofNat 4 (argBits r.a5 24 4), live := true, rlog := argBits r.a5 40 5, priocap := argBits r.a5 32 4 }

section
variable {r : SvcReq} {s : State}

theorem QueueArgs.checked (h : QueueArgs r) :
    (onlyFields r.a5 [(0, 16), (16, 8), (24, 4), (32, 4), (40, 5), (48, 2)] && decide (argBits r.a5 40 5 ≤ 16) && r.a0.toNat % 4096 == 0
      && r.a1.toNat % 4096 == 0 && r.a2.toNat % 4096 == 0 && r.a4.toNat % 4096 == 0) = true := by
  obtain ⟨hfields, hlog, hring, harena, hsize, hland⟩ := h
  simp [hfields, hlog, hring, harena, hsize, hland]

theorem qcreate_ok {n : Nat} (ha : QueueArgs r) (hu : mayUse r s (queueVf r) = true) (ho : s.configLocked (queueVf r) = false)
    (hn : freeQueue s = some n) :
    qcreate r s = .ok { s with work := { s.work with queues := s.work.queues.insert n (newQueue r) } } [BitVec.ofNat 64 n] := by
  refine (whenArgs_of ha.checked).trans ((whenAllowed_of hu).trans ((whenUnlocked_of ho).trans ?_))
  rw [hn]
  rfl

theorem qcreate_denied (ha : QueueArgs r) (hu : mayUse r s (queueVf r) = false) : qcreate r s = .refuse 4 :=
  (whenArgs_of ha.checked).trans (whenAllowed_of_not hu)

theorem qdestroy_ok {q : Queue} (ha : argsEndAt r 1 = true) (hn : r.a0.toNat < 65536) (hq : s.queue? r.a0.toNat = some q) (hl : q.live = true)
    (hu : mayUse r s q.vf = true) (ho : s.configLocked q.vf = false) : qdestroy r s = .ok (destroyQueue s r.a0.toNat) [] := by
  have hlive : (s.queue? r.a0.toNat).filter (·.live) = some q := by rw [hq, Option.filter_some, if_pos hl]
  refine (whenArgs_of (by simp [ha, hn])).trans ?_
  rw [hlive]
  exact (whenAllowed_of hu).trans (whenUnlocked_of ho)

end

/-! ### Ports (R389, R391) -/

/-- The warps of an address space, which may hold its port's vectors. -/
def portHolders (vf asid : Nat) (s : State) : List (Nat × Warp) :=
  s.warps.filter fun x => x.2.kind == .ordinary && x.2.vf == vf && x.2.asid == asid

/-- The handlers of the address space have lost their pending vectors, unless the record of one cannot be read. -/
def portUnpended (vf asid : Nat) (s : State) : Except State State :=
  (portHolders vf asid s).foldl (fun (a : Except State State) x => match a with | .ok s => dropPending s x.1 x.2 | .error s => .error s) (.ok s)

/-- The entry that PERMWRITE writes. -/
def permEntry (r : SvcReq) : Perm :=
  { vmask := r.a1, cls := BitVec.ofNat 8 (argBits r.a2 0 8), id := BitVec.ofNat 48 (argBits r.a2 16 48) }

/-- The sender number of PERMWRITE fits its class. -/
def PermIdFits (r : SvcReq) : Prop :=
  (argBits r.a2 0 2 = 1 → argBits r.a2 16 48 < 2 ^ 24) ∧ (argBits r.a2 0 2 = 2 → argBits r.a2 16 48 < 2 ^ 25)
    ∧ (argBits r.a2 0 2 = 3 → argBits r.a2 16 48 < 2 ^ 16)

section
variable {r : SvcReq} {s t : State} {vf : Nat} {p : Port}

theorem portcreate_ok (ha : argsEndAt r 1 = true) (hf : onlyFields r.a0 [(0, 16)] = true) (hv : vfOfAsid r s r.a0.toNat = some vf)
    (ho : s.configLocked vf = false) (hp : s.port? vf r.a0.toNat = none) :
    portcreate r s = .ok { s with ui := { s.ui with ports := s.ui.ports.insert (State.spaceKey vf r.a0.toNat) {} } } [] := by
  refine (whenArgs_of (by rw [ha, hf]; rfl)).trans ((withAsid_of hv).trans ((whenUnlocked_of ho).trans (if_neg ?_)))
  rw [hp]
  decide

theorem portdestroy_ok (ha : argsEndAt r 1 = true) (hf : onlyFields r.a0 [(0, 16)] = true) (hv : vfOfAsid r s r.a0.toNat = some vf)
    (ho : s.configLocked vf = false) (hp : s.port? vf r.a0.toNat = some p) (hd : portUnpended vf r.a0.toNat s = .ok t) :
    portdestroy r s = .ok { t with ui := { t.ui with ports := t.ui.ports.erase (State.spaceKey vf r.a0.toNat) } } [] := by
  refine (whenArgs_of (by rw [ha, hf]; rfl)).trans ((withAsid_of hv).trans ((whenUnlocked_of ho).trans ((if_neg ?_).trans ?_)))
  · rw [hp]
    exact Bool.false_ne_true
  · change (match portUnpended vf r.a0.toNat s with | .error _ => _ | .ok s => _) = _
    rw [hd]

/-- The class of PERMWRITE's entry is the low two bits of its byte. -/
theorem class_mod (a : Word64) : argBits a 0 8 % 4 = argBits a 0 2 := by
  simp only [argBits]
  omega

theorem PermIdFits.checked (h : PermIdFits r) :
    (match argBits r.a2 0 8 % 4 with
      | 1 => decide (argBits r.a2 16 48 < 2 ^ 24) | 2 => decide (argBits r.a2 16 48 < 2 ^ 25) | 3 => decide (argBits r.a2 16 48 < 2 ^ 16)
      | _ => true) = true := by
  obtain ⟨h1, h2, h3⟩ := h
  rw [class_mod]
  split
  · exact decide_eq_true (h1 ‹_›)
  · exact decide_eq_true (h2 ‹_›)
  · exact decide_eq_true (h3 ‹_›)
  · rfl

theorem permwrite_ok (ha : argsEndAt r 3 = true) (h0 : onlyFields r.a0 [(0, 16), (16, 6)] = true)
    (h2 : onlyFields r.a2 [(0, 2), (7, 1), (16, 48)] = true) (hid : PermIdFits r) (hv : vfOfAsid r s (argBits r.a0 0 16) = some vf)
    (ho : s.configLocked vf = false) (hp : s.port? vf (argBits r.a0 0 16) = some p) :
    permwrite r s
      = .ok (s.modPort vf (argBits r.a0 0 16) fun p => { p with perms := p.perms.insert (argBits r.a0 16 6) (permEntry r) }) [] := by
  refine (whenArgs_of ?_).trans ((withAsid_of hv).trans ((whenUnlocked_of ho).trans (if_neg ?_)))
  · rw [ha, h0, h2]
    exact hid.checked
  · rw [hp]
    exact Bool.false_ne_true

end

/-! ### Tenants and rings (R375, R467) -/

/-- The 64 bytes of the host that TENANTWRITE reads. -/
def tenantBytes (r : SvcReq) (s : State) : List Byte := s.bytes (hostKey (s.deviceOf r.caller) r.a1.toNat) 64

/-- The entry that TENANTWRITE writes. -/
def newTenant (r : SvcReq) (s : State) : Tenant := parseTenant (tenantBytes r s) (s.work.tenants.get {} r.a0.toNat).lastseq

/-- The VF of the ring that RINGCFG sets. -/
def ringVf (r : SvcReq) : Nat := vfArg r (argBits r.a0 8 8)

/-- The arguments of RINGCFG are well formed. -/
def RingArgs (r : SvcReq) : Prop :=
  argsEndAt r 3 = true ∧ onlyFields r.a0 [(0, 2), (8, 8)] = true ∧ argBits r.a0 0 2 ≠ 3 ∧ r.a1.toNat % 4096 = 0
    ∧ onlyFields r.a2 [(0, 4), (8, 8)] = true
    ∧ (r.a1 = 0 ∨ if argBits r.a0 0 2 = 0 then argBits r.a2 0 4 = 0 else 4 ≤ argBits r.a2 0 4 ∧ argBits r.a2 0 4 ≤ 12)

/-- The rings after RINGCFG: at a base of zero the ring is gone. -/
def ringsSet (r : SvcReq) (s : State) : State :=
  { s with rings := if r.a1 = 0 then s.rings.erase (4 * ringVf r + argBits r.a0 0 2)
      else s.rings.insert (4 * ringVf r + argBits r.a0 0 2) { base := r.a1.toNat, log := argBits r.a2 0 4, vec := argBits r.a2 8 8 } }

section
variable {r : SvcReq} {s : State} {q : Queue}

/-- The entry replaced names no queue, so it asks nothing of the caller. -/
theorem tenantwrite_ok (ha : argsEndAt r 2 = true) (hf : onlyFields r.a0 [(0, 8)] = true) (hflag : numAt (tenantBytes r s) 18 1 < 2)
    (hz : (((tenantBytes r s).drop 46).all fun b => b == 0) = true) (hpf : fromPf r = true) (hq : s.queue? (newTenant r s).qid = some q)
    (hu : mayUse r s q.vf = true) (ho : s.configLocked q.vf = false) (hold : (s.work.tenants.get {} r.a0.toNat).flags.getLsbD 0 = false) :
    tenantwrite r s = .ok { s with work := { s.work with tenants := s.work.tenants.insert r.a0.toNat (newTenant r s) } } [] := by
  have hvf : (s.queue? (newTenant r s).qid).map (·.vf) = some q.vf := by rw [hq, Option.map_some]
  refine (whenArgs_of (ok := argsEndAt r 2 && onlyFields r.a0 [(0, 8)] && numAt (tenantBytes r s) 18 1 < 2
    && ((tenantBytes r s).drop 46).all fun b => b == 0) ?_).trans ?_
  · rw [ha, hf, decide_eq_true hflag]
    exact hz
  refine (whenAllowed_of ?_).trans ((if_neg ?_).trans (if_neg ?_))
  · change (_ && (((s.queue? (newTenant r s).qid).map (·.vf)).map (mayUse r s)).getD true && _) = true
    rw [hvf, hpf, hold]
    exact congrArg (· && true) hu
  · change ¬(_ && ((s.queue? (newTenant r s).qid).map (·.vf)).isNone) = true
    rw [hvf]
    simp
  · change ¬((((s.queue? (newTenant r s).qid).map (·.vf)).map s.configLocked).getD false || _) = true
    rw [hvf, hold]
    simp [ho]

theorem RingArgs.checked (h : RingArgs r) :
    (argsEndAt r 3 && onlyFields r.a0 [(0, 2), (8, 8)] && argBits r.a0 0 2 != 3 && r.a1.toNat % 4096 == 0 && onlyFields r.a2 [(0, 4), (8, 8)]
      && (r.a1 == 0 || (if argBits r.a0 0 2 = 0 then argBits r.a2 0 4 == 0 else decide (4 ≤ argBits r.a2 0 4) && decide (argBits r.a2 0 4 ≤ 12))))
      = true := by
  obtain ⟨hend, h0, hkind, hbase, h2, hlog⟩ := h
  simpa [hend, h0, hkind, hbase, h2] using hlog

theorem ringcfg_ok (ha : RingArgs r) (hu : mayUse r s (ringVf r) = true) (ho : s.configLocked (ringVf r) = false) :
    ringcfg r s = .ok (ringsSet r s) [] := by
  refine (whenArgs_of ha.checked).trans ((whenAllowed_of hu).trans ((whenUnlocked_of ho).trans ?_))
  unfold ringsSet
  split <;> rfl

theorem ringcfg_denied (ha : RingArgs r) (hu : mayUse r s (ringVf r) = false) : ringcfg r s = .refuse 4 :=
  (whenArgs_of ha.checked).trans (whenAllowed_of_not hu)

end

/-! ### Translation and devices (R268, R439, R456) -/

/-- The VF of the address space that ASIDSET sets. -/
def spaceVf (r : SvcReq) : Nat := vfArg r (argBits r.a0 16 8)

/-- The root of the address space is set, or the space is gone, and its translations are dropped. -/
def spaceSet (r : SvcReq) (s : State) : State :=
  let k := State.spaceKey (spaceVf r) (argBits r.a0 0 16)
  let old := (s.spaces.find? k).getD { vf := spaceVf r, asid := argBits r.a0 0 16, root := 0 }
  invalidate { s with spaces := if r.a1 = 0 then s.spaces.erase k else s.spaces.insert k { old with root := r.a1.truncate 52 } }
    (· == spaceVf r) (· == argBits r.a0 0 16) fun _ _ => true

/-- The second stage of the VF is set, and its translations are dropped. -/
def stage2Set (r : SvcReq) (s : State) : State :=
  let vf := argBits r.a0 0 8
  invalidate { s with vfs := s.vfs.insert vf { s.vfs.get {} vf with s2en := r.a0.getLsbD 8, s2root := r.a1.truncate 52 } }
    (· == vf) (fun _ => true) fun _ _ => true

section
variable {r : SvcReq} {s : State}

theorem asidset_ok (ha : argsEndAt r 2 = true) (hf : onlyFields r.a0 [(0, 16), (16, 8)] = true) (hr : rootOk r.a1 = true)
    (hn : argBits r.a0 0 16 ≠ 0xFFFF) (hu : mayUse r s (spaceVf r) = true) : asidset r s = .ok (spaceSet r s) [] := by
  refine (whenArgs_of ?_).trans ((whenAllowed_of hu).trans rfl)
  rw [ha, hf, hr]
  exact bne_iff_ne.2 hn

theorem s2set_ok (ha : argsEndAt r 2 = true) (hf : onlyFields r.a0 [(0, 9)] = true) (hr : rootOk r.a1 = true) (hpf : fromPf r = true)
    (hu : mayUse r s (argBits r.a0 0 8) = true) : s2set r s = .ok (stage2Set r s) [] :=
  (whenArgs_of (by rw [ha, hf, hr]; rfl)).trans ((whenAllowed_of (by rw [hpf, hu]; rfl)).trans rfl)

theorem vfassign_ok (ha : argsEndAt r 1 = true) (hf : onlyFields r.a0 [(0, 12)] = true) (hpf : r.caller = .pf 0)
    (ho : s.configLocked (argBits r.a0 0 8) = false) :
    vfassign r s
      = .ok { s with vfs := s.vfs.insert (argBits r.a0 0 8) { s.vfs.get {} (argBits r.a0 0 8) with dev := argBits r.a0 8 4 } } [] :=
  (whenArgs_of (by rw [ha, hf]; rfl)).trans ((whenAllowed_of (beq_iff_eq.2 hpf)).trans (whenUnlocked_of ho))

theorem rateset_ok (ha : argsEndAt r 2 = true) (h0 : onlyFields r.a0 [(0, 5), (8, 8)] = true)
    (h1 : onlyFields r.a1 [(0, 16), (24, 16)] = true) (hpf : fromPf r = true) (hu : mayUse r s (argBits r.a0 8 8) = true) :
    rateset r s
      = .ok { s with sys := { s.sys with
          limits := s.sys.limits.put 0 (limitKey (argBits r.a0 3 2 * 8 + argBits r.a0 0 3) (argBits r.a0 8 8)) r.a1 } } [] :=
  (whenArgs_of (by rw [ha, h0, h1]; rfl)).trans (whenAllowed_of (by rw [hpf, hu]; rfl))

end

/-- Settles O47: each service passes its checks, and the frame replies with what it gives. -/
theorem servicesOfQueuesPortsAndTables : Obligations.ServicesOfQueuesPortsAndTables := by
  unfold Obligations.ServicesOfQueuesPortsAndTables
  refine ⟨?qcreate, ?qcreateDenied, ?qdestroy, ?portcreate, ?portdestroy, ?permwrite, ?tenantwrite, ?ringcfg, ?ringcfgDenied, ?asidset, ?s2set,
    ?vfassign, ?rateset⟩
  case qcreate => exact fun r n => serves_of_ok (fun _ _ => rfl) fun s ⟨ha, hu, ho, hn⟩ => qcreate_ok ha hu ho hn
  case qcreateDenied => exact fun r => refuses_of_refuse (fun _ => rfl) fun s ⟨ha, hu⟩ => qcreate_denied ha hu
  case qdestroy =>
    exact fun r q => serves_of_ok (fun s ⟨hflips, _⟩ => runEventFlip_of_some hflips rfl) fun s ⟨_, ha, hn, hq, hl, hu, ho⟩ =>
      qdestroy_ok ha hn hq hl hu ho
  case portcreate =>
    exact fun r vf => serves_of_ok (fun _ _ => rfl) fun s ⟨⟨ha, hv, ho⟩, hf, hp⟩ => portcreate_ok ha hf hv ho hp
  case portdestroy =>
    refine fun r vf p => serves_of_ok (fun s ⟨hflips, _⟩ => runEventFlip_of_some hflips rfl) fun s ⟨_, ⟨ha, hv, ho⟩, hf, hp, t, hd⟩ => ?_
    simp only [hd]
    exact portdestroy_ok ha hf hv ho hp hd
  case permwrite =>
    exact fun r vf p => serves_of_ok (fun _ _ => rfl) fun s ⟨⟨ha, hv, ho⟩, ⟨h0, h2, hid⟩, hp⟩ => permwrite_ok ha h0 h2 hid hv ho hp
  case tenantwrite =>
    exact fun r q => serves_of_ok (fun _ _ => rfl) fun s ⟨ha, hf, hflag, hz, hpf, hq, hu, ho, hold⟩ =>
      tenantwrite_ok ha hf hflag hz hpf hq hu ho hold
  case ringcfg => exact fun r => serves_of_ok (fun _ _ => rfl) fun s ⟨ha, hu, ho⟩ => ringcfg_ok ha hu ho
  case ringcfgDenied => exact fun r => refuses_of_refuse (fun _ => rfl) fun s ⟨ha, hu⟩ => ringcfg_denied ha hu
  case asidset => exact fun r => serves_of_ok (fun _ _ => rfl) fun s ⟨ha, hf, hr, hn, hu⟩ => asidset_ok ha hf hr hn hu
  case s2set => exact fun r => serves_of_ok (fun _ _ => rfl) fun s ⟨ha, hf, hr, hpf, hu⟩ => s2set_ok ha hf hr hpf hu
  case vfassign => exact fun r => serves_of_ok (fun _ _ => rfl) fun s ⟨ha, hf, hpf, ho⟩ => vfassign_ok ha hf hpf ho
  case rateset => exact fun r => serves_of_ok (fun _ _ => rfl) fun s ⟨ha, h0, h1, hpf, hu⟩ => rateset_ok ha h0 h1 hpf hu

end Sys2Proof.Machine
end

section
/-!
SUPPORT. Conditions that prepared states share, and waits that end at once where nothing is pending (R300, R302).
-/

namespace Sys2Proof.Machine

/-! ### Conditions of a state that its warps do not bear on -/

/-- The condition does not read the warps: it goes over to other warps as it stands, which the rules below try by default. -/
def IgnoresWarps (p : Ctx → State → Prop) : Prop := ∀ c s ws, p c s → p c (s.withWarps ws)

section
variable {opc : Nat} {f : Form} {body : Ctx → State → Res} {when_ : Ctx → State → Prop}

/-- Taking slots into use changes only warps (R347). -/
theorem IgnoresWarps.prepare {p : Ctx → State → Prop} {c : Ctx} {s : State} (hp : IgnoresWarps p) (h : p c s) : p c (prepare c s) := by
  rw [prepare_eq]
  exact hp c s _ h

theorem completes_of_ignoresWarps {next : Ctx → State → State} (hb : ∀ {c s}, when_ c s → body c s = .done (next c s))
    (hp : IgnoresWarps when_ := by exact fun _ _ _ h => h) : Completes (runIop opc f body) opc f when_ next :=
  completes_of_body fun _ _ _ h => hb (hp.prepare h)

theorem waits_of_ignoresWarps {next : Ctx → State → State} {wait : Ctx → State → Wait}
    (hb : ∀ {c s}, when_ c s → body c s = .wait (next c s) (wait c s))
    (hp : IgnoresWarps when_ := by exact fun _ _ _ h => h) : Waits (runIop opc f body) opc f when_ next wait :=
  waits_of_body fun _ _ _ h => hb (hp.prepare h)

theorem faults_of_ignoresWarps {code : FaultCode} {info : Ctx → Word64} (hb : ∀ {c s}, when_ c s → body c s = .trap code (info c))
    (hp : IgnoresWarps when_ := by exact fun _ _ _ h => h) : Faults (runIop opc f body) opc f when_ code fun c _ => info c :=
  faults_of_body fun _ _ _ h => hb (hp.prepare h)

end

/-! ### Nothing is pending -/

section
variable {c : Ctx} {s : State}

theorem afterReads_of_none (h : pendingReads s c.w c.path.lmask = []) (f : Unit → Res) : afterReads c s f = f () := by
  simp only [afterReads, h]

/-- A release goes on from its boundary where no store waits to perform (R300). -/
theorem releaseThen_of_quiet (h : Quiet s c) (sc : Scope) (f : State → Res) :
    releaseThen c s sc f = f (boundary s c.warp.core sc) := by
  obtain ⟨hwait, -, hheld⟩ := h
  simp only [releaseThen, hwait, publishedWids_of_none (held_boundary_of_none hheld ..)]

theorem allDone_nil (s : State) : allDone s [] [] = true := by simp [allDone]

/-- Atomics in flight of the path are reads of it. -/
theorem atomicsOf_of_no_reads {w : Nat} {lanes : BitVec 32} (h : pendingReads s w lanes = []) :
    atomicsOf s (fun r => r.warp == w && (r.lanes &&& lanes) != 0) = [] := by
  have hnone := List.filter_eq_nil_iff.1 (List.map_eq_nil_iff.1 h)
  refine List.map_eq_nil_iff.2 (List.filter_eq_nil_iff.2 fun r hr hatomic => hnone r hr ?_)
  exact (Bool.and_eq_true_iff.1 hatomic).1

end

end Sys2Proof.Machine
end

section
/-!
PROOF. Phases and fences (O20).
-/

namespace Sys2Proof.Machine

/-- The guard holds in the lowest lane, and nothing is pending. -/
def OnQuiet (c : Ctx) (s : State) : Prop := c.guard0 = true ∧ Quiet s c

section
variable {c : Ctx} {s : State}

theorem phaseBody_of_quiet (h : OnQuiet c s) : phaseBody c s = .done (publishAndRefresh c s) := by
  obtain ⟨hon, -, hreads, -⟩ := h
  rw [phaseBody, oncePerPath_on hon, afterReads_of_none hreads]

/-! ### FENCE by its kind (R302) -/

theorem fenceBody_sc (h : OnQuiet c s ∧ c.f.fc.toNat = 0) : fenceBody c s = .done (publishAndRefresh c s) := by
  obtain ⟨⟨hon, hq⟩, hkind⟩ := h
  simp only [fenceBody, oncePerPath_on hon, hkind]
  exact seqCst_of_quiet hq _

theorem fenceBody_acq (h : OnQuiet c s ∧ c.f.fc.toNat = 1) : fenceBody c s = .done (refresh s c.warp.core c.scope) := by
  obtain ⟨⟨hon, -, hreads, -⟩, hkind⟩ := h
  simp only [fenceBody, oncePerPath_on hon, hkind, afterReads_of_none hreads]

theorem fenceBody_rel (h : OnQuiet c s ∧ c.f.fc.toNat = 2) : fenceBody c s = .done (holdLater c (boundary s c.warp.core c.scope)) := by
  obtain ⟨⟨hon, -⟩, hkind⟩ := h
  simp only [fenceBody, oncePerPath_on hon, hkind]

theorem fenceBody_acqrel (h : OnQuiet c s ∧ c.f.fc.toNat = 3) : fenceBody c s = .done (holdLater c (publishAndRefresh c s)) := by
  obtain ⟨⟨hon, -, hreads, -⟩, hkind⟩ := h
  simp only [fenceBody, oncePerPath_on hon, hkind, afterReads_of_none hreads]

/-! ### XFENCE (R304, R306) -/

/-- The path P that XFENCE crosses from, and the path Q that it crosses to. -/
def Ctx.fromChan (c : Ctx) : Chan := Chan.ofCode (c.f.fc.toNat % 16)
def Ctx.toChan (c : Ctx) : Chan := Chan.ofCode (c.f.fc.toNat / 16)

/-- The boundary of XFENCE: for GEN at least at the quad. -/
def crossingBoundary (c : Ctx) (s : State) : State :=
  boundary s c.warp.core (if c.fromChan = .gen ∧ c.scope = .core then .quad else c.scope)

/-- The bound of path Q is raised to that of path P, over the warp's writes on P and those of its completed asynchronous operations. -/
def crossed (c : Ctx) (s : State) : State :=
  let s := refresh (crossingBoundary c s) c.warp.core c.scope
  raiseBound s (boundKey c.warp.core c.toChan)
    (s.bounds.get [] (boundKey c.warp.core c.fromChan) ++ [.warpWrites c.w c.fromChan s.performed.length] ++ (completedOps s c.w).map .op)

/-- Nothing is pending, and for GEN no atomic of the warp is in flight. -/
def Crossable (c : Ctx) (s : State) : Prop :=
  OnQuiet c s ∧ (c.fromChan = .gen → atomicsOf s (fun r => r.warp == c.w) = [])

theorem xfenceBody_of_crossable (h : Crossable c s) : xfenceBody c s = .done (crossed c s) := by
  obtain ⟨⟨hon, hwait, hreads, hheld⟩, hatomics⟩ := h
  have hstores : (if c.fromChan = .gen then ((crossingBoundary c s).held.filter fun h => h.warp == c.w).map (·.wid) else []) = [] := by
    rw [crossingBoundary, held_boundary_of_none hheld]
    exact ite_self _
  have hreads' : (if c.fromChan = .gen then atomicsOf (crossingBoundary c s) fun r => r.warp == c.w else []) = [] := by
    split
    · exact hatomics ‹_›
    · rfl
  simp only [xfenceBody, oncePerPath_on hon, hwait, afterReads_of_none hreads]
  exact if_pos (Bool.and_eq_true_iff.2 ⟨List.isEmpty_iff.2 hstores, List.isEmpty_iff.2 hreads'⟩)

/-! ### FWAIT (R303) -/

theorem fwaitBody_of_quiet (h : OnQuiet c s) : fwaitBody c s = .done s := by
  obtain ⟨hon, hwait, hreads, hheld⟩ := h
  have hstrong : strongWrites s c.w c.path.lmask = [] := by
    rw [strongWrites, hheld]
    rfl
  simp only [fwaitBody, oncePerPath_on hon, hwait, atomicsOf_of_no_reads hreads, publishedWids_of_none hheld, hstrong, List.append_nil,
    allDone_nil, if_true]

end

/-- Settles O20: with nothing pending each body makes its boundary and its refresh at once, by the kind of the fence and the paths that it
crosses. -/
theorem phasesAndFences : Obligations.PhasesAndFences := by
  unfold Obligations.PhasesAndFences
  exact ⟨fun x => completes_of_ignoresWarps phaseBody_of_quiet, fun x => completes_of_ignoresWarps fenceBody_sc,
    fun x => completes_of_ignoresWarps fenceBody_acq, fun x => completes_of_ignoresWarps fenceBody_rel,
    fun x => completes_of_ignoresWarps fenceBody_acqrel, fun x => completes_of_ignoresWarps xfenceBody_of_crossable,
    fun x => completes_of_ignoresWarps fwaitBody_of_quiet,
    fun x => completes_oncePerPath_off fun _ _ => rfl, fun x => completes_oncePerPath_off fun _ _ => rfl,
    fun x => completes_oncePerPath_off fun _ _ => rfl, fun x => completes_oncePerPath_off fun _ _ => rfl⟩

end Sys2Proof.Machine
end

section
/-!
PROOF. Barrier arrivals and waits (O22).
-/

namespace Sys2Proof.Machine

/-! ### The barrier that an instruction names (R310) -/

/-- The barrier of the instruction's scope and number. -/
def Ctx.namedBarrier (c : Ctx) : BarrierKey := barrierKey c.warp c.scope (c.f.fc.toNat % 16)

/-- A node warp names no scope of die or wider. -/
def ScopeAllowed (c : Ctx) : Prop := c.warp.node = none ∨ c.scope.code < 3

/-- The phase of a number lies behind the count of its barrier. -/
def phaseBehind (s : State) (k : BarrierKey) (m : Word32) : Bool :=
  let d := (((s.barriers.find? (·.key == k)).map (·.phases)).getD 0 - m).toNat
  decide (1 ≤ d ∧ d < 2 ^ 31)

section
variable {c : Ctx} {s : State}

theorem badScope_of_allowed (h : ScopeAllowed c) : badScope c = false := by
  unfold badScope
  rcases h with h | h
  · rw [h]
    rfl
  · rw [decide_eq_false (Nat.not_le.2 h), Bool.and_false]

theorem badScope_of_narrow (hn : c.warp.node ≠ none) (h : 3 ≤ c.scope.code) : badScope c = true := by
  rw [badScope, Option.isSome_iff_ne_none.2 hn, decide_eq_true h]
  rfl

/-- A barrier that nobody has named has completed no phase. -/
theorem phases_barrier (s : State) (k : BarrierKey) :
    (s.barrier k).phases = ((s.barriers.find? (·.key == k)).map (·.phases)).getD 0 := by
  unfold State.barrier
  cases s.barriers.find? (·.key == k) <;> rfl

theorem phasePast_barrier (s : State) (k : BarrierKey) (m : Word32) : phasePast (s.barrier k).phases m = phaseBehind s k m := by
  rw [phases_barrier, phaseBehind, Bool.decide_and]
  rfl

/-! ### Arrivals (R311) -/

/-- A lane arrives: the guard holds, the scope is allowed, and nothing is pending. -/
def Arrives (c : Ctx) (s : State) : Prop := c.guard0 = true ∧ ScopeAllowed c ∧ Quiet s c

/-- The barrier with the lanes of the path, and the phase in which they count. -/
def arrival (c : Ctx) (s : State) : Barrier × Word32 :=
  ((boundary s c.warp.core c.scope).barrier c.namedBarrier).arrive c.w c.path.lmask

/-- The core has published, and the lanes stand in the barrier. -/
def arrived (c : Ctx) (s : State) : State := (boundary s c.warp.core c.scope).setBarrier (arrival c s).1

/-- BAR and BARA arrive alike, and part after it. -/
theorem barBody_of_arrives {wait : Bool} (h : Arrives c s) :
    barBody wait c s = if wait then .wait (arrived c s) (.barrier c.namedBarrier (arrival c s).2)
      else .done (writeUD (arrived c s) c ((arrival c s).2.zeroExtend 64)) := by
  obtain ⟨hon, hscope, hq⟩ := h
  have ⟨hwait, _, _⟩ := hq
  simp only [barBody, oncePerPath_on hon, hwait, badScope_of_allowed hscope, releaseThen_of_quiet hq, Bool.false_eq_true, if_false]
  rfl

/-- The reads of the path have returned, and the phase that it waits for lies behind. -/
def PhaseEnded (c : Ctx) (s : State) : Prop :=
  c.guard0 = true ∧ pendingReads s c.w c.path.lmask = []
    ∧ (match c.path.wait with | some (.barrier k m) => phaseBehind s k m | _ => false) = true

/-- The scope of the barrier that the path waits at. -/
def Ctx.waitScope (c : Ctx) : Scope := match c.path.wait with | some (.barrier k _) => k.scope | _ => c.scope

theorem barBody_of_ended {wait : Bool} (h : PhaseEnded c s) : barBody wait c s = .done (refresh s c.warp.core c.waitScope) := by
  obtain ⟨hon, hreads, hphase⟩ := h
  split at hphase
  · rename_i k m hwait
    simp only [barBody, oncePerPath_on hon, hwait, phasePast_barrier, hphase, hreads, List.isEmpty_nil, Bool.and_self, if_true,
      Ctx.waitScope]
  · cases hphase

/-- BARW finds its phase behind. -/
def CountedBehind (c : Ctx) (s : State) : Prop :=
  c.guard0 = true ∧ ScopeAllowed c ∧ pendingReads s c.w c.path.lmask = [] ∧ phaseBehind s c.namedBarrier (c.uA.truncate 32) = true

theorem barwBody_of_behind (h : CountedBehind c s) : barwBody c s = .done (refresh s c.warp.core c.scope) := by
  obtain ⟨hon, hscope, hreads, hphase⟩ := h
  rw [barwBody, oncePerPath_on hon, if_neg (Bool.eq_false_iff.1 (badScope_of_allowed hscope))]
  dsimp only
  rw [phasePast_barrier]
  exact (if_pos hphase).trans (afterReads_of_none hreads _)

/-! ### Scopes that are too wide for a node warp (R310) -/

/-- A node warp that waits for nothing names a scope of die or wider. -/
def NodeTooWide (c : Ctx) (_ : State) : Prop := c.guard0 = true ∧ c.path.wait = none ∧ c.warp.node ≠ none ∧ 3 ≤ c.scope.code

theorem barBody_of_tooWide {wait : Bool} (h : NodeTooWide c s) : barBody wait c s = .trap .barscope (BitVec.ofNat 64 c.scope.code) := by
  obtain ⟨hon, hwait, hn, hcode⟩ := h
  simp only [barBody, oncePerPath_on hon, hwait, badScope_of_narrow hn hcode, if_true]

theorem barwBody_of_tooWide (h : NodeTooWide c s) : barwBody c s = .trap .barscope (BitVec.ofNat 64 c.scope.code) := by
  obtain ⟨hon, -, hn, hcode⟩ := h
  rw [barwBody, oncePerPath_on hon, if_pos (badScope_of_narrow hn hcode)]

end

/-! ### The instructions -/

theorem waits_bar (x : RForm) :
    Waits (execBar x) 0x1EA (.r x) Arrives arrived fun c s => .barrier c.namedBarrier (arrival c s).2 :=
  waits_of_ignoresWarps fun h => (barBody_of_arrives h).trans (if_pos rfl)

theorem completes_bar_ended (x : RForm) :
    Completes (execBar x) 0x1EA (.r x) PhaseEnded fun c s => refresh s c.warp.core c.waitScope :=
  completes_of_ignoresWarps barBody_of_ended

/-- Settles O22: an arrival publishes and counts the lanes of the path, and a phase that lies behind ends the wait with a refresh. -/
theorem barrierArrivals : Obligations.BarrierArrivals := by
  unfold Obligations.BarrierArrivals
  exact ⟨waits_bar, completes_bar_ended, fun x => completes_of_ignoresWarps fun h => (barBody_of_arrives h).trans (if_neg Bool.false_ne_true),
    fun x => completes_of_ignoresWarps barwBody_of_behind, fun x => faults_of_ignoresWarps barBody_of_tooWide,
    fun x => faults_of_ignoresWarps barBody_of_tooWide, fun x => faults_of_ignoresWarps barwBody_of_tooWide,
    fun q => waits_bar _, fun q => completes_bar_ended _⟩

end Sys2Proof.Machine
end

section
/-!
PROOF. The privileged instructions (O33).
-/

namespace Sys2Proof.Machine

/-! ### Conditions on the prepared state (R347) -/

section
variable {opc : Nat} {f : Form} {body : Ctx → State → Res} {p : Ctx → State → Prop} {next : Ctx → State → State}

theorem completes_of_prepared (hb : ∀ {c s}, p c s → body c s = .done (next c s)) :
    Completes (runIop opc f body) opc f (prepared p) next := completes_of_body fun _ _ _ h => hb h

theorem waits_of_prepared {wait : Ctx → State → Wait} (hb : ∀ {c s}, p c s → body c s = .wait (next c s) (wait c s)) :
    Waits (runIop opc f body) opc f (prepared p) next wait := waits_of_body fun _ _ _ h => hb h

theorem transfers_of_prepared (hb : ∀ {c s}, p c s → body c s = .moved (next c s)) :
    Transfers (runIop opc f body) opc f (prepared p) next := transfers_of_body fun _ _ _ h => hb h

/-- An IOP with accesses of its own, where no page is flipping owner (R291). -/
theorem completes_of_still_prepared (hb : ∀ {c s}, p c s → body c s = .done (next c s)) :
    Completes (runIopFlip opc f body) opc f (prepared fun c s => s.flips = [] ∧ p c s) next :=
  completes_of_still (fun c s ⟨hstill, _⟩ => flips_prepare c s ▸ hstill) (completes_of_prepared fun ⟨_, h⟩ => hb h)

end

/-! ### PLD and PST (R421) -/

/-- The physical address. -/
def Ctx.physAddr (c : Ctx) : Nat := (c.ea c.lane0).toNat

/-- The key of its first byte in memory. -/
def physKey (c : Ctx) (s : State) : Nat := memoryKey s c.warp.vf c.physAddr

/-- The core's stores to the line have been published (R301). -/
def linePublished (c : Ctx) (s : State) : State := publishLines s c.warp.core .pod [physKey c s / 64]

/-- The address is aligned and exists, and of its line nothing is left to perform. -/
def PhysReady (c : Ctx) (s : State) : Prop :=
  c.guard0 = true ∧ c.physAddr % c.esize = 0 ∧ c.physAddr < 2 ^ 52 ∧ regionOk s c.physAddr = true ∧ c.path.wait = none
    ∧ publishedOn (linePublished c s) c.warp.core [physKey c s / 64] = []

/-- The store has performed. -/
def physStored (c : Ctx) (s : State) : State :=
  let t := linePublished c s
  perform { t with nextId := t.nextId + 1, seq := t.seq + 1 } t.nextId (some c.warp.core) c.w c.path.lmask (t.seq + 1) .gen .pod
    (physKey c s) c.esize (cellsAt (physKey c s) (leBytes c.esize c.uD.toNat))

section
variable {c : Ctx} {s : State} {g : Ctx → State → Nat → Nat → Res}

theorem physicalBody_of_ready (h : PhysReady c s) : physicalBody g c s = g c (linePublished c s) c.physAddr (physKey c s) := by
  obtain ⟨hon, halign, hbound, hregion, hwait, hline⟩ := h
  have hexists : ¬((decide (2 ^ 52 ≤ c.physAddr) || !regionOk s c.physAddr) = true) := by
    rw [hregion, decide_eq_false (Nat.not_le.2 hbound)]
    exact Bool.false_ne_true
  rw [physicalBody, oncePerPath_on hon]
  refine (if_neg (not_not_intro halign)).trans ((if_neg hexists).trans ?_)
  simp only [hwait]
  split
  · rfl
  · rename_i heq
    cases hline.symm.trans heq

theorem physicalBody_off (h : c.guard0 = false) : physicalBody g c s = .done s := oncePerPath_off h _ _

theorem physicalBody_of_misaligned (hon : c.guard0 = true) (h : c.physAddr % c.esize ≠ 0) :
    physicalBody g c s = .trap .align (BitVec.ofNat 64 c.physAddr) := by
  rw [physicalBody, oncePerPath_on hon]
  exact if_pos h

theorem physicalBody_of_beyond (hon : c.guard0 = true) (halign : c.physAddr % c.esize = 0) (h : 2 ^ 52 ≤ c.physAddr) :
    physicalBody g c s = .trap .prot (BitVec.ofNat 64 c.physAddr) := by
  rw [physicalBody, oncePerPath_on hon]
  refine (if_neg (not_not_intro halign)).trans (if_pos ?_)
  exact Bool.or_eq_true_iff.2 (.inl (decide_eq_true h))

theorem pldBody_of_clean (h : PhysReady c s) (hclean : poisoned (linePublished c s) (physKey c s) c.esize = false) :
    pldBody c s = .done (writeUD (linePublished c s) c (extended c.ty ((linePublished c s).bytes (physKey c s) c.esize))) :=
  (physicalBody_of_ready h).trans (if_neg (Bool.eq_false_iff.1 hclean))

theorem pstBody_of_ready (h : PhysReady c s) : pstBody c s = .done (physStored c s) := physicalBody_of_ready h

end

/-! ### TLBINV (R422, R274) -/

/-- The VFs, address spaces and pages that TLBINV names. -/
def Ctx.invForm (c : Ctx) : (Nat → Bool) × (Nat → Bool) × (Nat → Nat → Bool) := tlbinvForm c.q c.uA c.uB

/-- Their translations have been dropped. -/
def translationsDropped (c : Ctx) (s : State) : State := invalidate s c.invForm.1 c.invForm.2.1 c.invForm.2.2

/-- A warp's access went through a translation that TLBINV names. -/
def accessNamed (c : Ctx) (s : State) (w va n : Nat) : Bool := ((s.warp? w).any fun x => c.invForm.1 x.vf) && c.invForm.2.2 va n

/-- The path waits for writes that it has published. -/
def Ctx.Publishing (c : Ctx) : Prop := match c.path.wait with | some (.writes _ _) => True | _ => False

/-- No access that has translated through what TLBINV names is outstanding. -/
def NoneTranslated (c : Ctx) (s : State) : Prop :=
  c.guard0 = true ∧ ¬c.Publishing ∧ (s.held.any fun h => accessNamed c s h.warp h.va h.size) = false
    ∧ (s.inflight.any fun r => r.elems.any fun e => accessNamed c s r.warp e.va r.size) = false

/-- What TLBINV waits for has performed and returned. -/
def InvalidationOver (c : Ctx) (s : State) : Prop :=
  c.guard0 = true ∧ match c.path.wait with | some (.writes wids rids) => allDone s wids rids = true | _ => False

section
variable {c : Ctx} {s : State}

/-- Dropping translations leaves the warps as they are. -/
theorem covered_translationsDropped (w va n : Nat) :
    covered (translationsDropped c s) c.invForm.1 c.invForm.2.2 w va n = accessNamed c s w va n := by
  have hwarp : (translationsDropped c s).warp? w = s.warp? w := rfl
  unfold covered accessNamed
  rw [hwarp]
  cases s.warp? w <;> rfl

/-- Taking slots into use leaves every warp in its VF. -/
theorem accessNamed_prepare (hw : s.warp? c.w = some c.warp) (w va n : Nat) :
    accessNamed c (prepare c s) w va n = accessNamed c s w va n := by
  obtain ⟨x, hx, honly⟩ := prepare_onlyWarp hw
  unfold accessNamed
  by_cases h : w = c.w
  · obtain ⟨_, _, _, _, hrest⟩ := hx.rest
    rw [h, honly.own, hw, hrest]
    rfl
  · rw [honly.others w h]

theorem noneTranslated_prepare (hw : s.warp? c.w = some c.warp) (h : NoneTranslated c s) : NoneTranslated c (prepare c s) := by
  have hnamed : accessNamed c (prepare c s) = accessNamed c s := by
    funext w va n
    exact accessNamed_prepare hw w va n
  unfold NoneTranslated
  rw [hnamed, prepare_eq]
  exact h

theorem tlbinvBody_of_none (h : NoneTranslated c s) : tlbinvBody c s = .done (translationsDropped c s) := by
  obtain ⟨hon, hwait, hheld, hreads⟩ := h
  have hstores : (translationsDropped c s).held.filter
      (fun x => covered (translationsDropped c s) c.invForm.1 c.invForm.2.2 x.warp x.va x.size) = [] := by
    simp only [covered_translationsDropped]
    exact List.filter_eq_nil_iff.2 (List.any_eq_false.1 hheld)
  have hloads : (translationsDropped c s).inflight.filter
      (fun r => r.elems.any fun e => covered (translationsDropped c s) c.invForm.1 c.invForm.2.2 r.warp e.va r.size) = [] := by
    simp only [covered_translationsDropped]
    exact List.filter_eq_nil_iff.2 (List.any_eq_false.1 hreads)
  rw [tlbinvBody, oncePerPath_on hon]
  split
  · rename_i heq
    exact (hwait (by simp only [Ctx.Publishing, heq])).elim
  · rcases hform : tlbinvForm c.q c.uA c.uB with ⟨vf, asid, page⟩
    simp only [translationsDropped, Ctx.invForm, hform] at hstores hloads ⊢
    simp only [hstores, List.map_nil, NSet.insertAll, List.foldl_nil, hloads]

theorem tlbinvBody_of_over (h : InvalidationOver c s) : tlbinvBody c s = .done s := by
  obtain ⟨hon, hover⟩ := h
  rw [tlbinvBody, oncePerPath_on hon]
  split at hover
  · rename_i heq
    simp only [heq, hover, if_true]
  · exact hover.elim

end

/-! ### ATQ and KEYSLOT (R423, R429) -/

/-- The kind of access that ATQ asks about. -/
def Ctx.probeKind (c : Ctx) : Access := if c.q = 0 then .read else if c.q = 1 then .write else .fetch

/-- The answer of ATQ. -/
def probed (c : Ctx) (s : State) : Word64 :=
  atqWord (probe s (clusterOf c.warp.core) (c.uB.toNat / 2 ^ 16 % 2 ^ 8) (c.uB.toNat % 2 ^ 16) c.uA.toNat c.probeKind)

/-- The key slot has changed, and D holds the result. -/
def keySlotDone (c : Ctx) (s : State) : State :=
  let r := keyslot s c.q (c.uA.toNat % 2 ^ 12) (c.uB.toNat % 2 ^ 8)
  writeUD r.1 c r.2

section
variable {c : Ctx} {s : State}

theorem atqBody_on (hon : c.guard0 = true) : atqBody c s = .done (writeUD s c (probed c s)) := by
  have hkind : (match c.q with | 0 => Access.read | 1 => .write | _ => .fetch) = c.probeKind := by
    unfold Ctx.probeKind
    split
    · rename_i hq
      rw [if_pos hq]
    · rename_i hq
      rw [if_neg (by omega), if_pos hq]
    · rename_i h0 h1
      rw [if_neg h0, if_neg h1]
  rw [probed, ← hkind]
  exact oncePerPath_on hon _ _

theorem keyslotBody_on (hon : c.guard0 = true) : keyslotBody c s = .done (keySlotDone c s) := oncePerPath_on hon _ _

end

/-! ### CTXSV and CTXRS (R430, R434) -/

/-- The path waits for no save, and none of the workgroup is under way. -/
def SaveFree (c : Ctx) (s : State) : Prop :=
  c.guard0 = true ∧ (match c.path.wait with | some (.saving _ _) => False | _ => True) ∧ s.sys.saves.find? c.uA.toNat = none

/-- The status with which a save is refused. -/
def saveRefusal (c : Ctx) (s : State) : Option Nat := saveCheck s c.uA.toNat c.uB.toNat c.uC.toNat

/-- The save has begun. -/
def saveBegun (c : Ctx) (s : State) : State :=
  beginSave s c.uA.toNat { image := some (memoryKey s c.warp.vf c.uB.toNat), slot := c.uC.toNat }

/-- The status with which the save that the path waits for has ended. -/
def Ctx.saveStatus (c : Ctx) : Option Nat := match c.path.wait with | some (.saving _ x) => x | _ => none

/-- The image has been restored, or the status says why not. -/
def imageRestored (c : Ctx) (s : State) : State :=
  let r := restoreAt s c.warp.vf (c.uA.toNat % 32) c.uC.toNat c.uB.toNat
  writeUD r.1 c (restoreWord r.2.1 r.2.2)

section
variable {c : Ctx} {s : State}

theorem ctxsvBody_of_free (h : SaveFree c s) :
    ctxsvBody c s = match saveRefusal c s with
      | some st => .done (writeUD s c (BitVec.ofNat 64 st))
      | none => .wait (saveBegun c s) (.saving c.uA.toNat none) := by
  obtain ⟨hon, hwait, hnone⟩ := h
  rw [ctxsvBody, oncePerPath_on hon]
  split at hwait
  · exact hwait.elim
  · rename_i hother
    split
    · rename_i heq
      exact (hother _ _ heq).elim
    · rename_i heq
      exact (hother _ _ heq).elim
    · dsimp only
      rw [hnone]
      rfl

theorem ctxsvBody_begins (h : SaveFree c s ∧ saveRefusal c s = none) :
    ctxsvBody c s = .wait (saveBegun c s) (.saving c.uA.toNat none) := by
  obtain ⟨hfree, hnone⟩ := h
  rw [ctxsvBody_of_free hfree, hnone]

theorem ctxsvBody_refused (h : SaveFree c s ∧ (saveRefusal c s).isSome = true) :
    ctxsvBody c s = .done (writeUD s c (BitVec.ofNat 64 ((saveRefusal c s).getD 0))) := by
  obtain ⟨hfree, hsome⟩ := h
  obtain ⟨st, hst⟩ := Option.isSome_iff_exists.1 hsome
  rw [ctxsvBody_of_free hfree, hst]
  rfl

theorem ctxsvBody_ended (hon : c.guard0 = true) (h : c.saveStatus.isSome = true) :
    ctxsvBody c s = .done (writeUD s c (BitVec.ofNat 64 (c.saveStatus.getD 0))) := by
  obtain ⟨st, hst⟩ := Option.isSome_iff_exists.1 h
  rw [hst]
  unfold Ctx.saveStatus at hst
  split at hst
  · rename_i heq
    simp only [ctxsvBody, oncePerPath_on hon, heq, hst]
    rfl
  · cases hst

theorem ctxrsBody_on (hon : c.guard0 = true) : ctxrsBody c s = .done (imageRestored c s) := oncePerPath_on hon _ _

end

/-! ### SCANRQ and IPIFW (R424, R428) -/

/-- The scans that wait at the scanner of the core's die. -/
def scansWaiting (c : Ctx) (s : State) : Nat := (s.sys.scans.filter (·.die == dieOf c.warp.core)).length

/-- The scan waits at the scanner, and D holds 0. -/
def scanQueued (c : Ctx) (s : State) : State :=
  let r : ScanReq := { die := dieOf c.warp.core, vf := c.uB.toNat / 2 ^ 16 % 2 ^ 8, asid := c.uB.toNat % 2 ^ 16, va := c.uA.toNat }
  writeUD { s with sys := { s.sys with scans := s.sys.scans ++ [r] } } c 0

/-- The state with the mail of IPIFW, where the mailbox takes it. -/
def mailed (c : Ctx) (s : State) : Option State := postMail s (dieOf c.warp.core) c.uA c.uB

section
variable {c : Ctx} {s : State}

theorem scanrqBody_room (hon : c.guard0 = true) (h : scansWaiting c s < 64) : scanrqBody c s = .done (scanQueued c s) :=
  (oncePerPath_on hon _ _).trans (if_pos h)

theorem scanrqBody_full (hon : c.guard0 = true) (h : 64 ≤ scansWaiting c s) : scanrqBody c s = .done (writeUD s c 1) :=
  (oncePerPath_on hon _ _).trans (if_neg (Nat.not_lt.2 h))

theorem ipifwBody_posted (hon : c.guard0 = true) (h : (mailed c s).isSome = true) :
    ipifwBody c s = .done (writeUD ((mailed c s).getD s) c 0) := by
  obtain ⟨t, ht⟩ := Option.isSome_iff_exists.1 h
  rw [ht, ipifwBody, oncePerPath_on hon, show postMail s (dieOf c.warp.core) c.uA c.uB = some t from ht]
  rfl

theorem ipifwBody_full (hon : c.guard0 = true) (h : mailed c s = none) : ipifwBody c s = .done (writeUD s c 1) := by
  rw [ipifwBody, oncePerPath_on hon, show postMail s (dieOf c.warp.core) c.uA c.uB = none from h]

end

/-! ### HALT and RESUME (R426) -/

/-- The warp that HALT and RESUME name. -/
def namedWarp (c : Ctx) (s : State) : Option Nat := warpIn s c.uA.toNat (c.uB.toNat % 64)

/-- Its named paths are halted. -/
def pathsHalted (c : Ctx) (s : State) : State :=
  match namedWarp c s with
  | some w => s.modRegs w (mapNamed c.uB fun q => { q with halted := true })
  | none => s

/-- One of them still runs a clause. -/
def haltedRunning (c : Ctx) (s : State) : Bool :=
  ((namedWarp c s).bind fun w => (pathsHalted c s).warp? w).any fun x =>
    x.regs.paths.any fun q => namedPaths c.uB q.1 && q.2.running x.regs.ctxf

/-- Its named paths go on, where its record can be read. -/
def pathsResumed (c : Ctx) (s : State) : Option State :=
  (namedWarp c s).bind fun w => (updateSaved s w fun x => { x with regs := mapNamed c.uB Path.goOn x.regs }).toOption

section
variable {c : Ctx} {s : State}

theorem haltBody_unnamed (hon : c.guard0 = true) (h : namedWarp c s = none) : haltBody c s = .done (writeUD s c 1) := by
  rw [haltBody, oncePerPath_on hon]
  dsimp only
  rw [show warpIn s c.uA.toNat (c.uB.toNat % 64) = none from h]

theorem haltBody_named {w : Nat} (hon : c.guard0 = true) (h : namedWarp c s = some w) :
    haltBody c s = if haltedRunning c s = true ∧ w ≠ c.w then .wait (pathsHalted c s) (.halting c.uA.toNat w (c.uB.extractLsb' 32 32))
      else .done (writeUD (pathsHalted c s) c 0) := by
  have hhalted : pathsHalted c s = s.modRegs w (mapNamed c.uB fun q => { q with halted := true }) := by rw [pathsHalted, h]
  have hrunning : haltedRunning c s = (((pathsHalted c s).warp? w).map fun x =>
      x.regs.paths.any fun q => namedPaths c.uB q.1 && q.2.running x.regs.ctxf).getD false := by
    rw [haltedRunning, h, Option.bind_some]
    cases (pathsHalted c s).warp? w <;> rfl
  rw [hrunning, hhalted, haltBody, oncePerPath_on hon]
  dsimp only
  rw [show warpIn s c.uA.toNat (c.uB.toNat % 64) = some w from h]
  simp only [Bool.and_eq_true, decide_eq_true_eq]

theorem haltBody_done (hon : c.guard0 = true) (hn : (namedWarp c s).isSome = true)
    (h : haltedRunning c s = false ∨ namedWarp c s = some c.w) : haltBody c s = .done (writeUD (pathsHalted c s) c 0) := by
  obtain ⟨w, hw⟩ := Option.isSome_iff_exists.1 hn
  refine (haltBody_named hon hw).trans (if_neg fun ⟨hrunning, hother⟩ => ?_)
  rcases h with h | h
  · exact Bool.false_ne_true (h.symm.trans hrunning)
  · exact hother (Option.some.inj (hw.symm.trans h))

theorem haltBody_waits (hon : c.guard0 = true) (hn : (namedWarp c s).isSome = true) (hrunning : haltedRunning c s = true)
    (hother : namedWarp c s ≠ some c.w) :
    haltBody c s = .wait (pathsHalted c s) (.halting c.uA.toNat ((namedWarp c s).getD 0) (c.uB.extractLsb' 32 32)) := by
  obtain ⟨w, hw⟩ := Option.isSome_iff_exists.1 hn
  rw [haltBody_named hon hw, if_pos ⟨hrunning, fun h => hother (h ▸ hw)⟩, hw]
  rfl

theorem resumeBody_unnamed (hon : c.guard0 = true) (h : namedWarp c s = none) : resumeBody c s = .done (writeUD s c 1) := by
  rw [resumeBody, oncePerPath_on hon]
  dsimp only
  rw [show warpIn s c.uA.toNat (c.uB.toNat % 64) = none from h]

theorem resumeBody_resumed (hon : c.guard0 = true) (h : (pathsResumed c s).isSome = true) :
    resumeBody c s = .done (writeUD ((pathsResumed c s).getD s) c 0) := by
  obtain ⟨t, ht⟩ := Option.isSome_iff_exists.1 h
  obtain ⟨w, hw, hsaved⟩ := Option.bind_eq_some_iff.1 ht
  rw [ht, resumeBody, oncePerPath_on hon]
  dsimp only
  rw [show warpIn s c.uA.toNat (c.uB.toNat % 64) = some w from hw]
  dsimp only
  split
  · rename_i heq
    rw [heq] at hsaved
    cases hsaved
    rfl
  · rename_i heq
    rw [heq] at hsaved
    cases hsaved

end

/-! ### LANESEL (R425) -/

/-- The slot and the lane that LANESEL names. -/
def Ctx.laneSlot (c : Ctx) : Nat := c.uB.toNat % 2 ^ 16
def Ctx.laneNumber (c : Ctx) : Nat := c.uA.toNat % 32

/-- The trapped warp of a privileged lane. -/
def trappedWarp (c : Ctx) (s : State) : Option (Nat × Warp) := c.trapped.bind fun w => (s.warp? w).map fun x => (w, x)

/-- The trapped warp's slot lies in its window, has no write outstanding, and can be brought in. -/
def SlotReadable (c : Ctx) (s : State) : Prop :=
  match trappedWarp c s with
  | some (w, x) => c.laneSlot < x.regs.stackSize ∧ .slot c.laneSlot ∉ busyRegs s w ∧ (bringSlots s w [c.laneSlot]).2 = none
  | none => False

/-- The lane of the slot has been read to D. -/
def laneRead (c : Ctx) (s : State) : State :=
  match trappedWarp c s with
  | some (w, _) =>
    let t := (bringSlots s w [c.laneSlot]).1
    writeUD t c ((((t.warp? w).map fun (y : Warp) => (y.regs.row c.laneSlot).lane c.laneNumber).getD 0).zeroExtend 64)
  | none => s

/-- The lane of the slot has been written. -/
def laneWritten (c : Ctx) (s : State) : State :=
  match trappedWarp c s with
  | some (w, _) =>
    (bringSlots s w [c.laneSlot]).1.modWarp w fun x => x.setRow c.laneSlot (1#32 <<< c.laneNumber) (Row.ofFn fun _ => c.uD.truncate 32)
  | none => s

section
variable {c : Ctx} {s : State}

theorem laneselBody_of_readable (hon : c.guard0 = true) (h : SlotReadable c s) :
    laneselBody c s = if c.q = 0 then .done (laneRead c s) else .done (laneWritten c s) := by
  unfold SlotReadable at h
  unfold laneRead laneWritten
  split at h
  · rename_i w x htarget
    obtain ⟨hslot, hbusy, hbrought⟩ := h
    obtain ⟨w', hw, hx⟩ := Option.bind_eq_some_iff.1 htarget
    obtain ⟨x', hx, heq⟩ := Option.map_eq_some_iff.1 hx
    cases heq
    rcases hb : bringSlots s w [c.laneSlot] with ⟨t, o⟩
    rw [hb] at hbrought
    cases hbrought
    rw [laneselBody, oncePerPath_on hon, hw]
    dsimp only
    rw [hx]
    refine (if_neg (Nat.not_le.2 hslot)).trans ((if_neg (mt List.contains_iff_mem.1 hbusy)).trans ?_)
    rw [show bringSlots s w [c.uB.toNat % 2 ^ 16] = (t, none) from hb]
    rfl
  · exact h.elim

end

/-! ### WGKILL and QKILL (R427) -/

/-- The workgroup has been killed. -/
def workgroupKilled (c : Ctx) (s : State) : State := killWorkgroup s c.uA.toNat (c.q == 0)

/-- The queue that QKILL names is live. -/
def queueLive (c : Ctx) (s : State) : Bool := (s.queue? (c.uA.toNat % 2 ^ 16)).any (·.live)

section
variable {c : Ctx} {s : State}

theorem wgkillBody_none (hon : c.guard0 = true) (h : s.wg? c.uA.toNat = none) : wgkillBody c s = .done (writeUD s c 1) :=
  (oncePerPath_on hon _ _).trans (if_neg (by rw [h]; exact Bool.false_ne_true))

theorem wgkillBody_stays (hon : c.guard0 = true) (hg : (s.wg? c.uA.toNat).isSome = true)
    (h : ((workgroupKilled c s).warp? c.w).isSome = true) : wgkillBody c s = .done (writeUD (workgroupKilled c s) c 0) :=
  (oncePerPath_on hon _ _).trans ((if_pos hg).trans (if_pos h))

/-- The lane that kills its own target's workgroup goes with it. -/
theorem wgkillBody_goes (hon : c.guard0 = true) (hg : (s.wg? c.uA.toNat).isSome = true) (h : (workgroupKilled c s).warp? c.w = none) :
    wgkillBody c s = .moved (workgroupKilled c s) :=
  (oncePerPath_on hon _ _).trans ((if_pos hg).trans (if_neg (by rw [← workgroupKilled, h]; exact Bool.false_ne_true)))

theorem qkillBody_on (hon : c.guard0 = true) :
    qkillBody c s = if queueLive c s = true then .done (writeUD (destroyQueue s (c.uA.toNat % 2 ^ 16)) c 0) else .done (writeUD s c 1) := by
  have hlive : ((s.queue? (c.uA.toNat % 2 ^ 16)).map (·.live)).getD false = queueLive c s := by
    unfold queueLive
    cases s.queue? (c.uA.toNat % 2 ^ 16) <;> rfl
  rw [← hlive]
  exact oncePerPath_on hon _ _

end

/-- Settles O33: each body is computed on the prepared state; LANESEL, RESUME, CTXRS and QKILL run with no page in flip. -/
theorem privilegedInstructions : Obligations.PrivilegedInstructions := by
  unfold Obligations.PrivilegedInstructions
  refine ⟨?pld, ?pst, ?pldMisaligned, ?pstBeyond, ?tlbinv, ?tlbinvOver, ?atq, ?keyslot, ?ctxsv, ?ctxsvRefused, ?ctxsvEnded, ?ctxrs, ?scanrq,
    ?scanrqFull, ?haltUnnamed, ?halt, ?haltWaits, ?resumeUnnamed, ?resume, ?lanesel, ?laneselWrite, ?ipifw, ?ipifwFull, ?wgkillNone, ?wgkill,
    ?wgkillGoes, ?qkill, ?qkillDead, ?pldOff, ?pstOff, ?tlbinvOff, ?haltOff, ?wgkillOff, ?qkillOff⟩
  case pld => exact fun x => completes_of_prepared fun ⟨h, hclean⟩ => pldBody_of_clean h hclean
  case pst => exact fun x => completes_of_prepared pstBody_of_ready
  case pldMisaligned => exact fun x => faults_of_ignoresWarps fun ⟨hon, h⟩ => physicalBody_of_misaligned hon h
  case pstBeyond => exact fun x => faults_of_ignoresWarps fun ⟨hon, halign, h⟩ => physicalBody_of_beyond hon halign h
  case tlbinv => exact fun x => completes_of_body fun s c hr h => tlbinvBody_of_none (noneTranslated_prepare (warp?_of_ready hr) h)
  case tlbinvOver => exact fun x => completes_of_ignoresWarps tlbinvBody_of_over
  case atq => exact fun x => completes_of_ignoresWarps atqBody_on
  case keyslot => exact fun x => completes_of_ignoresWarps keyslotBody_on
  case ctxsv => exact fun x => waits_of_prepared ctxsvBody_begins
  case ctxsvRefused => exact fun x => completes_of_prepared ctxsvBody_refused
  case ctxsvEnded => exact fun x => completes_of_ignoresWarps fun ⟨hon, h⟩ => ctxsvBody_ended hon h
  case ctxrs => exact fun x => completes_of_still (fun _ _ ⟨h, _⟩ => h) (completes_of_ignoresWarps fun ⟨_, hon⟩ => ctxrsBody_on hon)
  case scanrq => exact fun x => completes_of_prepared fun ⟨hon, h⟩ => scanrqBody_room hon h
  case scanrqFull => exact fun x => completes_of_prepared fun ⟨hon, h⟩ => scanrqBody_full hon h
  case haltUnnamed => exact fun x => completes_of_prepared fun ⟨hon, h⟩ => haltBody_unnamed hon h
  case halt => exact fun x => completes_of_prepared fun ⟨hon, hn, h⟩ => haltBody_done hon hn h
  case haltWaits => exact fun x => waits_of_prepared fun ⟨hon, hn, hrunning, hother⟩ => haltBody_waits hon hn hrunning hother
  case resumeUnnamed => exact fun x => completes_of_still_prepared fun ⟨hon, h⟩ => resumeBody_unnamed hon h
  case resume => exact fun x => completes_of_still_prepared fun ⟨hon, h⟩ => resumeBody_resumed hon h
  case lanesel => exact fun x => completes_of_still_prepared fun ⟨hon, hq, h⟩ => (laneselBody_of_readable hon h).trans (if_pos hq)
  case laneselWrite => exact fun x => completes_of_still_prepared fun ⟨hon, hq, h⟩ => (laneselBody_of_readable hon h).trans (if_neg hq)
  case ipifw => exact fun x => completes_of_prepared fun ⟨hon, h⟩ => ipifwBody_posted hon h
  case ipifwFull => exact fun x => completes_of_prepared fun ⟨hon, h⟩ => ipifwBody_full hon h
  case wgkillNone => exact fun x => completes_of_prepared fun ⟨hon, h⟩ => wgkillBody_none hon h
  case wgkill => exact fun x => completes_of_prepared fun ⟨hon, hg, h⟩ => wgkillBody_stays hon hg h
  case wgkillGoes => exact fun x => transfers_of_prepared fun ⟨hon, hg, h⟩ => wgkillBody_goes hon hg h
  case qkill => exact fun x => completes_of_still_prepared fun ⟨hon, h⟩ => (qkillBody_on hon).trans (if_pos h)
  case qkillDead => exact fun x => completes_of_still_prepared fun ⟨hon, h⟩ => (qkillBody_on hon).trans (if_neg (Bool.eq_false_iff.1 h))
  case pldOff => exact fun x => completes_of_ignoresWarps physicalBody_off
  case pstOff => exact fun x => completes_of_ignoresWarps physicalBody_off
  case tlbinvOff => exact fun x => completes_oncePerPath_off fun _ _ => rfl
  case haltOff => exact fun x => completes_oncePerPath_off fun _ _ => rfl
  case wgkillOff => exact fun x => completes_oncePerPath_off fun _ _ => rfl
  case qkillOff =>
    exact fun x => completes_of_still (fun _ _ ⟨h, _⟩ => h) (completes_of_ignoresWarps fun ⟨_, hoff⟩ => oncePerPath_off hoff _ _)

end Sys2Proof.Machine
end

section
/-!
PROOF. Transaction barriers (O23): TBINIT on near-store bytes that stand in no canonical form refutes the statement.
-/

namespace Sys2Proof.Machine

/-! ### The record that TBINIT starts (R314) -/

/-- The offset in uniform A is a record's place in the allocation of the path's workgroup. -/
def TbPlaced (c : Ctx) (s : State) : Prop :=
  (c.guard0 = true ∧ (s.wg? c.warp.wg).isSome = true) ∧ c.uA.toNat % 32 = 0 ∧ c.uA.toNat + 32 ≤ (nearWg c s).nearSize

/-- TBINIT may start the record: its count is in range, and the record is settled, or not live with room for one more. -/
def TbStartable (c : Ctx) (s : State) : Prop :=
  TbPlaced c s ∧ c.q ≠ 1 ∧ 1 ≤ c.uB.toNat ∧ c.uB.toNat ≤ 65535
    ∧ (if (nearWg c s).liveTb c.uA.toNat then (nearWg c s).arrp c.uA.toNat = (nearWg c s).arrx c.uA.toNat ∧ (nearWg c s).txp c.uA.toNat = 0
       else (nearWg c s).tbs.length < 64)

/-- The allocation once TBINIT has cleared the record and then written ARRP, ARRX and INIT. -/
def tbWritten (c : Ctx) (g : Workgroup) : Workgroup :=
  (((g.setNear c.uA.toNat (List.replicate 32 0)).setNearLe (c.uA.toNat + 18) 2 c.uB.toNat).setNearLe (c.uA.toNat + 20) 2 c.uB.toNat).setNearLe
    (c.uA.toNat + 22) 1 1

/-- The record is live, with its bytes as TBINIT writes them. -/
def tbStarted (c : Ctx) (s : State) : State :=
  let g := tbWritten c (nearWg c s)
  setOwnWg s c { g with tbs := g.tbs.filter (·.ofs != c.uA.toNat) ++ [{ ofs := c.uA.toNat }] }

section
variable {c : Ctx} {s : State}

theorem tbFault_of_placed (h : TbPlaced c s) : tbFault (nearWg c s) c.uA false = none := by
  obtain ⟨-, halign, hfits⟩ := h
  have haligned : ¬(c.uA.toNat % 32 != 0) = true := by rw [halign]; exact Bool.false_ne_true
  exact (if_neg haligned).trans ((if_neg (Nat.not_lt.2 hfits)).trans (if_neg Bool.false_ne_true))

/-- A placed record's instruction comes to what it does with the workgroup. -/
theorem tbBody_of_placed (h : TbPlaced c s) (f : Ctx → State → Workgroup → Nat → Res) :
    tbBody false f c s = f c s (nearWg c s) c.uA.toNat := by
  have hfault := tbFault_of_placed h
  obtain ⟨⟨hon, hwg⟩, -⟩ := h
  obtain ⟨g, hg⟩ := Option.isSome_iff_exists.1 hwg
  have hnear : nearWg c s = g := by rw [nearWg, hg, Option.getD_some]
  rw [hnear] at hfault ⊢
  simp only [tbBody, oncePerPath_on hon, hg, hfault]

theorem tbinitBody_of_startable (h : TbStartable c s) : tbinitBody c s = .done (tbStarted c s) := by
  obtain ⟨hplaced, hq, hlow, hhigh, hrecord⟩ := h
  have hcount : ¬(c.uB.toNat = 0 ∨ 65535 < c.uB.toNat) := by omega
  have hsettled : ¬((nearWg c s).liveTb c.uA.toNat = true ∧
      ((nearWg c s).arrp c.uA.toNat ≠ (nearWg c s).arrx c.uA.toNat ∨ (nearWg c s).txp c.uA.toNat ≠ 0)) := by
    rintro ⟨hlive, h⟩
    obtain ⟨harrived, hbytes⟩ := (if_pos hlive).mp hrecord
    exact h.elim (· harrived) (· hbytes)
  have hroom : ¬(!(nearWg c s).liveTb c.uA.toNat && decide (64 ≤ (nearWg c s).tbs.length)) = true := by
    simp only [Bool.and_eq_true, Bool.not_eq_true', decide_eq_true_eq]
    rintro ⟨hdead, h⟩
    exact Nat.not_le.2 ((if_neg (Bool.eq_false_iff.1 hdead)).mp hrecord) h
  rw [tbinitBody, tbBody_of_placed hplaced]
  dsimp only
  rw [if_neg hq, if_neg hcount, if_neg hsettled, if_neg hroom]
  rfl

end

theorem completes_tbinit_startable (x : RForm) : Completes (execTbinit x) 0x1ED (.r x) TbStartable tbStarted :=
  completes_of_ignoresWarps tbinitBody_of_startable

/-! ### The bytes of the record -/

/-- The bytes of a near store are written as those of memory are. -/
theorem near_setNear (g : Workgroup) (a : Nat) (bs : List Byte) (s : State) :
    (g.setNear a bs).near = (State.setBytes { s with mem := g.near } a bs).mem := by
  have hfold (xs : List (Nat × Byte)) (m : SMap Byte) :
      xs.foldl (fun m x => m.put 0 (a + x.1) x.2) m = (State.setCells { s with mem := m } (xs.map fun x => (a + x.1, x.2))).mem := by
    induction xs generalizing m with
    | nil => rfl
    | cons x xs ih => exact ih _
  exact hfold _ _

theorem nearByte_setNear (g : Workgroup) (a : Nat) (bs : List Byte) (i : Nat) :
    (g.setNear a bs).nearByte i = if a ≤ i ∧ i < a + bs.length then bs.getD (i - a) 0 else g.nearByte i := by
  rw [Workgroup.nearByte, near_setNear g a bs State.reset]
  exact State.byte_setBytes _ a bs i

/-- The bytes of a record with n arrivals pending and expected (R313, R314). -/
def recordBytes (n : Nat) : List Byte := List.replicate 18 0 ++ leBytes 2 n ++ leBytes 2 n ++ [1] ++ List.replicate 9 0

/-- At every offset the record reads as one that has been written in one run. -/
theorem nearByte_tbWritten (c : Ctx) (g : Workgroup) (i : Nat) :
    (tbWritten c g).nearByte i = (g.setNear c.uA.toNat (recordBytes c.uB.toNat)).nearByte i := by
  have hlen : (recordBytes c.uB.toNat).length = 32 := by simp [recordBytes]
  simp only [tbWritten, Workgroup.setNearLe, nearByte_setNear, length_leBytes, List.length_replicate, hlen]
  by_cases hi : c.uA.toNat ≤ i ∧ i < c.uA.toNat + 32
  · obtain ⟨k, rfl⟩ := Nat.exists_eq_add_of_le hi.1
    have hk : k < 32 := by omega
    generalize c.uA.toNat = o
    interval_cases k <;> simp [recordBytes, leBytes]
  · rw [if_neg hi, if_neg (by omega), if_neg (by omega), if_neg (by omega), if_neg hi]

/-! ### Near-store bytes out of order -/

/-- TBINIT at s4 with the count in s6. -/
def tbinitForm : RForm := { a := 4, b := 6, bs := true }

/-- A path of 32 lanes with a window of 64 slots. -/
def tbinitPath : Path := { pc := 0x1000, lmask := 0xFFFFFFFF, wtop := 64 }

/-- A warp of workgroup 5, with 32 in s4 and 1 in s6. -/
def tbinitWarp : Warp :=
  { regs := { u := [(4, 32), (6, 1)], dorm := 0, paths := [(0, tbinitPath)] }, wg := 5, place := some { core := 0, half := 0, slot := 0 } }

/-- Byte 60 stands before byte 5 in the near store of workgroup 5. -/
def unorderedWg : Workgroup := { handle := 5, nearSize := 4096, near := [(60, 1), (5, 7)] }

/-- The warp's path issues. -/
def unorderedState : State := { State.reset with warps := [(1, tbinitWarp)], wgs := [(5, unorderedWg)], cur := some { w := 1, p := 0 } }

/-- The context in which the path issues it. -/
def tbinitCtx : Ctx :=
  { w := 1, p := 0, warp := tbinitWarp, path := tbinitPath, cur := { w := 1, p := 0 }, opc := 0x1ED, f := .r tbinitForm
    sh := (shape 0x1ED (.r tbinitForm)).getD {} }

theorem ready_tbinit : Ready 0x1ED (.r tbinitForm) unorderedState tbinitCtx := by decide +kernel

theorem startable_tbinit : TbStartable tbinitCtx unorderedState := by
  have h : (tbinitCtx.guard0 = true ∧ (unorderedState.wg? tbinitCtx.warp.wg).isSome = true) ∧ tbinitCtx.uA.toNat % 32 = 0
      ∧ tbinitCtx.uA.toNat + 32 ≤ (nearWg tbinitCtx unorderedState).nearSize := by decide +kernel
  refine ⟨h, ?_⟩
  decide +kernel

/-- The near-store bytes of workgroup 5. -/
def bytesKept (s : State) : Option (SMap Byte) := (s.wg? 5).map (·.near)

/-- Refutes O23: its first clause writes the 32 bytes of the record in one run, where TBINIT clears them all and then writes the counts. Both
leave the same byte at every offset (`nearByte_tbWritten`), but not the same map where the near store's map is in no canonical form, which the
statement does not ask for: TBINIT clears byte 60 before it puts in the counts, which then follow byte 5; the statement puts the counts before
byte 60, and clears it last. -/
theorem not_transactionBarriers : ¬ Obligations.TransactionBarriers := by
  unfold Obligations.TransactionBarriers
  rintro ⟨hinit, -⟩
  have hstated := hinit tbinitForm unorderedState tbinitCtx ready_tbinit startable_tbinit
  have hruns := completes_tbinit_startable tbinitForm unorderedState tbinitCtx ready_tbinit startable_tbinit
  have hsame := Host.Outcome.next.inj (hstated.symm.trans hruns)
  exact absurd (congrArg bytesKept hsame) (by decide +kernel)

end Sys2Proof.Machine
end

section
/-!
PROOF. The instructions of the copy class (O27).
-/
namespace Sys2Proof.Machine

/-! ### Issue checks (R320, R323) -/

/-- No check of the list fails. -/
def Clear (fs : List (Option (FaultCode × Word64))) : Prop := (firstFault fs).isNone = true

theorem clear_cons {x : Option (FaultCode × Word64)} {fs : List (Option (FaultCode × Word64))} : Clear (x :: fs) ↔ x = none ∧ Clear fs := by
  cases x <;> simp [Clear, firstFault]

theorem checked_of_clear {fs : List (Option (FaultCode × Word64))} (h : Clear fs) (f : Unit → Res) : checked fs f = f () := by
  rw [checked, Option.isNone_iff_eq_none.1 h]

/-- Checks of the elements of a list, each of which is passed. -/
theorem firstFault_map_eq_none {α : Type} {check : α → Option (FaultCode × Word64)} {xs : List α} (h : ∀ x ∈ xs, check x = none) :
    firstFault (xs.map check) = none := by
  induction xs with
  | nil => rfl
  | cons x xs ih =>
    rw [List.map_cons, h x List.mem_cons_self, firstFault]
    exact ih fun y hy => h y (List.mem_cons_of_mem x hy)

theorem checked_without_rights {c : Ctx} (h : c.warp.producer = false) (fs : List (Option (FaultCode × Word64))) (f : Unit → Res) :
    checked (rights c :: fs) f = .trap .nocpyright 0 := by
  simp only [rights, h, Bool.false_eq_true, if_false, checked_some]

/-- An instruction that acts once per path, and checks its issue rights first, faults without them. -/
theorem faults_without_rights {opc : Nat} {form : Form} {body : Ctx → State → Res} {fs : Ctx → State → List (Option (FaultCode × Word64))}
    {g : Ctx → State → Unit → Res} (hb : ∀ c s, body c s = oncePerPath c s fun _ => checked (rights c :: fs c s) (g c s)) :
    Faults (runIop opc form body) opc form (fun c _ => c.guard0 = true ∧ c.warp.producer = false) .nocpyright fun _ _ => 0 :=
  faults_of_body fun _ _ _ ⟨hon, hno⟩ => by rw [hb, oncePerPath_on hon, checked_without_rights hno]

/-! ### The copy queue (R319, R324) -/

section
variable {c : Ctx} {s : State}

/-- The length is 0, or the queue has room for the copy. -/
def CopyFits (n : Nat) (c : Ctx) (s : State) : Prop := n = 0 ∨ CopyRoom c s

theorem queueCopy_of_fits {kind : CopyKind} {n : Nat} {tb : Option Nat} (h : CopyFits n c s) :
    queueCopy c s kind n tb = .done (copying kind n tb c s) := by
  by_cases hn : n = 0
  · simp only [queueCopy, copying, if_pos hn]
  · obtain ⟨hall, hgroup, hflag⟩ := h.resolve_left hn
    simp only [queueCopy, copying, if_neg hn, Nat.not_le.2 hall, Nat.not_le.2 hgroup, or_self, if_false, hflag]

end

/-! ### Operands (R322) -/

namespace Ctx
variable (c : Ctx)

/-- The number of bytes, or the chunk, in S(B). -/
def copyBytes : Nat := c.uB.toNat % 2 ^ 32

/-- The barrier of CPY and CPYO. -/
def copyTb : Option Nat := if c.qa6 = 1 then none else some c.uC.toNat

/-- The barrier of the copies of a box. -/
def boxTb : Option Nat := if 2 ≤ c.qa6 then none else some c.uC.toNat

/-- The tensor record A. -/
def boxA : BitVec 512 := c.warp.regs.tensor c.f.fa.toNat

/-- The bytes of its box, packed (R326). -/
def boxBytes : Nat := tBoxr c.boxA * packedPitch (elemBytes (tFmt c.boxA) (tBoxc c.boxA))

/-- The source addresses of CPYO. -/
def gatherSources : List Nat := (lanesOf c.act).map fun l => (c.srcA l).toNat

/-- The bytes that CPYO copies. -/
def gatherBytes : Nat := c.copyBytes * (lanesOf c.act).length

/-- The views that CPYMC writes. -/
def castViews : List Nat := (List.range 16).filter (c.uB.toNat / 2 ^ 32 % 2 ^ 16).testBit

/-- The stride between views. -/
def castStride : Nat := c.uC.toNat / 2 ^ 32

/-- The offset of the first barrier of CPYMC. -/
def castTb : Nat := c.uC.toNat % 2 ^ 32

theorem copyBarrier_copy : c.copyBarrier (c.qa6 == 1) = c.copyTb := by
  simp only [copyBarrier, copyTb, beq_iff_eq]

theorem copyBarrier_box : c.copyBarrier (decide (2 ≤ c.qa6)) = c.boxTb := by
  simp only [copyBarrier, boxTb, decide_eq_true_eq]

end Ctx

/-! ### CPY, CPYO, CPYT and CPYMC (R324-R326, R328) -/

/-- CPY passes its checks, and has room. -/
def LinearReady (c : Ctx) (s : State) : Prop :=
  c.guard0 = true
    ∧ Clear [rights c, aligned16 [c.uA.toNat, c.uD.toNat, c.copyBytes],
        addresses s c [(c.uA.toNat, c.copyBytes), (c.uD.toNat, c.copyBytes)], barrierChecks s c c.copyTb.toList]
    ∧ CopyFits c.copyBytes c s

/-- CPYO with a lane active passes its checks, and has room. -/
def GatherReady (c : Ctx) (s : State) : Prop :=
  lanesOf c.act ≠ [] ∧ 16 ≤ c.copyBytes ∧ c.copyBytes ≤ 4096
    ∧ Clear [rights c, aligned16 (c.gatherSources ++ [c.uD.toNat]), aligned16 [c.copyBytes],
        addresses s c (c.gatherSources.map (·, c.copyBytes) ++ [(c.uD.toNat, c.gatherBytes)]), barrierChecks s c c.copyTb.toList]
    ∧ CopyFits c.gatherBytes c s

/-- CPYT passes its checks, and has room. -/
def BoxReady (c : Ctx) (s : State) : Prop :=
  c.guard0 = true
    ∧ Clear [rights c, shapeFault c.boxA, aligned16 [c.uD.toNat], addresses s c ((c.uD.toNat, c.boxBytes) :: boxRanges c.boxA),
        barrierChecks s c c.boxTb.toList]
    ∧ CopyFits c.boxBytes c s

/-- CPYMC names views in the window that lie apart, passes its other checks, and has room. -/
def CastReady (c : Ctx) (s : State) : Prop :=
  c.guard0 = true ∧ c.castViews ≠ [] ∧ c.uB.toNat / 2 ^ 32 % 2 ^ 16 ≠ 0 ∧ (c.castViews.length ≤ 1 ∨ c.copyBytes ≤ c.castStride)
    ∧ (∀ v ∈ c.castViews, (windowOfs s c.warp.vf c.warp.asid (c.uD.toNat + v * c.castStride)).isSome = true)
    ∧ Clear [rights c, aligned16 [c.uA.toNat, c.uD.toNat, c.copyBytes, c.castStride],
        addresses s c ((c.uA.toNat, c.copyBytes) :: (c.uD.toNat, 0) :: c.castViews.map fun v => (c.uD.toNat + v * c.castStride, c.copyBytes)),
        if c.qa6 = 1 then none else barrierChecks s c (c.castViews.map fun v => c.castTb + 32 * v)]
    ∧ CopyFits c.copyBytes c s

section
variable {c : Ctx} {s : State}

theorem cpyBody_of_ready (h : LinearReady c s) :
    cpyBody c s = .done (copying (.linear c.uA.toNat c.uD.toNat) c.copyBytes c.copyTb c s) := by
  obtain ⟨hon, hclear, hfits⟩ := h
  rw [cpyBody, oncePerPath_on hon, c.copyBarrier_copy]
  exact (checked_of_clear hclear _).trans (queueCopy_of_fits hfits)

theorem cpyoBody_of_ready (h : GatherReady c s) :
    cpyoBody c s = .done (copying (.gather c.gatherSources c.copyBytes c.uD.toNat) c.gatherBytes c.copyTb c s) := by
  obtain ⟨hlanes, hlow, hhigh, hclear, hfits⟩ := h
  have hchunk : ¬(c.uB.toNat % 2 ^ 32 < 16 ∨ 4096 < c.uB.toNat % 2 ^ 32) := not_or.2 ⟨Nat.not_lt.2 hlow, Nat.not_lt.2 hhigh⟩
  have hsome : ¬(lanesOf c.act).isEmpty = true := mt List.isEmpty_iff.1 hlanes
  simp only [cpyoBody, c.copyBarrier_copy, if_neg hchunk, if_neg hsome]
  exact (checked_of_clear hclear _).trans (queueCopy_of_fits hfits)

/-- Whatever the lanes, CPYO checks its issue rights first (R325). -/
theorem cpyoBody_without_rights (h : c.warp.producer = false) : cpyoBody c s = .trap .nocpyright 0 := by
  simp only [cpyoBody, checked_without_rights h, ite_self]

theorem cpytBody_of_ready (h : BoxReady c s) :
    cpytBody c s =
      .done (copying (if c.qa6 % 2 = 0 then .boxLoad c.boxA c.uD.toNat else .boxStore c.boxA c.uD.toNat) c.boxBytes c.boxTb c s) := by
  obtain ⟨hon, hclear, hfits⟩ := h
  rw [cpytBody, oncePerPath_on hon, c.copyBarrier_box]
  exact (checked_of_clear hclear _).trans (queueCopy_of_fits hfits)

theorem cpymcBody_of_ready (h : CastReady c s) :
    cpymcBody c s = .done (copying (.multicast c.uA.toNat c.uD.toNat c.castStride c.castViews) c.copyBytes
      (if c.qa6 = 1 then none else some c.castTb) c s) := by
  obtain ⟨hon, -, hmask, hapart, hwindow, hclear, hfits⟩ := h
  simp only [clear_cons] at hclear
  obtain ⟨hrights, haligned, haddresses, hbarriers, hnil⟩ := hclear
  have hstride : ¬(1 < c.castViews.length ∧ c.castStride < c.copyBytes) := fun ⟨hmany, hshort⟩ =>
    hapart.elim (Nat.not_le.2 hmany) (Nat.not_le.2 hshort)
  have hinside (v : Nat) (hv : v ∈ c.castViews) :
      ¬(windowOfs s c.warp.vf c.warp.asid (c.uD.toNat + v * c.castStride)).isNone = true := by
    rw [← Option.not_isSome, hwindow v hv]
    decide
  rw [cpymcBody, oncePerPath_on hon]
  refine (checked_of_clear ?_ _).trans (queueCopy_of_fits hfits)
  simp only [clear_cons]
  exact ⟨hrights, haligned, if_neg hmask, if_neg hstride, haddresses, firstFault_map_eq_none fun v hv => if_neg (hinside v hv), hbarriers, hnil⟩

end

/-! ### CPYQ (R327) -/

/-- The packed codes of the box. -/
def Ctx.codeBytes (c : Ctx) : Nat := tBoxr c.boxA * quantPitch c.boxA c.ty

/-- The scales of the box under a descriptor. -/
def Ctx.scaleBytes (c : Ctx) (d : List Byte) : Nat := if descSfmt d = 0 then 0 else tBoxr c.boxA * (tBoxc c.boxA / descBlk d)

/-- The checks that follow the read of the descriptor pass, and there is room. -/
def QuantFits (d : List Byte) (c : Ctx) (s : State) : Prop :=
  tBoxc c.boxA % descBlk d = 0 ∧ tBcol c.boxA % descBlk d = 0
    ∧ Clear [aligned16 [c.uD.toNat], addresses s c ((c.uD.toNat, c.codeBytes) :: boxRanges c.boxA ++ scaleRanges c.boxA d),
        barrierChecks s c c.boxTb.toList]
    ∧ CopyRoom c s

/-- CPYQ reads a legal descriptor, passes its checks, and has room. -/
def QuantReady (c : Ctx) (s : State) : Prop :=
  c.guard0 = true ∧ Clear [rights c, shapeFault c.boxA] ∧ (tFmt c.boxA = .f32 ∨ tFmt c.boxA = .bf16) ∧ c.uB.toNat % 64 = 0
    ∧ match described c s c.uB.toNat (some c.ty) with
      | some (s, d, _) => QuantFits d c s
      | none => False

/-- The state of the lowest lane that stochastic rounding draws from. -/
def Ctx.drawn (c : Ctx) : Word32 := c.warp.regs.srst.lane c.lane0

/-- The copy in the queue; in stochastic mode the lane's state moves on. -/
def quantCopied (d book : List Byte) (c : Ctx) (s : State) : State :=
  let t := copying (.quantise c.boxA c.uD.toNat d book c.ty c.roundM (c.qa6 % 2 == 1) c.warp.regs.gmode c.drawn)
    (c.codeBytes + c.scaleBytes d) c.boxTb c s
  if c.fenv.mode = 6 ∧ c.ty ≠ .cb4 then t.modRegs c.w fun r => { r with srst := r.srst.set c.lane0 (xorshift c.drawn) } else t

/-- The effect of CPYQ under the descriptor at S(B). -/
def quantCopiedAt (c : Ctx) (s : State) : State :=
  match described c s c.uB.toNat (some c.ty) with
  | some (s, d, book) => quantCopied d book c s
  | none => s

/-- What CPYQ does once it has read its descriptor. -/
def quantIssue (c : Ctx) (s : State) (d : List Byte × List Byte) : Res :=
  checked [if tBoxc c.boxA % descBlk d.1 != 0 || tBcol c.boxA % descBlk d.1 != 0 then some (.tshape, 7) else none, aligned16 [c.uD.toNat],
      addresses s c ((c.uD.toNat, c.codeBytes) :: boxRanges c.boxA ++ scaleRanges c.boxA d.1),
      barrierChecks s c (c.copyBarrier (decide (2 ≤ c.qa6))).toList] fun _ =>
    match queueCopy c s (.quantise c.boxA c.uD.toNat d.1 d.2 c.ty c.roundM (c.qa6 % 2 == 1) c.warp.regs.gmode c.drawn)
        (c.codeBytes + c.scaleBytes d.1) (c.copyBarrier (decide (2 ≤ c.qa6))) with
    | .done s =>
      .done (if c.fenv.mode = 6 && c.ty != .cb4 then s.modRegs c.w fun r => { r with srst := r.srst.set c.lane0 (xorshift c.drawn) } else s)
    | r => r

section
variable {c : Ctx} {s : State}

theorem quantIssue_of_fits {d : List Byte × List Byte} (h : QuantFits d.1 c s) : quantIssue c s d = .done (quantCopied d.1 d.2 c s) := by
  obtain ⟨hcols, hcol, hclear, hroom⟩ := h
  have hshape : (if tBoxc c.boxA % descBlk d.1 != 0 || tBcol c.boxA % descBlk d.1 != 0 then some (FaultCode.tshape, (7 : Word64)) else none)
      = none := by simp [hcols, hcol]
  rw [quantIssue, c.copyBarrier_box, checked_of_clear (clear_cons.2 ⟨hshape, hclear⟩), queueCopy_of_fits (.inr hroom)]
  simp only [quantCopied, Bool.and_eq_true, decide_eq_true_eq, bne_iff_ne]

theorem cpyqBody_of_guard (hon : c.guard0 = true) :
    cpyqBody c s =
      checked [rights c, shapeFault c.boxA, if tFmt c.boxA == .f32 || tFmt c.boxA == .bf16 then none else some (.tshape, 7),
          if c.uB.toNat % 64 != 0 then some (.align, BitVec.ofNat 64 c.uB.toNat) else none] fun _ =>
        loadDesc c s c.uB.toNat (some c.ty) (quantIssue c) :=
  oncePerPath_on hon _ _

theorem cpyqBody_of_ready (h : QuantReady c s) : cpyqBody c s = .done (quantCopiedAt c s) := by
  obtain ⟨hon, hclear, hfmt, halign, hdesc⟩ := h
  simp only [clear_cons] at hclear
  obtain ⟨hrights, hshape, hnil⟩ := hclear
  have hfloat : (tFmt c.boxA == .f32 || tFmt c.boxA == .bf16) = true := by simpa using hfmt
  have hblock : ¬(c.uB.toNat % 64 != 0) = true := by simp [halign]
  rw [cpyqBody_of_guard hon, hrights, hshape, if_pos hfloat, if_neg hblock]
  simp only [checked_none, checked_nil]
  unfold quantCopiedAt
  cases hr : described c s c.uB.toNat (some c.ty) with
  | none => simp only [hr] at hdesc
  | some r =>
    simp only [hr] at hdesc
    rw [loadDesc_of_described hr]
    exact quantIssue_of_fits hdesc

end

/-! ### CPYS, CPYC and CPYW (R333) -/

/-- The streamer's status in D. -/
def copiesCounted (c : Ctx) (s : State) : State :=
  let used := (s.eng.copies.filter (·.cluster == clusterOf c.warp.core)).length
  writeUD s c (BitVec.ofNat 64 (bit c.warp.producer * 2 ^ 16 + (128 - used) * 2 ^ 8 + (c.copies s).length))

/-- The copies of the warp that have written nothing. -/
def unwritten (c : Ctx) (s : State) : List Copy := s.eng.copies.filter fun x => x.warp == c.w && !x.wrote

/-- They have left the queue and their flags have cleared; D holds how many there were. -/
def copiesCancelled (c : Ctx) (s : State) : State :=
  let t : State := { s with eng := { s.eng with copies := s.eng.copies.filter fun x => !(x.warp == c.w && !x.wrote) } }
  writeUD ((unwritten c s).foldl (fun t x => t.modWarp c.w (·.flagDone x.flag)) t) c (BitVec.ofNat 64 (unwritten c s).length)

/-- The first fault of the warp's copies is in D, and its record is cleared. -/
def copyFaultTaken (c : Ctx) (s : State) : State := (writeUD s c c.warp.copyFault).modWarp c.w fun x => { x with copyFault := 0 }

/-- CPYW of the producer has not waited, and no copy of the warp is queued. -/
def CopiesOver (c : Ctx) (s : State) : Prop :=
  c.guard0 = true ∧ c.path.wait = none ∧ c.warp.producer = true ∧ s.eng.copies.filter (·.warp == c.w) = []

section
variable {c : Ctx} {s : State}

theorem rights_of_producer (h : c.warp.producer = true) : rights c = none := if_pos h

theorem cpysBody_on (hon : c.guard0 = true) : cpysBody c s = .done (copiesCounted c s) := oncePerPath_on hon _ _

theorem cpycBody_of_producer (h : c.guard0 = true ∧ c.warp.producer = true) : cpycBody c s = .done (copiesCancelled c s) := by
  obtain ⟨hon, hproducer⟩ := h
  rw [cpycBody, oncePerPath_on hon, rights_of_producer hproducer]
  rfl

theorem cpywBody_of_over (h : CopiesOver c s) : cpywBody c s = .done (copyFaultTaken c s) := by
  obtain ⟨hon, hwait, hproducer, hnone⟩ := h
  simp only [cpywBody, oncePerPath_on hon, hwait, rights_of_producer hproducer, checked_none, checked_nil, hnone, List.map_nil]
  rfl

end

/-! ### The instructions -/

/-- Settles O27: each body passes its checks in order, and then queues its copy or answers at once; without rights the first check fails. -/
theorem copiesQueue : Obligations.CopiesQueue := by
  unfold Obligations.CopiesQueue
  refine ⟨?linear, ?gather, ?box, ?quantise, ?cast, ?status, ?cancel, ?wait, ?noLinear, ?noGather, ?noBox, ?noCast, ?noCancel,
    ?linearOff, ?boxOff, ?quantiseOff, ?castOff, ?statusOff, ?cancelOff, ?waitOff⟩
  case linear => exact fun x => completes_of_prepared cpyBody_of_ready
  case gather => exact fun x => completes_of_prepared cpyoBody_of_ready
  case box => exact fun x => completes_of_prepared cpytBody_of_ready
  case quantise => exact fun x => accesses_of_body fun _ _ => cpyqBody_of_ready
  case cast => exact fun x => completes_of_prepared cpymcBody_of_ready
  case status => exact fun x => completes_of_ignoresWarps cpysBody_on
  case cancel => exact fun x => completes_of_ignoresWarps cpycBody_of_producer
  case wait => exact fun x => completes_of_ignoresWarps cpywBody_of_over
  case noLinear => exact fun x => faults_without_rights (body := cpyBody) fun _ _ => rfl
  case noGather => exact fun x => faults_of_body (body := cpyoBody) fun _ _ _ => cpyoBody_without_rights
  case noBox => exact fun x => faults_without_rights (body := cpytBody) fun _ _ => rfl
  case noCast => exact fun x => faults_without_rights (body := cpymcBody) fun _ _ => rfl
  case noCancel => exact fun x => faults_without_rights (body := cpycBody) fun _ _ => rfl
  case linearOff => exact fun x => completes_oncePerPath_off (body := cpyBody) fun _ _ => rfl
  case boxOff => exact fun x => completes_oncePerPath_off (body := cpytBody) fun _ _ => rfl
  case quantiseOff => exact fun x => accesses_of_body (body := cpyqBody) fun _ _ hoff => oncePerPath_off hoff _ _
  case castOff => exact fun x => completes_oncePerPath_off (body := cpymcBody) fun _ _ => rfl
  case statusOff => exact fun x => completes_oncePerPath_off (body := cpysBody) fun _ _ => rfl
  case cancelOff => exact fun x => completes_oncePerPath_off (body := cpycBody) fun _ _ => rfl
  case waitOff => exact fun x => completes_oncePerPath_off (body := cpywBody) fun _ _ => rfl

end Sys2Proof.Machine
end

section
/-!
PROOF. Comparators, trace samples and Isobar's samples (O37).
-/
namespace Sys2Proof.Machine

/-! ### Comparators (R449) -/

/-- The path that comparator `k` breaks, with what its fetch and its walks have noted forgotten. -/
def unnoted (w p : Nat) (s : State) : State := s.modPath w p fun q => { q with wait := none, notes := [] }

/-- The core of a warp, or 0. -/
def coreOf (s : State) (w : Nat) : Nat := ((s.warp? w).map (·.core)).getD 0

/-- Path `p` of warp `w` issues, has not been let past a comparator, and comparator `k` breaks it. -/
def Breaks (w p k : Nat) (s : State) : Prop :=
  ∃ c q, s.cur = some c ∧ c.w = w ∧ c.p = p ∧ s.path? w p = some q ∧ q.skip = false ∧ breakingComparator s = some k

section
variable {w p k : Nat} {s : State}

theorem comparatorMatch_of_breaks (h : Breaks w p k s) :
    comparatorMatch w p k s = some
      (if (s.comparator (coreOf s w) k).act = 3 then raiseFault (unnoted w p s) w p .breakpoint (BitVec.ofNat 64 (256 + k))
        else clauseBoundary (stopPath { unnoted w p s with cur := none } w p (256 + k)) w) := by
  obtain ⟨c, q, hcur, hw, hp, hpath, hskip, hbreak⟩ := h
  unfold comparatorMatch
  simp only [hcur, hbreak, hpath, hw, hp, hskip, ne_eq, not_true_eq_false, Bool.false_eq_true, or_self, if_false]
  split
  · rw [if_pos ‹_›]
    rfl
  · rw [if_neg ‹_›]
    rfl

end

/-! ### Trace samples (R446) -/

/-- A new sample period of a core's ring has begun, and one record is written for each half that started a clause in the last. -/
def traceSampled (core : Nat) (r : TraceRing) (s : State) : State :=
  r.last.foldl (fun s h => traceRecord s core h.2 9 false h.1 [])
    { s with dbg := { s.dbg with rings := s.dbg.rings.insert core { r with last := [], sampled := s.clock } } }

theorem traceSample_of_due {core : Nat} {r : TraceRing} {s : State} (hring : s.dbg.rings.find? core = some r) (hper : r.sper ≠ 0)
    (hdue : r.sampled + 2 ^ (r.sper + 8) ≤ s.clock) : traceSample core s = some (traceSampled core r s) := by
  unfold traceSample
  simp only [hring, hper, Nat.not_lt.2 hdue, or_self, if_false]
  rfl

/-! ### Isobar (R454) -/

/-- The waiting warps of a die, with their progress counters. -/
def isobarSeen (die : Nat) (s : State) : List (Nat × Word64) :=
  (s.warps.filter fun x => x.2.kind == .ordinary && !x.2.released && dieOf x.2.core == die && x.2.isoWaiting).map fun x => (x.1, x.2.regs.prog)

/-- Reports made one after another change nothing but the reports that wait. -/
theorem foldl_reports_eq {α : Type} {f : State → α → State} (hf : ∀ s x, ∃ r, f s x = { s with reports := r }) (xs : List α) (s : State) :
    ∃ r, xs.foldl f s = { s with reports := r } := by
  refine List.foldlRecOn (motive := fun t : State => ∃ r, t = { s with reports := r }) xs f ⟨s.reports, rfl⟩ fun t ⟨r, ht⟩ x _ => ?_
  obtain ⟨r', h⟩ := hf t x
  exact ⟨r', by rw [h, ht]⟩

/-- The debug state after a sample of a die, with the knots that it keeps. -/
def isobarKept (die : Nat) (knots : List (List Nat)) (s : State) : Debug :=
  { s.dbg with seen := s.dbg.seen.insert die (isobarSeen die s), sampledAt := s.dbg.sampledAt.insert die s.clock, knots := knots }

/-- Isobar's step changes the reports that wait, and of the debug state its samples and its knots. -/
theorem isobarSample_of_due {die : Nat} {s : State} (hfw : (s.sys.fwcore.find? die).isSome = true)
    (hdue : s.dbg.sampledAt.get 0 die + s.dbg.interval ≤ s.clock) :
    ∃ r k, isobarSample die s = some { s with reports := r, dbg := isobarKept die k s } := by
  have hon : ¬((s.sys.fwcore.find? die).isNone || decide (s.clock < s.dbg.sampledAt.get 0 die + s.dbg.interval)) = true := by
    simp [Nat.not_lt.2 hdue, Option.isSome_iff_ne_none.1 hfw]
  have hseen : ((s.warps.filter fun x => x.2.kind == .ordinary && !x.2.released && dieOf x.2.core == die).filter fun x => x.2.isoWaiting).map
      (fun x => (x.1, x.2.regs.prog)) = isobarSeen die s := by
    rw [List.filter_filter, isobarSeen]
    simp only [Bool.and_comm]
  unfold isobarSample
  simp only [if_neg hon, hseen]
  generalize List.filter _ (knotParts _ _) = new
  obtain ⟨r, hr⟩ := foldl_reports_eq (f := fun (s : State) (k : List Nat) =>
    (NSet.insertAll [] (k.filterMap fun w => (s.warp? w).map (·.vf))).foldl (fun s vf => addReport s vf .trap (knotReport s k vf) none) s)
    (fun s k => foldl_reports_eq (fun _ _ => ⟨_, rfl⟩) _ s) new s
  rw [hr]
  exact ⟨r, _, rfl⟩

/-! ### The obligation -/

/-- Settles O37: each step is computed where it is enabled. -/
theorem debugEvents : Obligations.DebugEvents := by
  unfold Obligations.DebugEvents
  refine ⟨?fault, ?stop, ?trace, ?isobar⟩
  case fault =>
    intro w p k s ⟨h, hact⟩
    exact runEvent_of_some ((comparatorMatch_of_breaks h).trans (congrArg some (if_pos hact)))
  case stop =>
    intro w p k s ⟨h, hact⟩
    exact runEvent_of_some ((comparatorMatch_of_breaks h).trans (congrArg some (if_neg hact)))
  case trace => exact fun n r s ⟨hring, hper, hdue⟩ => runEvent_of_some (traceSample_of_due hring hper hdue)
  case isobar =>
    intro die s ⟨hfw, hdue⟩
    obtain ⟨r, k, h⟩ := isobarSample_of_due hfw hdue
    exact ⟨_, runEvent_of_some h, rfl, rfl, rfl, rfl, SMap.find?_insert_self .., SMap.find?_insert_self ..⟩

end Sys2Proof.Machine
end

section
/-!
PROOF. The debug and trace instructions (O34).
-/
namespace Sys2Proof.Machine

/-- With no page in flip, an IOP that makes accesses at once and acts once for the path completes with no effect where its guard is false. -/
theorem completes_still_off {opc : Nat} {f : Form} {body : Ctx → State → Res} {g : Ctx → State → Unit → Res}
    (hb : ∀ c s, body c s = oncePerPath c s (g c s)) :
    Completes (runIopFlip opc f body) opc f (fun c s => s.flips = [] ∧ c.guard0 = false) fun _ s => s :=
  completes_of_still (fun _ _ ⟨h, _⟩ => h) (completes_of_ignoresWarps fun {c s} ⟨_, hoff⟩ => (hb c s).trans (oncePerPath_off hoff _ _))

/-! ### BKPT, STAMP and BEARQ (R448, R451) -/

/-- The path has stopped at the next instruction. -/
def stoppedNext (c : Ctx) (s : State) : State :=
  stopPath (s.modPath c.w c.p fun q => { q with pc := c.fallPc, notes := [], wait := none }) c.w c.p c.f.fc.toNat

/-- The operand of STAMP is in the trace of the core, and D holds CLOCK. -/
def stamped (c : Ctx) (s : State) : State :=
  writeUD (traceRecord s c.warp.core (traceHead c.warp c.p c.path) 7 false 0 [c.uA.toNat]) c (BitVec.ofNat 64 s.clock)

section
variable {c : Ctx} {s : State}

theorem bkptBody_on (hon : c.guard0 = true) :
    bkptBody c s = if c.q = 0 then .trap .breakpoint (BitVec.ofNat 64 c.f.fc.toNat) else .moved (stoppedNext c s) := oncePerPath_on hon _ _

theorem stampBody_on (hon : c.guard0 = true) : stampBody c s = .done (stamped c s) := oncePerPath_on hon _ _

theorem bearqBody_on (hon : c.guard0 = true) :
    bearqBody c s = .done (if c.q = 1 then (writeUD s c c.path.bearing).modPath c.w c.p fun q => { q with bearing := 0 }
      else writeUD s c c.path.bearing) := oncePerPath_on hon _ _

end

/-! ### PROGQ (R450, R451) -/

/-- The peer of PROGQ.peer, where it has not exited. -/
def progPeer (c : Ctx) (s : State) : Option (Nat × Warp) :=
  match selected s c.warp c.uA with
  | .ok n => ((s.warp? n).filter fun x => !x.exited).map fun x => (n, x)
  | .error _ => none

/-- PROG of the peer, from its state or from its record, or all ones with no peer; none where the record cannot be read. -/
def progCount (c : Ctx) (s : State) : Option (State × Word64) :=
  match progPeer c s with
  | none => some (s, BitVec.allOnes 64)
  | some (_, x) =>
    if x.inRecord = false then some (s, x.regs.prog)
    else match recordRead s x (x.regs.vofs - 192) 1 with
      | (t, .ok bs) => some (t, BitVec.ofNat 64 (numAt bs 0 8))
      | (_, .error _) => none

section
variable {c : Ctx} {s : State}

/-- PROG lies 192 bytes before the vector slots in a record (R337). -/
theorem remoteProg_of_read {n : Nat} {x : Warp} {t : State} {v : Word64} (hvofs : 448 ≤ x.regs.vofs)
    (h : (if x.inRecord = false then some (s, x.regs.prog)
      else match recordRead s x (x.regs.vofs - 192) 1 with
        | (t, .ok bs) => some (t, BitVec.ofNat 64 (numAt bs 0 8))
        | (_, .error _) => none) = some (t, v)) : remoteProg s n x = (t, some v) := by
  have hofs : x.regs.vofs - 448 + 256 = x.regs.vofs - 192 := by omega
  unfold remoteProg
  rw [hofs]
  by_cases hin : x.inRecord = false
  · rw [if_pos hin] at h
    cases h
    rw [hin]
    rfl
  · rw [if_neg hin] at h
    rw [Bool.not_eq_false] at hin
    rw [hin]
    rcases hread : recordRead s x (x.regs.vofs - 192) 1 with ⟨u, _ | bs⟩
    · simp only [hread] at h
      cases h
    · simp only [hread] at h
      cases h
      rfl

theorem progqBody_own (hon : c.guard0 = true) (hq : c.q = 0) : progqBody c s = .done (writeUD s c c.warp.regs.prog) :=
  (oncePerPath_on hon _ _).trans (if_pos hq)

theorem progqBody_peer {t : State} {v : Word64} (hon : c.guard0 = true) (hq : c.q ≠ 0) (hcount : progCount c s = some (t, v))
    (hvofs : (progPeer c s).all (fun x => 448 ≤ x.2.regs.vofs) = true) : progqBody c s = .done (writeUD t c v) := by
  refine ((oncePerPath_on hon _ _).trans (if_neg hq)).trans ?_
  unfold progCount at hcount
  cases hpeer : progPeer c s with
  | none =>
    simp only [hpeer] at hcount
    cases hcount
    unfold progPeer at hpeer
    cases hsel : selected s c.warp c.uA with
    | error e => rfl
    | ok n =>
      simp only [hsel, Option.map_eq_none_iff] at hpeer
      simp only [Except.toOption, hpeer]
  | some r =>
    obtain ⟨n, x⟩ := r
    simp only [hpeer] at hcount
    simp only [hpeer, Option.all_some, decide_eq_true_eq] at hvofs
    unfold progPeer at hpeer
    cases hsel : selected s c.warp c.uA with
    | error e => simp only [hsel] at hpeer; cases hpeer
    | ok m =>
      simp only [hsel, Option.map_eq_some_iff] at hpeer
      obtain ⟨y, hy, heq⟩ := hpeer
      cases heq
      simp only [Except.toOption, hy, remoteProg_of_read hvofs hcount]

/-- The count of PROGQ.peer is in D. -/
def peerProgWritten (c : Ctx) (s : State) : State :=
  match progCount c s with
  | some (t, n) => writeUD t c n
  | none => s

theorem progqBody_counted (h : c.guard0 = true ∧ c.q ≠ 0 ∧ (progCount c s).isSome = true
      ∧ (progPeer c s).all (fun x => 448 ≤ x.2.regs.vofs) = true) : progqBody c s = .done (peerProgWritten c s) := by
  obtain ⟨hon, hq, hsome, hvofs⟩ := h
  obtain ⟨⟨t, v⟩, hcount⟩ := Option.isSome_iff_exists.1 hsome
  rw [progqBody_peer hon hq hcount hvofs, peerProgWritten, hcount]

end

/-! ### TRCON, TRCOFF and TRCSEL (R452) -/

namespace Ctx
variable (c : Ctx)

/-- The core and the size of the ring that TRCON names. -/
def ringCore : Nat := c.uB.toNat % 2 ^ 9
def ringLog : Nat := c.uB.toNat / 2 ^ 16 % 2 ^ 5

/-- TRCON names a ring of a legal size that lies aligned in memory, and no reserved bit is set. -/
def RingWellFormed : Prop :=
  c.ringCore + c.ringLog * 2 ^ 16 + (if c.uB.getLsbD 24 then 2 ^ 24 else 0) + c.uB.toNat / 2 ^ 28 % 16 * 2 ^ 28 = c.uB.toNat
    ∧ 12 ≤ c.ringLog ∧ c.ringLog ≤ 30 ∧ c.uA.toNat % 2 ^ c.ringLog = 0 ∧ c.uA.toNat < 2 ^ 52

/-- The word of TRCSEL has a bit that must be zero, or an ACT that does not exist. -/
def SelectBad : Prop := if c.q = 1 then c.uB.toNat / 2 ^ 57 % 2 ^ 6 ≠ 0 else 4 < c.uB.toNat / 2 ^ 4 % 8

/-- The comparator that TRCSEL names. -/
def comparatorKey : Nat := 4 * (c.uA.toNat / 2 ^ 16 % 512) + c.uA.toNat % 4

end Ctx

/-- The ring of TRCON, empty. -/
def newRing (c : Ctx) (s : State) : TraceRing :=
  { base := c.uA.toNat, log := c.ringLog, wrap := c.uB.getLsbD 24, sper := c.uB.toNat / 2 ^ 28 % 16, sampled := s.clock }

/-- The ring is enabled, and D holds 0. -/
def ringEnabled (c : Ctx) (s : State) : State :=
  writeUD { s with dbg := { s.dbg with rings := s.dbg.rings.insert c.ringCore (newRing c s) } } c 0

/-- The word of the comparator is set, and D holds 0. -/
def comparatorSet (c : Ctx) (s : State) : State :=
  let old := s.dbg.comps.get {} c.comparatorKey
  let new := if c.q = 1 then { old with pc := c.uB } else { old with id := BitVec.ofNat 64 (c.uB.toNat / 16 * 16) }
  writeUD { s with dbg := { s.dbg with comps := s.dbg.comps.put {} c.comparatorKey new } } c 0

section
variable {c : Ctx} {s : State}

/-- The checks of TRCON fail where what it names is not well formed. -/
theorem enableRing_checks :
    (c.ringCore + c.ringLog * 2 ^ 16 + bit (c.uB.toNat.testBit 24) * 2 ^ 24 + c.uB.toNat / 2 ^ 28 % 16 * 2 ^ 28 ≠ c.uB.toNat
      ∨ c.ringLog < 12 ∨ 30 < c.ringLog ∨ c.uA.toNat % 2 ^ c.ringLog ≠ 0 ∨ 2 ^ 52 ≤ c.uA.toNat) ↔ ¬c.RingWellFormed := by
  have hwrap : bit (c.uB.toNat.testBit 24) * 2 ^ 24 = if c.uB.getLsbD 24 then 2 ^ 24 else 0 := by
    rw [BitVec.getLsbD, bit]
    split <;> simp
  rw [hwrap, Ctx.RingWellFormed]
  simp only [not_and_or, not_le, not_lt, ne_eq]

theorem trconBody_of {t : State} {st : Nat} (hon : c.guard0 = true) (h : enableRing s c.uA.toNat c.uB = (t, st)) :
    trconBody c s = .done (writeUD t c (BitVec.ofNat 64 st)) := by
  rw [trconBody, oncePerPath_on hon, h]

theorem enableRing_malformed (h : ¬c.RingWellFormed) : enableRing s c.uA.toNat c.uB = (s, 1) := if_pos (enableRing_checks.2 h)

theorem enableRing_wellFormed (h : c.RingWellFormed) :
    enableRing s c.uA.toNat c.uB = if (s.dbg.rings.find? c.ringCore).isSome then (s, 2)
      else ({ s with dbg := { s.dbg with rings := s.dbg.rings.insert c.ringCore (newRing c s) } }, 0) :=
  if_neg fun hbad => enableRing_checks.1 hbad h

theorem trconBody_free (h : c.guard0 = true ∧ c.RingWellFormed ∧ s.dbg.rings.find? c.ringCore = none) :
    trconBody c s = .done (ringEnabled c s) := by
  obtain ⟨hon, hwf, hnone⟩ := h
  exact trconBody_of hon ((enableRing_wellFormed hwf).trans (if_neg (by rw [hnone]; exact Bool.false_ne_true)))

theorem trconBody_taken (h : c.guard0 = true ∧ c.RingWellFormed ∧ (s.dbg.rings.find? c.ringCore).isSome = true) :
    trconBody c s = .done (writeUD s c 2) := by
  obtain ⟨hon, hwf, hsome⟩ := h
  exact trconBody_of hon ((enableRing_wellFormed hwf).trans (if_pos hsome))

theorem trconBody_malformed (h : c.guard0 = true ∧ ¬c.RingWellFormed) : trconBody c s = .done (writeUD s c 1) := by
  obtain ⟨hon, hwf⟩ := h
  exact trconBody_of hon (enableRing_malformed hwf)

theorem trcoffBody_on (hon : c.guard0 = true) :
    trcoffBody c s = .done (writeUD (disableRing s (c.uA.toNat % 512)).1 c (disableRing s (c.uA.toNat % 512)).2) := oncePerPath_on hon _ _

theorem trcselBody_on (hon : c.guard0 = true) :
    trcselBody c s = .done (writeUD (selectComparator s (c.q == 1) c.uA c.uB).1 c
      (BitVec.ofNat 64 (selectComparator s (c.q == 1) c.uA c.uB).2)) := oncePerPath_on hon _ _

theorem trcselBody_bad (h : c.guard0 = true ∧ c.SelectBad) : trcselBody c s = .done (writeUD s c 1) := by
  obtain ⟨hon, hbad⟩ := h
  have hsel : selectComparator s (c.q == 1) c.uA c.uB = (s, 1) := by
    unfold Ctx.SelectBad at hbad
    by_cases hq : c.q = 1
    · rw [if_pos hq] at hbad
      rw [hq]
      exact if_pos hbad
    · rw [if_neg hq] at hbad
      rw [beq_eq_false_iff_ne.2 hq]
      exact if_pos hbad
  rw [trcselBody_on hon, hsel]
  rfl

theorem trcselBody_good (h : c.guard0 = true ∧ ¬c.SelectBad) : trcselBody c s = .done (comparatorSet c s) := by
  obtain ⟨hon, hgood⟩ := h
  rw [trcselBody_on hon, comparatorSet]
  unfold Ctx.SelectBad at hgood
  by_cases hq : c.q = 1
  · rw [if_pos hq] at hgood
    rw [hq, if_pos rfl, selectComparator]
    dsimp only
    rw [if_neg (by exact hgood)]
    rfl
  · rw [if_neg hq] at hgood
    rw [beq_eq_false_iff_ne.2 hq, if_neg hq, selectComparator]
    dsimp only
    rw [if_neg (by exact hgood)]
    rfl

end

/-! ### The obligation -/

/-- Settles O34: each body is once for the path, and is computed by its qualifier, its operands and the rings. -/
theorem debugInstructions : Obligations.DebugInstructions := by
  unfold Obligations.DebugInstructions
  refine ⟨?stamp, ?bearing, ?clear, ?progress, ?peer, ?ringOn, ?ringTaken, ?ringBad, ?ringOff, ?select, ?selectBad, ?fault, ?stop,
    ?bkptOff, ?stampOff, ?bearqOff, ?progqOff, ?trconOff, ?trcoffOff, ?trcselOff⟩
  case stamp => exact fun x => completes_of_ignoresWarps stampBody_on
  case bearing =>
    exact fun x => completes_of_ignoresWarps fun ⟨hon, hq⟩ => (bearqBody_on hon).trans (congrArg Res.done (if_neg hq))
  case clear => exact fun x => completes_of_ignoresWarps fun ⟨hon, hq⟩ => (bearqBody_on hon).trans (congrArg Res.done (if_pos hq))
  case progress =>
    exact fun x => completes_of_still (fun _ _ ⟨h, _⟩ => h) (completes_of_ignoresWarps fun ⟨_, hon, hq⟩ => progqBody_own hon hq)
  case peer => exact fun x => completes_of_still_prepared progqBody_counted
  case ringOn => exact fun x => completes_of_prepared trconBody_free
  case ringTaken => exact fun x => completes_of_prepared trconBody_taken
  case ringBad => exact fun x => completes_of_ignoresWarps trconBody_malformed
  case ringOff => exact fun x => completes_of_ignoresWarps trcoffBody_on
  case select => exact fun x => completes_of_ignoresWarps trcselBody_good
  case selectBad => exact fun x => completes_of_ignoresWarps trcselBody_bad
  case fault => exact fun x => faults_of_ignoresWarps fun ⟨hon, hq⟩ => (bkptBody_on hon).trans (if_pos hq)
  case stop =>
    exact fun x => transfers_of_body fun s c _ ⟨hon, hq⟩ => (bkptBody_on hon).trans (if_neg hq)
  case bkptOff => exact fun x => completes_oncePerPath_off (body := bkptBody) fun _ _ => rfl
  case stampOff => exact fun x => completes_oncePerPath_off (body := stampBody) fun _ _ => rfl
  case bearqOff => exact fun x => completes_oncePerPath_off (body := bearqBody) fun _ _ => rfl
  case progqOff => exact fun x => completes_still_off (body := progqBody) fun _ _ => rfl
  case trconOff => exact fun x => completes_oncePerPath_off (body := trconBody) fun _ _ => rfl
  case trcoffOff => exact fun x => completes_oncePerPath_off (body := trcoffBody) fun _ _ => rfl
  case trcselOff => exact fun x => completes_oncePerPath_off (body := trcselBody) fun _ _ => rfl

end Sys2Proof.Machine
end

section
/-!
PROOF. Peers, pairing, sleep and the hot set (O28).
-/
namespace Sys2Proof.Machine

/-- A release whose stores have performed goes on from its boundary (R300). -/
theorem releaseThen_of_released {c : Ctx} {s : State} {sc : Scope} (h : Released c s sc) (f : State → Res) :
    releaseThen c s sc f = f (boundary s c.warp.core sc) := by
  obtain ⟨hwait, hnone⟩ := h
  simp only [releaseThen, hwait, hnone]

/-! ### Naming a peer (R351, R352) -/

/-- The warp that a selector names, where its workgroup is not saved. -/
def chosenPeer (sel : Ctx → Word64) (c : Ctx) (s : State) : Option Nat :=
  match selected s c.warp (sel c) with
  | .ok n => if savedWg s n = none then some n else none
  | .error _ => none

/-- The warp that RLD or RLDU reads: the one that it has waited for, or the one that it names. -/
def remoteOwner (c : Ctx) (s : State) : Option Nat :=
  match c.path.wait with
  | some (.remote n _) => if (s.warp? n).isSome = true then some n else chosenPeer (·.uB) c s
  | _ => chosenPeer (·.uB) c s

section
variable {c : Ctx} {s : State} {n : Nat}

theorem chosenPeer_eq_some {sel : Ctx → Word64} (h : chosenPeer sel c s = some n) :
    selected s c.warp (sel c) = .ok n ∧ savedWg s n = none := by
  unfold chosenPeer at h
  split at h
  · rename_i m hm
    split at h
    · cases h
      exact ⟨hm, ‹_›⟩
    · cases h
  · cases h

theorem withPeer_of_unsaved (h : savedWg s n = none) (f : Unit → Res) : withPeer s n f = f () := by
  simp only [withPeer, h]

theorem remoteOwner_of_waited {m : Nat} {r : Reg} (hwait : c.path.wait = some (.remote m r)) :
    remoteOwner c s = if (s.warp? m).isSome = true then some m else chosenPeer (·.uB) c s := by
  simp only [remoteOwner, hwait]

theorem remoteOwner_of_not_waited (hwait : ∀ m r, c.path.wait ≠ some (.remote m r)) : remoteOwner c s = chosenPeer (·.uB) c s := by
  unfold remoteOwner
  split
  · exact absurd ‹_› (hwait _ _)
  · rfl

/-- Goes on with the peer that the selector names. -/
def withNamed (c : Ctx) (s : State) (f : Nat → Res) : Res :=
  match selected s c.warp c.uB with
  | .error (code, info) => .trap code info
  | .ok n => withPeer s n fun _ => f n

theorem withNamed_of_chosen (h : chosenPeer (·.uB) c s = some n) (f : Nat → Res) : withNamed c s f = f n := by
  obtain ⟨hsel, hsaved⟩ := chosenPeer_eq_some h
  simp only [withNamed, hsel, withPeer_of_unsaved hsaved]

theorem withOwner_of_waited {m : Nat} {r : Reg} (hwait : c.path.wait = some (.remote m r)) (f : Nat → Res) :
    withOwner c s f = if (s.warp? m).isSome = true then f m else withNamed c s f := by
  simp only [withOwner, hwait]
  rfl

theorem withOwner_of_not_waited (hwait : ∀ m r, c.path.wait ≠ some (.remote m r)) (f : Nat → Res) :
    withOwner c s f = withNamed c s f := by
  unfold withOwner
  generalize c.path.wait = x at hwait
  dsimp only
  split
  · exact absurd rfl (hwait _ _)
  · rfl

theorem withOwner_of_owner (h : remoteOwner c s = some n) (f : Nat → Res) : withOwner c s f = f n := by
  by_cases hwait : ∃ m r, c.path.wait = some (.remote m r)
  · obtain ⟨m, r, hwait⟩ := hwait
    rw [remoteOwner_of_waited hwait] at h
    rw [withOwner_of_waited hwait]
    by_cases hm : (s.warp? m).isSome = true
    · rw [if_pos hm] at h ⊢
      cases h
      rfl
    · rw [if_neg hm] at h ⊢
      exact withNamed_of_chosen h f
  · have hother : ∀ m r, c.path.wait ≠ some (.remote m r) := fun m r he => hwait ⟨m, r, he⟩
    rw [remoteOwner_of_not_waited hother] at h
    exact (withOwner_of_not_waited hother f).trans (withNamed_of_chosen h f)

end

/-! ### RLD (R352, R353) -/

namespace Ctx
variable (c : Ctx)

/-- The slot, or the uniform, that RLD or RLDU names. -/
abbrev remoteSlot : Nat := c.uB.toNat / 2 ^ 16 % 2 ^ 16

/-- The slots that RLD reads. -/
abbrev remoteCount : Nat := if c.ty.bytes = 8 then 2 else 1

/-- The lane of the peer that a lane of RLD reads. -/
def remoteLane (l : Nat) : Nat := if c.q = 1 then l else (c.srcA l).toNat % 32

end Ctx

/-- The i-th slot that RLD reads; zeros beyond the last. -/
def remotePart (c : Ctx) (s : State) (n i : Nat) : State × Option Row :=
  if i < c.remoteCount then remoteRow s n (c.remoteSlot + i) else (s, some zeroRow)

/-- Both words of the peer's slots, and the state after their read. -/
def remoteRows (c : Ctx) (s : State) : Option (State × Row × Row) :=
  (remoteOwner c s).bind fun n =>
    (remotePart c s n 0).2.bind fun x =>
      (remotePart c (remotePart c s n 0).1 n 1).2.map fun y => ((remotePart c (remotePart c s n 0).1 n 1).1, x, y)

/-- None of the slots that RLD reads has a write outstanding. -/
def remoteIdle (c : Ctx) (n : Nat) (s : State) : Bool :=
  (List.range c.remoteCount).all fun i => !(busyRegs s n).contains (.slot (c.remoteSlot + i))

/-- The peer's slots lie in its stack, have no write outstanding, and can be read. -/
def RowsReadable (c : Ctx) (s : State) : Prop :=
  c.act ≠ 0 ∧ (remoteRows c s).isSome = true
    ∧ ((remoteOwner c s).any fun n => (s.warp? n).any fun x =>
        decide (c.remoteSlot + c.remoteCount ≤ x.regs.stackSize) && remoteIdle c n s) = true

/-- The peer's words are in D, lane by lane. -/
def rowsRead (c : Ctx) (s : State) : State :=
  match remoteRows c s with
  | some (s, x, y) => writeVec s c (c.f.km.getLsbD 3) c.f.d.toNat c.remoteCount c.act fun l => y.lane (c.remoteLane l) ++ x.lane (c.remoteLane l)
  | none => s

section
variable {c : Ctx} {s : State}

theorem remotePart_zero (n : Nat) : remotePart c s n 0 = remoteRow s n c.remoteSlot := by
  refine if_pos ?_
  unfold Ctx.remoteCount
  split <;> decide

theorem remotePart_one (n : Nat) :
    remotePart c s n 1 = if c.remoteCount = 2 then remoteRow s n (c.remoteSlot + 1) else (s, some zeroRow) := by
  unfold remotePart Ctx.remoteCount
  split
  · rfl
  · rfl

theorem rldBody_of_readable (h : RowsReadable c s) : rldBody c s = .done (rowsRead c s) := by
  obtain ⟨hact, hrows, howner⟩ := h
  obtain ⟨⟨t, x, y⟩, hread⟩ := Option.isSome_iff_exists.1 hrows
  rw [rowsRead, hread]
  obtain ⟨n, hn, hread⟩ := Option.bind_eq_some_iff.1 hread
  obtain ⟨_, h0, hread⟩ := Option.bind_eq_some_iff.1 hread
  obtain ⟨_, h1, heq⟩ := Option.map_eq_some_iff.1 hread
  cases heq
  simp only [hn, Option.any_some, Option.any_eq_true, Bool.and_eq_true, decide_eq_true_eq] at howner
  obtain ⟨z, hz, hsize, hidle⟩ := howner
  have hbusy : ((List.range c.remoteCount).find? fun i => (busyRegs s n).contains (.slot (c.remoteSlot + i))) = none :=
    List.find?_eq_none.2 fun i hi hcontains =>
      Bool.false_ne_true ((Bool.not_eq_true' _ ▸ List.all_eq_true.1 hidle i hi : _ = false).symm.trans hcontains)
  rw [remotePart_zero] at h0 h1
  rw [remotePart_one] at h1
  rw [remotePart_zero, remotePart_one]
  rcases hr0 : remoteRow s n c.remoteSlot with ⟨s0, o0⟩
  rw [hr0] at h0 h1
  dsimp only at h0 h1 ⊢
  subst h0
  rcases hr1 : (if c.remoteCount = 2 then remoteRow s0 n (c.remoteSlot + 1) else (s0, some zeroRow)) with ⟨s1, o1⟩
  rw [hr1] at h1
  dsimp only at h1 ⊢
  subst h1
  simp only [rldBody, if_neg hact, withOwner_of_owner hn, hz, Option.map_some, Option.getD_some, Nat.not_lt.2 hsize, if_false, hbusy, hr0]
  rw [hr1]
  rfl

end

/-! ### RLDU (R352) -/

/-- The uniform of the peer, and the state after its read. -/
def remoteUniformOf (c : Ctx) (s : State) : Option (State × Word64) :=
  (remoteOwner c s).bind fun n => (remoteUniform s n c.remoteSlot).2.map fun x => ((remoteUniform s n c.remoteSlot).1, x)

/-- The peer's uniform exists, has no write outstanding, and can be read. -/
def UniformReadable (c : Ctx) (s : State) : Prop :=
  c.guard0 = true ∧ c.remoteSlot < 64 ∧ (remoteUniformOf c s).isSome = true
    ∧ ((remoteOwner c s).any fun n => !(busyRegs s n).contains (.uni c.remoteSlot)) = true

/-- The peer's uniform is in D. -/
def uniformRead (c : Ctx) (s : State) : State :=
  match remoteUniformOf c s with
  | some (s, y) => writeUD s c y
  | none => s

section
variable {c : Ctx} {s : State}

theorem rlduBody_of_readable (h : UniformReadable c s) : rlduBody c s = .done (uniformRead c s) := by
  obtain ⟨hon, hslot, hsome, hidle⟩ := h
  obtain ⟨⟨t, x⟩, hread⟩ := Option.isSome_iff_exists.1 hsome
  rw [uniformRead, hread]
  obtain ⟨n, hn, hread⟩ := Option.bind_eq_some_iff.1 hread
  obtain ⟨_, hx, heq⟩ := Option.map_eq_some_iff.1 hread
  cases heq
  simp only [hn, Option.any_some, Bool.not_eq_true'] at hidle
  rcases hr : remoteUniform s n c.remoteSlot with ⟨t, o⟩
  rw [hr] at hx
  cases hx
  rw [rlduBody, oncePerPath_on hon, withOwner_of_owner hn]
  simp only [Nat.not_le.2 hslot, if_false, hidle, Bool.false_eq_true, hr]

end

/-! ### XPAIR (R355) -/

/-- The issuer's workgroup. -/
def ownGroup (c : Ctx) (s : State) : Workgroup := (s.wg? c.warp.wg).getD { handle := 0 }

/-- The handle of the workgroup that XPAIR names. -/
def pairNamed (c : Ctx) (s : State) : Nat := (peerWg s c.warp (c.uA.toNat % 2 ^ 32)).getD 0

/-- The workgroup that XPAIR names. -/
def otherGroup (c : Ctx) (s : State) : Workgroup := (s.wg? (pairNamed c s)).getD (ownGroup c s)

/-- Both workgroups of an XPAIR that does not unpair run. -/
def PairFound (c : Ctx) (s : State) : Prop :=
  c.guard0 = true ∧ c.q ≠ 2 ∧ (s.wg? c.warp.wg).isSome = true ∧ (peerWg s c.warp (c.uA.toNat % 2 ^ 32)).isSome = true

/-- They are not paired with each other yet. -/
def PairFresh (c : Ctx) (s : State) : Prop := PairFound c s ∧ (ownGroup c s).pair ≠ some (pairNamed c s)

/-- They lie on one die, in two clusters. -/
def PairApart (c : Ctx) (s : State) : Prop :=
  PairFresh c s ∧ (ownGroup c s).die = (otherGroup c s).die ∧ (ownGroup c s).cluster ≠ (otherGroup c s).cluster

/-- One of them is paired, or asks for another. -/
def pairTaken (c : Ctx) (s : State) : Bool :=
  (ownGroup c s).pair.isSome || ((ownGroup c s).asks.isSome && (ownGroup c s).asks != some (pairNamed c s)) || (otherGroup c s).pair.isSome
    || ((otherGroup c s).asks.isSome && (otherGroup c s).asks != some c.warp.wg)

/-- Both are paired, and D holds 0. -/
def pairJoined (c : Ctx) (s : State) : State :=
  let t := s.modWg c.warp.wg fun g => { g with pair := some (pairNamed c s), asks := none }
  writeUD (t.modWg (pairNamed c s) fun g => { g with pair := some c.warp.wg, asks := none }) c 0

/-- The issuer's workgroup asks for the other. -/
def pairAsked (c : Ctx) (s : State) : State := s.modWg c.warp.wg fun g => { g with asks := some (pairNamed c s) }

section
variable {c : Ctx} {s : State}

/-- XPAIR of two running workgroups, check by check. -/
theorem xpairBody_of_found (h : PairFound c s) :
    xpairBody c s =
      if (ownGroup c s).pair = some (pairNamed c s) then .done (writeUD s c 0)
      else if (ownGroup c s).die ≠ (otherGroup c s).die then .done (writeUD s c 3)
      else if (ownGroup c s).cluster = (otherGroup c s).cluster then .done (writeUD s c 2)
      else if pairTaken c s = true then .done (writeUD s c 4)
      else if (otherGroup c s).asks = some c.warp.wg then .done (pairJoined c s)
      else if c.q = 1 then .done (writeUD (pairAsked c s) c 1) else .wait (pairAsked c s) (.pair (pairNamed c s)) := by
  obtain ⟨hon, hq, hg, hp⟩ := h
  obtain ⟨g, hg⟩ := Option.isSome_iff_exists.1 hg
  obtain ⟨n, hp⟩ := Option.isSome_iff_exists.1 hp
  have hnamed : pairNamed c s = n := by rw [pairNamed, hp]; rfl
  have hown : ownGroup c s = g := by rw [ownGroup, hg]; rfl
  simp only [xpairBody, oncePerPath_on hon, if_neg hq, hg, hp, pairTaken, pairJoined, pairAsked, otherGroup, hnamed, hown, bne_iff_ne]

theorem xpairBody_unpairs (h : c.guard0 = true ∧ c.q = 2) : xpairBody c s = .done (writeUD (unpair s c.warp.wg) c 0) := by
  obtain ⟨hon, hq⟩ := h
  exact (oncePerPath_on hon _ _).trans (if_pos hq)

theorem xpairBody_gone (h : c.guard0 = true ∧ c.q ≠ 2 ∧ peerWg s c.warp (c.uA.toNat % 2 ^ 32) = none) :
    xpairBody c s = .done (writeUD s c 5) := by
  obtain ⟨hon, hq, hnone⟩ := h
  rw [xpairBody, oncePerPath_on hon]
  refine (if_neg hq).trans ?_
  rw [hnone]
  cases s.wg? c.warp.wg <;> rfl

theorem xpairBody_paired (h : PairFound c s ∧ (ownGroup c s).pair = some (pairNamed c s)) : xpairBody c s = .done (writeUD s c 0) := by
  obtain ⟨hfound, hpair⟩ := h
  rw [xpairBody_of_found hfound, if_pos hpair]

theorem xpairBody_otherDie (h : PairFresh c s ∧ (ownGroup c s).die ≠ (otherGroup c s).die) : xpairBody c s = .done (writeUD s c 3) := by
  obtain ⟨⟨hfound, hpair⟩, hdie⟩ := h
  rw [xpairBody_of_found hfound, if_neg hpair, if_pos hdie]

theorem xpairBody_sameCluster
    (h : PairFresh c s ∧ (ownGroup c s).die = (otherGroup c s).die ∧ (ownGroup c s).cluster = (otherGroup c s).cluster) :
    xpairBody c s = .done (writeUD s c 2) := by
  obtain ⟨⟨hfound, hpair⟩, hdie, hcluster⟩ := h
  rw [xpairBody_of_found hfound, if_neg hpair, if_neg (not_not_intro hdie), if_pos hcluster]

/-- XPAIR of two workgroups that may be paired. -/
theorem xpairBody_of_apart (h : PairApart c s) :
    xpairBody c s =
      if pairTaken c s = true then .done (writeUD s c 4)
      else if (otherGroup c s).asks = some c.warp.wg then .done (pairJoined c s)
      else if c.q = 1 then .done (writeUD (pairAsked c s) c 1) else .wait (pairAsked c s) (.pair (pairNamed c s)) := by
  obtain ⟨⟨hfound, hpair⟩, hdie, hcluster⟩ := h
  rw [xpairBody_of_found hfound, if_neg hpair, if_neg (not_not_intro hdie), if_neg hcluster]

/-- XPAIR of two workgroups of which neither is taken. -/
theorem xpairBody_of_untaken (h : PairApart c s) (htaken : pairTaken c s = false) :
    xpairBody c s =
      if (otherGroup c s).asks = some c.warp.wg then .done (pairJoined c s)
      else if c.q = 1 then .done (writeUD (pairAsked c s) c 1) else .wait (pairAsked c s) (.pair (pairNamed c s)) :=
  (xpairBody_of_apart h).trans (if_neg (Bool.eq_false_iff.1 htaken))

end

/-! ### XSHUF (R356) -/

/-- The exchange of the named warp that waits for this one. -/
def waitingShuf (c : Ctx) (s : State) : Option Shuf :=
  match shufPeer s c.warp c.uB with
  | .ok n => if savedWg s n = none then s.eng.shufs.find? fun o => o.w == n && o.peer == c.w && !o.bad else none
  | .error _ => none

/-- The lanes that both sides exchange. -/
abbrev commonLanes (c : Ctx) (o : Shuf) : BitVec 32 := o.lanes &&& c.act

/-- The i-th row of A. -/
abbrev Ctx.shufRow (c : Ctx) (i : Nat) : Row := c.vrow (c.f.km.getLsbD 2) (c.f.fa.toNat + i)

/-- The rows of each side, by number. -/
abbrev Shuf.parts (o : Shuf) : List Nat := List.range (if o.wide then 2 else 1)

/-- The warp that has waited with the rows of the other. -/
def shufGiven (c : Ctx) (o : Shuf) (x : Warp) : Warp := o.parts.foldl (fun x i => x.setRow (o.d + i) (commonLanes c o) (c.shufRow i)) x

/-- The i-th row of the warp that has waited. -/
def shufTheirs (t : State) (o : Shuf) (i : Nat) : Row :=
  match o.krows with
  | some ks => ks.getD i zeroRow
  | none => ((remoteRow t o.w (o.a + i)).2).getD zeroRow

/-- The named warp's exchange waits for this one, has its width, and its slots can be read and written. -/
def ShufMeets (c : Ctx) (s : State) : Prop :=
  c.act ≠ 0 ∧ (match c.path.wait with | some (.shuf _) => False | _ => True)
    ∧ match waitingShuf c s with
      | some o => o.wide = decide (c.ty.bytes = 8) ∧ (match o.krows with | some ks => ks.length = o.parts.length | none => True)
          ∧ (match updateSlots s o.w o.slots id with | .ok _ => True | .error _ => False)
          ∧ (match updateSlots s o.w o.slots (shufGiven c o) with | .ok _ => True | .error _ => False)
      | none => False

/-- Both sides hold the other's rows in the common lanes, and no exchange waits. -/
def shufSwapped (c : Ctx) (s : State) : State :=
  match waitingShuf c s with
  | some o =>
    (match updateSlots s o.w o.slots id, updateSlots s o.w o.slots (shufGiven c o) with
      | .ok t, .ok u =>
        dropShuf (o.parts.foldl (fun s i =>
          writeRow s c false (c.f.d.toNat + i) (commonLanes c o) fun l => (shufTheirs t o i).lane l) u) o.k
      | _, _ => s)
  | none => s

section
variable {c : Ctx} {s : State}

theorem waitingShuf_eq_some {o : Shuf} (h : waitingShuf c s = some o) :
    ∃ n, shufPeer s c.warp c.uB = .ok n ∧ savedWg s n = none
      ∧ (s.eng.shufs.find? fun o => o.w == n && o.peer == c.w && !o.bad) = some o := by
  unfold waitingShuf at h
  split at h
  · rename_i n hn
    split at h
    · exact ⟨n, hn, ‹_›, h⟩
    · cases h
  · cases h

/-- A row of a list made from a range of numbers. -/
theorem getD_map_range {f : Nat → Row} {k i : Nat} (h : i ∈ List.range k) : ((List.range k).map f).getD i zeroRow = f i := by
  rw [List.getD_eq_getElem?_getD, List.getElem?_map, List.getElem?_range (List.mem_range.1 h)]
  rfl

/-- An exchange writes to the warp that has waited the rows of the other. -/
theorem shufGiven_eq (c : Ctx) (o : Shuf) (x : Warp) :
    o.parts.foldl (fun x i => x.setRow (o.d + i) (commonLanes c o) ((o.parts.map c.shufRow).getD i zeroRow)) x = shufGiven c o x :=
  List.foldl_ext _ _ _ fun x i hi => by rw [Shuf.parts, getD_map_range hi]

/-- An exchange takes from the warp that has waited its k-rows, or its rows as they were before any write. -/
theorem shufTheirs_eq (t : State) (o : Shuf) {i : Nat} (hi : i ∈ o.parts) :
    (o.krows.getD (o.parts.map fun i => ((remoteRow t o.w (o.a + i)).2).getD zeroRow)).getD i zeroRow = shufTheirs t o i := by
  unfold shufTheirs
  cases o.krows with
  | some ks => rfl
  | none =>
    rw [Option.getD_none, Shuf.parts, getD_map_range hi]

theorem exchange_of_ok {o : Shuf} {t u : State} (ht : updateSlots s o.w o.slots id = .ok t)
    (hu : updateSlots s o.w o.slots (shufGiven c o) = .ok u) :
    exchange s c o = .done (dropShuf (o.parts.foldl (fun s i =>
      writeRow s c false (c.f.d.toNat + i) (commonLanes c o) fun l => (shufTheirs t o i).lane l) u) o.k) := by
  have hgiven : (fun x => o.parts.foldl (fun x i => x.setRow (o.d + i) (commonLanes c o) ((o.parts.map c.shufRow).getD i zeroRow)) x)
      = shufGiven c o := funext (shufGiven_eq c o)
  have htheirs : o.parts.foldl (fun s i => writeRow s c false (c.f.d.toNat + i) (commonLanes c o) fun l =>
      ((o.krows.getD (o.parts.map fun i => ((remoteRow t o.w (o.a + i)).2).getD zeroRow)).getD i zeroRow).lane l) u
      = o.parts.foldl (fun s i => writeRow s c false (c.f.d.toNat + i) (commonLanes c o) fun l => (shufTheirs t o i).lane l) u :=
    List.foldl_ext _ _ _ fun s i hi => by rw [shufTheirs_eq t o hi]
  rw [← hgiven] at hu
  rw [← htheirs]
  unfold exchange
  simp only [ht, hu]

theorem xshufBody_of_meets (h : ShufMeets c s) : xshufBody c s = .done (shufSwapped c s) := by
  obtain ⟨hact, hwait, hmeets⟩ := h
  unfold shufSwapped
  split at hmeets
  · rename_i o ho
    obtain ⟨hwide, -, ht, hu⟩ := hmeets
    obtain ⟨n, hn, hsaved, hfind⟩ := waitingShuf_eq_some ho
    rw [xshufBody, if_neg hact]
    split
    · rename_i heq
      rw [heq] at hwait
      exact hwait.elim
    · simp only [hn, withPeer_of_unsaved hsaved, hfind, hwide, bne_self_eq_false, Bool.false_eq_true, if_false]
      rcases ht' : updateSlots s o.w o.slots id with e | t
      · rw [ht'] at ht
        exact ht.elim
      · rcases hu' : updateSlots s o.w o.slots (shufGiven c o) with e | u
        · rw [hu'] at hu
          exact hu.elim
        · exact exchange_of_ok ht' hu'
  · exact hmeets.elim

end

/-! ### CTXQ, SLEEP, WAKE and HOTSET (R358-R361) -/

/-- What CTXQ answers by its form. -/
def contextWord (c : Ctx) (s : State) : Word64 :=
  if c.q = 0 then c.warp.record.zeroExtend 64 else if c.q = 1 then peerWord s c.warp c.uA
  else if c.q = 2 then c.warp.regs.decl else c.warp.regs.misscnt.zeroExtend 64

/-- The wake that was pending is taken: the path refreshes, and D holds 0. -/
def wakeTaken (c : Ctx) (s : State) : State :=
  writeUD (refresh (s.modWarp c.w fun x => { x with wakeDie := false, regs := { x.regs with wakep := false } }) c.warp.core
    (if c.warp.wakeDie then .die else .clus)) c 0

/-- The path has not gone to sleep in this SLEEP. -/
def Ctx.NotSleeping (c : Ctx) : Prop := match c.path.wait with | some (.sleep _ _ _) => False | _ => True

/-- The scope at which WAKE publishes. -/
def Ctx.wakeScope (c : Ctx) : Scope := if c.uA.getLsbD 6 then .die else .clus

/-- The state in which the peer of WAKE has been woken. -/
def peerWoken (c : Ctx) (s : State) : Option State :=
  (chosenPeer (·.uA) c s).bind fun n =>
    match updateSaved (boundary s c.warp.core c.wakeScope) n (wakeWarp (c.uA.getLsbD 6)) with
    | .ok t => some t
    | .error _ => none

/-- The field of DECL that HOTSET writes. -/
def Ctx.hotField (c : Ctx) : Nat := (min (max (c.uA.toNat % 2 ^ 32) 8) 2048 + 7) / 8 - 1

/-- The hot set has been replaced, and slots beyond it leave the register cache. -/
def hotSetReplaced (c : Ctx) (s : State) : State :=
  s.modWarp c.w fun x =>
    let y := { x with regs := { x.regs with decl := (x.regs.decl &&& ~~~((0xFF : Word64) <<< 48)) ||| (BitVec.ofNat 64 c.hotField <<< 48) } }
    y.makeRoom 0 (y.victims (pendingSlots s c.w))

section
variable {c : Ctx} {s : State}

theorem ctxqBody_on (hon : c.guard0 = true) : ctxqBody c s = .done (writeUD s c (contextWord c s)) := by
  rw [ctxqBody, oncePerPath_on hon, contextWord]
  split
  · rw [if_pos ‹_›]
  · rw [if_neg (by omega), if_pos ‹_›]
  · rw [if_neg (by omega), if_neg (by omega), if_pos ‹_›]
  · rw [if_neg ‹_›, if_neg ‹_›, if_neg ‹_›]

/-- SLEEP of a path that has not gone to sleep in it. -/
theorem sleepBody_of_notSleeping (hon : c.guard0 = true) (hwait : c.NotSleeping) :
    sleepBody c s = if c.warp.regs.wakep = true then afterReads c s fun _ => .done (wakeTaken c s)
      else .wait s (.sleep s.clock (c.uA.toNat % 2 ^ 32) none) := by
  unfold Ctx.NotSleeping at hwait
  rw [sleepBody, oncePerPath_on hon]
  dsimp only
  split
  · rename_i heq
    rw [heq] at hwait
    exact hwait.elim
  · rfl

theorem sleepBody_awake (h : c.guard0 = true ∧ c.NotSleeping ∧ c.warp.regs.wakep = true ∧ pendingReads s c.w c.path.lmask = []) :
    sleepBody c s = .done (wakeTaken c s) := by
  obtain ⟨hon, hwait, hpending, hreads⟩ := h
  rw [sleepBody_of_notSleeping hon hwait, if_pos hpending, afterReads_of_none hreads]

theorem sleepBody_sleeps (h : c.guard0 = true ∧ c.NotSleeping ∧ c.warp.regs.wakep = false) :
    sleepBody c s = .wait s (.sleep s.clock (c.uA.toNat % 2 ^ 32) none) := by
  obtain ⟨hon, hwait, hpending⟩ := h
  rw [sleepBody_of_notSleeping hon hwait, if_neg (Bool.eq_false_iff.1 hpending)]

theorem wakeBody_woken (h : c.guard0 = true ∧ Released c s c.wakeScope ∧ (peerWoken c s).isSome = true) :
    wakeBody c s = .done ((peerWoken c s).getD s) := by
  obtain ⟨hon, hreleased, hsome⟩ := h
  obtain ⟨t, ht⟩ := Option.isSome_iff_exists.1 hsome
  rw [ht, Option.getD_some]
  obtain ⟨n, hn, hsaved⟩ := Option.bind_eq_some_iff.1 ht
  obtain ⟨hsel, hunsaved⟩ := chosenPeer_eq_some hn
  rw [wakeBody, oncePerPath_on hon]
  simp only [hsel, withPeer_of_unsaved hunsaved]
  rw [← Ctx.wakeScope, releaseThen_of_released hreleased]
  split at hsaved
  · rename_i heq
    cases hsaved
    simp only [heq]
  · cases hsaved

theorem hotsetBody_on (hon : c.guard0 = true) : hotsetBody c s = .done (hotSetReplaced c s) := oncePerPath_on hon _ _

end

/-! ### The obligation -/

/-- Settles O28: a body that names a peer goes on with it, and its effect is computed there; the others once for the path. -/
theorem peersAndResidency : Obligations.PeersAndResidency := by
  unfold Obligations.PeersAndResidency
  refine ⟨?rld, ?rldu, ?xshuf, ?unpairs, ?paired, ?otherDie, ?sameCluster, ?taken, ?joins, ?asks, ?waits, ?gone, ?query, ?awake, ?sleeps, ?wake,
    ?hotset, ?rldOff, ?xshufOff, ?rlduOff, ?xpairOff, ?ctxqOff, ?sleepOff, ?wakeOff, ?hotsetOff⟩
  case rld => exact fun x => completes_of_still_prepared rldBody_of_readable
  case rldu => exact fun x => completes_of_still_prepared rlduBody_of_readable
  case xshuf => exact fun x => completes_of_still_prepared xshufBody_of_meets
  case unpairs => exact fun x => completes_of_ignoresWarps xpairBody_unpairs
  case paired => exact fun x => completes_of_prepared xpairBody_paired
  case otherDie => exact fun x => completes_of_prepared xpairBody_otherDie
  case sameCluster => exact fun x => completes_of_prepared xpairBody_sameCluster
  case taken => exact fun x => completes_of_prepared fun ⟨hapart, htaken⟩ => (xpairBody_of_apart hapart).trans (if_pos htaken)
  case joins => exact fun x => completes_of_prepared fun ⟨hapart, htaken, hasks⟩ => (xpairBody_of_untaken hapart htaken).trans (if_pos hasks)
  case asks =>
    exact fun x => completes_of_prepared fun ⟨hapart, htaken, hasks, hq⟩ =>
      (xpairBody_of_untaken hapart htaken).trans ((if_neg hasks).trans (if_pos hq))
  case waits =>
    exact fun x => waits_of_prepared fun ⟨hapart, htaken, hasks, hq⟩ =>
      (xpairBody_of_untaken hapart htaken).trans ((if_neg hasks).trans (if_neg hq))
  case gone => exact fun x => completes_of_prepared xpairBody_gone
  case query => exact fun x => completes_of_ignoresWarps fun ⟨hon, _⟩ => ctxqBody_on hon
  case awake => exact fun x => completes_of_ignoresWarps sleepBody_awake
  case sleeps => exact fun x => waits_of_ignoresWarps sleepBody_sleeps
  case wake => exact fun x => completes_of_still_prepared wakeBody_woken
  case hotset => exact fun x => completes_of_ignoresWarps hotsetBody_on
  case rldOff => exact fun x => completes_of_still (fun _ _ ⟨h, _⟩ => h) (completes_of_ignoresWarps fun ⟨_, hoff⟩ => if_pos hoff)
  case xshufOff => exact fun x => completes_of_still (fun _ _ ⟨h, _⟩ => h) (completes_of_ignoresWarps fun ⟨_, hoff⟩ => if_pos hoff)
  case rlduOff => exact fun x => completes_still_off (body := rlduBody) fun _ _ => rfl
  case xpairOff => exact fun x => completes_oncePerPath_off (body := xpairBody) fun _ _ => rfl
  case ctxqOff => exact fun x => completes_oncePerPath_off (body := ctxqBody) fun _ _ => rfl
  case sleepOff => exact fun x => completes_oncePerPath_off (body := sleepBody) fun _ _ => rfl
  case wakeOff => exact fun x => completes_still_off (body := wakeBody) fun _ _ => rfl
  case hotsetOff => exact fun x => completes_oncePerPath_off (body := hotsetBody) fun _ _ => rfl

end Sys2Proof.Machine
end

section
/-!
PROOF. The instructions of user-level interrupts (O31).
-/
namespace Sys2Proof.Machine

/-! ### UISEND (R396) -/

namespace Ctx
variable (c : Ctx)

/-- The scope at which UISEND publishes before its send goes. -/
def sendScope : Scope := if c.uA.getLsbD 41 then .pod else .pkg

/-- The address space that UISEND names. -/
def sendTarget : Nat := c.uA.toNat / 2 ^ 16 % 2 ^ 16

/-- The send of UISEND. -/
def userSend : Send :=
  { k := 0, vf := c.warp.vf, asid := if c.sendTarget = 0xFFFF then c.warp.asid else c.sendTarget, v := c.uA.toNat % 64, pay := c.uB
    src := .kernel c.warp.asid, pkg := if c.uA.getLsbD 41 then some (c.uA.toNat / 2 ^ 32 % 512) else none
    warp := some (c.w, c.path.lmask, c.f.d.toNat) }

end Ctx

theorem uisendBody_of_released {c : Ctx} {s : State} (h : c.guard0 = true ∧ Released c s c.sendScope) :
    uisendBody c s = .done (queueSend (boundary s c.warp.core c.sendScope) c.userSend) := by
  obtain ⟨hon, hreleased⟩ := h
  rw [uisendBody, oncePerPath_on hon]
  exact releaseThen_of_released hreleased _

/-! ### UIREG and UIUNREG (R395) -/

/-- The port of the warp's address space. -/
def ownPort (c : Ctx) (s : State) : Option Port := s.port? c.warp.vf c.warp.asid

/-- The entry of the vector that A names. -/
def ownVec (c : Ctx) (s : State) : Vec := (((ownPort c s).getD {}).vecs).get {} (c.uA.toNat % 64)

/-- UIREG names no mode, or an entry beyond the address space. -/
abbrev Ctx.RegMalformed (c : Ctx) : Prop := c.uA.toNat / 2 ^ 6 % 4 = 3 ∨ 2 ^ 57 ≤ c.uB.toNat

/-- Another warp holds the vector. -/
def vecHeld (c : Ctx) (s : State) : Bool := (ownVec c s).v && (ownVec c s).hrec != c.warp.record

/-- The warp holds the vector, and D holds 0. -/
def vecRegistered (c : Ctx) (s : State) : State :=
  writeUD (s.modVec c.warp.vf c.warp.asid (c.uA.toNat % 64) fun e =>
    { e with hrec := c.warp.record, v := true, entry := c.uB.truncate 57, mode := c.uA.toNat / 2 ^ 6 % 4, prio := c.uA.toNat / 2 ^ 8 % 16
             frame := c.uA.toNat / 2 ^ 16 % 32 }) c 0

section
variable {c : Ctx} {s : State}

theorem uiregBody_noPort (h : c.guard0 = true ∧ ownPort c s = none) : uiregBody c s = .done (writeUD s c 3) := by
  obtain ⟨hon, hnone⟩ := h
  rw [ownPort] at hnone
  simp only [uiregBody, oncePerPath_on hon, hnone]
  rfl

/-- UIREG where the space has a port, check by check. -/
theorem uiregBody_of_port (hon : c.guard0 = true) (h : (ownPort c s).isSome = true) :
    uiregBody c s = if c.RegMalformed then .done (writeUD s c 2) else if vecHeld c s = true then .done (writeUD s c 1)
      else .done (vecRegistered c s) := by
  obtain ⟨p, hp⟩ := Option.isSome_iff_exists.1 h
  have hvec : ownVec c s = p.vecs.get {} (c.uA.toNat % 64) := by rw [ownVec, hp]; rfl
  rw [ownPort] at hp
  simp only [uiregBody, oncePerPath_on hon, hp, vecHeld, hvec]
  rfl

theorem uiregBody_malformed (h : c.guard0 = true ∧ (ownPort c s).isSome = true ∧ c.RegMalformed) : uiregBody c s = .done (writeUD s c 2) := by
  obtain ⟨hon, hport, hbad⟩ := h
  rw [uiregBody_of_port hon hport, if_pos hbad]

theorem uiregBody_held (h : c.guard0 = true ∧ (ownPort c s).isSome = true ∧ ¬c.RegMalformed ∧ vecHeld c s = true) :
    uiregBody c s = .done (writeUD s c 1) := by
  obtain ⟨hon, hport, hgood, hheld⟩ := h
  rw [uiregBody_of_port hon hport, if_neg hgood, if_pos hheld]

theorem uiregBody_registers (h : c.guard0 = true ∧ (ownPort c s).isSome = true ∧ ¬c.RegMalformed ∧ vecHeld c s = false) :
    uiregBody c s = .done (vecRegistered c s) := by
  obtain ⟨hon, hport, hgood, hfree⟩ := h
  rw [uiregBody_of_port hon hport, if_neg hgood, if_neg (Bool.eq_false_iff.1 hfree)]

theorem uiunregBody_on (hon : c.guard0 = true) :
    uiunregBody c s = if holdsVector s c.warp (c.uA.toNat % 64) = true then .done (writeUD (unregister s c.w c.warp (c.uA.toNat % 64)) c 0)
      else .done (writeUD s c 1) := oncePerPath_on hon _ _

end

/-! ### UIMASK and UIWAIT (R405, R406) -/

/-- The mask that UIMASK leaves, by its form. -/
def Ctx.newMask (c : Ctx) : Word64 :=
  if c.q = 0 then c.uA else if c.q = 1 then c.warp.regs.uimask ||| c.uA else c.warp.regs.uimask &&& ~~~c.uA

/-- The mask is replaced, and D holds the old one. -/
def maskReplaced (c : Ctx) (s : State) : State := writeUD (s.modRegs c.w fun r => { r with uimask := c.newMask }) c c.warp.regs.uimask

/-- The path does not wait in this UIWAIT yet. -/
def Ctx.NotWaiting (c : Ctx) : Prop := match c.path.wait with | some (.uiwait _ _ _) => False | _ => True

/-- What the path's UIWAIT has ended with. -/
def Ctx.uiOutcome (c : Ctx) : Option Nat := match c.path.wait with | some (.uiwait _ _ x) => x | _ => none

section
variable {c : Ctx} {s : State}

theorem uimaskBody_on (hon : c.guard0 = true) : uimaskBody c s = .done (maskReplaced c s) := by
  have hmask : (match c.q with | 0 => c.uA | 1 => c.warp.regs.uimask ||| c.uA | _ => c.warp.regs.uimask &&& ~~~c.uA) = c.newMask := by
    unfold Ctx.newMask
    split
    · rw [if_pos ‹_›]
    · rw [if_neg (by omega), if_pos ‹_›]
    · rw [if_neg ‹_›, if_neg ‹_›]
  rw [maskReplaced, ← hmask]
  exact oncePerPath_on hon _ _

theorem uiwaitBody_waits (h : c.guard0 = true ∧ c.NotWaiting) :
    uiwaitBody c s = .wait s (.uiwait s.clock (c.uA.toNat % 2 ^ 32) none) := by
  obtain ⟨hon, hwait⟩ := h
  unfold Ctx.NotWaiting at hwait
  rw [uiwaitBody, oncePerPath_on hon]
  split
  · rename_i heq
    rw [heq] at hwait
    exact hwait.elim
  · rename_i heq
    rw [heq] at hwait
    exact hwait.elim
  · rfl

theorem uiwaitBody_ended (h : c.guard0 = true ∧ c.uiOutcome.isSome = true) :
    uiwaitBody c s = .done (writeUD s c (BitVec.ofNat 64 (c.uiOutcome.getD 0))) := by
  obtain ⟨hon, hsome⟩ := h
  obtain ⟨n, hn⟩ := Option.isSome_iff_exists.1 hsome
  rw [hn, uiwaitBody, oncePerPath_on hon]
  unfold Ctx.uiOutcome at hn
  split at hn
  · rename_i hwait
    rw [hwait, hn]
    rfl
  · cases hn

end

/-! ### UIEND and UIACK (R402, R404) -/

/-- The path is in a handler whose interrupt frame lies in resident slots. -/
def InHandler (c : Ctx) (s : State) : Prop :=
  c.guard0 = true ∧ c.path.depth ≠ 0 ∧ SlotsReady c s c.frameSlots ∧ (c.linkWord 2 c.lane0).toNat % 256 = 0

/-- The frame of a group kept a wait that it takes up again. -/
def Ctx.keptWait (c : Ctx) (q : Path) : Bool := (c.linkWord 2 ((lowLane q.lmask).getD 0)).getLsbD 23

/-- Every lane has returned to its interrupted place, delivery is unmasked unless the frame was acknowledged, and the windows of the
interrupted places are being refilled. -/
def frameLeft (c : Ctx) (s : State) : State :=
  let t := splitPath c s (fun l => (c.frameGoal l, false)) fun q => q.returned c.path.depth.toNat (c.keptWait q)
  let t := if (c.linkWord 2 c.lane0).getLsbD 25 then t else t.modWarp c.w fun x => { x with uiLanes := 0 }
  (NSet.insertAll [] ((lanesOf c.path.lmask).map fun l => (c.frameGoal l).wbase.toNat * 2 ^ 17 + (c.frameGoal l).wtop.toNat)).foldl
    (fun t k => refillWindow t c.w (k / 2 ^ 17) (k % 2 ^ 17)) t

/-- The slot of the interrupt frame that names its vector, and its row. -/
def Ctx.infoSlot (c : Ctx) : Nat := c.path.wbase.toNat - 2
def Ctx.infoRow (c : Ctx) : Row := c.warp.regs.row c.infoSlot

/-- The path is in a handler whose frame's vector slot is resident. -/
def InFrame (c : Ctx) (s : State) : Prop :=
  c.guard0 = true ∧ c.path.depth ≠ 0 ∧ SlotsReady c s [c.infoSlot] ∧ (c.infoRow.lane c.lane0).toNat % 256 = 0

/-- The frame is marked acknowledged, and delivery is unmasked. -/
def frameAcked (c : Ctx) (s : State) : State :=
  if (c.infoRow.lane c.lane0).getLsbD 25 then s
  else s.modWarp c.w fun x =>
    { x.setRow c.infoSlot c.path.lmask (Row.ofFn fun l => c.infoRow.lane l ||| 0x2000000) with uiLanes := 0 }

section
variable {c : Ctx} {s : State}

theorem uiendBody_of_handler (h : InHandler c s) : uiendBody c s = .moved (frameLeft c s) := by
  obtain ⟨hon, hdepth, hslots, hinfo⟩ := h
  rw [uiendBody, oncePerPath_on hon, if_neg hdepth, withSlots_of_ready hslots]
  exact if_neg (not_not_intro hinfo)

theorem uiendBody_outside (h : c.guard0 = true ∧ c.path.depth = 0) : uiendBody c s = .trap .uistate 2 := by
  obtain ⟨hon, hdepth⟩ := h
  rw [uiendBody, oncePerPath_on hon, if_pos hdepth]

theorem uiackBody_of_frame (h : InFrame c s) : uiackBody c s = .done (frameAcked c s) := by
  obtain ⟨hon, hdepth, hslots, hinfo⟩ := h
  rw [uiackBody, oncePerPath_on hon]
  refine (if_neg hdepth).trans ((withSlots_of_ready hslots _).trans ((if_neg (not_not_intro hinfo)).trans ?_))
  exact (apply_ite Res.done _ _ _).symm

theorem uiackBody_outside (h : c.guard0 = true ∧ c.path.depth = 0) : uiackBody c s = .trap .uistate 3 := by
  obtain ⟨hon, hdepth⟩ := h
  rw [uiackBody, oncePerPath_on hon]
  exact if_pos hdepth

end

/-! ### UIPOLL (R407) -/

/-- The vector that A names is pending. -/
def Ctx.polled (c : Ctx) : Bool := c.warp.regs.uipend.getLsbD (c.uA.toNat % 64)

/-- The predicate says whether the vector was pending; if it was, D holds its payload, it is pending no longer, and the core has
refreshed. -/
def vectorTaken (c : Ctx) (s : State) : State :=
  let t := writePred s c c.f.fc.toNat 0xFFFFFFFF (if c.polled then 0xFFFFFFFF else 0)
  let t := writeUD t c (if c.polled then c.warp.regs.pay.get 0 (c.uA.toNat % 64) else 0)
  if c.polled then refresh (t.modWarp c.w (clearPending (c.uA.toNat % 64))) c.warp.core .pod else t

section
variable {c : Ctx} {s : State}

theorem uipollBody_words (h : c.guard0 = true ∧ c.q = 0) :
    uipollBody c s = .done (writeUD s c (c.warp.regs.uipend &&& ~~~c.warp.regs.uimask)) := by
  obtain ⟨hon, hq⟩ := h
  exact (oncePerPath_on hon _ _).trans (if_pos hq)

theorem uipollBody_take (h : c.guard0 = true ∧ c.q ≠ 0 ∧ (c.polled = true → pendingReads s c.w c.path.lmask = [])) :
    uipollBody c s = .done (vectorTaken c s) := by
  obtain ⟨hon, hq, hreads⟩ := h
  rw [uipollBody, oncePerPath_on hon]
  refine (if_neg hq).trans ?_
  unfold vectorTaken
  by_cases hpolled : c.polled = true
  · simp only [hpolled, if_true]
    exact (if_pos hpolled).trans (afterReads_of_none (hreads hpolled) _)
  · simp only [hpolled]
    exact if_neg hpolled

end

/-! ### The obligation -/

/-- Settles O31: each body is once for the path, and is computed by the port, the mask, or the interrupt frame. -/
theorem interruptInstructions : Obligations.InterruptInstructions := by
  unfold Obligations.InterruptInstructions
  refine ⟨?send, ?noPort, ?malformed, ?held, ?register, ?unregister, ?notHeld, ?mask, ?waits, ?ended, ?uiend, ?uiendOutside, ?ack, ?ackOutside,
    ?poll, ?take, ?sendOff, ?regOff, ?unregOff, ?maskOff, ?waitOff, ?endOff, ?ackOff, ?pollOff⟩
  case send => exact fun x => completes_of_prepared uisendBody_of_released
  case noPort => exact fun x => completes_of_prepared uiregBody_noPort
  case malformed => exact fun x => completes_of_prepared uiregBody_malformed
  case held => exact fun x => completes_of_prepared uiregBody_held
  case register => exact fun x => completes_of_prepared uiregBody_registers
  case unregister => exact fun x => completes_of_prepared fun ⟨hon, h⟩ => (uiunregBody_on hon).trans (if_pos h)
  case notHeld => exact fun x => completes_of_prepared fun ⟨hon, h⟩ => (uiunregBody_on hon).trans (if_neg (Bool.eq_false_iff.1 h))
  case mask => exact fun x => completes_of_ignoresWarps uimaskBody_on
  case waits => exact fun x => waits_of_ignoresWarps uiwaitBody_waits
  case ended => exact fun x => completes_of_ignoresWarps uiwaitBody_ended
  case uiend => exact fun x => transfers_of_prepared uiendBody_of_handler
  case uiendOutside => exact fun x => faults_of_ignoresWarps uiendBody_outside
  case ack => exact fun x => completes_of_prepared uiackBody_of_frame
  case ackOutside => exact fun x => faults_of_ignoresWarps uiackBody_outside
  case poll => exact fun x => completes_of_ignoresWarps uipollBody_words
  case take => exact fun x => completes_of_ignoresWarps uipollBody_take
  case sendOff => exact fun x => completes_oncePerPath_off (body := uisendBody) fun _ _ => rfl
  case regOff => exact fun x => completes_oncePerPath_off (body := uiregBody) fun _ _ => rfl
  case unregOff => exact fun x => completes_oncePerPath_off (body := uiunregBody) fun _ _ => rfl
  case maskOff => exact fun x => completes_oncePerPath_off (body := uimaskBody) fun _ _ => rfl
  case waitOff => exact fun x => completes_oncePerPath_off (body := uiwaitBody) fun _ _ => rfl
  case endOff => exact fun x => completes_oncePerPath_off (body := uiendBody) fun _ _ => rfl
  case ackOff => exact fun x => completes_oncePerPath_off (body := uiackBody) fun _ _ => rfl
  case pollOff => exact fun x => completes_oncePerPath_off (body := uipollBody) fun _ _ => rfl

end Sys2Proof.Machine
end

section
/-!
PROOF. Node queues, launches and host calls (O30).
-/
namespace Sys2Proof.Machine

/-! ### Publications, descriptors and lanes -/

/-- A publication whose stores have performed lets the instruction go on from its boundary (R387). -/
theorem postThen_of_released {c : Ctx} {s : State} {sc : Scope} (h : Released c s sc) (node : Option NodeDesc) (f : State → Res) :
    postThen c s sc node f = f (boundary s c.warp.core sc) := by
  obtain ⟨hwait, hnone⟩ := h
  simp only [postThen, hwait, hnone]

/-- A legal descriptor that a TLB serves reaches the rest of the instruction (R380). -/
theorem withNode_of_noded {c : Ctx} {s t : State} {va : Word64} {push form : Bool} {d : NodeDesc} {f : State → NodeDesc → Res}
    (h : noded c s va push form = some (t, d)) : withNode c s va push form f = f t d := by
  unfold noded at h
  dsimp only at h
  split at h
  · rename_i hea
    obtain ⟨x, hx, h⟩ := Option.bind_eq_some_iff.1 h
    split at h
    · cases h
    · rename_i hclean
      obtain ⟨u, hu, h⟩ := Option.bind_eq_some_iff.1 h
      split at h
      · rename_i hgood
        cases h
        have hall : (([{ lane := c.lane0, va := va.toNat }] : List Access1).all fun e => (hit s c .read e).isSome) = true := by simp [hx]
        have hhits : hits s c .read [{ lane := c.lane0, va := va.toNat }] = [x] := by simp [hits, hx]
        have hpoison : poisonedElem s 64 [x] = none := by simp [poisonedElem, hclean]
        simp only [withNode, hea, translateAll_of_hits hall, hhits, hpoison, List.head?_cons, withL1_of_entered hu, hgood]
      · cases h
  · cases h

/-- An access that makes others of its own at once completes as its body says where no page is flipping owner (R291). -/
theorem accesses_of_still {opc : Nat} {f : Form} {body : Ctx → State → Res} {p : Ctx → State → Prop} {next : Ctx → State → State}
    (h : ∀ s c, p c s → body c s = .done (next c s)) :
    Accesses (runIopFlip opc f (afterOverflow body)) opc f (fun c s => s.flips = [] ∧ p c s) next := fun s c hr ⟨hflips, hp⟩ => by
  have hsame : (begun c (prepare c s)).flips = s.flips := by
    refine Eq.trans ?_ (flips_prepare c s)
    unfold begun
    split <;> rfl
  exact (runIopFlip_of_still (hsame ▸ hflips)).trans (accesses_of_body h s c hr hp)

/-- The lanes of a mask are as many as its one bits. -/
theorem length_lanesOf (m : BitVec 32) : (lanesOf m).length = popcount m := by
  have hfold (xs : List Nat) (n : Nat) : xs.foldl (fun n i => if m.getLsbD i then n + 1 else n) n = n + (xs.filter m.getLsbD).length := by
    induction xs generalizing n with
    | nil => rfl
    | cons i xs ih =>
      rw [List.foldl_cons, ih, List.filter_cons]
      split
      · rw [List.length_cons]
        omega
      · rfl
  rw [lanesOf, popcount, hfold, Nat.zero_add]

/-- A mask with a bit set has lanes. -/
theorem popcount_pos {m : BitVec 32} (h : m ≠ 0) : 0 < popcount m := by
  rw [← length_lanesOf, List.length_pos_iff]
  intro hnil
  refine h (BitVec.eq_of_getLsbD_eq fun i hi => ?_)
  have hnone := List.filter_eq_nil_iff.1 hnil i (List.mem_range.2 hi)
  simpa using hnone

/-! ### NPUSH (R381, R382) -/

/-- The registers of a record, from A on. -/
def nodeSpan (c : Ctx) (d : NodeDesc) : List Nat := (List.range (d.recsz / 4)).map (c.f.fa.toNat + ·)

/-- The node queue that a push enters: the one there is, or a new one. -/
def nodeQueueOf (c : Ctx) (s : State) (d : NodeDesc) : Nat × NodeQueue :=
  (findNode s (clusterOf c.warp.core) c.warp.grid d.addr).getD
    (s.nextId, { cluster := clusterOf c.warp.core, grid := c.warp.grid, desc := d })

/-- The core has published at the cluster. -/
abbrev clusterPublished (c : Ctx) (s : State) : State := boundary s c.warp.core .clus

/-- The number of a new queue is given once. -/
def numberGiven (s : State) (k : Nat) : State := if k = s.nextId then { s with nextId := k + 1 } else s

/-- The queue has room for the records of a push. -/
def NodeRoom (c : Ctx) (s : State) (q : NodeQueue) : Prop := popcount c.act ≤ q.openChip s + (q.desc.capacity - q.share.length)

/-- The record's registers lie in the window and are ready, the push has published, and its grid goes on. -/
def PushTakes (c : Ctx) (s : State) (d : NodeDesc) : Prop :=
  (∀ n ∈ nodeSpan c d, c.slot n < c.path.wtop.toNat) ∧ SlotsReady c s ((nodeSpan c d).map c.slot) ∧ Released c s .clus
    ∧ ((clusterPublished c s).grid? c.warp.grid).any (fun g => !g.cut) = true

/-- The queue has its buffer, or a share. -/
def PushUsable (c : Ctx) (s : State) (d : NodeDesc) : Prop :=
  (nodeQueueOf c (clusterPublished c s) d).2.hasBuffer (clusterPublished c s) = true
    ∨ (nodeQueueOf c (clusterPublished c s) d).2.desc.capacity ≠ 0

/-- The records of a push, one for each active lane. -/
def pushedRecords (c : Ctx) (s : State) (q : NodeQueue) : List NodeRec :=
  (lanesOf c.act).map fun l => { bytes := laneRecord c q.desc l, at_ := s.clock, w := c.warp.regs.wgid }

/-- Every record of the push fits the buffer. -/
def PushFits (c : Ctx) (s : State) (d : NodeDesc) : Prop :=
  PushTakes c s d ∧ PushUsable c s d ∧ popcount c.act ≤ (nodeQueueOf c (clusterPublished c s) d).2.openChip (clusterPublished c s)

/-- The push finds no room. -/
def PushRefused (c : Ctx) (s : State) (d : NodeDesc) : Prop :=
  PushTakes c s d ∧ ¬(PushUsable c s d ∧ NodeRoom c (clusterPublished c s) (nodeQueueOf c (clusterPublished c s) d).2)

/-- The records of the push are in the buffer. -/
def pushEntered (c : Ctx) (s : State) (d : NodeDesc) : State :=
  let k := (nodeQueueOf c (clusterPublished c s) d).1
  let q := (nodeQueueOf c (clusterPublished c s) d).2
  let t := (numberGiven (clusterPublished c s) k).setNode k
    { q with chip := q.chip ++ pushedRecords c (clusterPublished c s) q, share := q.share, count := q.count }
  if c.q = 1 then writeUD t c 0 else t

section
variable {c : Ctx} {s : State} {d : NodeDesc}

/-- An open buffer is the queue's own. -/
theorem hasBuffer_of_openChip {q : NodeQueue} (h : 0 < q.openChip s) : q.hasBuffer s = true := by
  unfold NodeQueue.openChip at h
  split at h
  · rename_i hopen
    exact (Bool.and_eq_true_iff.1 hopen).1
  · exact absurd h (Nat.lt_irrefl 0)

/-- Giving a number changes no buffer. -/
theorem openChip_numberGiven (q : NodeQueue) (k : Nat) : q.openChip (numberGiven s k) = q.openChip s := by
  unfold numberGiven
  split <;> rfl

theorem hasBuffer_numberGiven (q : NodeQueue) (k : Nat) : q.hasBuffer (numberGiven s k) = q.hasBuffer s := by
  unfold numberGiven
  split <;> rfl

theorem grid?_numberGiven (k n : Nat) : (numberGiven s k).grid? n = s.grid? n := by
  unfold numberGiven
  split <;> rfl

/-- A push that has published goes on with its queue: it is refused, or enters, or waits for room. -/
theorem pushNode_of_takes (h : PushTakes c s d) {k : Nat} {q : NodeQueue} {t : State}
    (hqueue : nodeQueueOf c (clusterPublished c s) d = (k, q)) (ht : t = numberGiven (clusterPublished c s) k) :
    pushNode c s d = keepNode d
      (if !q.hasBuffer t && d.capacity == 0 then (if c.q == 1 then .done (if c.q == 1 then writeUD t c 1 else t) else .trap .qfull 0)
      else if popcount c.act ≤ q.openChip t + (q.desc.capacity - q.share.length) then pushRecords c t k q
      else if c.q == 1 then .done (if c.q == 1 then writeUD t c 1 else t)
      else .wait { t with work := { t.work with nodes := t.work.nodes.insert k q } } (.nodeRoom k (popcount c.act) d)) := by
  obtain ⟨-, -, hreleased, hgrid⟩ := h
  have ⟨hwait, _⟩ := hreleased
  have hcut : ((t.grid? c.warp.grid).map (·.cut)).getD true = false := by
    rw [ht, grid?_numberGiven]
    cases hg : (clusterPublished c s).grid? c.warp.grid with
    | none => rw [hg] at hgrid; cases hgrid
    | some g => rw [hg] at hgrid; simpa using hgrid
  unfold nodeQueueOf at hqueue
  unfold numberGiven at ht
  simp only [pushNode, hwait, postThen_of_released hreleased]
  rw [hqueue]
  dsimp only
  rw [← ht, hcut]
  rfl

/-- Records that fit the open buffer all enter it, and none the share. -/
theorem pushRecords_of_fits {k : Nat} {q : NodeQueue} (h : popcount c.act ≤ q.openChip s) :
    pushRecords c s k q = .done (if c.q = 1 then writeUD (s.setNode k { q with chip := q.chip ++ pushedRecords c s q }) c 0
      else s.setNode k { q with chip := q.chip ++ pushedRecords c s q }) := by
  have hlen : (pushedRecords c s q).length ≤ q.openChip s := by rwa [pushedRecords, List.length_map, length_lanesOf]
  have htake : (pushedRecords c s q).take (q.openChip s) = pushedRecords c s q := List.take_of_length_le hlen
  have hdrop : (pushedRecords c s q).drop (q.openChip s) = [] := List.drop_of_length_le hlen
  unfold pushedRecords at htake hdrop
  simp only [pushRecords, htake, hdrop, List.zipIdx_nil, List.map_nil, List.flatMap_nil]
  refine (translateAll_of_hits rfl).trans ?_
  simp only [hits, List.filterMap_nil, List.zip_nil_left, List.foldl_nil, List.append_nil, List.length_nil, Nat.add_zero]
  rfl

theorem pushNode_of_fits (hact : c.act ≠ 0) (h : PushFits c s d) : pushNode c s d = .done (pushEntered c s d) := by
  obtain ⟨htakes, -, hfits⟩ := h
  rcases hqueue : nodeQueueOf c (clusterPublished c s) d with ⟨k, q⟩
  simp only [hqueue] at hfits
  have hbuffer : q.hasBuffer (clusterPublished c s) = true := hasBuffer_of_openChip (Nat.lt_of_lt_of_le (popcount_pos hact) hfits)
  have hrecords : pushedRecords c (numberGiven (clusterPublished c s) k) q = pushedRecords c (clusterPublished c s) q := by
    unfold numberGiven
    split <;> rfl
  have henter := pushRecords_of_fits (k := k) (hfits.trans_eq (openChip_numberGiven q k).symm)
  rw [pushNode_of_takes htakes hqueue rfl, hasBuffer_numberGiven, hbuffer, openChip_numberGiven, if_neg (by simp),
    if_pos (Nat.le_add_right_of_le hfits), henter, pushEntered, hqueue, hrecords]
  rfl

theorem pushNode_of_refused (hact : c.act ≠ 0) (hq : c.q = 1) (h : PushRefused c s d) :
    pushNode c s d = .done (writeUD (numberGiven (clusterPublished c s) (nodeQueueOf c (clusterPublished c s) d).1) c 1) := by
  obtain ⟨htakes, hno⟩ := h
  rcases hqueue : nodeQueueOf c (clusterPublished c s) d with ⟨k, q⟩
  simp only [PushUsable, NodeRoom, hqueue] at hno
  have hfull : ¬popcount c.act ≤ q.openChip (clusterPublished c s) + (q.desc.capacity - q.share.length) := by
    intro hroom
    refine hno ⟨?_, hroom⟩
    by_cases hopen : 0 < q.openChip (clusterPublished c s)
    · exact .inl (hasBuffer_of_openChip hopen)
    · have := popcount_pos hact
      exact .inr (by omega)
  rw [pushNode_of_takes htakes hqueue rfl, openChip_numberGiven, if_neg hfull, hq]
  exact (congrArg (keepNode d) (ite_self _)).trans rfl

/-- NPUSH of a descriptor that it reads now goes on with the record's registers. -/
theorem npushBody_of_pushing {t : State} (hact : c.act ≠ 0) (hread : noded c s c.uB true true = some (t, d)) (h : PushTakes c t d) :
    npushBody c s = pushNode c t d := by
  obtain ⟨hspan, hslots, ⟨hwait, -⟩, -⟩ := h
  have hwindow : ((nodeSpan c d).find? fun n => decide (c.path.wtop.toNat ≤ c.slot n)) = none :=
    List.find?_eq_none.2 fun n hn hbeyond => Nat.not_le.2 (hspan n hn) (of_decide_eq_true hbeyond)
  unfold nodeSpan at hwindow hslots
  simp only [npushBody, if_neg hact, hwait, withNode_of_noded hread, hwindow, withSlots_of_ready hslots]

end

/-- The record of a push that fits is in its queue, whose descriptor has been read. -/
def nodePushed (c : Ctx) (s : State) : State :=
  match noded c s c.uB true true with
  | some (s, d) => pushEntered c s d
  | none => s

/-- D holds 1 for a push whose descriptor has been read, and which its queue refused. -/
def nodeRefused (c : Ctx) (s : State) : State :=
  match noded c s c.uB true true with
  | some (s, d) => writeUD (numberGiven (clusterPublished c s) (nodeQueueOf c (clusterPublished c s) d).1) c 1
  | none => s

section
variable {c : Ctx} {s : State}

theorem npushBody_fits (h : c.act ≠ 0 ∧ match noded c s c.uB true true with | some (s, d) => PushFits c s d | none => False) :
    npushBody c s = .done (nodePushed c s) := by
  obtain ⟨hact, hfits⟩ := h
  unfold nodePushed
  cases hread : noded c s c.uB true true with
  | none => simp only [hread] at hfits
  | some r =>
    obtain ⟨t, d⟩ := r
    simp only [hread] at hfits
    have ⟨htakes, _⟩ := hfits
    exact (npushBody_of_pushing hact hread htakes).trans (pushNode_of_fits hact hfits)

theorem npushBody_refused
    (h : c.act ≠ 0 ∧ c.q = 1 ∧ match noded c s c.uB true true with | some (s, d) => PushRefused c s d | none => False) :
    npushBody c s = .done (nodeRefused c s) := by
  obtain ⟨hact, hq, hrefused⟩ := h
  unfold nodeRefused
  cases hread : noded c s c.uB true true with
  | none => simp only [hread] at hrefused
  | some r =>
    obtain ⟨t, d⟩ := r
    simp only [hread] at hrefused
    have ⟨htakes, _⟩ := hrefused
    exact (npushBody_of_pushing hact hread htakes).trans (pushNode_of_refused hact hq hrefused)

theorem npushBody_off (h : c.act = 0) : npushBody c s = .done (if c.q = 1 then writeUD s c 0 else s) := if_pos h

end

/-! ### NFLUSH and NQRY (R383, R385) -/

/-- The formations of a flush: 32 records to a warp. -/
def flushForms (q : NodeQueue) : List (Nat × Nat) :=
  let n := q.all.length - (q.forms.map (·.1)).sum
  List.replicate (n / 32) (32, 0x80) ++ if n % 32 = 0 then [] else [(n % 32, 0x80)]

/-- Every record queued has been taken by a node warp, as far as room allows. -/
def nodeFlushed (c : Ctx) (s : State) : State :=
  match noded c s c.uA false true with
  | some (s, d) =>
    (match findNode s (clusterOf c.warp.core) c.warp.grid d.addr with
      | some (k, q) => runForms k (q.forms ++ flushForms q).length (s.setNode k { q with forms := q.forms ++ flushForms q })
      | none => s)
  | none => s

/-- D holds the records on chip and in the share. -/
def nodeCounted (c : Ctx) (s : State) : State :=
  match noded c s c.uA false false with
  | some (s, d) =>
    let n := ((findNode s (clusterOf c.warp.core) c.warp.grid d.addr).map fun q => (q.2.chip.length, q.2.share.length)).getD (0, 0)
    writeUD s c (BitVec.ofNat 64 (n.1 % 2 ^ 16 + n.2 % 2 ^ 16 * 2 ^ 16))
  | none => s

section
variable {c : Ctx} {s : State}

theorem nflushBody_of_node (h : c.guard0 = true ∧ (noded c s c.uA false true).isSome = true) : nflushBody c s = .done (nodeFlushed c s) := by
  obtain ⟨hon, hsome⟩ := h
  obtain ⟨⟨t, d⟩, hread⟩ := Option.isSome_iff_exists.1 hsome
  rw [nflushBody, oncePerPath_on hon, withNode_of_noded hread]
  simp only [nodeFlushed, hread]
  cases findNode t (clusterOf c.warp.core) c.warp.grid d.addr <;> rfl

theorem nqryBody_of_node (h : c.guard0 = true ∧ (noded c s c.uA false false).isSome = true) : nqryBody c s = .done (nodeCounted c s) := by
  obtain ⟨hon, hsome⟩ := h
  obtain ⟨⟨t, d⟩, hread⟩ := Option.isSome_iff_exists.1 hsome
  rw [nqryBody, oncePerPath_on hon, withNode_of_noded hread]
  simp only [nodeCounted, hread]

theorem nrecvBody_on (hon : c.guard0 = true) : nrecvBody c s = .done (writeUD s c (c.warp.node.getD 0)) := oncePerPath_on hon _ _

end

/-! ### NLAUNCH and NLWAIT (R373, R374) -/

/-- The packet's first byte, where a TLB serves it. -/
def packetHit (c : Ctx) (s : State) : Option Access2 := hit s c .read { lane := c.lane0, va := c.uA.toNat }

/-- The lowest free launch slot. -/
def Ctx.launchSlot (c : Ctx) : Nat := (freeLaunch c.warp).getD 0

/-- The packet can be read, a launch slot is free, and nothing is left to perform. -/
def LaunchReady (c : Ctx) (s : State) : Prop :=
  c.guard0 = true ∧ c.uA.toNat % 64 = 0 ∧ c.uA.toNat < 2 ^ 57 ∧ (packetHit c s).isSome = true ∧ (freeLaunch c.warp).isSome = true
    ∧ Released c s .pkg

/-- The slot is taken, its grid starts, and D holds the slot with its generation. -/
def gridLaunched (c : Ctx) (s : State) : State :=
  let t := boundary s c.warp.core .pkg
  let l := c.warp.launches.get {} c.launchSlot
  let u := t.modWarp c.w fun x => { x with launches := x.launches.insert c.launchSlot { l with done := none, grid := some 0 } }
  writeUD (startGrid u c.warp.qid c.uA.toNat ((packetHit c s).map fun x => parsePacket (t.bytes x.pa 64)) none (some (c.w, c.launchSlot)) none) c
    (BitVec.ofNat 64 (l.gen.toNat * 16 + c.launchSlot))

/-- The launch slot that NLWAIT names. -/
def Ctx.launchEntry (c : Ctx) : LaunchSlot := c.warp.launches.get {} (c.uA.toNat % 16)

/-- The handle's generation has passed, or its slot holds no launch. -/
abbrev Ctx.LaunchStale (c : Ctx) : Prop :=
  c.launchEntry.gen.toNat ≠ c.uA.toNat / 16 % 2 ^ 12 ∨ (c.launchEntry.grid.isNone = true ∧ c.launchEntry.done.isNone = true)

/-- The slot is free for its next generation, and D holds the status. -/
def launchEnded (c : Ctx) (s : State) : State :=
  writeUD (s.modWarp c.w fun x => { x with launches := x.launches.insert (c.uA.toNat % 16) { gen := c.launchEntry.gen + 1 } }) c
    ((c.launchEntry.done).getD 0)

/-- The workgroups that the running grid has launched. -/
def launchedSoFar (c : Ctx) (s : State) : Nat := ((c.launchEntry.grid.bind s.grid?).map (·.lcnts.sum)).getD 0

section
variable {c : Ctx} {s : State}

theorem nlaunchBody_of_ready (h : LaunchReady c s) : nlaunchBody c s = .done (gridLaunched c s) := by
  obtain ⟨hon, halign, hbound, hpacket, hfree, hreleased⟩ := h
  obtain ⟨x, hx⟩ := Option.isSome_iff_exists.1 hpacket
  obtain ⟨k, hk⟩ := Option.isSome_iff_exists.1 hfree
  rw [packetHit] at hx
  have hall : (([{ lane := c.lane0, va := c.uA.toNat }] : List Access1).all fun e => (hit s c .read e).isSome) = true := by simp [hx]
  have hhits : hits s c .read [{ lane := c.lane0, va := c.uA.toNat }] = [x] := by simp [hits, hx]
  rw [nlaunchBody, oncePerPath_on hon]
  simp only [halign, ne_eq, not_true_eq_false, if_false, Nat.not_le.2 hbound, translateAll_of_hits hall, hhits, hk,
    postThen_of_released hreleased, gridLaunched, packetHit, hx, Ctx.launchSlot, Option.getD_some]
  rfl

theorem nlaunchBody_misaligned (h : c.guard0 = true ∧ c.path.wait = none ∧ c.uA.toNat % 64 ≠ 0) : nlaunchBody c s = .trap .align c.uA := by
  obtain ⟨hon, -, halign⟩ := h
  exact (oncePerPath_on hon _ _).trans (if_pos halign)

theorem nlwaitBody_stale (h : c.guard0 = true ∧ c.LaunchStale) : nlwaitBody c s = .done (writeUD s c 5) := by
  obtain ⟨hon, hstale⟩ := h
  exact (oncePerPath_on hon _ _).trans (if_pos hstale)

theorem nlwaitBody_ended (h : c.guard0 = true ∧ ¬c.LaunchStale ∧ c.launchEntry.done.isSome = true) :
    nlwaitBody c s = .done (launchEnded c s) := by
  obtain ⟨hon, hlive, hdone⟩ := h
  obtain ⟨st, hst⟩ := Option.isSome_iff_exists.1 hdone
  refine (oncePerPath_on hon _ _).trans ((if_neg hlive).trans ?_)
  rw [launchEnded, hst]
  unfold Ctx.launchEntry at hst
  rw [hst]
  rfl

theorem nlwaitBody_running (h : c.guard0 = true ∧ ¬c.LaunchStale ∧ c.launchEntry.done = none ∧ c.q = 1) :
    nlwaitBody c s = .done (writeUD s c (BitVec.ofNat 64 (launchedSoFar c s * 2 ^ 32 + 0x100))) := by
  obtain ⟨hon, hlive, hdone, hq⟩ := h
  refine (oncePerPath_on hon _ _).trans ((if_neg hlive).trans ?_)
  unfold Ctx.launchEntry at hdone
  rw [hdone]
  exact if_pos hq

end

/-! ### SYSCALL, SYSRD and SYSCAN (R378, R379) -/

/-- The parts of the call slot. -/
def ownParts (c : Ctx) (s : State) : List SlotPart := (callParts c s).getD []

/-- The bytes of the call slot, and its STATE. -/
def ownSlot (c : Ctx) (s : State) : List Byte := slotBytes s (ownParts c s)
def ownCall (c : Ctx) (s : State) : Nat := slotState (ownSlot c s)

/-- STATE is written, and SEQ kept. -/
def callSet (c : Ctx) (s : State) (st : Nat) : State := setSlotState s c (ownParts c s) (slotSeq (ownSlot c s)) st

/-- The call slot is idle, and nothing is left to perform. -/
def CallReady (c : Ctx) (s : State) : Prop := c.guard0 = true ∧ (callParts c s).isSome = true ∧ ownCall c s = 0 ∧ Released c s .pod

/-- The posted call, and its SEQ. -/
def callPosted (nb : Bool) (c : Ctx) (s : State) : State × Word32 := postCall c (boundary s c.warp.core .pod) (ownParts c s) nb

/-- The reply that the path's SYSCALL has been woken with. -/
def Ctx.callReply (c : Ctx) : Option Word64 := match c.path.wait with | some (.callReply (some (false, x))) => some x | _ => none

/-- The reply is taken: the slot is idle again, the core has refreshed, and D holds the result of a call that succeeded. -/
def replyRead (c : Ctx) (s : State) : State :=
  writeUD (refresh (dropCalls (callSet c s 0) c.w) c.warp.core .pod) c
    (if ownCall c s = 2 then BitVec.ofNat 64 (numAt (ownSlot c s) 48 8) else 0)

section
variable {c : Ctx} {s : State}

/-- A call slot that a TLB serves reaches the rest of the instruction. -/
theorem withCallSlot_of_parts (h : (callParts c s).isSome = true) (f : List SlotPart → Res) : withCallSlot c s f = f (ownParts c s) := by
  unfold ownParts
  unfold callParts at h ⊢
  dsimp only at h ⊢
  split at h
  · rename_i hall
    rw [if_pos hall, withCallSlot, translateAll_of_hits hall]
    rfl
  · cases h

/-- SYSCALL that finds its slot idle posts its request. -/
theorem syscallBody_of_ready (h : CallReady c s) :
    syscallBody c s = if c.q = 1 then .done (writeUD (callPosted (c.q == 1) c s).1 c ((callPosted (c.q == 1) c s).2.zeroExtend 64))
      else .wait (callPosted (c.q == 1) c s).1 (.callReply none) := by
  obtain ⟨hon, hparts, hidle, hreleased⟩ := h
  have ⟨hwait, _⟩ := hreleased
  unfold ownCall ownSlot at hidle
  simp only [syscallBody, oncePerPath_on hon, hwait, withCallSlot_of_parts hparts, hidle, beq_self_eq_true, Bool.not_true, Bool.false_eq_true,
    if_false, postThen_of_released hreleased]
  rfl

theorem syscallBody_posts (h : CallReady c s ∧ c.q = 1) :
    syscallBody c s = .done (writeUD (callPosted true c s).1 c ((callPosted true c s).2.zeroExtend 64)) := by
  obtain ⟨hready, hq⟩ := h
  rw [syscallBody_of_ready hready, if_pos hq, hq]
  rfl

theorem syscallBody_waits (h : CallReady c s ∧ c.q ≠ 1) : syscallBody c s = .wait (callPosted false c s).1 (.callReply none) := by
  obtain ⟨hready, hq⟩ := h
  rw [syscallBody_of_ready hready, if_neg hq, beq_eq_false_iff_ne.2 hq]

theorem syscallBody_replied (h : c.guard0 = true ∧ (callParts c s).isSome = true ∧ c.callReply.isSome = true) :
    syscallBody c s = .done (writeUD (refresh (callSet c s 0) c.warp.core .pod) c (c.callReply.getD 0)) := by
  obtain ⟨hon, hparts, hreply⟩ := h
  obtain ⟨x, hx⟩ := Option.isSome_iff_exists.1 hreply
  rw [hx]
  unfold Ctx.callReply at hx
  split at hx
  · rename_i hwait
    cases hx
    simp only [syscallBody, oncePerPath_on hon, hwait, withCallSlot_of_parts hparts]
    rfl
  · cases hx

theorem sysrdBody_replied (h : c.guard0 = true ∧ (callParts c s).isSome = true ∧ 2 ≤ ownCall c s) :
    sysrdBody c s = .done (replyRead c s) := by
  obtain ⟨hon, hparts, hstate⟩ := h
  rw [sysrdBody, oncePerPath_on hon, withCallSlot_of_parts hparts]
  exact if_neg (Nat.not_lt.2 hstate)

/-- SYSCAN by the STATE of the slot. -/
theorem syscanBody_of_parts (hon : c.guard0 = true) (hparts : (callParts c s).isSome = true) :
    syscanBody c s = match ownCall c s with
      | 0 => .done (writeUD s c 0)
      | 1 => .done (writeUD (dropCalls (callSet c s 4) c.w) c 1)
      | _ => .done (writeUD s c 2) := by
  rw [syscanBody, oncePerPath_on hon, withCallSlot_of_parts hparts]
  rfl

theorem syscanBody_idle (h : c.guard0 = true ∧ (callParts c s).isSome = true ∧ ownCall c s = 0) :
    syscanBody c s = .done (writeUD s c 0) := by
  obtain ⟨hon, hparts, hstate⟩ := h
  rw [syscanBody_of_parts hon hparts, hstate]
  rfl

theorem syscanBody_cancels (h : c.guard0 = true ∧ (callParts c s).isSome = true ∧ ownCall c s = 1) :
    syscanBody c s = .done (writeUD (dropCalls (callSet c s 4) c.w) c 1) := by
  obtain ⟨hon, hparts, hstate⟩ := h
  rw [syscanBody_of_parts hon hparts, hstate]
  rfl

theorem syscanBody_late (h : c.guard0 = true ∧ (callParts c s).isSome = true ∧ 2 ≤ ownCall c s) :
    syscanBody c s = .done (writeUD s c 2) := by
  obtain ⟨hon, hparts, hstate⟩ := h
  rw [syscanBody_of_parts hon hparts]
  split
  · omega
  · omega
  · rfl

end

/-! ### The obligation -/

/-- Settles O30: each body reads its descriptor, packet or slot, publishes, and then answers by the room, the launch slot or the STATE. -/
theorem nodesLaunchesAndHostCalls : Obligations.NodesLaunchesAndHostCalls := by
  unfold Obligations.NodesLaunchesAndHostCalls
  refine ⟨?push, ?refused, ?pushOff, ?flush, ?query, ?recv, ?launch, ?stale, ?ended, ?running, ?post, ?call, ?reply, ?read, ?idle, ?cancel,
    ?late, ?misaligned, ?flushOff, ?queryOff, ?recvOff, ?launchOff, ?waitOff, ?callOff, ?readOff, ?cancelOff⟩
  case push => exact fun x => accesses_of_body fun _ _ => npushBody_fits
  case refused => exact fun x => accesses_of_body fun _ _ => npushBody_refused
  case pushOff => exact fun x => accesses_of_body fun _ _ => npushBody_off
  case flush => exact fun x => accesses_of_still fun _ _ => nflushBody_of_node
  case query => exact fun x => accesses_of_body fun _ _ => nqryBody_of_node
  case recv => exact fun x => completes_of_ignoresWarps nrecvBody_on
  case launch => exact fun x => completes_of_prepared nlaunchBody_of_ready
  case stale => exact fun x => completes_of_ignoresWarps nlwaitBody_stale
  case ended => exact fun x => completes_of_ignoresWarps nlwaitBody_ended
  case running => exact fun x => completes_of_ignoresWarps nlwaitBody_running
  case post => exact fun x => completes_of_prepared syscallBody_posts
  case call => exact fun x => waits_of_prepared syscallBody_waits
  case reply => exact fun x => completes_of_prepared syscallBody_replied
  case read => exact fun x => completes_of_prepared sysrdBody_replied
  case idle => exact fun x => completes_of_prepared syscanBody_idle
  case cancel => exact fun x => completes_of_prepared syscanBody_cancels
  case late => exact fun x => completes_of_prepared syscanBody_late
  case misaligned => exact fun x => faults_of_ignoresWarps nlaunchBody_misaligned
  case flushOff => exact fun x => accesses_of_still (body := nflushBody) fun _ _ hoff => oncePerPath_off hoff _ _
  case queryOff => exact fun x => accesses_of_body (body := nqryBody) fun _ _ hoff => oncePerPath_off hoff _ _
  case recvOff => exact fun x => completes_oncePerPath_off (body := nrecvBody) fun _ _ => rfl
  case launchOff => exact fun x => completes_oncePerPath_off (body := nlaunchBody) fun _ _ => rfl
  case waitOff => exact fun x => completes_oncePerPath_off (body := nlwaitBody) fun _ _ => rfl
  case callOff => exact fun x => completes_oncePerPath_off (body := syscallBody) fun _ _ => rfl
  case readOff => exact fun x => completes_oncePerPath_off (body := sysrdBody) fun _ _ => rfl
  case cancelOff => exact fun x => completes_oncePerPath_off (body := syscanBody) fun _ _ => rfl

end Sys2Proof.Machine
end

section
/-!
PROOF. Node warps, doorbells, sends and deliveries (O42).
-/
namespace Sys2Proof.Machine

/-! ### Formation (R383, R384) -/

section
variable {k : Nat} {q : NodeQueue} {s : State}

theorem formCount_of_full (h : s.work.nodes.find? k = some q) (hforms : q.forms = []) (hfull : 32 ≤ q.all.length) :
    formCount k s = some (formOrWait s k 32 0) := by
  simp only [formCount, h, hforms, List.isEmpty_nil, decide_eq_true hfull, Bool.and_self, if_true]

theorem formTimer_of_due {r : NodeRec} {rest : List NodeRec} (h : s.work.nodes.find? k = some q) (hforms : q.forms = [])
    (hall : q.all = r :: rest) (hdue : r.at_ + q.desc.tmr ≤ s.clock) :
    formTimer k s = some (formOrWait s k (min 32 (rest.length + 1)) 0x40) := by
  simp only [formTimer, h, hforms, hall, if_pos hdue]

theorem formRetry_of_forms {n bits : Nat} {rest : List (Nat × Nat)} (h : s.work.nodes.find? k = some q)
    (hforms : q.forms = (n, bits) :: rest) : formRetry k s = formNode (s.setNode k { q with forms := rest }) k n bits := by
  simp only [formRetry, h, hforms]

end

/-! ### Doorbells (R378, R464) -/

section
variable {v : Word64} {q : Queue} {s : State}

theorem doorbell_of_slot {w : Nat} (hq : s.queue? (v.toNat / 2 ^ 32 % 2 ^ 16) = some q) (hready : s.pkg.ready = true)
    (hslot : warpOfSlot s (v.toNat / 2 ^ 32 % 2 ^ 16) q (v.toNat / 2 ^ 30 % 4) (v.toNat % 2 ^ 30) = some w) :
    doorbell (.vf q.vf) v s = readReply s w := by
  simp only [doorbell, hq, hready, hslot, Bool.not_true, bne_self_eq_false, Bool.or_self, Bool.false_eq_true, if_false]

/-- A doorbell for a queue of another function is ignored. -/
theorem doorbell_of_other {f : Func} (hq : s.queue? (v.toNat / 2 ^ 32 % 2 ^ 16) = some q) (hf : f ≠ .vf q.vf) : doorbell f v s = s := by
  simp only [doorbell, hq, bne_iff_ne.2 hf, Bool.or_true, if_true]

end

/-! ### Sends (R396, R397) -/

/-- The send is at the engine, no earlier one of its path precedes it, and its sender's state can be changed. -/
def SendFirst (k : Nat) (x : Send) (s : State) : Prop :=
  (s.flips = [] ∧ s.ui.sends.find? (·.k == k) = some x ∧ (s.ui.sends.any x.behind) = false)
    ∧ ((x.warp.bind fun y => (s.warp? y.1).map (·.stuck)).getD false) = false

/-- The vector entry that a send names. -/
def sendEntry (x : Send) (s : State) : Vec := ((s.port? x.vf x.asid).map (·.vecs.get {} x.v)).getD {}

/-- The send has left the engine with a status: a peer package is told, and a refused host send is counted. -/
def sendGone (k : Nat) (x : Send) (st : Nat) (s : State) : State :=
  let s := { s with fresh := s.fresh + 1, ui := { s.ui with sends := s.ui.sends.filter (·.k != k) } }
  let s := match x.src with | .peer _ _ => s.emit (.value (BitVec.ofNat 64 st)) | _ => s
  match x.func with | some f => if st = 0 then s else countRefusal s f | none => s

section
variable {k : Nat} {x : Send} {s t u : State}

/-- A send that this package accepts combines into its handler. -/
theorem sendArrive_accepted {tag : Nat} (h : SendFirst k x s) (hgoal : x.goal s = .here)
    (hstatus : portStatus s x.vf x.asid x.v x.src = (0, tag)) (hfree : handlerStuck s x.vf x.asid (sendEntry x s) = false)
    (hanswer : answerSend s x 0 = .ok t) (haccept : acceptSend t x.vf x.asid x.v tag x.pay = .ok u) :
    sendArrive k s = some (sendGone k x 0 u) := by
  obtain ⟨⟨-, hfind, hbehind⟩, hstuck⟩ := h
  unfold sendEntry at hfree
  unfold sendArrive
  simp only [hfind, Send.status, hgoal, hstatus, hbehind, hstuck, hfree, beq_self_eq_true, Bool.and_self, Bool.and_false, Bool.or_self,
    Bool.false_eq_true, if_false, hanswer, if_true, haccept]
  rfl

/-- A send that this package does not accept only gets its status. -/
theorem sendArrive_answered {st tag : Nat} (h : SendFirst k x s) (hstatus : x.status s = (st, tag)) (hmine : st ≠ 0 ∨ x.goal s ≠ .here)
    (hanswer : answerSend s x st = .ok t) : sendArrive k s = some (sendGone k x st t) := by
  obtain ⟨⟨-, hfind, hbehind⟩, hstuck⟩ := h
  have hmine : (st == 0 && x.goal s == .here) = false := by
    rcases hmine with h | h <;> simp [h]
  unfold sendArrive
  simp only [hfind, hstatus, hmine, hbehind, hstuck, Bool.false_and, Bool.or_self, Bool.false_eq_true, if_false, hanswer]
  rfl

theorem status_of_here (h : x.goal s = .here) : x.status s = portStatus s x.vf x.asid x.v x.src := by
  rw [Send.status, h]

theorem status_of_unreachable (h : x.goal s = .unreachable) : x.status s = (4, 0) := by
  rw [Send.status, h]

theorem status_of_peer (h : x.goal s = .peer) : x.status s = ((Config.peerStatus s.fresh).val, 0) := by
  rw [Send.status, h]

end

/-! ### Deliveries (R398-R400) -/

/-- The vector entry of a warp. -/
def vecOf (x : Warp) (v : Nat) (s : State) : Vec := ((s.port? x.vf x.asid).getD {}).vecs.get {} v

/-- A warp on its core is due a delivery of a vector to a path whose reads have returned. -/
def Delivers (w v p : Nat) (x : Warp) (q : Path) (s : State) : Prop :=
  s.flips = [] ∧ s.warp? w = some x ∧ x.place.isSome = true ∧ x.arriving = false ∧ x.trap = none ∧ x.faultVa = none ∧ x.kind = .ordinary
    ∧ (s.port? x.vf x.asid).bind (chosenVector · x) = some v ∧ chosenPath x.regs = some p ∧ s.path? w p = some q
    ∧ pendingReads s w q.lmask = []

/-- The frame of the interrupt lies above the window of the path. -/
def frameWritten (v : Nat) (x : Warp) (q : Path) (e : Vec) (y : Warp) : Warp :=
  let ws := frameWords q v e.tag (x.regs.pay.get 0 v) q.interruptedWait.isSome
  (List.range 8).foldl (fun y i => y.setRow (q.wtop.toNat + i) q.lmask (Row.ofFn fun _ => ws.getD i 0)) y

/-- The path is in its handler, and further delivery is masked. -/
def handlerEntered (w v p : Nat) (x : Warp) (q : Path) (e : Vec) (s : State) : State :=
  (s.modWarp w fun y => { clearPending v (frameWritten v x q e y) with uiLanes := q.lmask, leaving := false }).modPath w p
    (Path.handling e e.frameSlots)

section
variable {w v p : Nat} {x : Warp} {q : Path} {s t : State}

theorem pendingDelivery_of_delivers (h : Delivers w v p x q s) : pendingDelivery s x = some (v, p) := by
  obtain ⟨-, -, hplace, harriving, htrap, hfault, hkind, hvector, hpath, -⟩ := h
  have hdue : (x.place.isNone || x.arriving || x.trap.isSome || x.faultVa.isSome || x.kind != .ordinary) = false := by
    simp [hplace, harriving, htrap, hfault, hkind]
  simp only [pendingDelivery, hdue, Bool.false_eq_true, if_false, hvector, hpath]

/-- The entry that a delivery reads is the one of its vector. -/
theorem vecOf_of_delivers (h : Delivers w v p x q s) : ((s.port? x.vf x.asid).map (·.vecs.get {} v)).getD {} = vecOf x v s := by
  obtain ⟨-, -, -, -, -, -, -, hvector, -⟩ := h
  obtain ⟨P, hport, -⟩ := Option.bind_eq_some_iff.1 hvector
  rw [vecOf, hport]
  rfl

theorem deliver_overflow (h : Delivers w v p x q s) (hfit : x.regs.stackSize < q.wtop.toNat + 4 + (vecOf x v s).frameSlots) :
    deliver w s = some (raiseFault s w p .winovf (BitVec.ofNat 64 (q.wtop.toNat + 4 + (vecOf x v s).frameSlots))) := by
  have ⟨_, hw, _, _, _, _, _, _, _, hpath, hreads⟩ := h
  simp only [deliver, hw, pendingDelivery_of_delivers h, hpath, vecOf_of_delivers h, hreads, List.isEmpty_nil, Bool.not_true,
    Bool.false_eq_true, if_false, if_pos hfit]

theorem deliver_enters (h : Delivers w v p x q s) (hfit : q.wtop.toNat + 4 + (vecOf x v s).frameSlots ≤ x.regs.stackSize)
    (hbrought : bringSlots s w ((List.range 8).map (q.wtop.toNat + ·)) = (t, none)) :
    deliver w s = some (allocateFrame (refresh (handlerEntered w v p x q (vecOf x v s) t) x.core .pod) w (q.wtop.toNat + 4)
      (q.wtop.toNat + 4 + (vecOf x v s).frameSlots)) := by
  have ⟨_, hw, _, _, _, _, _, _, _, hpath, hreads⟩ := h
  simp only [deliver, hw, pendingDelivery_of_delivers h, hpath, vecOf_of_delivers h, hreads, List.isEmpty_nil, Bool.not_true,
    Bool.false_eq_true, if_false, if_neg (Nat.not_lt.2 hfit), hbrought]
  rfl

end

/-! ### The obligation -/

/-- Settles O42: each step is computed where it is enabled, on a state in which no page flips. -/
theorem nodesCallsAndInterrupts : Obligations.NodesCallsAndInterrupts := by
  unfold Obligations.NodesCallsAndInterrupts
  refine ⟨?count, ?timer, ?retry, ?doorbell, ?other, ?hostSend, ?noProcess, ?accepted, ?refused, ?unreachable, ?peer, ?overflow, ?enters⟩
  case count => exact fun k q s ⟨⟨hf, hq⟩, hforms, hfull⟩ => runEventFlip_of_some hf (formCount_of_full hq hforms hfull)
  case timer => exact fun k q r rest s ⟨⟨hf, hq⟩, hforms, hall, hdue⟩ => runEventFlip_of_some hf (formTimer_of_due hq hforms hall hdue)
  case retry => exact fun k q n bits rest t s ⟨⟨hf, hq⟩, hforms, hform⟩ => runEventFlip_of_some hf ((formRetry_of_forms hq hforms).trans hform)
  case doorbell =>
    exact fun v q w s ⟨⟨hf, hq, hready⟩, hslot⟩ => runEventFlip_of_some hf (congrArg some (doorbell_of_slot hq hready hslot))
  case other => exact fun f v q s ⟨⟨hf, hq, _⟩, hother⟩ => runEventFlip_of_some hf (congrArg some (doorbell_of_other hq hother))
  case hostSend =>
    intro vf p v s hready
    exact congrArg Host.Outcome.next (if_neg (by rw [hready]; decide))
  case noProcess =>
    intro f v s hready
    refine congrArg Host.Outcome.next ((if_neg (by rw [hready]; decide)).trans ?_)
    cases f <;> rfl
  case accepted =>
    intro k x t u tag s ⟨hfirst, hstuck, hgoal, hstatus, hfree, hanswer, haccept⟩
    have ⟨hf, _⟩ := hfirst
    exact runEventFlip_of_some hf (sendArrive_accepted ⟨hfirst, hstuck⟩ hgoal hstatus hfree hanswer haccept)
  case refused =>
    intro k x t st s ⟨hfirst, hstuck, hgoal, hstatus, hno, hanswer⟩
    have ⟨hf, _⟩ := hfirst
    refine runEventFlip_of_some hf (sendArrive_answered (tag := (x.status s).2) ⟨hfirst, hstuck⟩ ?_ (.inl hno) hanswer)
    rw [← hstatus, ← status_of_here hgoal]
  case unreachable =>
    intro k x t s ⟨hfirst, hstuck, hgoal, hanswer⟩
    have ⟨hf, _⟩ := hfirst
    exact runEventFlip_of_some hf (sendArrive_answered ⟨hfirst, hstuck⟩ (status_of_unreachable hgoal) (.inl (by decide)) hanswer)
  case peer =>
    intro k x t s ⟨hfirst, hstuck, hgoal, hanswer⟩
    have ⟨hf, _⟩ := hfirst
    exact runEventFlip_of_some hf
      (sendArrive_answered ⟨hfirst, hstuck⟩ (status_of_peer hgoal) (.inr (by rw [hgoal]; decide)) hanswer)
  case overflow =>
    intro w v p x q s ⟨h, hfit⟩
    have ⟨hf, _⟩ := h
    exact runEventFlip_of_some hf (deliver_overflow h hfit)
  case enters =>
    intro w v p x q t s ⟨h, hfit, hbrought⟩
    have ⟨hf, _⟩ := h
    exact runEventFlip_of_some hf (deliver_enters h hfit hbrought)

end Sys2Proof.Machine
end

section
/-!
PROOF. Entry to privileged mode, replies to reports, their posting, and consumer counts (O43).
-/
namespace Sys2Proof.Machine

/-! ### Entry to privileged mode and its end by a fault (R411-R414) -/

/-- Warp `w` is trapped by `t`, none of its clauses is in progress, and its half has no other privileged warp; `l` is the lane of the trapped
path that enters. -/
def Enters (w : Nat) (x : Warp) (t : Trap) (l : Nat) (s : State) : Prop :=
  s.warp? w = some x ∧ x.trap = some t ∧ t.held = false ∧ t.lane = none ∧ x.place.isSome = true
    ∧ halfPrivileged s x = false ∧ (x.regs.paths.any (·.2.running x.regs.ctxf)) = false ∧ s.cur.map (·.w) ≠ some w ∧ lowLane t.lmask = some l
    ∧ s.warp? s.nextId = none

/-- The path at which privileged mode starts: one lane, at the die's TVEC. -/
def trapPath (s : State) (x : Warp) (l : Nat) : Path :=
  { pc := BitVec.ofNat 57 (s.sys.tvec.get 0 (dieOf x.core)), lmask := 1#32 <<< l, wtop := 0 }

/-- The trap lane of warp `w`. -/
def trapLane (w : Nat) (x : Warp) (l : Nat) (s : State) : Warp :=
  { x with kind := .trapLane w, trap := none, batches := [], launches := [], dirty := [], lru := [], foehn := [], pinned := [], uiLanes := 0
           regs := { paths := [(0, trapPath s x l)], dorm := 0, decl := x.regs.decl, ident := x.regs.ident } }

/-- The lane stands in the state under the next number, and the trapped warp names it. -/
def trapEntered (w : Nat) (x : Warp) (t : Trap) (l : Nat) (s : State) : State :=
  ({ s with nextId := s.nextId + 1 }.setWarp s.nextId (trapLane w x l s)).setWarp w { x with trap := some { t with lane := some s.nextId } }

section
variable {w l lane : Nat} {x : Warp} {t : Trap} {s : State} {code : FaultCode}

theorem enterTrap_of_trapped (tvec : Nat) (hw : s.warp? w = some x) (ht : x.trap = some t) (hl : lowLane t.lmask = some l) :
    enterTrap s w lane tvec
      = (s.setWarp lane { x with
          kind := .trapLane w, trap := none, batches := [], launches := [], dirty := [], lru := [], foehn := [], pinned := [], uiLanes := 0
          regs := { paths := [(0, { pc := BitVec.ofNat 57 tvec, lmask := 1#32 <<< l, wtop := 0 })]
                    dorm := 0, decl := x.regs.decl, ident := x.regs.ident } }).setWarp w
        { x with trap := some { t with lane := some lane } } := by
  simp only [enterTrap, hw, ht, Option.map_some, Option.getD_some, hl]
  rfl

theorem trapEntry_of_enters (h : Enters w x t l s) : trapEntry w s = some (trapEntered w x t l s) := by
  obtain ⟨hw, ht, hheld, hlane, hplace, hhalf, hrun, hcur, hl, -⟩ := h
  have hmay : ¬ (t.held || t.lane.isSome || x.place.isNone || halfPrivileged s x || x.regs.paths.any (·.2.running x.regs.ctxf)
      || (s.cur.map (·.w)) == some w) = true := by
    simp [hheld, hlane, Option.isSome_iff_ne_none.1 hplace, hhalf, hrun, hcur]
  unfold trapEntry
  rw [hw]
  dsimp only
  rw [ht]
  dsimp only
  rw [if_neg hmay, enterTrap_of_trapped _ (s := { s with nextId := s.nextId + 1 }) hw ht hl]
  rfl

/-- The trapped warp names its lane, which is a warp of its own; no other warp changes. -/
theorem trapEntered_spec (h : Enters w x t l s) :
    (trapEntered w x t l s).warp? w = some { x with trap := some { t with lane := some s.nextId } }
      ∧ (trapEntered w x t l s).warp? s.nextId = some (trapLane w x l s)
      ∧ ∀ n, n ≠ w → n ≠ s.nextId → (trapEntered w x t l s).warp? n = s.warp? n := by
  obtain ⟨hw, -, -, -, -, -, -, -, -, hfree⟩ := h
  have hne : s.nextId ≠ w := fun he => by simp [← he, hfree] at hw
  refine ⟨by simp [trapEntered], by simp [trapEntered, State.warp?_setWarp, hne], fun n hn hn' => ?_⟩
  simp only [trapEntered, State.warp?_setWarp, hn, hn', if_false]
  rfl

/-- A message to a firmware core changes no warp. -/
theorem warp?_postMail_getD (s : State) (die : Nat) (w0 w1 : Word64) (n : Nat) : ((postMail s die w0 w1).getD s).warp? n = s.warp? n := by
  unfold postMail
  dsimp only
  split <;> rfl

/-- Privileged mode ends: the lane is gone, and its target is held with NEST set. -/
theorem warp?_nestTrap (hw : s.warp? w = some x) (ht : x.trap = some t) (hne : lane ≠ w) :
    (nestTrap s lane w).warp? lane = none
      ∧ (nestTrap s lane w).warp? w
        = some { x with leaving := true, trap := some { t with nest := true, inner := none, lane := none, held := true } } := by
  have herase (n : Nat) : (s.warps.erase lane).find? n = if n = lane then none else s.warp? n := SMap.find?_erase s.warps lane n
  constructor
  · exact (State.warp?_modWarp_of_ne hne).trans ((herase lane).trans (if_pos rfl))
  · refine (State.warp?_modWarp_self _ w _).trans ?_
    rw [State.warp?, herase, if_neg hne.symm, hw, Option.map_some, ht]
    rfl

theorem trapNest_of_inner (hw : s.warp? w = some x) (ht : x.trap = some t) (hlane : t.lane = some lane) (hin : t.inner = some code) :
    trapNest w code s
      = some ((postMail (nestTrap s lane w) (dieOf x.core) (BitVec.ofNat 64 (faultNumber .trapnest)) (BitVec.ofNat 64 (faultNumber code))).getD
        (nestTrap s lane w)) := by
  simp [trapNest, hw, ht, hlane, hin]

end

/-! ### Replies to reports (R420) -/

/-- The report in a slot is that of warp `w`, trapped by `t` and with no context fault. -/
def Reported (slot vf w : Nat) (x : Warp) (t : Trap) (s : State) : Prop :=
  s.flips = [] ∧ s.pkg.ready = true ∧ reportedWarp s vf slot = some w ∧ s.warp? w = some x ∧ x.trap = some t ∧ x.faultVa = none

/-- The trapped path of warp `w` goes back as `f` makes it, and its trap is over. -/
def resumedBy (w : Nat) (t : Trap) (f : Path → Path) (s : State) : Except State State :=
  updateSaved { s with fresh := s.fresh + 1 } w fun x =>
    { x with trap := none, waitingSince := none, regs := { x.regs with paths := x.regs.paths.adjust t.path f } }

/-- The path goes on after the instruction at which it trapped. -/
def skippedPath (x : Warp) (t : Trap) (s : State) (q : Path) : Path := { q with pc := skipPc s x t, wait := none, notes := [], rst := 0 }

/-- The reply is kept until the warp's workgroup is restored. -/
def replyKept (w resp : Nat) (s : State) : State := s.modWarp w fun x => { x with trap := x.trap.map fun t => { t with reply := some resp } }

section
variable {vf slot w : Nat} {x : Warp} {t : Trap} {s u : State}

theorem resumeHeld_of_resumed (resp : Nat) (hw : s.warp? w = some x) (ht : x.trap = some t)
    (h : resumedBy w t (fun q => if resp = 1 then skippedPath x t s q else q) s = .ok u) : resumeHeld s w resp = u := by
  unfold resumeHeld
  rw [hw]
  dsimp only
  rw [ht]
  change (match resumedBy w t (fun q => if resp = 1 then skippedPath x t s q else q) s with | .ok s => s | .error s => _) = _
  rw [h]

theorem traprsp_silent (resp : Nat) (h : s.pkg.ready = false ∨ reportedWarp s vf slot = none) : traprsp vf slot resp s = s := by
  rcases h with h | h <;> simp [traprsp, h]

theorem traprsp_kept (resp : Nat) (h : Reported slot vf w x t s) (hd : x.regs.dorm = 12) : traprsp vf slot resp s = replyKept w resp s := by
  obtain ⟨-, hready, hrep, hw, -⟩ := h
  simp only [traprsp, hready, hrep, hw, hd, if_true, Bool.not_true, Bool.false_eq_true, if_false]
  rfl

theorem traprsp_kill (h : Reported slot vf w x t s) (hd : x.regs.dorm ≠ 12) : traprsp vf slot 2 s = killWorkgroup s x.wg true := by
  obtain ⟨-, hready, hrep, hw, -⟩ := h
  simp only [traprsp, hready, hrep, hw, hd, if_true, Bool.not_true, Bool.false_eq_true, if_false]

theorem traprsp_resume {resp : Nat} (h : Reported slot vf w x t s) (hd : x.regs.dorm ≠ 12) (hr : resp ≠ 2)
    (hu : resumedBy w t (fun q => if resp = 1 then skippedPath x t s q else q) s = .ok u) : traprsp vf slot resp s = u := by
  obtain ⟨-, hready, hrep, hw, ht, hfault⟩ := h
  simp only [traprsp, hready, hrep, hw, hd, hr, hfault, Option.isSome_none, Bool.false_and, Bool.not_true, Bool.false_eq_true, if_false]
  exact resumeHeld_of_resumed resp hw ht hu

end

/-- TRAPRSP at a time when no page is flipping owner. -/
theorem happens_traprsp {resp vf slot : Nat} {when_ : State → Prop} {next : State → State} (hflips : ∀ s, when_ s → s.flips = [])
    (h : ∀ s, when_ s → traprsp vf slot resp s = next s) : Happens (runEventFlip fun s => some (traprsp vf slot resp s)) when_ next :=
  fun s hs => runEventFlip_of_some (hflips s hs) (congrArg some (h s hs))

/-! ### Posting of reports (R468) -/

/-- The parts of a state that writes to memory do not change and that a post speaks of. -/
structure SamePosts (s t : State) : Prop where
  rings : t.rings = s.rings
  reports : t.reports = s.reports
  out : t.out = s.out

theorem SamePosts.agentWrite (s : State) (a : Nat) (bs : List Byte) : SamePosts s (Machine.agentWrite s a bs) :=
  ⟨agentWrite_keeps (·.rings) (fun _ _ _ _ _ _ _ _ => rfl) .., agentWrite_keeps (·.reports) (fun _ _ _ _ _ _ _ _ => rfl) ..,
    agentWrite_keeps (·.out) (fun _ _ _ _ _ _ _ _ => rfl) ..⟩

theorem SamePosts.trans {s t u : State} (h : SamePosts s t) (h' : SamePosts t u) : SamePosts s u :=
  ⟨h'.rings.trans h.rings, h'.reports.trans h.reports, h'.out.trans h.out⟩

/-- Writes made one after another keep them. -/
theorem SamePosts.foldl {α : Type} (a : α → State → Nat) (bs : α → List Byte) (xs : List α) (s : State) :
    SamePosts s (xs.foldl (fun s x => Machine.agentWrite s (a x s) (bs x)) s) :=
  List.foldlRecOn (motive := SamePosts s) xs _ ⟨rfl, rfl, rfl⟩ fun _ ht _ _ => ht.trans (.agentWrite ..)

/-- A report waits for the ring, which has room. -/
def Posts (vf : Nat) (ring : RingKind) (r : Report) (g : Ring) (s : State) : Prop :=
  s.reports.find? (fun r => r.vf == vf && r.ring == ring) = some r ∧ s.ring? vf ring = some g ∧ (g.p - g.c).toNat + r.slots.length ≤ 2 ^ g.log

/-- The slots of a report are in the ring's memory, the last written first. -/
def slotsWritten (vf : Nat) (ring : RingKind) (r : Report) (g : Ring) (s : State) : State :=
  (List.range r.slots.length).reverse.foldl (fun s i =>
    agentWrite s (hostAddr s vf (g.base + 32 * ((g.p.toNat + i) % 2 ^ g.log)))
      (phased ring (g.p + BitVec.ofNat 32 i) g.log (r.slots.getD i []))) s

/-- The report is in the ring, whose producer count has moved on. -/
def ringMoved (vf : Nat) (ring : RingKind) (r : Report) (g : Ring) (s : State) : State :=
  { s with reports := s.reports.erase r, rings := s.rings.insert (ringKey vf ring) { g with p := g.p + BitVec.ofNat 32 r.slots.length } }

/-- The warp of a report has its slot noted. -/
def reportNoted (r : Report) (slot : Nat) (s : State) : State := match r.warp with | some w => s.modWarp w (noteSlot slot) | none => s

theorem samePosts_reportNoted (r : Report) (slot : Nat) (s : State) : SamePosts s (reportNoted r slot s) := by
  unfold reportNoted
  split <;> exact ⟨rfl, rfl, rfl⟩

theorem postReport_of_posts {vf : Nat} {ring : RingKind} {r : Report} {g : Ring} {s : State} (h : Posts vf ring r g s) :
    ∃ u, postReport vf ring s = some u ∧ u.rings = s.rings.insert (ringKey vf ring) { g with p := g.p + BitVec.ofNat 32 r.slots.length }
      ∧ u.reports = s.reports.erase r ∧ u.out = s.out ++ [.msix (.vf vf) g.vec] := by
  obtain ⟨hrep, hring, hroom⟩ := h
  have hpost : postReport vf ring s
      = some ((reportNoted r ((g.p.toNat + 0) % 2 ^ g.log) (ringMoved vf ring r g (slotsWritten vf ring r g s))).emit (.msix (.vf vf) g.vec)) := by
    unfold postReport
    rw [hrep, hring]
    exact if_neg (Nat.not_lt.2 hroom)
  have hwritten : SamePosts s (slotsWritten vf ring r g s) := SamePosts.foldl
    (fun i t => hostAddr t vf (g.base + 32 * ((g.p.toNat + i) % 2 ^ g.log)))
    (fun i => phased ring (g.p + BitVec.ofNat 32 i) g.log (r.slots.getD i [])) _ s
  have hnoted := samePosts_reportNoted r ((g.p.toNat + 0) % 2 ^ g.log) (ringMoved vf ring r g (slotsWritten vf ring r g s))
  refine ⟨_, hpost, hnoted.rings.trans ?_, hnoted.reports.trans ?_, congrArg (· ++ _) (hnoted.out.trans hwritten.out)⟩
  · exact congrArg (SMap.insert · _ _) hwritten.rings
  · exact congrArg (List.erase · r) hwritten.reports

/-! ### Consumer counts (R464, R468) -/

theorem setConsumed_of_ready {s : State} {f : Func} {ring : RingKind} {ci : Word32} (h : s.pkg.ready = true) :
    setConsumed f ring ci s
      = (match f with
        | .pf _ => id
        | .vf vf => fun s : State => { s with rings := s.rings.adjust (ringKey vf ring) fun g => { g with c := ci } })
        (s.modFunc f fun g => match ring with | .scan => { g with scanCi := ci } | _ => { g with trapCi := ci }) := by
  unfold setConsumed
  rw [h]
  cases f <;> rfl

theorem setConsumed_not_ready {s : State} {f : Func} {ring : RingKind} {ci : Word32} (h : s.pkg.ready = false) : setConsumed f ring ci s = s := by
  simp [setConsumed, h]

/-- Settles O43: each event's guard holds under its condition, and what it leaves is read off the state it gives. -/
theorem trapsRepliesAndReports : Obligations.TrapsRepliesAndReports := by
  unfold Obligations.TrapsRepliesAndReports
  refine ⟨?entry, ?nest, ?retry, ?skip, ?kill, ?keptRetry, ?keptSkip, ?keptKill, ?silentRetry, ?silentSkip, ?silentKill, ?post,
    ?trapVf, ?scanVf, ?trapPf, ?scanPf, ?off⟩
  case entry =>
    intro w x t l s h
    obtain ⟨htarget, hlane, hothers⟩ := trapEntered_spec h
    exact ⟨_, runEvent_of_some (trapEntry_of_enters h), htarget, rfl, rfl, hothers, _, hlane, rfl, rfl, rfl, rfl, rfl, rfl, rfl⟩
  case nest =>
    intro w x t lane code info s ⟨hw, ht, hlane, hin, hne⟩
    obtain ⟨hgone, hheld⟩ := warp?_nestTrap hw ht hne
    exact ⟨_, runEvent_of_some (trapNest_of_inner hw ht hlane hin), (warp?_postMail_getD ..).trans hgone, (warp?_postMail_getD ..).trans hheld⟩
  case retry =>
    exact fun vf slot w x t u => happens_traprsp (fun s h => h.1.1) fun s ⟨h, hd, hu⟩ =>
      traprsp_resume h hd (by decide) hu
  case skip =>
    exact fun vf slot w x t u => happens_traprsp (fun s h => h.1.1) fun s ⟨h, hd, hu⟩ =>
      traprsp_resume h hd (by decide) hu
  case kill => exact fun vf slot w x t => happens_traprsp (fun s h => h.1.1) fun s ⟨h, hd⟩ => traprsp_kill h hd
  case keptRetry => exact fun vf slot w x t => happens_traprsp (fun s h => h.1.1) fun s ⟨h, hd⟩ => traprsp_kept 0 h hd
  case keptSkip => exact fun vf slot w x t => happens_traprsp (fun s h => h.1.1) fun s ⟨h, hd⟩ => traprsp_kept 1 h hd
  case keptKill => exact fun vf slot w x t => happens_traprsp (fun s h => h.1.1) fun s ⟨h, hd⟩ => traprsp_kept 2 h hd
  case silentRetry => exact fun vf slot => happens_traprsp (fun s h => h.1) fun s h => traprsp_silent 0 h.2
  case silentSkip => exact fun vf slot => happens_traprsp (fun s h => h.1) fun s h => traprsp_silent 1 h.2
  case silentKill => exact fun vf slot => happens_traprsp (fun s h => h.1) fun s h => traprsp_silent 2 h.2
  case post =>
    intro vf ring r g s h
    obtain ⟨u, hu, hrings, hreports, hout⟩ := postReport_of_posts h
    exact ⟨u, runEvent_of_some hu, hrings, hreports, hout⟩
  case trapVf => exact fun vf ci s h => congrArg Host.Outcome.next (setConsumed_of_ready (f := .vf vf) (ring := .trap) h)
  case scanVf => exact fun vf ci s h => congrArg Host.Outcome.next (setConsumed_of_ready (f := .vf vf) (ring := .scan) h)
  case trapPf => exact fun n ci s h => congrArg Host.Outcome.next (setConsumed_of_ready (f := .pf n) (ring := .trap) h)
  case scanPf => exact fun n ci s h => congrArg Host.Outcome.next (setConsumed_of_ready (f := .pf n) (ring := .scan) h)
  case off => exact fun f ci s h => congrArg Host.Outcome.next (setConsumed_not_ready h)

end Sys2Proof.Machine
end

section
/-!
PROOF. Services of keys, pre-emption, partitions and firmware (O48).
-/
namespace Sys2Proof.Machine

/-! ### Keys (R429) -/

/-- A KEYOP of a PF for a slot that is bound to no VF, with nothing locked. -/
def KeyArgs (r : SvcReq) (s : State) : Prop :=
  let vf := argBits r.a0 32 8
  argsEndAt r 1 = true ∧ onlyFields r.a0 [(0, 2), (16, 12), (32, 8)] = true ∧ argBits r.a0 0 2 ≠ 3 ∧ fromPf r = true
    ∧ (s.sys.keys.get {} (argBits r.a0 16 12)).vf = none
    ∧ (argBits r.a0 0 2 = 2 → mayUse r s vf = true ∧ s.configLocked vf = false) ∧ (argBits r.a0 0 2 ≠ 2 → vf = 0)

/-- What KEYSLOT of the operation gives. -/
def keyApplied (r : SvcReq) (s : State) : State × Word64 :=
  keyslot s (if argBits r.a0 0 2 = 2 then 3 else argBits r.a0 0 2) (argBits r.a0 16 12) (argBits r.a0 32 8)

section
variable {r : SvcReq} {s : State}

theorem keyop_ok (h : KeyArgs r s) : keyop r s = .ok (keyApplied r s).1 [(keyApplied r s).2] := by
  obtain ⟨hend, hfields, h3, hpf, hfree, hbind, hother⟩ := h
  refine (whenArgs_of ?args).trans ((whenAllowed_of ?allowed).trans ((if_neg ?unlocked).trans rfl))
  case args =>
    by_cases h2 : argBits r.a0 0 2 = 2
    · simp [hend, hfields, h2]
    · simp [hend, hfields, h3, hother h2]
  case allowed =>
    rw [hpf, hfree]
    by_cases h2 : argBits r.a0 0 2 = 2
    · simp [(hbind h2).1]
    · simp [h2]
  case unlocked =>
    rw [hfree]
    by_cases h2 : argBits r.a0 0 2 = 2
    · simp [(hbind h2).2]
    · simp [h2]

end

/-! ### Pre-emption and restoring (R430, R434, R437) -/

/-- A PREEMPT of workgroup `g`, which has no save in progress, from a function that may act for its VF. -/
def Preempts (r : SvcReq) (g : Workgroup) (s : State) : Prop :=
  argsEndAt r 3 = true ∧ r.a2.toNat < 4096 ∧ s.wg? r.a0.toNat = some g ∧ mayUse r s g.vf = true ∧ s.sys.saves.find? r.a0.toNat = none

/-- A RESTORE from an address that may hold an image, of a VF that the caller may act for. -/
def Restores (r : SvcReq) (s : State) : Prop :=
  argsEndAt r 3 = true ∧ onlyFields r.a0 [(0, 5)] = true ∧ r.a2.toNat < 4096 ∧ imageAddrBad s r.a1.toNat = none
    ∧ mayUse r s (numAt (s.bytes (imageKey r s r.a1.toNat + 42) 1) 0 1) = true

/-- What restoring the image at the request's address gives. -/
def serviceRestored (r : SvcReq) (s : State) : State × Nat × Nat :=
  restoreImage s r.a0.toNat r.a2.toNat (.memory (imageKey r s r.a1.toNat)) (imageKey r s r.a1.toNat)

/-- The cluster of a held image. -/
def heldHome (s : State) (i : HeldImage) : Nat := ((s.wg? i.wg).map (·.cluster)).getD 0

/-- What restoring a held image gives. -/
def heldRestored (s : State) (i : HeldImage) : State × Nat × Nat := restoreImage s (heldHome s i) i.slot (.held i.bytes) (2 ^ 52 + i.wg)

/-- The device that HELDRESTORE names. -/
def heldDevice (r : SvcReq) : Nat := argBits r.a0 0 4

/-- The held images of the device are restored, and counted. -/
def heldBrought (r : SvcReq) (s : State) : State × Nat :=
  (s.sys.images.filter (·.ld == heldDevice r)).foldl (fun (a : State × Nat) i =>
    let t := (heldRestored a.1 i).1
    if (heldRestored a.1 i).2.1 = 0 then ({ t with sys := { t.sys with images := t.sys.images.erase i } }, a.2 + 1) else a) (s, 0)

/-- The grace period ends when no image of the device is left. -/
def graceEnded (r : SvcReq) (t : State) : State :=
  if t.sys.images.any (·.ld == heldDevice r) then t else { t with sys := { t.sys with graceEnd := t.sys.graceEnd.erase (heldDevice r) } }

section
variable {r : SvcReq} {s : State} {g : Workgroup} {n : Nat}

/-- The checks of PREEMPT leave those of CTXSV. -/
theorem preempt_of_preempts (h : Preempts r g s) :
    preempt r s = match saveCheck s r.a0.toNat r.a1.toNat r.a2.toNat with
      | some st => .ok s [BitVec.ofNat 64 st]
      | none => .later (beginSave s r.a0.toNat { image := some (memoryKey s g.vf r.a1.toNat), slot := r.a2.toNat, svc := some r }) := by
  obtain ⟨hend, hslot, hwg, hu, hfree⟩ := h
  refine (whenArgs_of (by simp [hend, hslot])).trans ((whenAllowed_of (by rw [hwg]; exact hu)).trans ((if_neg ?_).trans ?_))
  · rw [hfree]
    exact Bool.false_ne_true
  · rw [hwg]
    rfl

theorem preempt_ok (h : Preempts r g s) (hn : saveCheck s r.a0.toNat r.a1.toNat r.a2.toNat = some n) :
    preempt r s = .ok s [BitVec.ofNat 64 n] := by rw [preempt_of_preempts h, hn]

theorem preempt_later (h : Preempts r g s) (hn : saveCheck s r.a0.toNat r.a1.toNat r.a2.toNat = none) :
    preempt r s = .later (beginSave s r.a0.toNat { image := some (memoryKey s g.vf r.a1.toNat), slot := r.a2.toNat, svc := some r }) := by
  rw [preempt_of_preempts h, hn]

theorem restore_ok (h : Restores r s) :
    restore r s = .ok (serviceRestored r s).1 [restoreWord (serviceRestored r s).2.1 (serviceRestored r s).2.2] := by
  obtain ⟨hend, hfields, hslot, haddr, hu⟩ := h
  refine (whenArgs_of (by simp [hend, hfields, hslot])).trans ?_
  rw [haddr]
  exact whenAllowed_of hu

theorem heldrestore_ok (ha : argsEndAt r 1 = true) (hf : onlyFields r.a0 [(0, 4)] = true) (hpf : r.caller = .pf (heldDevice r))
    (hs : heldDevice r ∈ s.pkg.sessions) :
    heldrestore r s = .ok (graceEnded r (heldBrought r s).1) [BitVec.ofNat 64 (heldBrought r s).2] :=
  (whenArgs_of (by rw [ha, hf]; rfl)).trans
    (whenAllowed_of (Bool.and_eq_true_iff.2 ⟨beq_iff_eq.2 hpf, List.contains_iff_mem.2 hs⟩))

theorem heldrestore_denied (ha : argsEndAt r 1 = true) (hf : onlyFields r.a0 [(0, 4)] = true)
    (h : r.caller ≠ .pf (heldDevice r) ∨ heldDevice r ∉ s.pkg.sessions) : heldrestore r s = .refuse 4 := by
  refine (whenArgs_of (by rw [ha, hf]; rfl)).trans (whenAllowed_of_not (Bool.eq_false_iff.2 fun hok => ?_))
  obtain ⟨hpf, hs⟩ := Bool.and_eq_true_iff.1 hok
  exact h.elim (fun h => h (beq_iff_eq.1 hpf)) fun h => h (List.contains_iff_mem.1 hs)

end

/-! ### Killing and partitions (R427, R438) -/

/-- The workgroups of a partition that are resident are killed. -/
def partitionKilled (r : SvcReq) (s : State) : State :=
  (s.wgs.filter fun g => (s.sys.partition.get 0 g.2.cluster == argBits r.a0 0 4) && !g.2.saved).foldl (fun s g => killWorkgroup s g.1 false) s

/-- A TLB entry stands in a cluster that satisfies a test. -/
def TlbEntry.within (p : Nat → Bool) (e : TlbEntry) : Bool := match e.home with | .core n => p (clusterOf n) | .cluster n => p n

/-- The TLBs, the walkers' caches and the LLC slices of the clusters that satisfy a test are empty. -/
def cachesEmptied (p : Nat → Bool) (s : State) : State :=
  { s with tlb := s.tlb.filter (fun e => !e.within p), walkCache := s.walkCache.filter (fun e => !p e.cluster)
           llc := s.llc.filter (fun l => !p (l.slice / 8))
           copies := (s.llc.filter fun l => l.remote && p (l.slice / 8)).foldl
             (fun m l => m.put 0 l.line (m.get 0 l.line &&& ~~~(1#4 <<< (l.slice / 64)))) s.copies }

section
variable {r : SvcReq} {s : State} {g : Workgroup}

theorem svcWgkill_ok (ha : argsEndAt r 2 = true) (hf : onlyFields r.a1 [(0, 1)] = true) (hg : s.wg? r.a0.toNat = some g)
    (hu : mayUse r s g.vf = true) : svcWgkill r s = .ok (killWorkgroup s r.a0.toNat (!r.a1.getLsbD 0)) [] := by
  refine (whenArgs_of (by rw [ha, hf]; rfl)).trans ?_
  rw [hg]
  exact whenAllowed_of hu

theorem partset_ok (ha : argsEndAt r 1 = true) (hf : onlyFields r.a0 [(0, 5), (8, 4)] = true) (hpf : r.caller = .pf 0)
    (hfree : clusterInUse s (argBits r.a0 0 5) = false) :
    partset r s = .ok { s with sys := { s.sys with partition := s.sys.partition.put 0 (argBits r.a0 0 5) (argBits r.a0 8 4) } } [] :=
  (whenArgs_of (by rw [ha, hf]; rfl)).trans ((whenAllowed_of (beq_iff_eq.2 hpf)).trans (if_neg (Bool.eq_false_iff.1 hfree)))

theorem partreset_ok (ha : argsEndAt r 1 = true) (hf : onlyFields r.a0 [(0, 4)] = true) (hpf : r.caller = .pf 0) :
    partreset r s = .ok (cachesEmptied (fun c => s.sys.partition.get 0 c == argBits r.a0 0 4) (partitionKilled r s)) [] :=
  (whenArgs_of (by rw [ha, hf]; rfl)).trans (whenAllowed_of (beq_iff_eq.2 hpf))

end

/-! ### Settings of the package (R415, R452, R454, R461) -/

/-- A TRACE of operation `k` from a PF. -/
def Traces (r : SvcReq) (k : Nat) : Prop := argsEndAt r 3 = true ∧ onlyFields r.a0 [(0, 2)] = true ∧ fromPf r = true ∧ argBits r.a0 0 2 = k

/-- The image that FWUPDATE names. -/
def updateBytes (r : SvcReq) (s : State) : List Byte := s.bytes (hostKey (s.deviceOf r.caller) r.a0.toNat) r.a1.toNat

/-- The image is well formed, and every die accepts it. -/
def UpdateAccepted (r : SvcReq) (s : State) : Prop :=
  (firmwareImage (updateBytes r s)).good = true ∧ (updateBytes r s).length = 4096 + (firmwareImage (updateBytes r s)).body.length
    ∧ ∀ d < 4, imageCode (firmwareImage (updateBytes r s)) (s.pkg.fuseKeys.getD d 0) (s.pkg.fuseSvns.getD d 0) = 0

section
variable {r : SvcReq} {s : State}

theorem isobari_ok {i : Nat} (ha : argsEndAt r 1 = true) (hi : i < 15) (hv : r.a0.toNat = 2 ^ (16 + i)) (hpf : fromPf r = true) :
    isobari r s = .ok { s with dbg := { s.dbg with interval := r.a0.toNat } } [] := by
  have hpow : ((List.range 15).any fun i => r.a0.toNat == 2 ^ (16 + i)) = true :=
    List.any_eq_true.2 ⟨i, List.mem_range.2 hi, beq_iff_eq.2 hv⟩
  exact (whenArgs_of (Bool.and_eq_true_iff.2 ⟨ha, hpow⟩)).trans (whenAllowed_of hpf)

theorem graceset_ok (ha : argsEndAt r 1 = true) (hv : r.a0.toNat ≤ 60000) (hpf : r.caller = .pf 0) :
    graceset r s = .ok { s with sys := { s.sys with grace := r.a0.toNat } } [] :=
  (whenArgs_of (Bool.and_eq_true_iff.2 ⟨ha, decide_eq_true hv⟩)).trans (whenAllowed_of (beq_iff_eq.2 hpf))

theorem graceset_denied (ha : argsEndAt r 1 = true) (hv : r.a0.toNat ≤ 60000) (hpf : r.caller ≠ .pf 0) : graceset r s = .refuse 4 :=
  (whenArgs_of (Bool.and_eq_true_iff.2 ⟨ha, decide_eq_true hv⟩)).trans (whenAllowed_of_not (beq_eq_false_iff_ne.2 hpf))

/-- What the operation of TRACE comes to. -/
def traceServed (r : SvcReq) (k : Nat) (s : State) : Served :=
  match k with
  | 0 => let (s, st) := enableRing s r.a1.toNat r.a2; .ok s [BitVec.ofNat 64 st]
  | 1 => let (s, x) := disableRing s (r.a1.toNat % 512); .ok s [x]
  | op => let (s, st) := selectComparator s (op == 3) r.a1 r.a2; .ok s [BitVec.ofNat 64 st]

/-- The checks of TRACE leave its operation. -/
theorem trace_of_traces {k : Nat} (h : Traces r k) : trace r s = traceServed r k s := by
  obtain ⟨hend, hfields, hpf, hop⟩ := h
  rw [← hop]
  refine (whenArgs_of (by rw [hend, hfields]; rfl)).trans ((whenAllowed_of hpf).trans ?_)
  rfl

theorem trace_enable (h : Traces r 0) :
    trace r s = .ok (enableRing s r.a1.toNat r.a2).1 [BitVec.ofNat 64 (enableRing s r.a1.toNat r.a2).2] := by
  obtain ⟨p, hp⟩ : ∃ p, enableRing s r.a1.toNat r.a2 = p := ⟨_, rfl⟩
  rw [trace_of_traces h]
  unfold traceServed
  rw [hp]
  rfl

theorem trace_disable (h : Traces r 1) :
    trace r s = .ok (disableRing s (r.a1.toNat % 512)).1 [(disableRing s (r.a1.toNat % 512)).2] := trace_of_traces h

/-- A comparator's selector, or its mask. -/
theorem trace_select (h : Traces r 2 ∨ Traces r 3) :
    trace r s = .ok (selectComparator s (argBits r.a0 0 2 == 3) r.a1 r.a2).1
      [BitVec.ofNat 64 (selectComparator s (argBits r.a0 0 2 == 3) r.a1 r.a2).2] := by
  obtain ⟨k, hk⟩ : ∃ k, Traces r (k + 2) := h.elim (⟨0, ·⟩) (⟨1, ·⟩)
  have hop : argBits r.a0 0 2 = k + 2 := hk.2.2.2
  rw [trace_of_traces hk, hop]
  rfl

theorem fwupdate_ok (ha : argsEndAt r 2 = true) (hpf : r.caller = .pf 0) (h : UpdateAccepted r s) :
    fwupdate r s = .ok { s with pkg := { s.pkg with staged := some (updateBytes r s) } } [] := by
  obtain ⟨hgood, hlen, hcode⟩ := h
  refine (whenArgs_of ha).trans ((whenAllowed_of (beq_iff_eq.2 hpf)).trans (if_pos ?_))
  refine Bool.and_eq_true_iff.2 ⟨Bool.and_eq_true_iff.2 ⟨hgood, beq_iff_eq.2 hlen⟩, List.all_eq_true.2 fun d hd => beq_iff_eq.2 ?_⟩
  exact hcode d (List.mem_range.1 hd)

/-- A request whose number stands in the log gets the reply that was logged (R440). -/
theorem serve_of_logged {svc : Nat} {f : State → Served} {bs : List Byte} (h : s.sys.log.find? (logKey r) = some bs) :
    serve svc r f s = sendReply (taken r s) r.caller r.index bs := by
  have hlog : (taken r s).sys.log.find? (logKey r) = some bs := h
  change (match (taken r s).sys.log.find? (logKey r) with | some bs => _ | none => _) = _
  rw [hlog]
  rfl

end

/-- Settles O48: each service passes its checks, and the frame replies with what it gives, or with what it has logged. -/
theorem servicesOfWorkAndPackage : Obligations.ServicesOfWorkAndPackage := by
  unfold Obligations.ServicesOfWorkAndPackage
  refine ⟨?keyop, ?preemptLater, ?preempt, ?restore, ?heldrestore, ?heldrestoreDenied, ?wgkill, ?isobari, ?graceset, ?gracesetDenied, ?partset,
    ?partreset, ?enable, ?disable, ?select, ?fwupdate, ?logged⟩
  case keyop => exact fun r => serves_of_ok (fun _ _ => rfl) fun s h => keyop_ok h
  case preemptLater =>
    intro r g s hlog hc hrec h hn
    refine congrArg Host.Outcome.next ((serve_of_new hlog hc fun h => absurd (hrec.symm.trans h) Bool.false_ne_true).trans ?_)
    rw [preempt_later h hn]
  case preempt => exact fun r g n => serves_of_ok (fun _ _ => rfl) fun s ⟨h, hn⟩ => preempt_ok h hn
  case restore =>
    exact fun r => serves_of_ok (fun s ⟨hflips, _⟩ => runEventFlip_of_some hflips rfl) fun s ⟨_, h⟩ => restore_ok h
  case heldrestore =>
    exact fun r => serves_of_ok (fun s ⟨hflips, _⟩ => runEventFlip_of_some hflips rfl) fun s ⟨_, ha, hf, hpf, hs⟩ =>
      heldrestore_ok ha hf hpf hs
  case heldrestoreDenied =>
    intro r s hlog hc hm ⟨hflips, ha, hf, h⟩
    have hrun : exec (.heldrestore r) s = .next (serve 0x0F r (heldrestore r) s) := runEventFlip_of_some hflips rfl
    exact hrun.trans (congrArg _ (serve_of_refuse hlog hc hm (heldrestore_denied ha hf h)))
  case wgkill =>
    exact fun r g => serves_of_ok (fun s ⟨hflips, _⟩ => runEventFlip_of_some hflips rfl) fun s ⟨_, ha, hf, hg, hu⟩ => svcWgkill_ok ha hf hg hu
  case isobari => exact fun r i => serves_of_ok (fun _ _ => rfl) fun s ⟨ha, hi, hv, hpf⟩ => isobari_ok ha hi hv hpf
  case graceset => exact fun r => serves_of_ok (fun _ _ => rfl) fun s ⟨ha, hv, hpf⟩ => graceset_ok ha hv hpf
  case gracesetDenied => exact fun r => refuses_of_refuse (fun _ => rfl) fun s ⟨ha, hv, hpf⟩ => graceset_denied ha hv hpf
  case partset => exact fun r => serves_of_ok (fun _ _ => rfl) fun s ⟨ha, hf, hpf, hfree⟩ => partset_ok ha hf hpf hfree
  case partreset =>
    intro r s ⟨hflips, hlog, hc, hrec, ha, hf, hpf⟩
    exact ⟨_, runEventFlip_of_some hflips rfl, serve_of_ok hlog hc (fun h => absurd (hrec.symm.trans h) Bool.false_ne_true)
      (partreset_ok ha hf hpf)⟩
  case enable => exact fun r => serves_of_ok (fun _ _ => rfl) fun s h => trace_enable h
  case disable => exact fun r => serves_of_ok (fun _ _ => rfl) fun s h => trace_disable h
  case select => exact fun r => serves_of_ok (fun _ _ => rfl) fun s h => trace_select h
  case fwupdate => exact fun r => serves_of_ok (fun _ _ => rfl) fun s ⟨ha, hpf, h⟩ => fwupdate_ok ha hpf h
  case logged => exact fun r bs s h => congrArg Host.Outcome.next (serve_of_logged h)

end Sys2Proof.Machine
end

section
/-!
PROOF. Loads put their reads in flight (O15).
-/

namespace Sys2Proof.Machine

/-! ### The read of an instruction (R281-R285) -/

/-- The translated elements of a load: one for each active lane, or one for the path. -/
def readElems (uniform : Bool) (c : Ctx) (s : State) : List Access2 := hits s c .read (c.elems uniform)

/-- The lines of the instruction's elements can enter the caches that its path and its qualifier name (R258, R281). -/
def LinesFit (q : Chan) (qual : Ctx → Nat) (uniform : Bool) (c : Ctx) (s : State) : Prop :=
  (cached c s q (qual c) ((readElems uniform c s).map (·.pa))).isSome = true

/-- The elements of a load of `size` bytes reach memory, none is poisoned, and their lines enter the caches. -/
def LoadReady (q : Chan) (qual size : Ctx → Nat) (uniform : Bool) (c : Ctx) (s : State) : Prop :=
  Reaches s c .read (size c) (c.elems uniform) ∧ Clean s (size c) (readElems uniform c s) ∧ LinesFit q qual uniform c s

/-- No qualifier: lines enter L1 as an ordinary read brings them in. -/
def noQualifier (_ : Ctx) : Nat := 0

/-- A vector load: one element for each lane, to D (LD, CLD). -/
def lanesRead (q : Chan) (c : Ctx) (s : State) : State :=
  let xs := readElems false c s
  issueRead (withCached c s q c.qa (xs.map (·.pa))) c (.weak q) c.esize (lanesMask xs) (xs.map fun x => (0, x))
    (.vector (c.slot c.f.d.toNat) c.eslots c.ty) (c.destRegs c.eslots)

/-- A load of one element for the path, to a uniform or a predicate (LDU, CLDU, LDP). -/
def pathRead (q : Chan) (dest : Ctx → Dest) (busy : Ctx → List Reg) (c : Ctx) (s : State) : State :=
  let xs := readElems true c s
  issueRead (withCached c s q 0 (xs.map (·.pa))) c (.weak q) c.esize c.path.lmask (xs.map fun x => (0, x)) (dest c) (busy c)

/-- LDV: the words of each lane's element. -/
def wordsRead (c : Ctx) (s : State) : State :=
  let xs := readElems false c s
  issueRead (withCached c s .gen 0 (xs.map (·.pa))) c (.weak .gen) 4 (lanesMask xs)
    (xs.flatMap fun x => (List.range (wordCount c)).map fun i => (i, { x with pa := x.pa + 4 * i, va := x.va + 4 * i }))
    (.vector (c.slot c.f.d.toNat) 1 .z32) (c.destRegs (wordCount c))

/-- The predicate of an LDNF (R282). -/
def failPred (c : Ctx) : Nat := 2 * c.qa + bit c.qb

/-- LDNF: the lanes whose translation succeeds are read, and the failed ones are remembered. -/
def noFaultRead (c : Ctx) (s : State) : State :=
  let xs := readElems false c s
  issueRead (withCached c s .gen 0 (xs.map (·.pa))) c (.weak .gen) c.esize c.act (xs.map fun x => (0, x))
    (.noFault (c.slot c.f.d.toNat) c.eslots c.ty (c.act &&& ~~~(lanesMask xs)) (failPred c))
    (c.destRegs c.eslots ++ (if failPred c = 15 then [] else [.pred (failPred c)]))

/-- Every lane of an LDNF has an outcome of its translation: none needs a walk, and none meets a page in flip (R282). -/
def LookedUp (c : Ctx) (s : State) : Prop :=
  ((c.elems false).all fun e => match lookupVa s c.warp c.path e.va .read with | .walk | .flip _ => false | _ => true) = true

/-- SMPL: two neighbouring elements for each lane (R285). -/
def sampleElems (c : Ctx) (s : State) : List (Nat × Access2) :=
  (readElems false c s).flatMap fun x => [(0, x), (1, { x with pa := x.pa + c.esize, va := x.va + c.esize })]

/-- SMPL's read. -/
def sampleRead (c : Ctx) (s : State) : State :=
  let xs := sampleElems c s
  issueRead (withCached c s .con 0 (xs.map (·.2.pa))) c (.weak .con) c.esize (lanesMask (readElems false c s)) xs
    (.sample (c.slot c.f.d.toNat) c.ty (c.vrow (c.f.km.getLsbD 3) c.f.d.toNat) c.warp.regs.gmode) (c.destRegs 1)

/-- GATH: its read, after which a progressive one has no valid restart record (R279). -/
def gatherRead (c : Ctx) (s : State) : State :=
  if progressive true c then restartCleared c (lanesRead .gen c s) else lanesRead .gen c s

/-! ### Weak reads -/

section
variable {c : Ctx} {s : State} {q : Chan} {qual : Nat} {pas : List Nat}

/-- A weak read whose lines fit goes on once they have entered the caches. -/
theorem withLines_of_fit (h : (cached c s q qual pas).isSome = true) (f : State → Res) :
    withLines c s q qual pas f = f (withCached c s q qual pas) := by
  obtain ⟨t, ht⟩ := Option.isSome_iff_exists.1 h
  rw [withLines_of_cached ht, withCached, ht]
  rfl

/-- Where no translated element is poisoned, the check finds none (R292). -/
theorem poisonedElem_of_clean_reads {n : Nat} {uniform : Bool} (h : Clean s n (readElems uniform c s)) :
    poisonedElem s n (hits s c .read (c.elems uniform)) = none := poisonedElem_of_clean h

theorem loadBody_done (h : LoadReady q (·.qa) (·.esize) false c s) : loadBody q c s = .done (lanesRead q c s) := by
  obtain ⟨hr, hclean, hfit⟩ := h
  refine (elements_of_reaches hr _).trans ?_
  obtain ⟨-, -, hall⟩ := hr
  rw [translateAll_of_hits hall, poisonedElem_of_clean_reads hclean]
  exact withLines_of_fit hfit _

theorem loadWordsBody_done (h : LoadReady .gen noQualifier (4 * wordCount ·) false c s) : loadWordsBody c s = .done (wordsRead c s) := by
  obtain ⟨hr, hclean, hfit⟩ := h
  refine (elements_of_reaches hr _).trans ?_
  obtain ⟨-, -, hall⟩ := hr
  rw [translateAll_of_hits hall, ← wordCount, poisonedElem_of_clean_reads hclean]
  exact withLines_of_fit hfit _

theorem loadUniformBody_done {pred : Bool} (h : LoadReady q noQualifier (·.esize) true c s) :
    loadUniformBody q pred c s
      = .done (pathRead q (fun c => if pred then .predicate c.f.d.toNat else .uniform c.f.d.toNat c.ty)
          (fun c => if pred then (if c.f.d.toNat = 15 then [] else [.pred c.f.d.toNat]) else [.uni c.f.d.toNat]) c s) := by
  obtain ⟨hr, hclean, hfit⟩ := h
  refine (elements_of_reaches hr _).trans ?_
  obtain ⟨-, -, hall⟩ := hr
  rw [translateAll_of_hits hall, poisonedElem_of_clean_reads hclean]
  exact withLines_of_fit hfit _

/-- An LDNF whose lanes all have an outcome reads those that translate. -/
theorem loadNoFaultBody_done (hne : (c.elems false).isEmpty = false) (hea : (eaFault (c.elems false) c.esize).isNone = true)
    (hclean : Clean s c.esize (readElems false c s)) (hlook : LookedUp c s) (hfit : LinesFit .gen noQualifier false c s) :
    loadNoFaultBody c s = .done (noFaultRead c s) := by
  unfold loadNoFaultBody
  simp only
  split
  · simp [*] at hne
  · simp [*] at hea
  · split
    · rename_i e heq
      have hstop := List.find?_some heq
      have hgo := List.all_eq_true.1 hlook e (List.mem_of_find?_eq_some heq)
      split at hstop <;> simp_all
    · show (match poisonedElem s c.esize (readElems false c s) with | some e => _ | none => _) = _
      rw [poisonedElem_of_clean hclean]
      exact withLines_of_fit hfit _

/-- A SMPL whose pairs of elements lie in one page each, and are not poisoned, reads them. -/
theorem sampleBody_done (hr : Reaches s c .read c.esize (c.elems false)) (hclean : Clean s (2 * c.esize) (readElems false c s))
    (hpage : ((c.elems false).all fun e => decide (e.va % 4096 + 2 * c.esize ≤ 4096)) = true) :
    sampleBody c s = .done (sampleRead c s) := by
  have hnone : (c.elems false).find? (fun e => decide (4096 < e.va % 4096 + 2 * c.esize)) = none := by
    simpa using hpage
  refine (elements_of_reaches hr _).trans ?_
  obtain ⟨-, -, hall⟩ := hr
  rw [hnone]
  simp only
  rw [translateAll_of_hits hall, poisonedElem_of_clean_reads hclean]
  rfl

/-- A progressive GATH with no restart record, whose elements all translate, completes at once (R279). -/
theorem progressiveGather_done (hmask : restartMask c = 0) (h : LoadReady .gen (·.qa) (·.esize) false c s) :
    progressiveBody true c s = .done (restartCleared c (lanesRead .gen c s)) := by
  obtain ⟨⟨hne, hea, hall⟩, hclean, hfit⟩ := h
  have helems := elems_of_no_restart hmask
  have hscan := scanElems_of_hits (c.elems false) hall
  unfold progressiveBody
  simp only [helems, Option.isNone_iff_eq_none.1 hea, if_true, hscan, poisonedElem_of_clean_reads hclean]
  split
  · rename_i e heq
    obtain ⟨pa, x, hlook⟩ := lookupVa_of_hits hall (List.mem_of_find?_eq_some heq)
    simpa [hlook] using List.find?_some heq
  · unfold doElements
    simp only [hits_ne_nil hne hall, Bool.false_eq_true, if_false, if_true]
    exact withLines_of_fit hfit _

theorem gathBody_done (hmask : restartMask c = 0) (h : LoadReady .gen (·.qa) (·.esize) false c s) :
    gathBody c s = .done (gatherRead c s) := by
  unfold gathBody gatherRead
  split
  · exact progressiveGather_done hmask h
  · exact loadBody_done h

/-! ### A load for whose lines the publish buffer has no room (R259, R300) -/

/-- Entering caches and passing a boundary leave the reads in flight as they are. -/
theorem CacheStep.pendingReads {t : State} (h : CacheStep s t) (w : Nat) (lmask : BitVec 32) :
    pendingReads t w lmask = Machine.pendingReads s w lmask := by
  obtain ⟨_, _, _, _, _, _, _, _, _, rfl⟩ := h.rest
  rfl

/-- Lines that cannot enter L1 make the core pass a boundary and the access wait for the path's reads. -/
theorem withL1_of_not_entered {next : Bool} {lines : List Nat} (h : entered c s next lines = none) (f : State → Res) :
    withL1 c s next lines f = .wait (boundary s c.warp.core .pod) (.reads (pendingReads s c.w c.path.lmask)) := by
  have hreads := (cacheStep_boundary s c.warp.core .pod).pendingReads c.w c.path.lmask
  unfold entered at h
  unfold withL1
  split at h
  · cases h
  · rename_i hfull
    simp only at h
    split at h
    · cases h
    · rename_i hpending
      simp only
      split
      · exact absurd ‹_› (hfull _)
      · rw [hreads]

/-- The dies' slices serve the lines of a read (R281). -/
def llcServed (c : Ctx) (s : State) (pas : List Nat) : State := (linesOf pas).foldl (fun s l => llcRead s (dieOf c.warp.core) l) s

/-- The state in which a load whose lines find no room waits: its core has passed a boundary at `.pod`. -/
def boundaryPassed (c : Ctx) (s : State) : State := boundary (llcServed c s ((readElems false c s).map (·.pa))) c.warp.core .pod

theorem withLines_of_full (hqual : qual < 2) (h : cached c s .gen qual pas = none) (f : State → Res) :
    withLines c s .gen qual pas f = .wait (boundary (llcServed c s pas) c.warp.core .pod) (.reads (pendingReads s c.w c.path.lmask)) := by
  have hreads := (CacheStep.foldl (fun s l => cacheStep_llcRead s (dieOf c.warp.core) l) (linesOf pas) s).pendingReads c.w c.path.lmask
  have hq : qual ≠ 2 := by omega
  unfold cached at h
  unfold withLines
  simp only [reduceCtorEq, if_false, if_neg hq] at h ⊢
  rw [withL1_of_not_entered h, hreads]
  rfl

theorem loadBody_waits (hqual : c.qa < 2) (hr : Reaches s c .read c.esize (c.elems false)) (hclean : Clean s c.esize (readElems false c s))
    (hfull : cached c s .gen c.qa ((readElems false c s).map (·.pa)) = none) :
    loadBody .gen c s = .wait (boundaryPassed c s) (.reads (pendingReads s c.w c.path.lmask)) := by
  refine (elements_of_reaches hr _).trans ?_
  obtain ⟨-, -, hall⟩ := hr
  rw [translateAll_of_hits hall, poisonedElem_of_clean_reads hclean]
  exact withLines_of_full hqual hfull _

end

/-! ### The instructions -/

theorem accesses_ld (x : MForm) : Accesses (execLd x) 0x180 (.m x) (LoadReady .gen (·.qa) (·.esize) false) (lanesRead .gen) :=
  accesses_of_body fun _ _ => loadBody_done

theorem accesses_ldu (x : MForm) :
    Accesses (execLdu x) 0x186 (.m x) (LoadReady .gen noQualifier (·.esize) true)
      (pathRead .gen (fun c => .uniform c.f.d.toNat c.ty) fun c => [.uni c.f.d.toNat]) :=
  accesses_of_body fun _ _ => loadUniformBody_done (pred := false)

theorem accesses_ldp (x : MForm) :
    Accesses (execLdp x) 0x184 (.m x) (LoadReady .gen noQualifier (·.esize) true)
      (pathRead .gen (fun c => .predicate c.f.d.toNat) fun c => if c.f.d.toNat = 15 then [] else [.pred c.f.d.toNat]) :=
  accesses_of_body fun _ _ => loadUniformBody_done (pred := true)

theorem completes_cld (x : MForm) :
    Completes (execCld x) 0x190 (.m x) (prepared (LoadReady .con (·.qa) (·.esize) false)) (lanesRead .con) :=
  completes_of_body fun _ _ _ => loadBody_done

theorem completes_cldu (x : MForm) :
    Completes (execCldu x) 0x191 (.m x) (prepared (LoadReady .con noQualifier (·.esize) true))
      (pathRead .con (fun c => .uniform c.f.d.toNat c.ty) fun c => [.uni c.f.d.toNat]) :=
  completes_of_body fun _ _ _ => loadUniformBody_done (pred := false)

/-- An LD for whose lines there is no room waits, once its core has passed a boundary, for the reads of its path. -/
theorem ld_waits (x : MForm) :
    Waits (execLd x) 0x180 (.m x)
      (prepared fun c s => c.path.wait = none ∧ c.qa < 2 ∧ Reaches s c .read c.esize (c.elems false) ∧ Clean s c.esize (readElems false c s)
        ∧ cached c s .gen c.qa ((readElems false c s).map (·.pa)) = none)
      boundaryPassed fun c s => .reads (pendingReads s c.w c.path.lmask) :=
  waits_of_body fun _ _ _ ⟨hwait, hqual, hr, hclean, hfull⟩ => by
    simp only [afterOverflow, hwait]
    exact loadBody_waits hqual hr hclean hfull

/-- Settles O15: each body puts the read of its translated elements in flight once their lines have entered the caches, and the rows of J32
and J16 run LD and LDU. -/
theorem loadsIssueReads : Obligations.LoadsIssueReads := by
  unfold Obligations.LoadsIssueReads
  refine ⟨accesses_ld, fun x => accesses_of_body fun _ _ => loadWordsBody_done, accesses_ldu, accesses_ldp, completes_cld, completes_cldu,
    fun x => accesses_of_body fun _ _ ⟨hne, hea, hclean, hlook, hfit⟩ => loadNoFaultBody_done hne hea hclean hlook hfit,
    fun x => completes_of_body fun _ _ _ ⟨hr, hclean, hpage⟩ => sampleBody_done hr hclean hpage,
    fun x => accesses_of_body fun _ _ ⟨hmask, h⟩ => gathBody_done hmask h, ld_waits, fun g d m z o => accesses_ld _,
    fun g d m i z o => accesses_ld _, fun g d m z o hd => ?_, fun d m o => accesses_ld _, fun d m i => accesses_ld _⟩
  have hrun : exec (.j32Ldu g d m z o) = execLdu (j32Mem g d m z o) := funext fun _ => if_pos hd
  exact hrun ▸ accesses_ldu _

end Sys2Proof.Machine
end

section
/-!
SUPPORT. What the table decodes from a word is what a fetch decodes from it, and what a decoded IOP runs (R39, R92, R108).
-/

namespace Sys2Proof

/-! ### Fields of the low bits of a number -/

section
variable {w m lo n : Nat}

theorem bitsAt_mod (h : lo + n ≤ m) : bitsAt (w % 2 ^ m) lo n = bitsAt w lo n := by
  apply Nat.eq_of_testBit_eq
  intro i
  simp only [bitsAt, Nat.testBit_mod_two_pow, Nat.testBit_div_two_pow]
  by_cases hi : i < n
  · simp [show i + lo < m by omega]
  · simp [hi]

theorem fieldAt_mod (h : lo + n ≤ m) : fieldAt (w % 2 ^ m) lo n = fieldAt w lo n := by
  apply fieldAt_eq
  rw [← bitsAt, bitsAt_mod h, fieldAt, BitVec.toNat_ofNat, bitsAt]

theorem bitAt_mod (h : lo + 1 ≤ m) : bitAt (w % 2 ^ m) lo = bitAt w lo :=
  congrArg (· == 1) (bitsAt_mod (n := 1) h)

theorem ofCode_mod (h : lo + 4 ≤ m) : ElemType.ofCode (w % 2 ^ m / 2 ^ lo) = ElemType.ofCode (w / 2 ^ lo) := by
  have hcode : w % 2 ^ m / 2 ^ lo % 16 = w / 2 ^ lo % 16 := bitsAt_mod (n := 4) h
  rw [ElemType.ofCode, hcode, ElemType.ofCode]

end

/-! ### The low bits decode as the word does -/

section
variable {w m : Nat}

theorem readIop_mod (h : 64 ≤ m) : readIop (w % 2 ^ m) = readIop w := by
  simp (disch := omega) only [readIop, unpackR, unpackI, unpackM, unpackB, unpackA, unpackS, unpackG, sPadOk, bitsAt_mod,
    fieldAt_mod, bitAt_mod, ofCode_mod]
  rfl

theorem readJ64_mod (h : 64 ≤ m) : readJ64 (w % 2 ^ m) = readJ64 w := by
  rw [readJ64, readIop_mod h, readJ64]

theorem j32Own_mod (h : 32 ≤ m) : j32Own (w % 2 ^ m) = j32Own w := by
  simp (disch := omega) only [j32Own, bitsAt_mod, fieldAt_mod, bitAt_mod]

theorem j32Core_mod (h : 32 ≤ m) : j32Core (w % 2 ^ m) = j32Core w := by
  simp (disch := omega) only [j32Core, bitsAt_mod, fieldAt_mod]

theorem decodeJ16_mod (h : 16 ≤ m) : decodeJ16 (w % 2 ^ m) = decodeJ16 w := by
  simp (disch := omega) only [decodeJ16, readJ16, j16Sys, bitsAt_mod, fieldAt_mod, bitAt_mod]

end

/-- A J64 word that is an IOP is no clause header. -/
theorem parseHeader_of_readJ64 {w : Nat} {p : Nat × Form} (h : readJ64 w = some p) : parseHeader w = none := by
  have hopc : bitsAt w 54 10 ≠ 0x3FF := fun hopc => by
    have hf : formatOf 0x3FF = none := by decide
    simp only [readJ64, readIop, hopc, hf, reduceCtorEq] at h
  simp [parseHeader, hopc]

/-! ### Guest words of the table -/

/-- A decoded guest word of `n` bytes is the instruction: a row, the IOP that the word is, or a clause header of J32. -/
inductive Guest.Is (i : Instr) (n : Nat) : Guest → Prop
  | row : Guest.Is i n (.row i n)
  | iop {opc : Nat} {f : Form} (h : ofParts opc f = some i) : Guest.Is i n (.slots [(opc, f)] n)
  | header {glen : BitVec 5} {waits : BitVec 12} {sf1 sf2 : BitVec 4} {rlx : Bool} (hi : i = .j32Header glen waits sf1 sf2 rlx)
      (hok : j32HeaderOk glen.toNat sf1.toNat sf2.toNat = true) : Guest.Is i n (.header (j32HeaderOf glen waits sf1 sf2 rlx) n)

/-- A well-formed row as a guest word. -/
theorem asGuest_is {i : Instr} {n : Nat} (hw : i.wf = true) : ∃ g, asGuest (some i) n = .ok g ∧ g.Is i n := by
  unfold asGuest
  split
  · rename_i heq
    cases heq
    exact ⟨_, rfl, .header rfl hw⟩
  · rename_i heq
    cases heq
    exact ⟨_, rfl, .row⟩
  · contradiction

theorem decodeGuest_of_decodeJ64 {w : Nat} {i : Instr} {t : Option Tables} (h : decodeJ64 w = some i) :
    ∃ g, decodeGuest t 0 (w % 2 ^ 64) = .ok g ∧ g.Is i 8 := by
  obtain ⟨⟨opc, f⟩, hread, hparts⟩ := Option.bind_eq_some_iff.1 h
  have hread' := (readJ64_mod (m := 64) (Nat.le_refl _)).trans hread
  refine ⟨.slots [(opc, f)] 8, ?_, .iop hparts⟩
  simp only [decodeGuest, if_true, parseHeader_of_readJ64 hread', hread']

theorem decodeGuest_of_decodeJ32 {w : Nat} {i : Instr} {t : Option Tables} (h : decodeJ32 w = some i) :
    ∃ g, decodeGuest t 1 (w % 2 ^ 32) = .ok g ∧ g.Is i 4 := by
  have hguest : decodeGuest t 1 (w % 2 ^ 32) = guestJ32 w := by
    simp only [decodeGuest, guestJ32, Nat.mod_mod, j32Own_mod (Nat.le_refl 32), j32Core_mod (Nat.le_refl 32)]
    rfl
  rw [hguest]
  unfold decodeJ32 at h
  unfold guestJ32
  split at h
  · split at h
    · cases h
      rename_i hown hwf
      simp only [hwf, if_true]
      exact asGuest_is hwf
    · cases h
  · rename_i hown
    obtain ⟨⟨opc, f⟩, hcore, hparts⟩ := Option.bind_eq_some_iff.1 h
    simp only [hcore]
    exact ⟨_, rfl, .iop hparts⟩

theorem decodeGuest_of_decodeJ16 {w : Nat} {i : Instr} {t : Option Tables} (h : decodeJ16 w = some i) :
    ∃ g, decodeGuest t 2 (w % 2 ^ 16) = .ok g ∧ g.Is i 2 := by
  have hguest : decodeGuest t 2 (w % 2 ^ 16) = asGuest (some i) 2 := by
    simp only [decodeGuest, Nat.mod_mod, decodeJ16_mod (Nat.le_refl 16), h]
    rfl
  rw [hguest]
  unfold decodeJ16 at h
  split at h
  · split at h
    · cases h
      exact asGuest_is ‹_›
    · cases h
  · cases h

namespace Machine

/-- A word that the table decodes is the instruction under the personality of its length (R92). -/
theorem decodeGuest_of_decodeTableWord {nbits w : Nat} {i : Instr} {t : Option Tables} (h : decodeTableWord nbits w = some i) :
    nbits ≤ 64 ∧ ∃ g, decodeGuest t (wordPid nbits) (w % 2 ^ nbits) = .ok g ∧ g.Is i (nbits / 8) := by
  unfold decodeTableWord at h
  split at h
  · subst nbits
    exact ⟨by decide, decodeGuest_of_decodeJ16 h⟩
  · split at h
    · subst nbits
      exact ⟨by decide, decodeGuest_of_decodeJ32 h⟩
    · split at h
      · subst nbits
        exact ⟨by decide, decodeGuest_of_decodeJ64 h⟩
      · cases h

/-! ### The meaning of an IOP by its parts -/

/-- An entry of the opcode table makes instructions whose meaning is that of the opcode. -/
def MakesMeaning (opc : Nat) : Mk → Prop
  | .r mk => ∀ x, meaningOf opc (.r x) = some (exec (mk x))
  | .i mk => ∀ x, meaningOf opc (.i x) = some (exec (mk x))
  | .m mk => ∀ x, meaningOf opc (.m x) = some (exec (mk x))
  | .b mk => ∀ x, meaningOf opc (.b x) = some (exec (mk x))
  | .a mk => ∀ x, meaningOf opc (.a x) = some (exec (mk x))
  | .s mk => ∀ x, meaningOf opc (.s x) = some (exec (mk x))

/-- Every opcode means what `exec` gives its instructions (R71-R76). -/
theorem makesMeaning_of_mem : ∀ e ∈ opcodeTable, MakesMeaning e.1 e.2 := by
  simp only [opcodeTable, List.forall_mem_append, and_assoc]
  refine ⟨?_, ?_, ?_, ?_, ?_, ?_, ?_, ?_, ?_, ?_, ?_, ?_⟩ <;>
    (repeat refine List.forall_mem_cons.2 ⟨fun _ => rfl, ?_⟩) <;> exact List.forall_mem_nil _

theorem mem_of_lookupOpc {opc : Nat} {mk : Mk} {l : List (Nat × Mk)} (h : lookupOpc l opc = some mk) : (opc, mk) ∈ l := by
  induction l with
  | nil => cases h
  | cons e l ih =>
    obtain ⟨k, m⟩ := e
    unfold lookupOpc at h
    split at h
    · cases h
      subst opc
      exact List.mem_cons_self
    · exact List.mem_cons_of_mem _ (ih h)

theorem makesMeaning_of_lookupOpc {opc : Nat} {mk : Mk} (h : lookupOpc opcodeTable opc = some mk) : MakesMeaning opc mk :=
  makesMeaning_of_mem _ (mem_of_lookupOpc h)

theorem meaningOf_of_ofParts {opc : Nat} {f : Form} {i : Instr} (h : ofParts opc f = some i) : meaningOf opc f = some (exec i) := by
  unfold ofParts at h
  split at h <;> cases h
  all_goals
    rename_i hmk
    have hmeans := makesMeaning_of_lookupOpc hmk
    exact hmeans _

/-- An IOP given as opcode and fields runs as the instruction of these parts. -/
theorem runParts_of_ofParts {opc : Nat} {f : Form} {i : Instr} (h : ofParts opc f = some i) (s : State) : runParts (opc, f) s = exec i s := by
  simp only [runParts, meaningOf_of_ofParts h]

end Machine
end Sys2Proof
end

section
/-!
PROOF. A step runs the decoded instruction (O54).
-/

namespace Sys2Proof.Machine

/-! ### The step of a path that is due to issue (R39, R449) -/

/-- The issue slot of a path that has fetched a guest word of `n` bytes, with the words that its clause has learnt (R113). -/
def issuing (s : State) (k : Cur) (x : Warp) (n : Nat) : State :=
  { s.modPath k.w k.p (learn s x) with cur := some { k with due := false, len := n } }

/-- A path issues its next guest instruction: it is due, stands between guest instructions, and no comparator matches. -/
structure Due (s : State) (k : Cur) (x : Warp) (q : Path) : Prop where
  cur : s.cur = some k
  due : k.due = true
  rest : k.rest = []
  warp : s.warp? k.w = some x
  path : s.path? k.w k.p = some q
  free : breakingComparator s = none

/-- A header met inside a clause ends the clause; its bytes do not count. -/
theorem applyHeader_in_clause {s : State} {w p : Nat} {x : Warp} {q : Path} {h : Header} {n word : Nat} (hx : s.warp? w = some x)
    (hq : s.path? w p = some q) (hc : q.clause.isSome = true) : applyHeader s w p h n word = clauseBoundary (endClause s w p) w := by
  simp only [applyHeader, hx, hq, hc, if_true]

theorem learn_isSome {s : State} {x : Warp} {q : Path} (h : q.clause.isSome = true) : (learn s x q).clause.isSome = true := by
  unfold learn
  split
  · exact h
  · split
    · exact h
    · rfl

section
variable {s : State} {k : Cur} {x : Warp} {q : Path} {g : Guest} {w8 : Nat}

/-- A path that is due runs the word that it fetches. -/
theorem step_of_fetch (hd : Due s k x q) (hf : fetchAt s k.w k.p x q = .word g w8) (ho : overfull q g = false) :
    step s = onNext tick (runGuest x { k with due := false } g w8 (s.modPath k.w k.p (learn s x))) := by
  obtain ⟨hcur, hdue, hrest, hwarp, hpath, hfree⟩ := hd
  have hact : act s = issueNext k s := by simp only [act, hcur, hdue, Bool.true_or, if_true]
  have hissue : issueNext k s = fetchAndRun x q k s := by simp only [issueNext, hrest, hwarp, hpath, hfree]
  rw [step, hact, hissue]
  simp only [fetchAndRun, hf, ho, Bool.false_eq_true, if_false]

theorem runGuest_iop {opc : Nat} {f : Form} {i : Instr} (n : Nat) (h : ofParts opc f = some i) :
    runGuest x { k with due := false } (.slots [(opc, f)] n) w8 (s.modPath k.w k.p (learn s x)) = exec i (issuing s k x n) :=
  runParts_of_ofParts h _

/-- The row of a J32 header inside a clause does what the header does: the clause ends (R80). -/
theorem runGuest_header {glen : BitVec 5} {waits : BitVec 12} {sf1 sf2 : BitVec 4} {rlx : Bool} (hd : Due s k x q)
    (hc : q.clause.isSome = true) (hok : j32HeaderOk glen.toNat sf1.toNat sf2.toNat = true) (n : Nat) :
    runGuest x { k with due := false } (.header (j32HeaderOf glen waits sf1 sf2 rlx) n) w8 (s.modPath k.w k.p (learn s x))
      = exec (.j32Header glen waits sf1 sf2 rlx) (issuing s k x n) := by
  obtain ⟨y, hx⟩ : ∃ y, (s.modPath k.w k.p (learn s x)).warp? k.w = some y :=
    ⟨_, (State.warp?_modPath_self ..).trans (congrArg _ hd.warp)⟩
  have hx' : (issuing s k x n).warp? k.w = some y := hx
  have hq : (s.modPath k.w k.p (learn s x)).path? k.w k.p = some (learn s x q) := by rw [State.path?_modPath_self, hd.path]; rfl
  have hq' : (issuing s k x n).path? k.w k.p = some (learn s x q) := hq
  have hl := learn_isSome (s := s) (x := x) hc
  have hcur : (s.modPath k.w k.p (learn s x)).cur = some k := hd.cur
  have hcur' : (issuing s k x n).cur = some { k with due := false, len := n } := rfl
  show header _ _ _ _ = execJ32Header _ _ _ _ _ _
  rw [execJ32Header_of_legal hok]
  simp only [header, hcur, hcur', hq, hq', Option.isSome_some, if_true, applyHeader_in_clause hx hq hl,
    applyHeader_in_clause hx' hq' hl]
  rfl

/-- A path in a clause runs the instruction that its word is. -/
theorem runGuest_is {i : Instr} {n : Nat} (hd : Due s k x q) (hc : q.clause.isSome = true) (h : g.Is i n) :
    runGuest x { k with due := false } g w8 (s.modPath k.w k.p (learn s x)) = exec i (issuing s k x n) := by
  cases h with
  | row => rfl
  | iop hparts => exact runGuest_iop n hparts
  | header hi hok =>
    subst hi
    exact runGuest_header hd hc hok n

end

/-! ### A fetch that the core's TLB and the Gazetteer serve (R47, R113, R275) -/

section
variable {s : State} {w p : Nat} {x : Warp} {q : Path} {a : Nat}

/-- An address of which the core's TLB holds first an executable, scanned page translates. -/
theorem lookupVa_of_head {t : TlbEntry} {rest : List TlbEntry} (htlb : s.tlb = t :: rest)
    (hserves : t.serves (.core x.core) x.vf x.asid a .fetch false = true) (hflip : (t.pbase + (a - t.vbase)) / 4096 ∉ s.flips)
    (hhost : (t.pbase + (a - t.vbase)) / 2 ^ 48 % 16 ≠ 2) : lookupVa s x q a .fetch = .ok (t.pbase + (a - t.vbase)) t.x := by
  have hkept : hostPageLost s x.vf (t.pbase + (a - t.vbase)) = false := by rw [hostPageLost, beq_false_of_ne hhost, Bool.false_and]
  simp [lookupVa, htlb, hserves, hflip, hkept]

theorem pageId_of_head {t : TlbEntry} {rest : List TlbEntry} (hpriv : x.privileged = false) (htlb : s.tlb = t :: rest)
    (hserves : t.serves (.core x.core) x.vf x.asid a .fetch false = true) : pageId s x a = some t.pid := by
  simp [pageId, hpriv, htlb, hserves]

/-- A word that the Gazetteer holds at an instruction start is what a fetch finds. -/
theorem fetchLine_of_entry {e : GazEntry} {g : Guest} {pid : Nat} (hres : (s.personalities.get {} pid).resident = true)
    (hgaz : gazetteer s x pid a = some e) (hstart : isStart s x e.pid a = true) (hguest : e.guest s a = .ok g) :
    fetchLine s x pid a = .word g (e.word a) := by
  simp only [fetchLine, hres, hgaz, entryWord, hstart, hguest, Bool.not_true, Bool.false_eq_true, if_false]

/-- A path whose clause has not decoded its PC fetches there. -/
theorem fetchAt_of_undecoded (hhi : q.pcHi = 0) (hcode : (q.clause.bind (·.code.find? q.pc.toNat)) = none) :
    fetchAt s w p x q = fetchVa s w p x q q.pc.toNat := by
  simp [fetchAt, hhi, hcode]

end

/-! ### The word that withFetchWord places -/

/-- The Gazetteer entry of a placed word. -/
def placedEntry (nbits w : Nat) (x : Warp) (pc : BitVec 57) : GazEntry :=
  { cluster := clusterOf x.core, pid := wordPid nbits, vf := x.vf, asid := x.asid, line := pc.toNat / 64
    bytes := wordBytes nbits w ++ List.replicate 120 0 }

/-- The TLB entry of the page of a placed word. -/
def placedPage (nbits : Nat) (x : Warp) (pc : BitVec 57) : TlbEntry :=
  { home := .core x.core, vf := x.vf, asid := x.asid, glob := false, vbase := 4096 * (pc.toNat / 4096)
    pbase := 4096 * (pc.toNat / 4096 % 2 ^ 26), size := 4096, r := true, w := false, x := true, ctx := false, sv := true
    pid := wordPid nbits, dirty := false }

/-- The path for which a word is placed: at the start of a line, in an implicit clause that has just opened. -/
def placedPath (q : Path) : Path :=
  { q with pc := BitVec.ofNat 57 (q.pc.toNat / 64 * 64), pcHi := 0, clause := some implicitClause, wait := none, notes := [], skip := true }

/-- A state holds a word of `nbits` bits at the PC of a path of `x`, ready to be fetched. -/
structure Placed (nbits word : Nat) (s : State) (x : Warp) (q : Path) : Prop where
  ordinary : x.privileged = false
  high : q.pcHi = 0
  aligned : q.pc.toNat % 64 = 0
  clause : q.clause = some implicitClause
  gaz : ∃ rest, s.gaz = placedEntry nbits word x q.pc :: rest
  tlb : ∃ rest, s.tlb = placedPage nbits x q.pc :: rest
  flips : q.pc.toNat / 4096 % 2 ^ 26 ∉ s.flips
  resident : (s.personalities.get {} (wordPid nbits)).resident = true

theorem fetchPath_ordinary (s : State) : (fetchPath s).2.2.1.privileged = false := by
  unfold fetchPath
  simp only
  split
  · rfl
  · split
    · split
      · rfl
      · exact Bool.eq_false_iff.2 ‹_›
    · rfl

/-- withFetchWord places the word at the PC of the path that it makes due. -/
theorem withFetchWord_placed (s : State) (nbits word : Nat) :
    ∃ k x q, (s.withFetchWord nbits word).cur = some k ∧ k.due = true ∧ k.rest = [] ∧ (s.withFetchWord nbits word).warp? k.w = some x
      ∧ (s.withFetchWord nbits word).path? k.w k.p = some q ∧ Placed nbits word (s.withFetchWord nbits word) x q := by
  have hpriv := fetchPath_ordinary s
  unfold State.withFetchWord
  rcases hpath : fetchPath s with ⟨n, p, x, q⟩
  rw [hpath] at hpriv
  simp only at hpriv ⊢
  have hpc : (BitVec.ofNat 57 (q.pc.toNat / 64 * 64)).toNat = q.pc.toNat / 64 * 64 := by
    rw [BitVec.toNat_ofNat, Nat.mod_eq_of_lt (by have := q.pc.isLt; omega)]
  refine ⟨_, _, placedPath q, rfl, rfl, rfl, SMap.find?_insert_self .., ?_, hpriv, rfl, ?_, rfl, ⟨_, rfl⟩, ⟨_, rfl⟩, ?_, ?_⟩
  · rw [State.path?, State.warp?, SMap.find?_insert_self]
    exact SMap.find?_insert_self ..
  · exact hpc ▸ Nat.mul_mod_left ..
  · simp [placedPath]
  · rw [SMap.get_insert, if_pos rfl]

section
variable {nbits word : Nat} {s : State} {x : Warp} {q : Path}

/-- The entry's word at the PC is the word, without the bits above `nbits`. -/
theorem placedEntry_word (hn : nbits ≤ 64) (ha : q.pc.toNat % 64 = 0) : (placedEntry nbits word x q.pc).word q.pc.toNat = word % 2 ^ nbits := by
  have hlt : word % 2 ^ nbits < 256 ^ 8 :=
    Nat.lt_of_lt_of_le (Nat.mod_lt _ (Nat.two_pow_pos _)) (by simpa using Nat.pow_le_pow_right (n := 2) (by decide) hn)
  have hbytes : (placedEntry nbits word x q.pc).bytes.take 8 = wordBytes nbits word := rfl
  rw [GazEntry.word, ha, List.drop_zero, hbytes, wordBytes, leNat_leBytes, Nat.mod_eq_of_lt hlt]

theorem placedPage_serves :
    (placedPage nbits x q.pc).serves (.core x.core) x.vf x.asid q.pc.toNat .fetch false = true := by
  have hlo : 4096 * (q.pc.toNat / 4096) ≤ q.pc.toNat := by omega
  have hhi : q.pc.toNat < 4096 * (q.pc.toNat / 4096) + 4096 := by omega
  simp [placedPage, TlbEntry.serves, hlo, hhi]

/-- A placed word is an instruction start. -/
theorem Placed.isStart (h : Placed nbits word s x q) : isStart s x (wordPid nbits) q.pc.toNat = true := by
  have ha := h.aligned
  have h8 : q.pc.toNat % 8 = 0 := by omega
  have h4 : q.pc.toNat % 4 = 0 := by omega
  have h2 : q.pc.toNat % 2 = 0 := by omega
  unfold wordPid Machine.isStart
  split
  · simp [h2]
  · split
    · simp [h4]
    · simp [h8]

/-- A fetch finds the word that has been placed, decoded. -/
theorem Placed.fetchAt (h : Placed nbits word s x q) (hn : nbits ≤ 64) {g : Guest}
    (hg : decodeGuest ((s.personalities.find? (wordPid nbits)).bind (·.tables)) (wordPid nbits) (word % 2 ^ nbits) = .ok g) (w p : Nat) :
    fetchAt s w p x q = .word g (word % 2 ^ nbits) := by
  obtain ⟨gaz, hgaz⟩ := h.gaz
  obtain ⟨tlb, htlb⟩ := h.tlb
  have hpa : ((placedPage nbits x q.pc).pbase + (q.pc.toNat - (placedPage nbits x q.pc).vbase)) / 4096 = q.pc.toNat / 4096 % 2 ^ 26 := by
    simp only [placedPage]
    omega
  have hhost : ((placedPage nbits x q.pc).pbase + (q.pc.toNat - (placedPage nbits x q.pc).vbase)) / 2 ^ 48 % 16 ≠ 2 := by
    simp only [placedPage]
    omega
  have hlook := lookupVa_of_head (q := q) htlb placedPage_serves (hpa ▸ h.flips) hhost
  have hpid := pageId_of_head h.ordinary htlb placedPage_serves
  have hentry : gazetteer s x (wordPid nbits) q.pc.toNat = some (placedEntry nbits word x q.pc) := by
    simp [gazetteer, hgaz, placedEntry, Warp.fetchAsid, h.ordinary]
  have hguest : (placedEntry nbits word x q.pc).guest s q.pc.toNat = .ok g := by
    rw [GazEntry.guest, placedEntry_word hn h.aligned]
    exact hg
  rw [fetchAt_of_undecoded h.high (by rw [h.clause]; rfl)]
  simp only [fetchVa, h.ordinary, Bool.false_eq_true, if_false, hlook, hpid, Option.getD_some]
  exact (fetchLine_of_entry h.resident hentry h.isStart hguest).trans (by rw [placedEntry_word hn h.aligned])

theorem rowSlots_le (i : Instr) : rowSlots i ≤ 2 := by unfold rowSlots; split <;> decide

/-- An implicit clause that has just opened has room for every word of the table (R39). -/
theorem Placed.not_overfull (h : Placed nbits word s x q) {i : Instr} {n : Nat} {g : Guest} (hg : g.Is i n) : overfull q g = false := by
  have hslots : guestIops g ≤ 24 := by
    cases hg with
    | row => exact (rowSlots_le i).trans (by decide)
    | iop => exact Nat.le_add_left 1 23
    | header => exact Nat.zero_le 24
  simp only [overfull, h.clause, implicitClause, Bool.true_and, decide_eq_false_iff_not]
  omega

end

/-- Settles O54: the word that a due path fetches runs, an IOP as the instruction of its parts; and a word of the table that withFetchWord
places is fetched as the instruction that the table decodes from it. -/
theorem stepRunsTheDecodedInstruction : Obligations.StepRunsTheDecodedInstruction := by
  unfold Obligations.StepRunsTheDecodedInstruction
  refine ⟨fun s k x q g w8 hcur hdue hrest hwarp hpath hfree hf ho => ?_, fun s nbits w i hdec hfree => ?_⟩
  · have hstep := step_of_fetch ⟨hcur, hdue, hrest, hwarp, hpath, hfree⟩ hf ho
    refine ⟨fun i n hg => ?_, fun opc f n i hg hparts => ?_, fun e hg => ?_, fun h n hg => ?_⟩ <;> subst hg <;> rw [hstep]
    · rfl
    · rw [runGuest_iop n hparts]
      rfl
    · rfl
    · rfl
  · obtain ⟨k, x, q, hcur, hdue, hrest, hwarp, hpath, hplaced⟩ := withFetchWord_placed s nbits w
    have hd : Due (s.withFetchWord nbits w) k x q := ⟨hcur, hdue, hrest, hwarp, hpath, hfree⟩
    obtain ⟨hn, g, hguest, his⟩ := decodeGuest_of_decodeTableWord
      (t := ((s.withFetchWord nbits w).personalities.find? (wordPid nbits)).bind (·.tables)) hdec
    refine ⟨k, x, hcur, hwarp, ?_⟩
    rw [step_of_fetch hd (hplaced.fetchAt hn hguest k.w k.p) (hplaced.not_overfull his),
      runGuest_is hd (by rw [hplaced.clause]; rfl) his]
    rfl

end Sys2Proof.Machine
end

section
/-!
PROOF. Clauses start, waits end by time, and instructions run again (O35).
-/

namespace Sys2Proof.Machine

/-! ### CLAUSE_START (R143, R69, R70) -/

/-- The path is first in order on free slices of its half, and a fetch at its PC finds `f` (R143). -/
def FirstInOrder (w p : Nat) (x : Warp) (q : Path) (f : Fetch) (s : State) : Prop :=
  s.warp? w = some x ∧ s.path? w p = some q ∧ mayStartClause s w p x = true ∧ fetchAt s w p x q = f

/-- The others of the path's half have been passed once more (R144). -/
def othersPassed (w p : Nat) (x : Warp) (s : State) : State :=
  let pl := x.place.getD { core := 0, half := 0, slot := 0 }
  countPassed { s with cur := none } w p pl.core pl.half

/-- An implicit clause has begun at a guest word (R39). -/
def implicitOpened (w p : Nat) (x : Warp) (q : Path) (s : State) : State :=
  let t := traceClause (othersPassed w p x s) w p none 0
  { t.modPath w p (fun r =>
      { r with clause := some (beginClause t x q q.pc.toNat implicitClause), passed := 0, urgent := false, yielded := false }) with
    cur := some { w := w, p := p } }

section
variable {s : State} {w p : Nat} {x : Warp} {q : Path}

theorem startClause_header {g : Guest} {w8 : Nat} {h : Header} {n : Nat} (hg : headerOf g = some (h, n))
    (hfirst : FirstInOrder w p x q (.word g w8) s) : startClause w p s = some (applyHeader (othersPassed w p x s) w p h n w8) := by
  obtain ⟨hx, hq, hmay, hf⟩ := hfirst
  simp only [startClause, hx, hq, hmay, hf, hg, Bool.not_true, Bool.false_eq_true, if_false]
  rfl

theorem startClause_implicit {g : Guest} {w8 : Nat} (hg : headerOf g = none) (hfirst : FirstInOrder w p x q (.word g w8) s) :
    startClause w p s = some (implicitOpened w p x q s) := by
  obtain ⟨hx, hq, hmay, hf⟩ := hfirst
  simp only [startClause, hx, hq, hmay, hf, hg, Bool.not_true, Bool.false_eq_true, if_false]
  rfl

theorem startClause_bad {code : FaultCode} {info : Word64} (hfirst : FirstInOrder w p x q (.bad code info) s) :
    startClause w p s = some (raiseFault { s with cur := none } w p code info) := by
  obtain ⟨hx, hq, hmay, hf⟩ := hfirst
  simp only [startClause, hx, hq, hmay, hf, Bool.not_true, Bool.false_eq_true, if_false]

/-! ### Steps that come with time (R141, R144, R359, R406) -/

theorem pathUrgent_some (hq : s.path? w p = some q) (hpassed : 64 ≤ q.passed) (hnot : q.urgent = false) :
    pathUrgent w p s = some (s.modPath w p fun r => { r with urgent := true }) := by
  simp only [pathUrgent, hq, if_pos (And.intro hpassed hnot)]

theorem parkTimeout_some (hq : s.path? w p = some q) (hpark : q.park = true) (hdue : q.parkedAt + 1024 ≤ s.clock) :
    parkTimeout w p s = some (clauseBoundary (s.modPath w p fun r => { r with park := false }) w) := by
  simp only [parkTimeout, hq, hpark, hdue, decide_true, Bool.and_true, if_true]

theorem sleepTimeout_some {since t : Nat} (hq : s.path? w p = some q) (hwait : q.wait = some (.sleep since t none)) (ht : 0 < t)
    (hdue : since + t ≤ s.clock) :
    sleepTimeout w p s = some (s.modPath w p fun r => { r with wait := some (.sleep since t (some (1, false))) }) := by
  simp only [sleepTimeout, hq, hwait, ht, hdue, decide_true, Bool.and_true, if_true]

/-- A UIWAIT ends by its time-out unless its path is due a delivery first (R406). -/
theorem uiwaitTimeout_some {since t : Nat} (hq : s.path? w p = some q) (hwait : q.wait = some (.uiwait since t none)) (ht : 0 < t)
    (hdue : since + t ≤ s.clock) (hfree : ((s.warp? w).bind (pendingDelivery s)).map (·.2) ≠ some p) :
    uiwaitTimeout w p s = some (s.modPath w p fun r => { r with wait := some (.uiwait since t (some 1)) }) := by
  simp only [uiwaitTimeout, hq, hwait, ht, hdue, bne_iff_ne.2 hfree, decide_true, Bool.and_true, if_true]

/-! ### PROGRESSIVE_REPLAY and EMULATION_TRAP (R118, R279, R481) -/

/-- A path whose page requests are answered, with the restart record of its PC, issues its instruction again. -/
theorem replay_some {vf : Nat} (hcur : s.cur = none) (hx : s.warp? w = some x) (hq : s.path? w p = some q)
    (hwait : q.wait = some (.requests vf [])) (hrestarts : q.restarts = true) (hclause : q.clause.isSome = true) (htrap : x.trap = none)
    (hplace : x.place.isSome = true) (harr : x.arriving = false) (hrel : x.released = false) :
    replay w p s = some { s.modPath w p (fun r => { r with wait := none }) with cur := some { w := w, p := p } } := by
  simp only [replay, hcur, hx, hq, hwait, hrestarts, hclause, htrap, hplace, harr, hrel, Option.any_some, Option.isNone_none,
    Bool.not_false, Bool.and_self, if_true]

end

/-- With no write of the emulation registers outstanding, none of them holds an emulation word back. -/
theorem heldEmulationRegs_eq_nil {s : State} {w : Nat} (hfree : ∀ j < 8, Reg.uni (56 + j) ∉ busyRegs s w) :
    ((List.range 8).map fun i => Reg.uni (56 + i)).filter (busyRegs s w).contains = [] := by
  rw [List.filter_eq_nil_iff]
  intro r hr
  obtain ⟨j, hj, rfl⟩ := List.mem_map.1 hr
  simpa using hfree j (List.mem_range.1 hj)

/-- An emulation word with no binding, or inside emulation, faults with EMUL. -/
theorem emulate_faults {e : EmuWord} {s : State} {k : Cur} {x : Warp} {q : Path} (hk : s.cur = some k) (hx : s.warp? k.w = some x)
    (hq : s.path? k.w k.p = some q) (hfree : ∀ j < 8, Reg.uni (56 + j) ∉ busyRegs s k.w)
    (hwhy : binding s x.vf x.asid e.pid.toNat = 0 ∨ q.emu = true) :
    emulate e s = .next (raiseFault (s.modPath k.w k.p fun r => { r with wait := none }) k.w k.p .emul
      (if binding s x.vf x.asid e.pid.toNat = 0 then 0 else 1)) := by
  simp only [emulate, hk, hx, hq, emulationStep, heldEmulationRegs_eq_nil hfree]
  by_cases hb : binding s x.vf x.asid e.pid.toNat = 0
  · simp only [if_pos hb]
  · simp only [if_neg hb, hwhy.resolve_left hb, if_true]

/-- Settles O35: each step is enabled by what the statement names, and has the effect that it names. -/
theorem clausesStartAndResume : Obligations.ClausesStartAndResume := by
  unfold Obligations.ClausesStartAndResume
  refine ⟨fun w p x q g w8 h n hg s hs => runEvent_of_some (startClause_header hg hs),
    fun w p x q g w8 hg s hs => runEvent_of_some (startClause_implicit hg hs),
    fun w p x q code info s hs => runEvent_of_some (startClause_bad hs),
    fun w p q s ⟨hq, hpassed, hnot⟩ => runEvent_of_some (pathUrgent_some hq hpassed hnot),
    fun w p q s ⟨hq, hpark, hdue⟩ => runEvent_of_some (parkTimeout_some hq hpark hdue),
    fun w p q since t s ⟨hq, hwait, ht, hdue⟩ => runEvent_of_some (sleepTimeout_some hq hwait ht hdue),
    fun w p q since t s ⟨hq, hwait, ht, hdue, hfree⟩ => runEvent_of_some (uiwaitTimeout_some hq hwait ht hdue hfree),
    fun w p x q vf s ⟨hcur, hx, hq, hwait, hrv, hrpc, hclause, htrap, hplace, harr, hrel⟩ => runEvent_of_some ?_,
    fun e k x q s ⟨hk, hx, hq, hfree, hwhy⟩ => emulate_faults hk hx hq hfree hwhy⟩
  have hrestarts : q.restarts = true := by rw [Path.restarts, hrv, hrpc, beq_self_eq_true, Bool.and_self]
  exact replay_some hcur hx hq hwait hrestarts hclause htrap hplace harr hrel

end Sys2Proof.Machine
end

section
/-!
PROOF. Foehn's moves, activation, eviction and Gazetteer fills (O36).
-/

namespace Sys2Proof.Machine

/-! ### Foehn's moves (R151, R152, R347) -/

/-- The warp once Foehn has made its next move. -/
def Warp.foehnMoved (x : Warp) : Warp := { x with foehn := x.foehn.tail }

/-- Room has been made for the missing slots of a path, and they are on their way, ahead of the moves that wait (R347). -/
def missStarted (w p : Nat) (x : Warp) (slots : List Nat) (s : State) : State :=
  let y := x.foehnMoved.startRefill slots (slotsOf (busyRegs s w))
  (s.setWarp w { y with foehn := y.foehn.drop x.foehn.tail.length ++ x.foehn.tail }).modPath w p fun r => { r with wait := some (.refill slots) }

/-- A slot's row has come in from the record (R152). -/
def refilled (w slot : Nat) (x : Warp) (row : Row) (s : State) : State :=
  (readSlot (s.setWarp w x.foehnMoved) x.foehnMoved slot).1.setWarp w
    { x.foehnMoved with lru := x.lru.filter (· != slot) ++ [slot], regs := { x.regs with v := x.regs.v.insert slot row } }

/-- A slot's row has gone to the record and left the register cache (R151). -/
def spilled (w slot : Nat) (x : Warp) (s : State) : State :=
  (recordWrite s x (slotPieces x.regs slot (x.regs.row slot))).1.setWarp w
    { x.foehnMoved with dirty := x.dirty.filter (· != slot), regs := { x.regs with v := x.regs.v.erase slot } }

section
variable {s : State} {w p slot : Nat} {x : Warp} {q : Path}

theorem missStep_some {slots : List Nat} (hx : s.warp? w = some x) (hq : s.path? w p = some q) (hwait : q.wait = some (.miss slots))
    (hnext : x.nextMove = some (.miss p)) : missStep w p s = some (missStarted w p x slots s) := by
  simp only [missStep, hx, hnext, bne_self_eq_false, Bool.false_eq_true, if_false, hq, Option.bind_some, hwait]
  rfl

/-- A slot that a write has allocated meanwhile is not brought in. -/
theorem refillStep_allocated (hx : s.warp? w = some x) (hnext : x.nextMove = some (.refill slot))
    (hheld : (x.regs.v.find? slot).isSome = true) : refillStep w slot s = some (s.setWarp w x.foehnMoved) := by
  simp only [refillStep, hx, hnext, bne_self_eq_false, Bool.false_eq_true, if_false, hheld, if_true]
  rfl

/-- A slot that the record can give is brought in. -/
theorem bringSlots_one {row : Row} (hx : s.warp? w = some x) (hout : x.regs.v.find? slot = none) (hrow : (readSlot s x slot).2 = .ok row) :
    bringSlots s w [slot] = ((readSlot s x slot).1.setWarp w
      { x with regs := { x.regs with v := x.regs.v.insert slot row }, lru := x.lru.filter (· != slot) ++ [slot] }, none) := by
  rcases hread : readSlot s x slot with ⟨t, r⟩
  obtain rfl : r = .ok row := by rw [hread] at hrow; exact hrow
  simp only [bringSlots, List.foldl_cons, List.foldl_nil, hx, hout, Option.isSome_none, Bool.false_eq_true, if_false, hread]

theorem refillStep_refilled {row : Row} (hx : s.warp? w = some x) (hnext : x.nextMove = some (.refill slot))
    (hout : x.regs.v.find? slot = none) (hrow : (readSlot (s.setWarp w x.foehnMoved) x.foehnMoved slot).2 = .ok row) :
    refillStep w slot s = some (refilled w slot x row s) := by
  have hbring := bringSlots_one (State.warp?_setWarp_self s w x.foehnMoved) hout hrow
  unfold Warp.foehnMoved at hbring
  simp only [refillStep, hx, hnext, bne_self_eq_false, Bool.false_eq_true, if_false, hout, Option.isSome_none, hbring]
  rfl

theorem spillStep_spilled (hx : s.warp? w = some x) (hnext : x.nextMove = some (.spill slot))
    (hwrite : (recordWrite s x (slotPieces x.regs slot (x.regs.row slot))).2 = none) :
    spillStep w slot s = some (spilled w slot x s) := by
  rcases hw : recordWrite s x (slotPieces x.regs slot (x.regs.row slot)) with ⟨t, va⟩
  obtain rfl : va = none := by rw [hw] at hwrite; exact hwrite
  simp only [spillStep, hx, hnext, bne_self_eq_false, Bool.false_eq_true, if_false, hw, spilled]
  rfl

end

/-! ### CTXFAULT_RETRY (R153) -/

/-- A warp that is dormant with a context fault at an address, to whose trap no reply waits. -/
def FaultedAt (w : Nat) (x : Warp) (va : Nat) (s : State) : Prop :=
  s.warp? w = some x ∧ x.faultVa = some va ∧ x.place = none ∧ x.trap.bind (·.reply) = none

/-- The warp without its context fault. -/
def Warp.faultCleared (x : Warp) : Warp :=
  { x with faultVa := none, faultSlot := none, waitingSince := none, regs := { x.regs with ctxf := false } }

/-- The state after the access that has faulted is made again. -/
def accessRetried (x : Warp) (va : Nat) (s : State) : State := (xlateNow s x.vf x.asid va .write true).1

/-- A launch's record is zeroed before its first state goes there (R368). -/
def recordZeroed (x : Warp) (s : State) : State × Option Nat := if x.fresh then zeroRecord s x else (s, none)

/-- The whole state of a warp has gone to its record. -/
def stateSaved (w : Nat) (y : Warp) (s : State) : State :=
  (writeRecord s y true).1.setWarp w { y.emptied [] with unsaved := false }

section
variable {s : State} {w va pa : Nat} {x : Warp}

/-- A retry that leaves a warp to whose trap no reply waits is all that happens. -/
theorem retryReplied_of_quiet {t : State} {y : Warp} (h : retryStep w s = some (t.setWarp w y)) (hreply : y.trap.bind (·.reply) = none) :
    retryReplied w s = some (t.setWarp w y) := by
  simp only [retryReplied, h, Option.map_some, State.warp?_setWarp_self, Option.bind_some, hreply, ite_self]

/-- Where the record holds the state, the retry marks the record. -/
theorem retryReplied_marks (hd : FaultedAt w x va s) (hsaved : x.unsaved = false)
    (hok : (xlateNow s x.vf x.asid va .write true).2 = .ok pa) :
    retryReplied w s = some ((markRecord (accessRetried x va s) x.faultCleared 9 false).setWarp w x.faultCleared) := by
  obtain ⟨hx, hva, hplace, hreply⟩ := hd
  refine retryReplied_of_quiet ?_ hreply
  rcases hacc : xlateNow s x.vf x.asid va .write true with ⟨t, r⟩
  obtain rfl : r = .ok pa := by rw [hacc] at hok; exact hok
  have haway : x.place.isSome = false := by rw [hplace]; rfl
  have hheld : (!x.unsaved) = true := by rw [hsaved]; rfl
  simp only [retryStep, hx, hva, haway, Bool.false_eq_true, if_false, hacc, hheld, if_true, accessRetried]
  rfl

/-- Where the record lacks a part of the state, the retry saves the state of the warp without its fault, `y`. -/
theorem retryReplied_saves {y : Warp} (hy : x.faultCleared = y) (hd : FaultedAt w x va s) (hunsaved : x.unsaved = true)
    (hok : (xlateNow s x.vf x.asid va .write true).2 = .ok pa) (hzero : (recordZeroed x (accessRetried x va s)).2 = none)
    (hwrite : (writeRecord (recordZeroed x (accessRetried x va s)).1 y true).2.2 = none) :
    retryReplied w s = some (stateSaved w y (recordZeroed x (accessRetried x va s)).1) := by
  subst hy
  obtain ⟨hx, hva, hplace, hreply⟩ := hd
  refine retryReplied_of_quiet ?_ hreply
  rcases hacc : xlateNow s x.vf x.asid va .write true with ⟨t, r⟩
  obtain rfl : r = .ok pa := by rw [hacc] at hok; exact hok
  have hret : accessRetried x va s = t := by rw [accessRetried, hacc]
  rw [hret] at hzero hwrite ⊢
  rcases hz : recordZeroed x t with ⟨u, bad⟩
  obtain rfl : bad = none := by rw [hz] at hzero; exact hzero
  rw [hz] at hwrite
  rcases hwr : writeRecord u x.faultCleared true with ⟨v, pinned, bad⟩
  obtain rfl : bad = none := by rw [hwr] at hwrite; exact hwrite
  have haway : x.place.isSome = false := by rw [hplace]; rfl
  have hlacks : (!x.unsaved) = false := by rw [hunsaved]; rfl
  unfold recordZeroed at hz
  unfold Warp.faultCleared at hwr
  simp only [retryStep, hx, hva, haway, Bool.false_eq_true, if_false, hacc, hlacks, hz, hwr]
  rfl

end

/-! ### Activation and eviction (R342-R345) -/

/-- The warp's place on a half, to which its activation brings it. -/
def placedOn (s : State) (x : Warp) (core half : Nat) : Warp :=
  { x with place := some { core := core, half := half, slot := freeSlot s core half }, arriving := true, leaving := false
           waitingSince := none, placedHot := x.regs.hotSet, regs := { x.regs with dorm := 0 } }

/-- The warp is resident with the registers that its record holds, and Foehn brings its windows in (R345). -/
def madeResident (w : Nat) (x : Warp) (r : Regs) (s : State) : State :=
  let r := { r with dorm := 0 }
  let y := { x with arriving := false, residentAt := s.clock, fresh := false, accDirty := false, regs := r }
  let s := s.setWarp w (y.addRefills ((activationSlots r).filter fun n => (r.v.find? n).isNone))
  applyHeld (if x.fresh then refresh s x.core (if x.node.isSome then .clus else .pod) else s) w

section
variable {s : State} {w cluster : Nat} {x : Warp}

theorem activate_some {core half : Nat} (hrank : firstRanked s cluster = some (w, x))
    (hhalf : halfFor s cluster x (fun _ => true) = some (core, half)) :
    activate cluster s = some (s.setWarp w (placedOn s x core half)) := by
  simp only [activate, hrank, hhalf]
  rfl

theorem activationDone_some {r : Regs} {acc : List Byte} (hx : s.warp? w = some x) (harr : x.arriving = true)
    (hregs : (readRegs s x).2 = .ok r) (hacc : (recordRead (readRegs s x).1 x 3648 (256 * r.nacc)).2 = .ok acc) :
    activationDone w s = some (madeResident w x (parseAcc r acc) (recordRead (readRegs s x).1 x 3648 (256 * r.nacc)).1) := by
  rcases hr : readRegs s x with ⟨t, res⟩
  rw [hr] at hregs hacc
  obtain rfl : res = .ok r := hregs
  rcases ha : recordRead t x 3648 (256 * r.nacc) with ⟨u, res⟩
  obtain rfl : res = .ok acc := by rw [ha] at hacc; exact hacc
  simp only [activationDone, hx, harr, Bool.not_true, Bool.false_eq_true, if_false, hr, ha]
  rfl

theorem startEviction_some {v : Nat} (hrank : firstRanked s cluster = some (w, x)) (hnow : halfFor s cluster x (fun _ => true) = none)
    (hlater : halfFor s cluster x (fun y => !y.leaving) = none) (hv : firstVictim (victims s cluster x) = some v) :
    startEviction cluster s = some (s.modWarp v fun y => { y with leaving := true }) := by
  simp only [startEviction, hrank, hnow, hlater, Option.isSome_none, Bool.or_self, Bool.false_eq_true, if_false, hv, Option.map_some]

theorem evictionDone_some (hx : s.warp? w = some x) (hleaving : x.leaving = true) (hev : evictable s w x = true) :
    evictionDone w s = some (commitEviction s w) := by
  simp only [evictionDone, hx, hleaving, hev, Bool.and_self, if_true]

/-- A warp is in no place. -/
def Unplaced (w : Nat) (s : State) : Prop := ∃ y, s.warp? w = some y ∧ y.place = none

theorem Unplaced.setWarp (s : State) {y : Warp} (h : y.place = none) : Unplaced w (s.setWarp w y) :=
  ⟨y, State.warp?_setWarp_self s w y, h⟩

theorem Unplaced.modWarp (h : Unplaced w s) {f : Warp → Warp} (hf : ∀ y, (f y).place = y.place) : Unplaced w (s.modWarp w f) := by
  obtain ⟨y, hy, hplace⟩ := h
  exact ⟨f y, by rw [State.warp?_modWarp_self, hy, Option.map_some], (hf y).trans hplace⟩

theorem Unplaced.addReport (h : Unplaced w s) (vf : Nat) (ring : RingKind) (slots : List (List Byte)) (n : Option Nat) :
    Unplaced w (addReport s vf ring slots n) := h

/-- A warp whose state goes to its record is dormant then, whether or not the record takes it (R344, R348). -/
theorem commitRecord_unplaced (hx : (s.warp? w).isSome = true) (dorm : BitVec 4) : Unplaced w (commitRecord s w dorm) := by
  obtain ⟨x, hx⟩ := Option.isSome_iff_exists.1 hx
  unfold commitRecord
  simp only [hx]
  split
  · exact Unplaced.setWarp _ rfl
  · exact (Unplaced.setWarp _ rfl).addReport ..

theorem commitEviction_unplaced (hx : s.warp? w = some x) : Unplaced w (commitEviction s w) := by
  have hsome : ((s.modRegs w fun r => { r with paths := r.paths.map fun q => (q.1, { q.2 with clause := none }) }).warp? w).isSome = true := by
    rw [State.warp?_modRegs_self, hx]
    rfl
  have hmoved := (commitRecord_unplaced hsome (dormReason x)).modWarp (f := fun x => { x with waitingSince := none }) fun _ => rfl
  unfold commitEviction
  simp only [hx]
  split
  · split
    · exact hmoved.addReport ..
    · exact hmoved
  · exact hmoved

end

/-! ### GAZETTEER_FILL (R47, R113) -/

/-- The fill is no longer in flight. -/
def fillTaken (k : Nat) (s : State) : State := { s with fills := s.fills.filter (·.k != k) }

/-- The entry of a line at its physical address, with its successor within the page. -/
def filledLine (f : GazFill) (s : State) (pa : Nat) : GazEntry :=
  { cluster := f.cluster, pid := f.pid, vf := f.vf, asid := f.asid, line := f.line
    bytes := s.bytes pa 64 ++ if f.line % 64 = 63 then List.replicate 64 0 else s.bytes (pa + 64) 64 }

/-- The Gazetteer holds the line in place of an older entry of it. -/
def lineFilled (f : GazFill) (pa : Nat) (s : State) : State :=
  { s with gaz := addGaz (s.gaz.filter fun g =>
      !(g.cluster == f.cluster && g.pid == f.pid && g.vf == f.vf && g.asid == f.asid && g.line == f.line)) (filledLine f s pa) }

theorem fillDone_some {s : State} {k pa : Nat} {f : GazFill} (hf : s.fills.find? (·.k == k) = some f)
    (hpa : (linePa (fillTaken k s) f.vf f.asid f.line).2 = some pa) :
    fillDone k s = some (lineFilled f pa (linePa (fillTaken k s) f.vf f.asid f.line).1) := by
  rcases hl : linePa (fillTaken k s) f.vf f.asid f.line with ⟨t, r⟩
  obtain rfl : r = some pa := by rw [hl] at hpa; exact hpa
  unfold fillTaken at hl
  simp only [fillDone, hf, hl]
  rfl

/-- Settles O36: each step is enabled by what the statement names, and makes the move that it names; a committed eviction leaves the warp in
no place, whether or not its record takes its state. -/
theorem foehnAndResidency : Obligations.FoehnAndResidency := by
  unfold Obligations.FoehnAndResidency
  refine ⟨?miss, ?allocated, ?refilled, ?spilled, ?marks, ?saves, ?activated, ?resident, ?leaves, ?committed, ?unplaced, ?filled⟩
  case miss => exact fun w p x q slots s ⟨hx, hq, hwait, hnext⟩ => runEvent_of_some (missStep_some hx hq hwait hnext)
  case allocated => exact fun w slot x s ⟨hf, hx, hnext, hheld⟩ => runEventFlip_of_some hf (refillStep_allocated hx hnext hheld)
  case refilled => exact fun w slot x row s ⟨hf, hx, hnext, hout, hrow⟩ => runEventFlip_of_some hf (refillStep_refilled hx hnext hout hrow)
  case spilled => exact fun w slot x s ⟨hf, hx, hnext, hwrite⟩ => runEventFlip_of_some hf (spillStep_spilled hx hnext hwrite)
  case marks => exact fun w x va pa s ⟨hf, hd, hsaved, hok⟩ => runEventFlip_of_some hf (retryReplied_marks hd hsaved hok)
  case saves =>
    exact fun w x va pa s ⟨hf, hd, hunsaved, hok, hzero, hwrite⟩ => runEventFlip_of_some hf (retryReplied_saves rfl hd hunsaved hok hzero hwrite)
  case activated => exact fun cluster w x core half s ⟨hrank, hhalf⟩ => runEvent_of_some (activate_some hrank hhalf)
  case resident => exact fun w x r acc s ⟨hf, hx, harr, hregs, hacc⟩ => runEventFlip_of_some hf (activationDone_some hx harr hregs hacc)
  case leaves => exact fun cluster w x v s ⟨hrank, hnow, hlater, hv⟩ => runEvent_of_some (startEviction_some hrank hnow hlater hv)
  case committed => exact fun w x s ⟨hf, hx, hleaving, hev⟩ => runEventFlip_of_some hf (evictionDone_some hx hleaving hev)
  case unplaced =>
    exact fun w x s ⟨hf, hx, hleaving, hev⟩ =>
      ⟨_, runEventFlip_of_some hf (evictionDone_some hx hleaving hev), commitEviction_unplaced hx⟩
  case filled => exact fun k f pa s ⟨hf, hfind, hpa⟩ => runEventFlip_of_some hf (fillDone_some hfind hpa)

end Sys2Proof.Machine
end

section
/-!
PROOF. Errors, links, power, limiters, slices, TDISP, SPDM and package reset (O46).
-/

namespace Sys2Proof.Machine

/-- With no page in flip, an input whose accesses are made at once takes effect (R291). -/
theorem runEventFlip_total {f : State → State} {s : State} (hf : s.flips = []) : runEventFlip (fun s => some (f s)) s = .next (f s) :=
  runEventFlip_of_some hf rfl

/-! ### Errors (R256, R292) -/

section
variable {s : State}

/-- An error in dirty register or accumulator state kills the warp's workgroup. -/
theorem uncorrectable_dirty {w : Nat} {x : Warp} (hx : s.warp? w = some x) :
    uncorrectable (.dirtyRegisterLine w) s = killWorkgroup s x.wg true ∧ uncorrectable (.accumulators w) s = killWorkgroup s x.wg true := by
  simp only [uncorrectable, hx, and_self]

/-- A dirty LLC line or DRAM poisons the four granules of the line. -/
theorem mem_poison_dirtyLlcOrDram (a g : Nat) :
    g ∈ (uncorrectable (.dirtyLlcOrDram a) s).poison ↔ g ∈ s.poison ∨ g / 4 = a / 64 := by
  have hgranules : g ∈ ((List.range 4).map fun i => a / 64 * 4 + i) ↔ g / 4 = a / 64 := by
    simp only [List.mem_map, List.mem_range]
    constructor
    · rintro ⟨i, hi, rfl⟩
      omega
    · exact fun h => ⟨g % 4, Nat.mod_lt _ (by decide), by omega⟩
  exact (NSet.mem_insertAll _ _ _).trans (or_congr_right hgranules)

/-! ### Links, power and limiters (R439, R458, R460) -/

/-- A port has a number of lanes in use. -/
def withLanes (p n : Nat) (s : State) : State := { s with pkg := { s.pkg with lanes := s.pkg.lanes.put 4 p n } }

theorem laneLoss_first {p : Nat} (hp : p < 36) (hall : s.pkg.lanes.get 4 p = 4) : laneLoss p 1 s = withLanes p 2 s := by
  simp [laneLoss, hp, hall, withLanes]

theorem laneLoss_second {p : Nat} (hp : p < 36) (hlost : s.pkg.lanes.get 4 p ≠ 4) : laneLoss p 1 s = withLanes p 0 s := by
  simp [laneLoss, hp, hlost, withLanes]

/-- The package draws a power, and its arithmetic clock runs at a rate in MHz. -/
def clockedAt (watts mhz : Nat) (s : State) : State := { s with pkg := { s.pkg with watts := watts, mhz := mhz } }

/-- Above the limit the clock goes down by 100 MHz, to 800 at the lowest. -/
theorem powerStep_down {w m : Nat} (h : s.pkg.limit < w) (hm : max 800 (s.pkg.mhz - 100) = m) : powerStep w s = clockedAt w m s := by
  simp only [powerStep, if_pos h, hm, clockedAt]

/-- Within the limit the clock goes up by 100 MHz, to 1,700 at the highest. -/
theorem powerStep_up {w m : Nat} (h : w ≤ s.pkg.limit) (hm : min 1700 (s.pkg.mhz + 100) = m) : powerStep w s = clockedAt w m s := by
  simp only [powerStep, if_neg (Nat.not_lt.2 h), hm, clockedAt]

/-- RATE of a VF's limiter in a cluster. -/
def limiterRate (c v : Nat) (s : State) : Nat := (s.sys.limits.get 0 (limitKey c v)).toNat % 2 ^ 16

/-- BURST of a VF's limiter in a cluster. -/
def limiterBurst (c v : Nat) (s : State) : Nat := (s.sys.limits.get 0 (limitKey c v)).toNat / 2 ^ 24 % 2 ^ 16

/-- The tokens of a limiter after RATE more, up to BURST. -/
def tokensFilled (c v : Nat) (s : State) : Nat :=
  let n := s.sys.tokens.get 0 (limitKey c v) + limiterRate c v s
  if n ≤ limiterBurst c v s then n else limiterBurst c v s

theorem refillBucket_eq (c v : Nat) :
    refillBucket c v s = { s with sys := { s.sys with tokens := s.sys.tokens.put 0 (limitKey c v) (tokensFilled c v s) } } := by
  have hmin : min (limiterBurst c v s) (s.sys.tokens.get 0 (limitKey c v) + limiterRate c v s) = tokensFilled c v s := by
    rw [min_comm, min_def]
    rfl
  rw [← hmin]
  rfl

/-! ### Ways of a slice (R28, R29) -/

/-- A slice's ways are within the limits: 8 of a kind and 12 in all. -/
def WaysFine (d st n r : Nat) : Prop := d < 4 ∧ st < 64 ∧ n ≤ 8 ∧ r ≤ 8 ∧ n + r ≤ 12

/-- A workgroup is resident in the cluster of a slice. -/
def sliceInUse (c : Nat) (s : State) : Bool := s.wgs.any fun g => g.2.cluster == c && !g.2.saved

section
variable {d st n r : Nat}

/-- What the setting is refused for is that the ways are not fine, or the slice is in use. -/
theorem waysRefused_iff :
    (4 ≤ d ∨ 64 ≤ st ∨ 8 < n ∨ 8 < r ∨ 12 < n + r ∨ sliceInUse (8 * d + st / 8) s = true)
      ↔ ¬WaysFine d st n r ∨ sliceInUse (8 * d + st / 8) s = true := by
  unfold WaysFine
  by_cases hused : sliceInUse (8 * d + st / 8) s = true
  · simp only [hused, or_true]
  · simp only [hused, Bool.false_eq_true, or_false]
    omega

theorem setWays_set (hfine : WaysFine d st n r) (hidle : sliceInUse (8 * d + st / 8) s = false) :
    setWays d st n r s
      = trimSlice { s with nearWays := s.nearWays.put 0 (64 * d + st) n, remoteWays := s.remoteWays.put 0 (64 * d + st) r } (64 * d + st) :=
  if_neg fun h => (waysRefused_iff.1 h).elim (· hfine) (by rw [hidle]; exact Bool.false_ne_true)

theorem setWays_refused (h : ¬WaysFine d st n r ∨ sliceInUse (8 * d + st / 8) s = true) : setWays d st n r s = s :=
  if_pos (waysRefused_iff.2 h)

end

/-! ### TDISP and SPDM (R435, R436, R463) -/

section
variable {f : Func}

/-- Locking an interface reports what it measures, and changes nothing else but the interface's state. -/
theorem moveInterface_locked :
    ((moveInterface s f .locked).func f).tdisp = .locked ∧ (moveInterface s f .locked).mem = s.mem
      ∧ (moveInterface s f .locked).warps = s.warps :=
  ⟨congrArg FuncRegs.tdisp (func_modFunc s f fun g => { g with tdisp := .locked }), rfl, rfl⟩

theorem moveInterface_run :
    ((moveInterface s f .run).func f).tdisp = .run ∧ (moveInterface s f .run).mem = s.mem ∧ (moveInterface s f .run).warps = s.warps :=
  ⟨congrArg FuncRegs.tdisp (func_modFunc s f fun g => { g with tdisp := .run }), rfl, rfl⟩

theorem tdispRequest_lock (h : (s.func f).tdisp = .unlocked) : tdispRequest f .lock s = moveInterface s f .locked := by
  simp only [tdispRequest, h]

theorem tdispRequest_start (h : (s.func f).tdisp = .locked) : tdispRequest f .start s = moveInterface s f .run := by
  simp only [tdispRequest, h]

theorem tdispRequest_stop (h : (s.func f).tdisp = .run ∨ (s.func f).tdisp = .locked ∨ (s.func f).tdisp = .error) :
    tdispRequest f .stop s = moveInterface s f .unlocked := by
  rcases h with h | h | h <;> simp only [tdispRequest, h]

/-- A lock of an interface that is not unlocked changes nothing. -/
theorem tdispRequest_lock_again (h : (s.func f).tdisp = .locked ∨ (s.func f).tdisp = .run ∨ (s.func f).tdisp = .error) :
    tdispRequest f .lock s = s := by
  rcases h with h | h | h <;> simp only [tdispRequest, h]

theorem msixWrite_locked {n : Nat} {v : BitVec 128} (h : (s.func f).tdisp = .locked ∨ (s.func f).tdisp = .run) :
    msixWrite f n v s = moveInterface s f .error := by
  rcases h with h | h <;> simp only [msixWrite, h]

theorem msixWrite_unlocked {n : Nat} {v : BitVec 128} (h : (s.func f).tdisp = .unlocked ∨ (s.func f).tdisp = .error) :
    msixWrite f n v s = s.modFunc f fun g => { g with msix := g.msix.put 0 n v } := by
  rcases h with h | h <;> simp only [msixWrite, h]

end

theorem spdmRequest_measurement {ld i : Nat} {m : List Byte} (h : measurement s i = some m) :
    spdmRequest ld (.getMeasurements i) s = s.emit (.report (m ++ Config.falconSign m)) := by
  simp only [spdmRequest, h]

/-- A session is kept, and its host's pages are no longer revoked (R437). -/
theorem spdmRequest_establish (ld : Nat) :
    ld ∈ (spdmRequest ld .establish s).pkg.sessions ∧ ld ∉ (spdmRequest ld .establish s).revoked ∧ (spdmRequest ld .establish s).mem = s.mem :=
  ⟨(NSet.mem_insert _ _ _).2 (.inl rfl), fun h => ((NSet.mem_erase _ _ _).1 h).2 rfl, rfl⟩

/-! ### Package reset (R461, R462) -/

/-- The warps of the firmware cores of the dies are added. -/
def coresStarted (b : BootInput) (core : Nat → Nat) (dies : List Nat) (s : State) : State :=
  dies.foldl (fun s d => { s.setWarp s.nextId (firmwareWarp d (core d) b.loadAddr) with nextId := s.nextId + 1 }) s

/-- Loading the body and starting the cores change memory, warps and the next number only. -/
theorem coresStarted_keeps {α : Type} (f : State → α) (hbyte : ∀ s a v, f (s.setByte a v) = f s)
    (hwarps : ∀ (s : State) ws n, f { s with warps := ws, nextId := n } = f s) (b : BootInput) (core : Nat → Nat) (dies : List Nat)
    (bs : List Byte) : f (coresStarted b core dies (s.setBytes b.loadAddr bs)) = f s :=
  (List.foldlRecOn (motive := fun t => f t = f (s.setBytes b.loadAddr bs)) dies _ rfl fun t ht _ _ => (hwarps t _ _).trans ht).trans
    (State.setCells_keeps f hbyte _ _)

/-- What firmware's set-up sets, and what it leaves as it was (R462 steps 4 to 6). -/
theorem setUp_spec (b : BootInput) (x : FirmwareImage) (ok : BitVec 4) :
    let t := setUp s b x ok
    t.pkg.ready = true ∧ t.pkg.recovery = s.pkg.recovery ∧ t.pkg.svn = x.svn ∧ t.wgs = s.wgs ∧ t.work = s.work ∧ t.cur = s.cur
      ∧ t.sys.grace = b.grace.toNat ∧ ∀ n, (t.personalities.get {} n).resident = decide (n < 3) := by
  have hkeep {α : Type} (f : State → α) (hbyte : ∀ s a v, f (s.setByte a v) = f s)
      (hwarps : ∀ (s : State) ws n, f { s with warps := ws, nextId := n } = f s) := coresStarted_keeps (s := s) f hbyte hwarps b
    (fun d => (passingCore b d).getD 0) ((List.range 4).filter ok.getLsbD) x.body
  have hpkg := hkeep (·.pkg.recovery) (fun _ _ _ => rfl) fun _ _ _ => rfl
  have hwgs := hkeep State.wgs (fun _ _ _ => rfl) fun _ _ _ => rfl
  have hwork := hkeep State.work (fun _ _ _ => rfl) fun _ _ _ => rfl
  have hcur := hkeep State.cur (fun _ _ _ => rfl) fun _ _ _ => rfl
  refine ⟨rfl, hpkg, rfl, hwgs, hwork, hcur, rfl, fun n => ?_⟩
  match n with
  | 0 | 1 | 2 => rfl
  | n + 3 => simp [setUp, SMap.get, SMap.find?_cons]

/-- The image that a reset boots: the one that waits for it, or the one it is given. -/
def bootImage (b : BootInput) (s : State) : FirmwareImage := firmwareImage (s.pkg.staged.getD b.image)

/-- The dies that accept the image of a reset. -/
def acceptingDies (b : BootInput) (s : State) : BitVec 4 :=
  BitVec.ofNat 4 ((List.range 4).foldl (fun n d => n + bit (dieCode b (bootImage b s) d == 0) * 2 ^ d) 0)

theorem packageReset_accepted (b : BootInput) (h : (acceptingDies b s).getLsbD 0 = true) :
    packageReset b s = setUp (resetPackage b s) b (bootImage b s) (acceptingDies b s) := if_pos h

theorem packageReset_refused (b : BootInput) (h : (acceptingDies b s).getLsbD 0 = false) :
    packageReset b s = { resetPackage b s with
      pkg := { (resetPackage b s).pkg with recovery := true, code := dieCode b (bootImage b s) 0 } } := if_neg (ne_true_of_eq_false h)

end

/-- Settles O46: each input has the effect that the statement names where its condition holds. -/
theorem errorsLinksPowerAndSecurity : Obligations.ErrorsLinksPowerAndSecurity := by
  unfold Obligations.ErrorsLinksPowerAndSecurity
  refine ⟨?cleanRegister, ?cleanCache, ?dirtyRegister, ?accumulators, ?nearStore, ?poisoned, ?firstLane, ?secondLane, ?retry, ?down, ?up,
    ?lowest, ?highest, ?refill, ?ways, ?refusedWays, ?failover, ?lock, ?start, ?stop, ?lockAgain, ?msixLocked, ?msix, ?measured, ?session,
    ?accepted, ?refused⟩
  case cleanRegister => exact fun a s hf => runEventFlip_total hf
  case cleanCache => exact fun a s hf => runEventFlip_total hf
  case dirtyRegister => exact fun w x s ⟨hf, hx⟩ => runEventFlip_of_some hf (congrArg some (uncorrectable_dirty hx).1)
  case accumulators => exact fun w x s ⟨hf, hx⟩ => runEventFlip_of_some hf (congrArg some (uncorrectable_dirty hx).2)
  case nearStore => exact fun h s hf => runEventFlip_total hf
  case poisoned => exact fun a s hf => ⟨_, runEventFlip_total hf, rfl, rfl, mem_poison_dirtyLlcOrDram a⟩
  case firstLane => exact fun p s ⟨hp, hall⟩ => congrArg Host.Outcome.next (laneLoss_first hp hall)
  case secondLane => exact fun p s ⟨hp, hlost⟩ => congrArg Host.Outcome.next (laneLoss_second hp hlost)
  case retry => exact fun p s _ => rfl
  case down => exact fun w s ⟨hover, hmhz⟩ => congrArg Host.Outcome.next (powerStep_down hover (by omega))
  case up => exact fun w s ⟨hwithin, hmhz⟩ => congrArg Host.Outcome.next (powerStep_up hwithin (by omega))
  case lowest => exact fun w s ⟨hover, hmhz⟩ => congrArg Host.Outcome.next (powerStep_down hover (by omega))
  case highest => exact fun w s ⟨hwithin, hmhz⟩ => congrArg Host.Outcome.next (powerStep_up hwithin (by omega))
  case refill => exact fun c v s _ => congrArg Host.Outcome.next (refillBucket_eq c v)
  case ways => exact fun d st n r s ⟨hfine, hidle⟩ => congrArg Host.Outcome.next (setWays_set hfine hidle)
  case refusedWays => exact fun d st n r s h => congrArg Host.Outcome.next (setWays_refused h)
  case failover => exact fun s _ => rfl
  case lock =>
    exact fun f s ⟨hf, hstate⟩ => ⟨_, runEventFlip_of_some hf (congrArg some (tdispRequest_lock hstate)), moveInterface_locked⟩
  case start => exact fun f s ⟨hf, hstate⟩ => ⟨_, runEventFlip_of_some hf (congrArg some (tdispRequest_start hstate)), moveInterface_run⟩
  case stop =>
    intro f s h
    obtain ⟨hf, hstate⟩ : s.flips = [] ∧ ((s.func f).tdisp = .run ∨ (s.func f).tdisp = .locked ∨ (s.func f).tdisp = .error) := by
      simpa only [← and_or_left] using h
    exact runEventFlip_of_some hf (congrArg some (tdispRequest_stop hstate))
  case lockAgain =>
    intro f s h
    obtain ⟨hf, hstate⟩ : s.flips = [] ∧ ((s.func f).tdisp = .locked ∨ (s.func f).tdisp = .run ∨ (s.func f).tdisp = .error) := by
      simpa only [← and_or_left] using h
    exact runEventFlip_of_some hf (congrArg some (tdispRequest_lock_again hstate))
  case msixLocked =>
    intro f n v s h
    obtain ⟨hf, hstate⟩ := and_or_left.2 h
    exact runEventFlip_of_some hf (congrArg some (msixWrite_locked hstate))
  case msix =>
    intro f n v s h
    obtain ⟨hf, hstate⟩ := and_or_left.2 h
    exact runEventFlip_of_some hf (congrArg some (msixWrite_unlocked hstate))
  case measured => exact fun ld i m s h => congrArg Host.Outcome.next (spdmRequest_measurement h)
  case session => exact fun ld s _ => ⟨_, rfl, spdmRequest_establish ld⟩
  case accepted =>
    intro b s h
    obtain ⟨hready, hrecovery, hsvn, hwgs, hwork, hcur, hgrace, hres⟩ :=
      setUp_spec (s := resetPackage b s) b (bootImage b s) (acceptingDies b s)
    exact ⟨_, congrArg Host.Outcome.next (packageReset_accepted b h), hready, hrecovery, hsvn, hwgs, hwork, hcur, hgrace, fun n _ => hres n⟩
  case refused => exact fun b s h => ⟨_, congrArg Host.Outcome.next (packageReset_refused b h), rfl, rfl, rfl, rfl, rfl⟩

end Sys2Proof.Machine
end
